-- ==== Sys2Proof/Word.lean ====
section
/-! DEFINITION. The words the SND3200's tables are written in: bytes, 32-bit register words, 64-bit counts, and
the index types of its fixed units (R3, R6, R11). -/

namespace Sys2Proof

/-- One byte of a store, of the Datum die or of a frame. -/
abbrev Byte := BitVec 8

/-- One 32-bit register word (R3, R362). -/
abbrev Word := BitVec 32

/-- One 64-bit count: Meridian TIME, a mark, a replay counter (R264). -/
abbrev Word64 := BitVec 64

/-- A 20-bit FDAC or ADC code (R73, R108). -/
abbrev Code := BitVec 20

/-- Slice number, and the number of the generator that serves it. -/
abbrev SliceId := Fin 32

/-- Group number, which is also its Traverse engine's number (R6). -/
abbrev GroupId := Fin 32

/-- Loop lane number. -/
abbrev LaneId := Fin 32

/-- Ring pair number, and the number of its capture channel (R366, R380). -/
abbrev RingId := Fin 32

/-- Kortor port: 0 KL0, 1 KL1. -/
abbrev PortId := Fin 2

/-- Node of the Kortor link: 0 the hub, 1 to 8 a remote. -/
abbrev NodeId := Fin 9

/-- Who makes a register or store access: each has latches of its own (R265, R314). -/
inductive Requester where
  /-- The host port (PCI Express). -/
  | host
  /-- The Surveyor port. -/
  | surveyor
  deriving DecidableEq, Repr

end Sys2Proof
end

