-- ==== Sys2Proof/Syntax.lean ====
section
/-! DEFINITION. The commands the block takes: one constructor of `Instr` per row of spec/opcode_table.json, in the
table's order, with the operands the spec's rule gives the row (the table itself lists no fields). An operand is
what comes from outside the block when the step happens: a written value, a sampled level, a converter's code,
the verdict of a cryptographic unit, the bytes of a frame. -/

namespace Sys2Proof

/-- What every command entry of a ring carries beside its payload (R368). `rsv` is the payload offset of the first
reserved byte or bit that is not zero, a byte beyond the opcode's payload included, 0xFF where it lies in the header;
none where all are zero (R379). -/
structure Hdr where
  ring  : RingId
  group : Byte
  flags : Byte
  tag   : BitVec 16
  rsv   : Option Byte
  deriving DecidableEq, Repr

/-- SET payload (R375). -/
structure SetP where
  mask     : Word
  value    : Word
  valueC   : Word
  mode     : Byte
  limitSet : Byte
  contour  : Byte
  at_      : Word64
  deriving DecidableEq, Repr

/-- RANGE payload (R151). -/
structure RangeP where
  irange : Byte
  vrange : Byte
  auto   : Byte
  mask   : Word
  deriving DecidableEq, Repr

/-- COEF_SELECT payload after OP (R203). `image` and `imageC` are the 16 bytes of each, little-endian. -/
structure CoefP where
  set    : Byte
  comp   : Byte
  field  : Byte
  mask   : Word
  image  : BitVec 128
  imageC : BitVec 128
  deriving DecidableEq, Repr

/-- CONTOUR_SET payload (R226). -/
structure ContourP where
  set    : Byte
  mask   : Word
  vel    : Word
  acc    : Word
  jerk   : Word
  imageC : BitVec 96
  deriving DecidableEq, Repr

/-- GEN_SET payload (R232). -/
structure GenP where
  profile : Byte
  flags   : Byte
  mask    : Word
  at_     : Word64
  deriving DecidableEq, Repr

/-- CAPTURE_ARM payload (R119). -/
structure ArmP where
  length : Word
  start  : Word64
  deriving DecidableEq, Repr

/-- LEG_START payload (R258). -/
structure StartP where
  leg : BitVec 16
  at_ : Word64
  deriving DecidableEq, Repr

/-- CALIBRATE payload after KIND (R328). -/
structure CalP where
  scope    : Byte
  flags    : Byte
  point    : Byte
  mask     : Word
  items    : BitVec 16
  range    : Byte
  standard : Word64
  deriving DecidableEq, Repr

/-- DATUM_COMMIT payload after TARGET (R333). -/
structure CommitP where
  source : Byte
  addr   : Word
  deriving DecidableEq, Repr

/-- BARRIER payload (R377). -/
structure BarrierP where
  ringMask  : Word
  timeoutUs : Word
  deriving DecidableEq, Repr

/-- A command of a ring with its payload: the opcodes of R373. A COMMAND frame carries one (R395). -/
inductive RingCmd where
  | set (p : SetP)
  | range (p : RangeP)
  | loopOpen (mask : Word)
  | loopClose (mask : Word)
  /-- `op` is the OP byte: 0 SELECT, 1 WRITE, 2 WRITE_ONE, others BAD_PARAM (R203). -/
  | coefSelect (op : Byte) (p : CoefP)
  | legStart (p : StartP)
  | legJump (leg : BitVec 16)
  | legStop (mode : Byte)
  | captureArm (p : ArmP)
  | genSet (p : GenP)
  | contourSet (p : ContourP)
  | park
  | unpark
  | calibrate (kind : Byte) (p : CalP)
  | datumCommit (target : Byte) (p : CommitP)
  | segmentReady (op segment : Byte)
  | barrier (p : BarrierP)
  | fence
  | reserved (opcode : Byte)
  deriving DecidableEq, Repr

/-- A completion entry (R369). -/
structure Cpl where
  tag      : BitVec 16
  status   : Nat
  phase    : Bool
  relayed  : Bool
  opcode   : Byte
  group    : Nat
  node     : Nat
  /-- Payload offset of the first faulty field, 0xFF for none. -/
  faultOff : Nat
  time     : Word64
  deriving DecidableEq, Repr

/-- A capture record, the four words of R116 as one 128-bit value. -/
abbrev Rec := BitVec 128

/-- A 64-bit fault message, field by field (R338). -/
structure Msg where
  source   : BitVec 10
  kind     : BitVec 6
  addr     : Word
  unit     : Byte
  injected : Bool
  deriving DecidableEq, Repr

/-- Where a comparator's input lies when it is armed, against its hysteresis band (R158). -/
inductive Side where
  | below | inside | above
  deriving DecidableEq, Repr

/-- A received frame's header as the port sees it (R392), with the verdicts of its CRC and CMAC units (R393). -/
structure Rx where
  port    : PortId
  crcOk   : Bool
  tagOk   : Bool
  /-- TYPE, VC, WORDS and direction match R394 and the reserved bits are zero. -/
  formOk  : Bool
  auth    : Bool
  key     : Fin 8
  dst     : BitVec 4
  src     : BitVec 4
  seq     : Byte
  ack     : Byte
  credit  : Byte
  counter : Word64
  deriving DecidableEq, Repr

/-- The HEARTBEAT payload (R395). `rxTime` is the receiver's TIME at the frame's first bit. -/
structure Beat where
  session    : Word64
  tTx        : Word64
  echoTx     : Word64
  echoRx     : Word64
  ack        : List Byte
  credit     : List Byte
  boot       : Bool
  nak        : Bool
  lanes      : BitVec 2
  restarted  : Bool
  node       : BitVec 4
  rxTime     : Word64
  deriving DecidableEq, Repr

/-- What a word on the die-to-die interface was (R5): an ADC word, an FDAC code, a range gate pattern, a comparator edge, a
threshold write, or a control write (the selection of the clamps' input). -/
inductive D2dWord where
  | adcV | adcIa | adcIb | fdacCode | rgPattern | comparatorEdge | threshold | control
  deriving DecidableEq, Repr

/-- The outside events that meet a waiting step's condition (R242). -/
inductive WaitEvent where
  /-- An active edge on TRIG_INk (WAIT 2 to 5). -/
  | trigger (k : Fin 4)
  /-- The doorbell (WAIT 6). -/
  | doorbell
  /-- A link trigger (WAIT 7). -/
  | link
  /-- The WIN event of the group's WIN_SLICE (WAIT 8). -/
  | win
  /-- The last engine of the barrier has arrived (WAIT 9). -/
  | barrier
  deriving DecidableEq, Repr

/-- The two jump sources with wires of their own (R255). -/
inductive JumpSource where
  | trigger (k : Fin 4)
  | comparator (n : SliceId)
  deriving DecidableEq, Repr

/-- What a command fetch read from host memory (R370, R379). -/
inductive FetchResult where
  /-- `n` entries were read without error. -/
  | ok (n : Nat)
  /-- The read completed with UR, CA, poisoned data or a completion timeout. -/
  | error
  deriving DecidableEq, Repr

/-- One scatter-list entry (R380). -/
structure SglEntry where
  addr  : Word64
  len   : Word
  rsvOk : Bool
  deriving DecidableEq, Repr

/-- A PCI Express configuration request (R52, R60, R365): a read, or a write that changes one capability's state. -/
inductive CfgReq where
  | read
  /-- PTM enable of the PTM capability (R280). -/
  | ptmEnable (on : Bool)
  /-- MSI-X enable and function mask. -/
  | msixControl (enable mask : Bool)
  /-- The power state of the Power Management capability: D3hot or D0. -/
  | powerState (d3 : Bool)
  /-- A write to a register whose state acts on nothing the manual describes. -/
  | otherWrite
  deriving DecidableEq, Repr

/-- What a calibration run measured (R329, R330): the first precondition that failed, as measured, with its slice; and the
changes found. A change names a slice, the byte offset of a field in a set record (R322), a divisor and a number: a GAIN
is multiplied by the ratio number ÷ divisor, any other field gains the number (R332). -/
structure CalResult where
  precond   : Option (Fin 8 × SliceId)
  changes   : List (SliceId × Nat × Nat × Int)
  deriving DecidableEq, Repr

/-- A write of SET_NOW (R266): with CANCEL, and with an edge of PPS_IN in the same cycle (R282). -/
structure SetNow where
  cancel  : Bool
  ppsEdge : Bool
  deriving DecidableEq, Repr

/-- A pulse of ENCn_Z (R272), with the levels of ENCn_A and ENCn_B where they change in the same cycle (R282). -/
structure ZPulse where
  enc  : Fin 2
  edge : Option (Bool × Bool)
  deriving DecidableEq, Repr

/-- A response to an unlock challenge (R428): PUBLIC_KEY and SIGNATURE as R18 encodes them. -/
structure Response where
  publicKey : List Byte
  signature : List Byte
  deriving DecidableEq, Repr

/-- The commands and events of the block, one per row of spec/opcode_table.json, in its order. -/
inductive Instr where
  -- start-up, lifecycle and power (R46 to R72)
  | resetNRise (bootsel : BitVec 2) (recoveryN : Bool)
  | bootPllLock
  | resetNLow
  /-- `clampHi` and `clampLo` give the clamps' inputs of the slices when step 6 arms them (R158), a missing entry
  standing for an input inside the band; `mons` the monitors' inputs: in the band of LO (below), of HI (above), or in
  neither (inside, and where an entry is missing). `temps` are the four octants' temperatures in 0.0625 °C at the first
  interpolation (R326); `refin`: REFIN is qualified when the CLOCK plate is applied, and `corr` the correction then measured
  (R290), in 2⁻⁴⁴. -/
  | atlasImageCheck (prim gold : List Byte) (clampHi clampLo mons : List Side) (temps : List (Option Int)) (refin : Bool)
      (corr : Int)
  /-- `failed` are the positions of the tiles of the system store that fail the pass (R47 step 8, R306). -/
  | bootResurveyPass (failed : List Nat)
  | release
  | atlasLoad
  | atlasPartial
  | partialDone
  | programKeyHash0
  | programKeyHash1
  | revokeKey0
  | revokeKey1
  | blowServiceFuse
  | lifecycleCommandDone
  | graveLatchClear
  | pwrfailNFall
  | pwrfailNRise
  | brownOut (rail : Fin 6)
  | interlockNFall
  | interlockNRise
  | perst
  | functionLevelReset
  -- sampling, lanes and the force path (R25, R73 to R106, R173 to R190)
  | sampleTick (g : GroupId)
  | laneComputation (n : SliceId) (v ia ib : Code)
  | dieToDieParityError (n : SliceId) (w : D2dWord)
  | fdacLatch (n : SliceId)
  | queueFlush (n : SliceId)
  | loadInEdge
  | loadInTimeout (g : GroupId)
  | parkRgSafe (n : SliceId)
  | parkComplete (n : SliceId)
  | inductiveRampEnd (n : SliceId)
  | unparkOutenLow (g : GroupId)
  | unparkClose (g : GroupId)
  | monitorSlot (n : SliceId) (reading : BitVec 18)
  | forceCfgWrite (n : SliceId) (v : Word)
  | pairedValueWrite (rq : Requester) (offset : Nat) (v : Word) (full : Bool)
  | pairedComplementWrite (rq : Requester) (offset : Nat) (v : Word) (full : Bool)
  -- measure path and capture (R107 to R130)
  | recordWindowClose (n : SliceId)
  | recCfgWrite (g : GroupId) (v : Word)
  | rowWrite
  | captureArm (h : Hdr) (p : ArmP)
  | capRegionWrite (g : GroupId) (size : Bool) (v : Word)
  | capRdWrite (g : GroupId) (v : Word)
  | measCfgWrite (n : SliceId) (v : Word)
  | corrArm (n : SliceId) (v : Word)
  | corrWindowOpen (n : SliceId)
  | corrWindowClose (n : SliceId)
  -- ranges and compliance (R131 to R155)
  | range (h : Hdr) (p : RangeP)
  | handoverPrepareEnd (n : SliceId)
  | handoverEnd (n : SliceId)
  | soloSwitchEnd (n : SliceId)
  | vrangeHoldEnd (n : SliceId)
  | rgPatternWrite (n : SliceId) (offset : Nat) (v : Word)
  | limReload (n : SliceId)
  | clampTrip (n : SliceId) (high : Bool)
  | clampAutoRelease (n : SliceId)
  | clampClear (n : SliceId)
  -- comparators and pre-regulator (R156 to R172)
  | winCrossing (n : SliceId) (above : Bool)
  | winCfgWrite (n : SliceId) (v : Word) (input : BitVec 12)
  | winSampledTick (n : SliceId) (value : BitVec 12)
  | smonTick (m : SliceId) (value : BitVec 12)
  | comparatorWrite (offset : Nat) (v : Word)
  | prgPeriodStart (n : SliceId) (cs : List (Nat × Int)) (vs : BitVec 12)
  | headroomTick (n : SliceId)
  | prgCfgWrite (n : SliceId) (v : Word)
  -- loop operation (R173 to R220)
  | laneParityError (l : LaneId)
  | laneRestoreDone (l : LaneId)
  | loopDivWrite (g : GroupId) (v : Word)
  | loopOuterWrite (n : SliceId) (v : Word)
  | outerTick (n : SliceId)
  | loopOpen (h : Hdr) (mask : Word)
  | loopOpenEffect (g : GroupId)
  | loopClose (h : Hdr) (mask : Word)
  | loopCloseEffect (g : GroupId)
  | coefSelectSelect (h : Hdr) (p : CoefP)
  | coefSelectWrite (h : Hdr) (p : CoefP)
  | coefSelectWriteOne (h : Hdr) (p : CoefP)
  | coefSwitch (n : SliceId)
  -- generators (R221 to R236) and SET
  | contourSet (h : Hdr) (p : ContourP)
  | genSet (h : Hdr) (p : GenP)
  | genSetEffect (g : GroupId)
  | genRegisterWrite (n : SliceId) (offset : Nat) (v : Word)
  | set (h : Hdr) (p : SetP)
  | setEffect (g : GroupId)
  -- Traverse (R237 to R263)
  | dwellBoundary (g : GroupId)
  | markReached (g : GroupId)
  | waitConditionMet (g : GroupId) (e : WaitEvent)
  | stepApply (g : GroupId)
  | waitTimeout (g : GroupId)
  | doorbell (g : GroupId)
  | prefetchRead (g : GroupId)
  | segmentReady (h : Hdr) (segment : Byte)
  | segmentReadyKeep (h : Hdr) (segment : Byte)
  | segmentFree (h : Hdr) (segment : Byte)
  | underrunResume (g : GroupId)
  | jumpRequest (g : GroupId) (src : JumpSource)
  | jumpWindowFilled (g : GroupId) (command : Bool)
  | jumpCfgWrite (g : GroupId) (v : Word)
  | legJump (h : Hdr) (leg : BitVec 16)
  | legStart (h : Hdr) (p : StartP)
  | legStartFirstStep (g : GroupId)
  | legStopNow (h : Hdr)
  | legStopAtBoundary (h : Hdr)
  -- Meridian (R264 to R287)
  | timeSetNow (w : SetNow)
  | timeSetPps (cancel : Bool)
  | timeCancel
  | ppsEdge
  | ppsLost
  | slewDecrement
  /-- New levels of ENCn_A and ENCn_B; `tooFast`: less than 10 ns after the edge before. -/
  | encoderEdge (e : Fin 2) (ab : Bool × Bool) (tooFast : Bool)
  | encoderZPulse (z : ZPulse)
  | encoderPreset (e : Fin 2)
  | serialPoll (e : Fin 2) (frame : BitVec 48) (stuck : Bool)
  | mainsCrossing
  | mainsLost
  | linkAxisLost
  /-- With INTERVAL_MS not 0 the timer's dialogue, else a write of REQUEST. -/
  | ptmRequest
  | ptmResponse (master : Word64) (propagation : Word)
  | ptmTimeout
  -- clocking (R288 to R300)
  | cleanerUpdate (phasePs : Int) (freqPpb : Int)
  | refinLost (range : Bool)
  | forceCoast (on : Bool)
  | refinRequalified (jumpPs : Int)
  | pllLocked (b : Bool)
  | standbyLockLost
  | activePllLockLost (stepPs : BitVec 16)
  | clockSwitch (stepPs : BitVec 16)
  | pllBothLost
  | runaway (ppb : Int)
  | xinLost
  -- memory (R301 to R318)
  | resurveyPaceTick
  | resurveyTestDone (failed : Bool)
  | scrubWrite (word : Nat) (stillBad : Bool)
  | repairCommit (ok : Bool)
  | exclusionWrite (rq : Requester) (e : Fin 8) (len : Bool) (v : Word)
  -- Datum (R319 to R337)
  | datumServiceRun (temps : List (Option Int))
  | datumRampStep
  | calibrateSelf (h : Hdr) (p : CalP)
  | calibrateExtRef (h : Hdr) (p : CalP)
  | calibrateExtRange (h : Hdr) (p : CalP)
  | calibrationDone (r : CalResult)
  | datumCommitUser (h : Hdr) (p : CommitP)
  | datumCommitFactory (h : Hdr) (p : CommitP)
  | datumCommitDone (readBackOk : Bool)
  -- faults (R338 to R359)
  | faultMessage (m : Msg)
  | graveWire (source : BitVec 10)
  | overflowSlotTake
  | blockResetEnd (target : BitVec 22)
  | faultClear (injBank : Bool) (w : Fin 32) (v : Word)
  | faultInject (v : Word)
  | irqRearm
  | watchdogKick
  | surveyorWatchdog
  | surveyorException
  | tempHigh
  | tempCritical
  -- host interface (R360 to R388)
  | cmdTailWrite (r : RingId) (v : Word)
  | commandFetch (r : RingId) (res : FetchResult)
  | reservedOpcode (h : Hdr) (opcode : Byte)
  | park (h : Hdr)
  | unpark (h : Hdr)
  | barrier (h : Hdr) (p : BarrierP)
  | barrierTimeout (r : RingId)
  | fence (h : Hdr)
  | ringCfgWrite (r : RingId) (v : Word)
  | cplHeadWrite (r : RingId) (v : Word)
  | captureStart (c : RingId) (list : Option (List SglEntry))
  | captureStop (c : RingId)
  | consumedWrite (c : RingId) (v : Word)
  | captureRecordWrite (c : RingId)
  | captureWriteback (c : RingId)
  | msiXSend (v : Fin 40)
  | pcieLinkDown
  | d3hotEntry
  | bar2Write (rq : Requester) (offset : Nat) (data : List Byte) (poisoned : Bool) (other : Option (Nat × List Byte))
  | registerWrite (rq : Requester) (offset : Nat) (v : Word) (full : Bool)
  -- Kortor link (R389 to R420)
  | commandFrame (rx : Rx) (ring : Byte) (index : Byte) (xfer : Word) (h : Hdr) (cmd : RingCmd) (keyBlock : Option (List Byte × Bool))
  | completionFrame (rx : Rx) (ring : Byte) (c : Cpl)
  | recordFrame (rx : Rx) (group : GroupId) (first : Word64) (records : List Rec)
  | stationDataFrame (rx : Rx) (addr : Word) (data : List Byte) (boot last : Bool)
  | timeSyncFrame (rx : Rx) (slewRate : BitVec 7) (second : Bool) (t : Word64) (rxTime : Word64)
  | timeStepFrame (rx : Rx) (t : Word64) (d : Word64)
  | timeAxisFrame (rx : Rx) (axis : Byte) (t : Word64) (v : Word64)
  | triggerFrame (rx : Rx) (engines : Word) (nodes : BitVec 16)
  | freezeFrame (rx : Rx) (origin : Byte)
  | faultFrame (rx : Rx) (m : Msg) (atlasError : Word) (state : Byte)
  | heartbeatFrame (rx : Rx) (b : Beat)
  | heartbeatSend (p : PortId)
  | timeSyncSend
  | axisSampleSend
  | retransmitTimeout (p : PortId) (vc : Fin 3)
  | partnerAbsent (p : PortId)
  | timeLinkLost
  | laneFailure (p : PortId) (lane : Fin 2)
  | portTrained (p : PortId) (session : Word64)
  | portRetrain (p : PortId)
  | portRelease (p : PortId)
  | quarantineEnd (p : PortId)
  | keyLoad (slot : Fin 8)
  | remoteKeySend (node : BitVec 4)
  | triggerSend (nodes : BitVec 9)
  | xferStart (node : BitVec 4) (boot last : Bool)
  | xferCountTimeout (r : RingId)
  -- freeze and readout (R421 to R430)
  | freezeNFall
  | jtagFreeze
  /-- `freezeN` is the level of FREEZE_N at the instruction. -/
  | jtagThaw (freezeN : Bool)
  | jtagStatus (freezeN : Bool)
  | scanSelect (chain : Byte)
  | scanRead
  | memSelect (addr : Word)
  | memRead
  | unlockChallenge
  | unlockResponse (keyIndex : Word) (r : Response)
  | unlockVerifyDone
  | extest (cells : List Bool)
  | samplePreload (cells : List Bool)
  | bypass (tdi : Bool)
  -- supplies, pins and host accesses the table lists last
  | powerOnReset
  | brownOutRelease (rail : Fin 6)
  | xinReturn
  | clampInputReturn (n : SliceId) (high : Bool)
  | laneRejoin (p : PortId) (lane : Fin 2)
  | perstDeassert
  | pcieLinkUp (speed : BitVec 3) (width : BitVec 5)
  | configurationRequest (q : CfgReq)
  | msiXUnmask (v : Option (Fin 40))
  | bar2Read (rq : Requester) (offset : Nat) (wide : Bool)
  | lowWordRead (rq : Requester) (offset : Nat)
  deriving DecidableEq, Repr

end Sys2Proof
end

