-- ==== Sys2Proof/Config.lean ====
section
/-! DEFINITION. What the spec leaves open: the free values, each an opaque constant applied to the index of the
next free value that the state holds (`Dev.freeCtr`), or to the operands it depends on. Nothing in Lean can see
what one is, so a claim holds for every value. DESIGN CHOICE, notes/assumptions/4.md names each. -/

namespace Sys2Proof

/-- Number of the SERVICE fuse's three bits already blown when a power failure cuts the blow short (R61). -/
opaque Config.serviceBitsBlown : Nat → BitVec 3

/-- The key-hash bits already blown when a power failure cuts their programming short (R61). -/
opaque Config.partialHash : Nat → BitVec 384 → BitVec 384

/-- The random number a challenge or a session value is made of (R399, R428). -/
opaque Config.random : Nat → BitVec 256

/-- SHA-384 of some bytes, and whether an ECDSA P-384 signature verifies under a public key over a digest: standards the spec names
and does not define (R18, R19). -/
opaque Config.sha384 : List Byte → BitVec 384
opaque Config.ecdsaOk : List Byte → BitVec 384 → List Byte → Bool

/-- What the read of a scatter list gives where a plain register write starts a capture channel: host memory is not the
device's (R380). -/
opaque Config.scatterList : Nat → Option (List SglEntry)

/-- The device identity the factory fused (R364). -/
opaque Config.uid : Word64

/-- The phases of a jerk-limited path planned in motion, in samples and with the signed jerk of each: the spec fixes the form
of the plan and leaves the scaling of its jerks open (R223). The operands are the state p, v, a, the target, the limits VEL,
ACC and JERK and the sample period, in that order. -/
opaque Config.contourPhases : List Int → List (Nat × Int)

/-- A stored word whose read found an uncorrectable error: what the reader is handed where the spec does not say. -/
opaque Config.corruptWord : Nat → Word

/-- Number of implementation bits of a scan chain, and each of them as it stands at a reading (R426). -/
opaque Config.implBits : Nat → BitVec 32
opaque Config.implBit : Nat → Nat → Nat → Bool

/-- Rounded interpolation or ratio results the manual gives no exact arithmetic for. -/
opaque Config.approx : Nat → List Int → Int

end Sys2Proof
end

