-- ==== Sys2Proof/Machine/Regs.lean ====
section
/-! DEFINITION. The BAR0 register file as the spec's register tables give it: for each register its offset in its
block, the bits a write stores (RW, PV, PC), the bits a one clears (W1C), the bits only written (WO) and the reset value, and
for each field its place. A field is named REGISTER_FIELD after the manual's REGISTER.FIELD. Offsets of GLOBAL,
ATLAS, CLOCK, MERIDIAN, FAULT, DATUM, MEMORY, HOST and LINK are absolute in BAR0 (R363); the others are
relative to their unit's block. A reset value of "A" (from the Atlas image), "pin", "strap", "fuse" or "latch"
stands as 0 here: DESIGN CHOICE, notes/assumptions/2.md. -/

namespace Sys2Proof.Machine

/-- A bit field of a register word (R3). -/
structure Fld where
  /-- Offset of the word in its block. -/
  off : Nat
  /-- Least significant bit. -/
  lo  : Nat
  /-- Width in bits. -/
  w   : Nat
  deriving DecidableEq, Repr

/-- One row of a register table: `cnt` words from `off`, `stride` bytes apart. -/
structure RegRow where
  off    : Nat
  cnt    : Nat
  stride : Nat
  rw     : Nat
  w1c    : Nat
  wo     : Nat
  reset  : Nat
  deriving DecidableEq, Repr

/-- Slice n's block (R363). -/
abbrev sliceBase (n : Nat) : Nat := 0x100000 + n * 0x10000
/-- Traverse engine g's block (R363). -/
abbrev travBase (g : Nat) : Nat := 0x400000 + g * 0x1000
/-- Generator n's block (R363). -/
abbrev genBase (n : Nat) : Nat := 0x500000 + n * 0x1000
/-- Sampled monitor m's 16 bytes (R172). -/
abbrev monBase (m : Nat) : Nat := 0x90000 + m * 16
/-- Meridian axis a's 64 bytes, a = 1 to 4 (R286). -/
abbrev axBase (a : Nat) : Nat := 0x30100 + 0x40 * (a - 1)
/-- Slice n's per-slice Datum record (R337). -/
abbrev calBase (n : Nat) : Nat := 0x50100 + 16 * n
/-- Ring pair r's registers (R387). -/
abbrev ringBase (r : Nat) : Nat := 0x70100 + 0x40 * r
/-- Capture channel c's registers (R388). -/
abbrev capBase (c : Nat) : Nat := 0x71000 + 0x40 * c
/-- Kortor port p's registers (R419). -/
abbrev portBase (p : Nat) : Nat := 0x80100 + 0x40 * p
/-- Node k's registers (R420). -/
abbrev nodeBase (k : Nat) : Nat := 0x80200 + 0x20 * k

/-- `ATLAS_STATUS` (R42). -/
abbrev ATLAS_STATUS : Nat := 0x10000
abbrev ATLAS_STATUS_SOURCE : Fld := ⟨0x10000, 0, 2⟩
abbrev ATLAS_STATUS_LOADED : Fld := ⟨0x10000, 2, 1⟩
abbrev ATLAS_STATUS_PARTIAL_BUSY : Fld := ⟨0x10000, 3, 1⟩
abbrev ATLAS_STATUS_PARTIAL_DONE : Fld := ⟨0x10000, 4, 1⟩
abbrev ATLAS_STATUS_KEY_INDEX : Fld := ⟨0x10000, 5, 1⟩
/-- `ATLAS_SEQ` (R43). -/
abbrev ATLAS_SEQ : Nat := 0x10004
/-- `ATLAS_ERROR` (R44). -/
abbrev ATLAS_ERROR : Nat := 0x10008
abbrev ATLAS_ERROR_CODE : Fld := ⟨0x10008, 0, 8⟩
abbrev ATLAS_ERROR_PLATE : Fld := ⟨0x10008, 8, 8⟩
abbrev ATLAS_ERROR_DETAIL : Fld := ⟨0x10008, 16, 16⟩
/-- `ATLAS_STAGE_ADDR` (R45). -/
abbrev ATLAS_STAGE_ADDR : Nat := 0x1000c
/-- `ATLAS_STAGE_LEN` (R45). -/
abbrev ATLAS_STAGE_LEN : Nat := 0x10010
/-- `ATLAS_CTRL` (R45). -/
abbrev ATLAS_CTRL : Nat := 0x10014
abbrev ATLAS_CTRL_LOAD : Fld := ⟨0x10014, 0, 1⟩
abbrev ATLAS_CTRL_PARTIAL : Fld := ⟨0x10014, 1, 1⟩

/-- `GLOBAL_STATUS` (R60). -/
abbrev GLOBAL_STATUS : Nat := 0x8
abbrev GLOBAL_STATUS_READY : Fld := ⟨0x8, 0, 1⟩
abbrev GLOBAL_STATUS_STATE : Fld := ⟨0x8, 1, 2⟩
abbrev GLOBAL_STATUS_BOOTSEL : Fld := ⟨0x8, 3, 2⟩
abbrev GLOBAL_STATUS_RECOVERY_STRAP : Fld := ⟨0x8, 5, 1⟩
abbrev GLOBAL_STATUS_PUSH_OPEN : Fld := ⟨0x8, 6, 1⟩
abbrev GLOBAL_STATUS_SERVICE_FUSED : Fld := ⟨0x8, 7, 1⟩
abbrev GLOBAL_STATUS_INTERLOCK : Fld := ⟨0x8, 8, 1⟩
abbrev GLOBAL_STATUS_PWRFAIL : Fld := ⟨0x8, 9, 1⟩
abbrev GLOBAL_STATUS_GRAVE_LATCH : Fld := ⟨0x8, 10, 1⟩
abbrev GLOBAL_STATUS_HOST_RESET_SEEN : Fld := ⟨0x8, 11, 1⟩
/-- `GLOBAL_BOOT_TIME` (R61). -/
abbrev GLOBAL_BOOT_TIME : Nat := 0xc
/-- `GLOBAL_PWR_CFG` (R61). -/
abbrev GLOBAL_PWR_CFG : Nat := 0x10
abbrev GLOBAL_PWR_CFG_HOLDUP_US : Fld := ⟨0x10, 0, 31⟩
/-- `GLOBAL_LIFECYCLE` (R61). -/
abbrev GLOBAL_LIFECYCLE : Nat := 0x14
abbrev GLOBAL_LIFECYCLE_RESULT : Fld := ⟨0x14, 0, 2⟩
/-- `GLOBAL_ID` (R364). -/
abbrev GLOBAL_ID : Nat := 0x0
/-- `GLOBAL_REV` (R364). -/
abbrev GLOBAL_REV : Nat := 0x4
abbrev GLOBAL_REV_METAL : Fld := ⟨0x4, 0, 8⟩
abbrev GLOBAL_REV_BASE : Fld := ⟨0x4, 8, 8⟩
/-- `GLOBAL_UID_LO` (R364). -/
abbrev GLOBAL_UID_LO : Nat := 0x18
/-- `GLOBAL_UID_HI` (R364). -/
abbrev GLOBAL_UID_HI : Nat := 0x1c
/-- `GLOBAL_ROLE` (R364). -/
abbrev GLOBAL_ROLE : Nat := 0x20
abbrev GLOBAL_ROLE_ROLE : Fld := ⟨0x20, 0, 1⟩
abbrev GLOBAL_ROLE_NODE : Fld := ⟨0x20, 1, 4⟩

/-- `SLICE_FORCE_CFG` (R97). -/
abbrev SLICE_FORCE_CFG : Nat := 0x0
abbrev SLICE_FORCE_CFG_DIRECT : Fld := ⟨0x0, 0, 1⟩
abbrev SLICE_FORCE_CFG_DIRECT_SRC : Fld := ⟨0x0, 1, 2⟩
abbrev SLICE_FORCE_CFG_GUARD_SRC : Fld := ⟨0x0, 3, 2⟩
abbrev SLICE_FORCE_CFG_GANG : Fld := ⟨0x0, 8, 2⟩
abbrev SLICE_FORCE_CFG_INDUCTIVE : Fld := ⟨0x0, 10, 1⟩
/-- `SLICE_FORCE_STATUS` (R98). -/
abbrev SLICE_FORCE_STATUS : Nat := 0x4
abbrev SLICE_FORCE_STATUS_CODE : Fld := ⟨0x4, 0, 20⟩
abbrev SLICE_FORCE_STATUS_MODE : Fld := ⟨0x4, 20, 2⟩
abbrev SLICE_FORCE_STATUS_HOLD : Fld := ⟨0x4, 22, 1⟩
abbrev SLICE_FORCE_STATUS_CLAMP_HOLD : Fld := ⟨0x4, 23, 1⟩
abbrev SLICE_FORCE_STATUS_PARKED : Fld := ⟨0x4, 24, 1⟩
abbrev SLICE_FORCE_STATUS_PARK_BUSY : Fld := ⟨0x4, 25, 1⟩
abbrev SLICE_FORCE_STATUS_OUTEN : Fld := ⟨0x4, 26, 1⟩
abbrev SLICE_FORCE_STATUS_PENDING : Fld := ⟨0x4, 27, 1⟩
/-- `SLICE_PARK_CODE_V` (R99). -/
abbrev SLICE_PARK_CODE_V : Nat := 0x8
abbrev SLICE_PARK_CODE_V_CODE : Fld := ⟨0x8, 0, 20⟩
/-- `SLICE_PARK_CODE_C` (R99). -/
abbrev SLICE_PARK_CODE_C : Nat := 0xc
/-- `SLICE_FDAC_WRITE_V` (R100). -/
abbrev SLICE_FDAC_WRITE_V : Nat := 0x10
abbrev SLICE_FDAC_WRITE_V_CODE : Fld := ⟨0x10, 0, 20⟩
/-- `SLICE_FDAC_WRITE_C` (R100). -/
abbrev SLICE_FDAC_WRITE_C : Nat := 0x14
/-- `SLICE_QUEUE_STATUS` (R101). -/
abbrev SLICE_QUEUE_STATUS : Nat := 0x18
abbrev SLICE_QUEUE_STATUS_DEPTH : Fld := ⟨0x18, 0, 5⟩
abbrev SLICE_QUEUE_STATUS_UNDERFLOW : Fld := ⟨0x18, 8, 1⟩
abbrev SLICE_QUEUE_STATUS_OVERFLOW : Fld := ⟨0x18, 9, 1⟩
abbrev SLICE_QUEUE_STATUS_FLUSH : Fld := ⟨0x18, 10, 1⟩
abbrev SLICE_QUEUE_STATUS_IRQ_EN : Fld := ⟨0x18, 11, 1⟩
/-- `SLICE_STROBE_CFG` (R102). -/
abbrev SLICE_STROBE_CFG : Nat := 0x1c
abbrev SLICE_STROBE_CFG_STROBE_COMP : Fld := ⟨0x1c, 0, 5⟩
abbrev SLICE_STROBE_CFG_STROBE_LATE : Fld := ⟨0x1c, 8, 1⟩
abbrev SLICE_STROBE_CFG_EXT : Fld := ⟨0x1c, 9, 1⟩
abbrev SLICE_STROBE_CFG_TIMEOUT_US : Fld := ⟨0x1c, 16, 16⟩
/-- `SLICE_OUTEN_CFG` (R103). -/
abbrev SLICE_OUTEN_CFG : Nat := 0x20
abbrev SLICE_OUTEN_CFG_OUTEN_DELAY : Fld := ⟨0x20, 0, 16⟩
/-- `SLICE_MON_CFG` (R104). -/
abbrev SLICE_MON_CFG : Nat := 0x24
abbrev SLICE_MON_CFG_WINDOW : Fld := ⟨0x24, 0, 16⟩
abbrev SLICE_MON_CFG_LAG : Fld := ⟨0x24, 16, 10⟩
abbrev SLICE_MON_CFG_COUNT : Fld := ⟨0x24, 26, 4⟩
/-- `SLICE_MON_READING` (R105). -/
abbrev SLICE_MON_READING : Nat := 0x28
abbrev SLICE_MON_READING_READING : Fld := ⟨0x28, 0, 18⟩
/-- `SLICE_MON_EXPECT` (R105). -/
abbrev SLICE_MON_EXPECT : Nat := 0x2c
abbrev SLICE_MON_EXPECT_EXPECT : Fld := ⟨0x2c, 0, 18⟩
/-- `SLICE_MON_STATUS` (R105). -/
abbrev SLICE_MON_STATUS : Nat := 0x30
abbrev SLICE_MON_STATUS_FAIL_RUN : Fld := ⟨0x30, 0, 4⟩
abbrev SLICE_MON_STATUS_LAST_FAIL : Fld := ⟨0x30, 4, 1⟩
abbrev SLICE_MON_STATUS_CHECKS : Fld := ⟨0x30, 16, 16⟩
/-- `SLICE_BAL_CFG` (R106). -/
abbrev SLICE_BAL_CFG : Nat := 0x34
abbrev SLICE_BAL_CFG_K_BAL : Fld := ⟨0x34, 0, 16⟩
abbrev SLICE_BAL_CFG_TRIM_MAX : Fld := ⟨0x34, 16, 14⟩
abbrev SLICE_BAL_CFG_IRQ_EN : Fld := ⟨0x34, 30, 1⟩
/-- `SLICE_BAL_TRIM` (R106). -/
abbrev SLICE_BAL_TRIM : Nat := 0x38
abbrev SLICE_BAL_TRIM_TRIM : Fld := ⟨0x38, 0, 20⟩
abbrev SLICE_BAL_TRIM_BAL_SAT : Fld := ⟨0x38, 31, 1⟩
/-- `SLICE_MEAS_CFG` (R128). -/
abbrev SLICE_MEAS_CFG : Nat := 0x100
abbrev SLICE_MEAS_CFG_IB_EN : Fld := ⟨0x100, 0, 1⟩
abbrev SLICE_MEAS_CFG_I_REC : Fld := ⟨0x100, 1, 2⟩
/-- `SLICE_MEAS_V` (R128). -/
abbrev SLICE_MEAS_V : Nat := 0x104
/-- `SLICE_MEAS_IA` (R128). -/
abbrev SLICE_MEAS_IA : Nat := 0x108
/-- `SLICE_MEAS_IB` (R128). -/
abbrev SLICE_MEAS_IB : Nat := 0x10c
/-- `SLICE_MEAS_RAW_V` (R128). -/
abbrev SLICE_MEAS_RAW_V : Nat := 0x110
/-- `SLICE_MEAS_RAW_IA` (R128). -/
abbrev SLICE_MEAS_RAW_IA : Nat := 0x114
/-- `SLICE_MEAS_RAW_IB` (R128). -/
abbrev SLICE_MEAS_RAW_IB : Nat := 0x118
/-- `SLICE_MEAS_STATUS` (R128). -/
abbrev SLICE_MEAS_STATUS : Nat := 0x11c
abbrev SLICE_MEAS_STATUS_OVR_V : Fld := ⟨0x11c, 0, 1⟩
abbrev SLICE_MEAS_STATUS_OVR_IA : Fld := ⟨0x11c, 1, 1⟩
abbrev SLICE_MEAS_STATUS_OVR_IB : Fld := ⟨0x11c, 2, 1⟩
abbrev SLICE_MEAS_STATUS_REFUSED : Fld := ⟨0x11c, 3, 1⟩
/-- `SLICE_REC_CFG` (R129). -/
abbrev SLICE_REC_CFG : Nat := 0x120
abbrev SLICE_REC_CFG_KIND : Fld := ⟨0x120, 0, 2⟩
abbrev SLICE_REC_CFG_D : Fld := ⟨0x120, 8, 24⟩
/-- `SLICE_REC_APERTURE` (R129). -/
abbrev SLICE_REC_APERTURE : Nat := 0x124
abbrev SLICE_REC_APERTURE_SRC : Fld := ⟨0x124, 0, 1⟩
abbrev SLICE_REC_APERTURE_K : Fld := ⟨0x124, 8, 8⟩
/-- `SLICE_REC_PERIOD` (R129). -/
abbrev SLICE_REC_PERIOD : Nat := 0x128
/-- `SLICE_REC_SETTLE` (R129). -/
abbrev SLICE_REC_SETTLE : Nat := 0x12c
abbrev SLICE_REC_SETTLE_SETTLE : Fld := ⟨0x12c, 0, 24⟩
/-- `SLICE_REC_CTRL` (R129). -/
abbrev SLICE_REC_CTRL : Nat := 0x130
abbrev SLICE_REC_CTRL_ENABLE : Fld := ⟨0x130, 0, 1⟩
abbrev SLICE_REC_CTRL_ARMED : Fld := ⟨0x130, 1, 1⟩
/-- `SLICE_REC_ARM_LEFT` (R129). -/
abbrev SLICE_REC_ARM_LEFT : Nat := 0x134
/-- `SLICE_CAP_BASE` (R129). -/
abbrev SLICE_CAP_BASE : Nat := 0x140
/-- `SLICE_CAP_SIZE` (R129). -/
abbrev SLICE_CAP_SIZE : Nat := 0x144
/-- `SLICE_CAP_WR` (R129). -/
abbrev SLICE_CAP_WR : Nat := 0x148
/-- `SLICE_CAP_RD` (R129). -/
abbrev SLICE_CAP_RD : Nat := 0x14c
/-- `SLICE_CAP_STATUS` (R129). -/
abbrev SLICE_CAP_STATUS : Nat := 0x150
abbrev SLICE_CAP_STATUS_FULL : Fld := ⟨0x150, 0, 1⟩
abbrev SLICE_CAP_STATUS_GAP_PENDING : Fld := ⟨0x150, 1, 1⟩
abbrev SLICE_CAP_STATUS_REFUSED : Fld := ⟨0x150, 2, 1⟩
/-- `SLICE_CAP_LOST` (R129). -/
abbrev SLICE_CAP_LOST : Nat := 0x154
/-- `SLICE_CORR_CTRL` (R130). -/
abbrev SLICE_CORR_CTRL : Nat := 0x160
abbrev SLICE_CORR_CTRL_ARM : Fld := ⟨0x160, 0, 1⟩
abbrev SLICE_CORR_CTRL_START : Fld := ⟨0x160, 1, 2⟩
abbrev SLICE_CORR_CTRL_SRC0 : Fld := ⟨0x160, 8, 3⟩
abbrev SLICE_CORR_CTRL_SRC1 : Fld := ⟨0x160, 12, 3⟩
abbrev SLICE_CORR_CTRL_IRQ_EN : Fld := ⟨0x160, 15, 1⟩
abbrev SLICE_CORR_CTRL_PERIODS : Fld := ⟨0x160, 16, 16⟩
/-- `SLICE_CORR_STATUS` (R130). -/
abbrev SLICE_CORR_STATUS : Nat := 0x164
abbrev SLICE_CORR_STATUS_BUSY : Fld := ⟨0x164, 0, 1⟩
abbrev SLICE_CORR_STATUS_DONE : Fld := ⟨0x164, 1, 1⟩
abbrev SLICE_CORR_STATUS_OVERLONG : Fld := ⟨0x164, 2, 1⟩
abbrev SLICE_CORR_STATUS_MARK_PASSED : Fld := ⟨0x164, 3, 1⟩
abbrev SLICE_CORR_STATUS_PERIODS_DONE : Fld := ⟨0x164, 16, 16⟩
/-- `SLICE_CORR_NSAMP` (R130). -/
abbrev SLICE_CORR_NSAMP : Nat := 0x168
/-- `SLICE_CORR0_I_LO` (R130). -/
abbrev SLICE_CORR0_I_LO : Nat := 0x170
/-- `SLICE_CORR0_I_HI` (R130). -/
abbrev SLICE_CORR0_I_HI : Nat := 0x174
/-- `SLICE_CORR0_Q_LO` (R130). -/
abbrev SLICE_CORR0_Q_LO : Nat := 0x178
/-- `SLICE_CORR0_Q_HI` (R130). -/
abbrev SLICE_CORR0_Q_HI : Nat := 0x17c
/-- `SLICE_CORR1_I_LO` (R130). -/
abbrev SLICE_CORR1_I_LO : Nat := 0x180
/-- `SLICE_CORR1_I_HI` (R130). -/
abbrev SLICE_CORR1_I_HI : Nat := 0x184
/-- `SLICE_CORR1_Q_LO` (R130). -/
abbrev SLICE_CORR1_Q_LO : Nat := 0x188
/-- `SLICE_CORR1_Q_HI` (R130). -/
abbrev SLICE_CORR1_Q_HI : Nat := 0x18c
/-- `SLICE_CORR_MARK_LO` (R130). -/
abbrev SLICE_CORR_MARK_LO : Nat := 0x190
/-- `SLICE_CORR_MARK_HI` (R130). -/
abbrev SLICE_CORR_MARK_HI : Nat := 0x194
/-- `SLICE_RANGE_CFG` (R152). -/
abbrev SLICE_RANGE_CFG : Nat := 0x200
abbrev SLICE_RANGE_CFG_AUTO_EN : Fld := ⟨0x200, 0, 1⟩
abbrev SLICE_RANGE_CFG_AR_MIN : Fld := ⟨0x200, 4, 4⟩
abbrev SLICE_RANGE_CFG_AR_MAX : Fld := ⟨0x200, 8, 4⟩
abbrev SLICE_RANGE_CFG_VHOLD : Fld := ⟨0x200, 12, 2⟩
abbrev SLICE_RANGE_CFG_OVERLAP : Fld := ⟨0x200, 16, 8⟩
/-- `SLICE_RANGE_TIMING` (R152). -/
abbrev SLICE_RANGE_TIMING : Nat := 0x204
abbrev SLICE_RANGE_TIMING_SW_TIME_NS : Fld := ⟨0x204, 0, 16⟩
abbrev SLICE_RANGE_TIMING_DOWN_COUNT : Fld := ⟨0x204, 16, 16⟩
/-- `SLICE_RANGE_THR` (R152). -/
abbrev SLICE_RANGE_THR : Nat := 0x208
abbrev SLICE_RANGE_THR_UP_THR : Fld := ⟨0x208, 0, 16⟩
abbrev SLICE_RANGE_THR_DOWN_THR : Fld := ⟨0x208, 16, 16⟩
/-- `SLICE_RANGE_MATCH` (R152). -/
abbrev SLICE_RANGE_MATCH : Nat := 0x20c
abbrev SLICE_RANGE_MATCH_MATCH_LIMIT : Fld := ⟨0x20c, 0, 16⟩
/-- `SLICE_RANGE_DELTA` (R152). -/
abbrev SLICE_RANGE_DELTA : Nat := 0x210
/-- `SLICE_RANGE_STATUS` (R153). -/
abbrev SLICE_RANGE_STATUS : Nat := 0x214
abbrev SLICE_RANGE_STATUS_IRANGE : Fld := ⟨0x214, 0, 4⟩
abbrev SLICE_RANGE_STATUS_APATH : Fld := ⟨0x214, 4, 1⟩
abbrev SLICE_RANGE_STATUS_STANDBY : Fld := ⟨0x214, 8, 4⟩
abbrev SLICE_RANGE_STATUS_VRANGE : Fld := ⟨0x214, 12, 4⟩
abbrev SLICE_RANGE_STATUS_TARGET : Fld := ⟨0x214, 16, 4⟩
abbrev SLICE_RANGE_STATUS_PHASE : Fld := ⟨0x214, 20, 3⟩
abbrev SLICE_RANGE_STATUS_VHOLD_ACTIVE : Fld := ⟨0x214, 23, 1⟩
abbrev SLICE_RANGE_STATUS_ABORTED : Fld := ⟨0x214, 24, 1⟩
abbrev SLICE_RANGE_STATUS_PATH_LOST : Fld := ⟨0x214, 25, 1⟩
abbrev SLICE_RANGE_STATUS_REFUSED : Fld := ⟨0x214, 26, 1⟩
/-- `SLICE_RANGE_COUNT` (R153). -/
abbrev SLICE_RANGE_COUNT : Nat := 0x218
abbrev SLICE_RANGE_COUNT_STEPS : Fld := ⟨0x218, 0, 16⟩
abbrev SLICE_RANGE_COUNT_ABORTS : Fld := ⟨0x218, 16, 16⟩
/-- `SLICE_RG_PAIR` (R154). -/
abbrev SLICE_RG_PAIR : Nat := 0x220
/-- `SLICE_RG_SOLO` (R154). -/
abbrev SLICE_RG_SOLO : Nat := 0x234
/-- `SLICE_RG_VOLT` (R154). -/
abbrev SLICE_RG_VOLT : Nat := 0x248
/-- `SLICE_RG_CFG` (R154). -/
abbrev SLICE_RG_CFG : Nat := 0x24c
abbrev SLICE_RG_CFG_VMASK : Fld := ⟨0x24c, 0, 8⟩
/-- `SLICE_RG_NOW` (R154). -/
abbrev SLICE_RG_NOW : Nat := 0x250
abbrev SLICE_RG_NOW_PATTERN : Fld := ⟨0x250, 0, 8⟩
/-- `SLICE_LIM_BASE` (R155). -/
abbrev SLICE_LIM_BASE : Nat := 0x260
/-- `SLICE_LIM_STATUS` (R155). -/
abbrev SLICE_LIM_STATUS : Nat := 0x264
abbrev SLICE_LIM_STATUS_ACTIVE : Fld := ⟨0x264, 0, 4⟩
abbrev SLICE_LIM_STATUS_REFUSED : Fld := ⟨0x264, 4, 1⟩
/-- `SLICE_CLAMP_CFG` (R155). -/
abbrev SLICE_CLAMP_CFG : Nat := 0x268
abbrev SLICE_CLAMP_CFG_MODE : Fld := ⟨0x268, 0, 2⟩
abbrev SLICE_CLAMP_CFG_RELEASE_NS : Fld := ⟨0x268, 16, 16⟩
/-- `SLICE_CLAMP_STATUS` (R155). -/
abbrev SLICE_CLAMP_STATUS : Nat := 0x26c
abbrev SLICE_CLAMP_STATUS_THR_HI : Fld := ⟨0x26c, 0, 12⟩
abbrev SLICE_CLAMP_STATUS_THR_LO : Fld := ⟨0x26c, 12, 12⟩
abbrev SLICE_CLAMP_STATUS_INPUT : Fld := ⟨0x26c, 24, 2⟩
abbrev SLICE_CLAMP_STATUS_HOLD : Fld := ⟨0x26c, 26, 1⟩
abbrev SLICE_CLAMP_STATUS_REFUSED : Fld := ⟨0x26c, 27, 1⟩
/-- `SLICE_CLAMP_CTRL` (R155). -/
abbrev SLICE_CLAMP_CTRL : Nat := 0x270
abbrev SLICE_CLAMP_CTRL_CLEAR : Fld := ⟨0x270, 0, 1⟩
abbrev SLICE_CLAMP_CTRL_LIM_RELOAD : Fld := ⟨0x270, 1, 1⟩
/-- `SLICE_CMP_HYST` (R170). -/
abbrev SLICE_CMP_HYST : Nat := 0x300
abbrev SLICE_CMP_HYST_HYST_HI : Fld := ⟨0x300, 0, 6⟩
abbrev SLICE_CMP_HYST_HYST_LO : Fld := ⟨0x300, 8, 6⟩
abbrev SLICE_CMP_HYST_HYST_WIN : Fld := ⟨0x300, 16, 6⟩
/-- `SLICE_CMP_FLAGS` (R170). -/
abbrev SLICE_CMP_FLAGS : Nat := 0x304
abbrev SLICE_CMP_FLAGS_HI_RISE : Fld := ⟨0x304, 0, 1⟩
abbrev SLICE_CMP_FLAGS_HI_FALL : Fld := ⟨0x304, 1, 1⟩
abbrev SLICE_CMP_FLAGS_LO_RISE : Fld := ⟨0x304, 2, 1⟩
abbrev SLICE_CMP_FLAGS_LO_FALL : Fld := ⟨0x304, 3, 1⟩
abbrev SLICE_CMP_FLAGS_PRG_RISE : Fld := ⟨0x304, 4, 1⟩
abbrev SLICE_CMP_FLAGS_PRG_FALL : Fld := ⟨0x304, 5, 1⟩
abbrev SLICE_CMP_FLAGS_WIN_RISE : Fld := ⟨0x304, 6, 1⟩
abbrev SLICE_CMP_FLAGS_WIN_FALL : Fld := ⟨0x304, 7, 1⟩
/-- `SLICE_CMP_STATUS` (R170). -/
abbrev SLICE_CMP_STATUS : Nat := 0x308
abbrev SLICE_CMP_STATUS_LEVEL : Fld := ⟨0x308, 0, 4⟩
abbrev SLICE_CMP_STATUS_WIN_STATE : Fld := ⟨0x308, 4, 2⟩
abbrev SLICE_CMP_STATUS_UNDEC_HI : Fld := ⟨0x308, 6, 1⟩
abbrev SLICE_CMP_STATUS_UNDEC_LO : Fld := ⟨0x308, 7, 1⟩
abbrev SLICE_CMP_STATUS_UNDEC_WIN : Fld := ⟨0x308, 8, 1⟩
abbrev SLICE_CMP_STATUS_REFUSED : Fld := ⟨0x308, 9, 1⟩
/-- `SLICE_WIN_CFG` (R170). -/
abbrev SLICE_WIN_CFG : Nat := 0x30c
abbrev SLICE_WIN_CFG_ENABLE : Fld := ⟨0x30c, 0, 1⟩
abbrev SLICE_WIN_CFG_MODE : Fld := ⟨0x30c, 1, 1⟩
abbrev SLICE_WIN_CFG_INPUT : Fld := ⟨0x30c, 2, 2⟩
abbrev SLICE_WIN_CFG_EDGE : Fld := ⟨0x30c, 4, 2⟩
abbrev SLICE_WIN_CFG_IRQ_EN : Fld := ⟨0x30c, 6, 1⟩
abbrev SLICE_WIN_CFG_TICK_US : Fld := ⟨0x30c, 16, 10⟩
/-- `SLICE_WIN_THR` (R170). -/
abbrev SLICE_WIN_THR : Nat := 0x310
abbrev SLICE_WIN_THR_THR_HI : Fld := ⟨0x310, 0, 12⟩
abbrev SLICE_WIN_THR_THR_LO : Fld := ⟨0x310, 16, 12⟩
/-- `SLICE_WIN_VALUE` (R170). -/
abbrev SLICE_WIN_VALUE : Nat := 0x314
abbrev SLICE_WIN_VALUE_VALUE : Fld := ⟨0x314, 0, 12⟩
/-- `SLICE_PRG_CFG` (R171). -/
abbrev SLICE_PRG_CFG : Nat := 0x320
abbrev SLICE_PRG_CFG_EN : Fld := ⟨0x320, 0, 1⟩
abbrev SLICE_PRG_CFG_PERIOD : Fld := ⟨0x320, 8, 12⟩
abbrev SLICE_PRG_CFG_SLOPE : Fld := ⟨0x320, 20, 8⟩
abbrev SLICE_PRG_CFG_FAULT_COUNT : Fld := ⟨0x320, 28, 4⟩
/-- `SLICE_PRG_LIMIT` (R171). -/
abbrev SLICE_PRG_LIMIT : Nat := 0x324
abbrev SLICE_PRG_LIMIT_CTRL_MAX : Fld := ⟨0x324, 0, 10⟩
abbrev SLICE_PRG_LIMIT_SOFT_STEP : Fld := ⟨0x324, 16, 10⟩
/-- `SLICE_PRG_HEAD_V` (R171). -/
abbrev SLICE_PRG_HEAD_V : Nat := 0x328
abbrev SLICE_PRG_HEAD_V_HEAD_SP : Fld := ⟨0x328, 0, 16⟩
abbrev SLICE_PRG_HEAD_V_HEAD_MIN : Fld := ⟨0x328, 16, 16⟩
/-- `SLICE_PRG_HEAD_C` (R171). -/
abbrev SLICE_PRG_HEAD_C : Nat := 0x32c
/-- `SLICE_PRG_LOOP` (R171). -/
abbrev SLICE_PRG_LOOP : Nat := 0x330
abbrev SLICE_PRG_LOOP_KP : Fld := ⟨0x330, 0, 16⟩
abbrev SLICE_PRG_LOOP_KI : Fld := ⟨0x330, 16, 16⟩
/-- `SLICE_PRG_RATE` (R171). -/
abbrev SLICE_PRG_RATE : Nat := 0x334
abbrev SLICE_PRG_RATE_M_H : Fld := ⟨0x334, 0, 12⟩
abbrev SLICE_PRG_RATE_RAIL_DIV : Fld := ⟨0x334, 16, 16⟩
/-- `SLICE_PRG_RCOMP` (R171). -/
abbrev SLICE_PRG_RCOMP : Nat := 0x338
abbrev SLICE_PRG_RCOMP_R_COMP : Fld := ⟨0x338, 0, 16⟩
/-- `SLICE_PRG_STATUS` (R171). -/
abbrev SLICE_PRG_STATUS : Nat := 0x33c
abbrev SLICE_PRG_STATUS_CTRL : Fld := ⟨0x33c, 0, 10⟩
abbrev SLICE_PRG_STATUS_RUNNING : Fld := ⟨0x33c, 10, 1⟩
abbrev SLICE_PRG_STATUS_SOFT : Fld := ⟨0x33c, 11, 1⟩
abbrev SLICE_PRG_STATUS_OVERCURRENT : Fld := ⟨0x33c, 12, 1⟩
abbrev SLICE_PRG_STATUS_HEADROOM_LOW : Fld := ⟨0x33c, 13, 1⟩
abbrev SLICE_PRG_STATUS_MAXDUTY : Fld := ⟨0x33c, 14, 1⟩
abbrev SLICE_PRG_STATUS_REFUSED : Fld := ⟨0x33c, 15, 1⟩
abbrev SLICE_PRG_STATUS_HEADROOM : Fld := ⟨0x33c, 16, 16⟩
/-- `SLICE_PRG_RAIL` (R171). -/
abbrev SLICE_PRG_RAIL : Nat := 0x340
abbrev SLICE_PRG_RAIL_CODE : Fld := ⟨0x340, 0, 12⟩
/-- `SLICE_LOOP_CFG` (R193). -/
abbrev SLICE_LOOP_CFG : Nat := 0x400
abbrev SLICE_LOOP_CFG_POLARITY : Fld := ⟨0x400, 0, 1⟩
abbrev SLICE_LOOP_CFG_OVR_NOPARK : Fld := ⟨0x400, 1, 1⟩
abbrev SLICE_LOOP_CFG_INJ_POINT : Fld := ⟨0x400, 2, 2⟩
abbrev SLICE_LOOP_CFG_INJ_EN : Fld := ⟨0x400, 4, 1⟩
abbrev SLICE_LOOP_CFG_HOLD_LIMIT : Fld := ⟨0x400, 8, 8⟩
abbrev SLICE_LOOP_CFG_OUTER_ADD : Fld := ⟨0x400, 16, 1⟩
abbrev SLICE_LOOP_CFG_OVERSUB : Fld := ⟨0x400, 17, 1⟩
abbrev SLICE_LOOP_CFG_AGILE : Fld := ⟨0x400, 18, 1⟩
/-- `SLICE_LOOP_STATUS` (R194). -/
abbrev SLICE_LOOP_STATUS : Nat := 0x404
abbrev SLICE_LOOP_STATUS_STATE : Fld := ⟨0x404, 0, 2⟩
abbrev SLICE_LOOP_STATUS_ACTIVE : Fld := ⟨0x404, 2, 1⟩
abbrev SLICE_LOOP_STATUS_HALF : Fld := ⟨0x404, 3, 1⟩
abbrev SLICE_LOOP_STATUS_COEF_SET : Fld := ⟨0x404, 4, 2⟩
abbrev SLICE_LOOP_STATUS_OUT_SAT : Fld := ⟨0x404, 6, 1⟩
abbrev SLICE_LOOP_STATUS_ERR_SAT : Fld := ⟨0x404, 7, 1⟩
abbrev SLICE_LOOP_STATUS_SP_CLIP : Fld := ⟨0x404, 8, 1⟩
abbrev SLICE_LOOP_STATUS_REFUSED : Fld := ⟨0x404, 9, 1⟩
abbrev SLICE_LOOP_STATUS_RESTORE : Fld := ⟨0x404, 10, 1⟩
abbrev SLICE_LOOP_STATUS_LANE : Fld := ⟨0x404, 11, 5⟩
abbrev SLICE_LOOP_STATUS_SLOT : Fld := ⟨0x404, 16, 2⟩
abbrev SLICE_LOOP_STATUS_LAST_CYCLES : Fld := ⟨0x404, 18, 6⟩
abbrev SLICE_LOOP_STATUS_LATE : Fld := ⟨0x404, 24, 8⟩
/-- `SLICE_LOOP_DIV` (R195). -/
abbrev SLICE_LOOP_DIV : Nat := 0x408
abbrev SLICE_LOOP_DIV_DIVIDER : Fld := ⟨0x408, 0, 16⟩
/-- `SLICE_LOOP_OUTER` (R195). -/
abbrev SLICE_LOOP_OUTER : Nat := 0x40c
abbrev SLICE_LOOP_OUTER_OUTER_M : Fld := ⟨0x40c, 0, 13⟩
abbrev SLICE_LOOP_OUTER_OUTER_PHASE : Fld := ⟨0x40c, 16, 12⟩
/-- `SLICE_LOOP_OUTMIN_V` (R196). -/
abbrev SLICE_LOOP_OUTMIN_V : Nat := 0x410
abbrev SLICE_LOOP_OUTMIN_V_OUT_MIN : Fld := ⟨0x410, 0, 20⟩
/-- `SLICE_LOOP_OUTMIN_C` (R196). -/
abbrev SLICE_LOOP_OUTMIN_C : Nat := 0x414
/-- `SLICE_LOOP_OUTMAX_V` (R196). -/
abbrev SLICE_LOOP_OUTMAX_V : Nat := 0x418
abbrev SLICE_LOOP_OUTMAX_V_OUT_MAX : Fld := ⟨0x418, 0, 20⟩
/-- `SLICE_LOOP_OUTMAX_C` (R196). -/
abbrev SLICE_LOOP_OUTMAX_C : Nat := 0x41c
/-- `SLICE_LOOP_XMARGIN_V` (R196). -/
abbrev SLICE_LOOP_XMARGIN_V : Nat := 0x420
abbrev SLICE_LOOP_XMARGIN_V_XMARGIN : Fld := ⟨0x420, 0, 20⟩
/-- `SLICE_LOOP_XMARGIN_C` (R196). -/
abbrev SLICE_LOOP_XMARGIN_C : Nat := 0x424
/-- `SLICE_COEF_BASE` (R197). -/
abbrev SLICE_COEF_BASE : Nat := 0x428
/-- `SLICE_LOOP_SP` (R197). -/
abbrev SLICE_LOOP_SP : Nat := 0x42c
/-- `SLICE_LOOP_ERR` (R197). -/
abbrev SLICE_LOOP_ERR : Nat := 0x430
abbrev SLICE_LOOP_ERR_E_MAIN : Fld := ⟨0x430, 0, 16⟩
abbrev SLICE_LOOP_ERR_E_LIMIT : Fld := ⟨0x430, 16, 16⟩
/-- `SLICE_LOOP_YM` (R197). -/
abbrev SLICE_LOOP_YM : Nat := 0x434
/-- `SLICE_LOOP_YL` (R197). -/
abbrev SLICE_LOOP_YL : Nat := 0x438
/-- `SLICE_LOOP_OVR` (R197). -/
abbrev SLICE_LOOP_OVR : Nat := 0x43c
abbrev SLICE_LOOP_OVR_OVERRUNS : Fld := ⟨0x43c, 0, 16⟩
abbrev SLICE_LOOP_OVR_RUN : Fld := ⟨0x43c, 16, 2⟩
/-- `SLICE_COEF_WSTATUS` (R216). -/
abbrev SLICE_COEF_WSTATUS : Nat := 0x500
abbrev SLICE_COEF_WSTATUS_REFUSED_WR : Fld := ⟨0x500, 0, 1⟩
abbrev SLICE_COEF_WSTATUS_AGILE_BUSY : Fld := ⟨0x500, 1, 1⟩
abbrev SLICE_COEF_WSTATUS_AGILE_NEXT : Fld := ⟨0x500, 2, 3⟩
abbrev SLICE_COEF_WSTATUS_PENDING_SET : Fld := ⟨0x500, 8, 2⟩
abbrev SLICE_COEF_WSTATUS_PENDING : Fld := ⟨0x500, 10, 1⟩
/-- `SLICE_OUTER_SP_V` (R217). -/
abbrev SLICE_OUTER_SP_V : Nat := 0x508
/-- `SLICE_OUTER_SP_C` (R217). -/
abbrev SLICE_OUTER_SP_C : Nat := 0x50c
/-- `SLICE_OUTER_LO_V` (R217). -/
abbrev SLICE_OUTER_LO_V : Nat := 0x510
/-- `SLICE_OUTER_LO_C` (R217). -/
abbrev SLICE_OUTER_LO_C : Nat := 0x514
/-- `SLICE_OUTER_HI_V` (R217). -/
abbrev SLICE_OUTER_HI_V : Nat := 0x518
/-- `SLICE_OUTER_HI_C` (R217). -/
abbrev SLICE_OUTER_HI_C : Nat := 0x51c
/-- `SLICE_OUTER_PV` (R218). -/
abbrev SLICE_OUTER_PV : Nat := 0x520
/-- `SLICE_OUTER_Y` (R218). -/
abbrev SLICE_OUTER_Y : Nat := 0x524
/-- `SLICE_OUTER_STATUS` (R218). -/
abbrev SLICE_OUTER_STATUS : Nat := 0x528
abbrev SLICE_OUTER_STATUS_E : Fld := ⟨0x528, 0, 16⟩
abbrev SLICE_OUTER_STATUS_STALE : Fld := ⟨0x528, 16, 1⟩
abbrev SLICE_OUTER_STATUS_PV_SAT : Fld := ⟨0x528, 17, 1⟩
abbrev SLICE_OUTER_STATUS_STALE_RUN : Fld := ⟨0x528, 24, 8⟩
/-- `SLICE_FB_CFG` (R219). -/
abbrev SLICE_FB_CFG : Nat := 0x530
abbrev SLICE_FB_CFG_FROZEN_EN : Fld := ⟨0x530, 0, 1⟩
abbrev SLICE_FB_CFG_FROZEN_MOVE : Fld := ⟨0x530, 8, 8⟩
/-- `SLICE_FB_STATUS` (R219). -/
abbrev SLICE_FB_STATUS : Nat := 0x534
abbrev SLICE_FB_STATUS_STALE_RUN : Fld := ⟨0x534, 0, 8⟩
abbrev SLICE_FB_STATUS_STALE_HOLD : Fld := ⟨0x534, 8, 1⟩
abbrev SLICE_FB_STATUS_FROZEN : Fld := ⟨0x534, 9, 1⟩
abbrev SLICE_FB_STATUS_REDUNDANT : Fld := ⟨0x534, 10, 1⟩
abbrev SLICE_FB_STATUS_FROZEN_RUN : Fld := ⟨0x534, 16, 9⟩
/-- `SLICE_TUNE_CFG` (R220). -/
abbrev SLICE_TUNE_CFG : Nat := 0x540
abbrev SLICE_TUNE_CFG_PAIR_REC : Fld := ⟨0x540, 0, 1⟩
abbrev SLICE_TUNE_CFG_RESP : Fld := ⟨0x540, 1, 3⟩

/-- `MON_CFG` (R172). -/
abbrev MON_CFG : Nat := 0x0
abbrev MON_CFG_TICK_US : Fld := ⟨0x0, 0, 10⟩
abbrev MON_CFG_HYST : Fld := ⟨0x0, 10, 6⟩
abbrev MON_CFG_IRQ_EN : Fld := ⟨0x0, 16, 1⟩
/-- `MON_THR` (R172). -/
abbrev MON_THR : Nat := 0x4
abbrev MON_THR_LO : Fld := ⟨0x4, 0, 12⟩
abbrev MON_THR_HI : Fld := ⟨0x4, 16, 12⟩
/-- `MON_STATUS` (R172). -/
abbrev MON_STATUS : Nat := 0x8
abbrev MON_STATUS_VALUE : Fld := ⟨0x8, 0, 12⟩
abbrev MON_STATUS_STATE : Fld := ⟨0x8, 12, 2⟩
abbrev MON_STATUS_UNDECIDED : Fld := ⟨0x8, 14, 1⟩
abbrev MON_STATUS_REFUSED : Fld := ⟨0x8, 15, 1⟩
abbrev MON_STATUS_RISE : Fld := ⟨0x8, 16, 1⟩
abbrev MON_STATUS_FALL : Fld := ⟨0x8, 17, 1⟩

/-- `GEN_CONTOUR_BASE` (R234). -/
abbrev GEN_CONTOUR_BASE : Nat := 0x0
/-- `GEN_CONTOUR_STATUS` (R234). -/
abbrev GEN_CONTOUR_STATUS : Nat := 0x4
abbrev GEN_CONTOUR_STATUS_SET : Fld := ⟨0x4, 0, 4⟩
abbrev GEN_CONTOUR_STATUS_BUSY : Fld := ⟨0x4, 4, 1⟩
abbrev GEN_CONTOUR_STATUS_PARK_RAMP : Fld := ⟨0x4, 5, 1⟩
abbrev GEN_CONTOUR_STATUS_REFUSED : Fld := ⟨0x4, 6, 1⟩
abbrev GEN_CONTOUR_STATUS_REPLANS : Fld := ⟨0x4, 16, 16⟩
/-- `GEN_CONTOUR_POS` (R234). -/
abbrev GEN_CONTOUR_POS : Nat := 0x8
/-- `GEN_CONTOUR_VEL` (R234). -/
abbrev GEN_CONTOUR_VEL : Nat := 0xc
/-- `GEN_CONTOUR_ACC` (R234). -/
abbrev GEN_CONTOUR_ACC : Nat := 0x10
/-- `GEN_CONTOUR_TARGET` (R234). -/
abbrev GEN_CONTOUR_TARGET : Nat := 0x14
/-- `GEN_PARK_VEL_V` (R234). -/
abbrev GEN_PARK_VEL_V : Nat := 0x20
/-- `GEN_PARK_VEL_C` (R234). -/
abbrev GEN_PARK_VEL_C : Nat := 0x24
/-- `GEN_PARK_ACC_V` (R234). -/
abbrev GEN_PARK_ACC_V : Nat := 0x28
/-- `GEN_PARK_ACC_C` (R234). -/
abbrev GEN_PARK_ACC_C : Nat := 0x2c
/-- `GEN_PARK_JERK_V` (R234). -/
abbrev GEN_PARK_JERK_V : Nat := 0x30
/-- `GEN_PARK_JERK_C` (R234). -/
abbrev GEN_PARK_JERK_C : Nat := 0x34
/-- `GEN_MODE` (R235). -/
abbrev GEN_MODE : Nat := 0x100
abbrev GEN_MODE_SHAPE : Fld := ⟨0x100, 0, 3⟩
abbrev GEN_MODE_NOISE : Fld := ⟨0x100, 3, 2⟩
abbrev GEN_MODE_ROUTE : Fld := ⟨0x100, 5, 2⟩
abbrev GEN_MODE_PROFILE : Fld := ⟨0x100, 8, 4⟩
/-- `GEN_FREQ_LO` (R235). -/
abbrev GEN_FREQ_LO : Nat := 0x104
/-- `GEN_FREQ_HI` (R235). -/
abbrev GEN_FREQ_HI : Nat := 0x108
abbrev GEN_FREQ_HI_FREQ : Fld := ⟨0x108, 0, 16⟩
/-- `GEN_PHASE0_LO` (R235). -/
abbrev GEN_PHASE0_LO : Nat := 0x10c
/-- `GEN_PHASE0_HI` (R235). -/
abbrev GEN_PHASE0_HI : Nat := 0x110
abbrev GEN_PHASE0_HI_PHASE0 : Fld := ⟨0x110, 0, 16⟩
/-- `GEN_AMPL` (R235). -/
abbrev GEN_AMPL : Nat := 0x114
/-- `GEN_OFFSET` (R235). -/
abbrev GEN_OFFSET : Nat := 0x118
/-- `GEN_NOISE_AMPL` (R235). -/
abbrev GEN_NOISE_AMPL : Nat := 0x11c
/-- `GEN_PHASE_LO` (R235). -/
abbrev GEN_PHASE_LO : Nat := 0x120
/-- `GEN_PHASE_HI` (R235). -/
abbrev GEN_PHASE_HI : Nat := 0x124
abbrev GEN_PHASE_HI_THETA : Fld := ⟨0x124, 0, 16⟩
/-- `GEN_VALUE` (R235). -/
abbrev GEN_VALUE : Nat := 0x128
/-- `GEN_STATUS` (R235). -/
abbrev GEN_STATUS : Nat := 0x12c
abbrev GEN_STATUS_PENDING : Fld := ⟨0x12c, 0, 1⟩
abbrev GEN_STATUS_REFUSED : Fld := ⟨0x12c, 1, 1⟩
abbrev GEN_STATUS_TABLE_ERR : Fld := ⟨0x12c, 2, 1⟩
abbrev GEN_STATUS_SAT : Fld := ⟨0x12c, 3, 1⟩
/-- `GEN_PROF_BASE` (R236). -/
abbrev GEN_PROF_BASE : Nat := 0x140
/-- `GEN_TABLE_BASE` (R236). -/
abbrev GEN_TABLE_BASE : Nat := 0x144
/-- `GEN_TABLE_LEN` (R236). -/
abbrev GEN_TABLE_LEN : Nat := 0x148
abbrev GEN_TABLE_LEN_LEN : Fld := ⟨0x148, 0, 17⟩
/-- `GEN_NOISE_SEED` (R236). -/
abbrev GEN_NOISE_SEED : Nat := 0x14c

/-- `TRAV_CTRL` (R261). -/
abbrev TRAV_CTRL : Nat := 0x0
abbrev TRAV_CTRL_DOORBELL : Fld := ⟨0x0, 0, 1⟩
abbrev TRAV_CTRL_SEG_IRQ_EN : Fld := ⟨0x0, 1, 1⟩
abbrev TRAV_CTRL_STATE_IRQ_EN : Fld := ⟨0x0, 2, 1⟩
/-- `TRAV_STATUS` (R261). -/
abbrev TRAV_STATUS : Nat := 0x4
abbrev TRAV_STATUS_STATE : Fld := ⟨0x4, 0, 3⟩
abbrev TRAV_STATUS_WAIT : Fld := ⟨0x4, 3, 4⟩
abbrev TRAV_STATUS_JUMP_PENDING : Fld := ⟨0x4, 7, 1⟩
abbrev TRAV_STATUS_DOORBELL_PENDING : Fld := ⟨0x4, 8, 1⟩
abbrev TRAV_STATUS_SEG_DONE : Fld := ⟨0x4, 9, 1⟩
abbrev TRAV_STATUS_LEG_EXIT : Fld := ⟨0x4, 10, 1⟩
abbrev TRAV_STATUS_SEGMENT : Fld := ⟨0x4, 16, 6⟩
/-- `TRAV_LEG_BASE` (R261). -/
abbrev TRAV_LEG_BASE : Nat := 0x8
/-- `TRAV_LEG` (R261). -/
abbrev TRAV_LEG : Nat := 0xc
abbrev TRAV_LEG_LEG : Fld := ⟨0xc, 0, 12⟩
/-- `TRAV_STEP` (R261). -/
abbrev TRAV_STEP : Nat := 0x10
abbrev TRAV_STEP_INDEX : Fld := ⟨0x10, 0, 20⟩
/-- `TRAV_PASS` (R261). -/
abbrev TRAV_PASS : Nat := 0x14
/-- `TRAV_DWELL` (R261). -/
abbrev TRAV_DWELL : Nat := 0x18
abbrev TRAV_DWELL_LEFT : Fld := ⟨0x18, 0, 24⟩
/-- `TRAV_WAIT_CFG` (R262). -/
abbrev TRAV_WAIT_CFG : Nat := 0x1c
abbrev TRAV_WAIT_CFG_WIN_SLICE : Fld := ⟨0x1c, 0, 5⟩
/-- `TRAV_JUMP_CFG` (R262). -/
abbrev TRAV_JUMP_CFG : Nat := 0x20
abbrev TRAV_JUMP_CFG_TRIG_EN : Fld := ⟨0x20, 0, 1⟩
abbrev TRAV_JUMP_CFG_TRIG_SEL : Fld := ⟨0x20, 1, 2⟩
abbrev TRAV_JUMP_CFG_CMP_EN : Fld := ⟨0x20, 3, 1⟩
abbrev TRAV_JUMP_CFG_CMP_SLICE : Fld := ⟨0x20, 4, 5⟩
abbrev TRAV_JUMP_CFG_TARGET : Fld := ⟨0x20, 16, 12⟩
/-- `TRAV_BARRIER` (R262). -/
abbrev TRAV_BARRIER : Nat := 0x24
/-- `TRAV_MARK_LO` (R262). -/
abbrev TRAV_MARK_LO : Nat := 0x28
/-- `TRAV_MARK_HI` (R262). -/
abbrev TRAV_MARK_HI : Nat := 0x2c
/-- `TRAV_LATE` (R263). -/
abbrev TRAV_LATE : Nat := 0x30
/-- `TRAV_SKIPPED` (R263). -/
abbrev TRAV_SKIPPED : Nat := 0x34
/-- `TRAV_UNDERRUN` (R263). -/
abbrev TRAV_UNDERRUN : Nat := 0x38
/-- `TRAV_FAULT` (R263). -/
abbrev TRAV_FAULT : Nat := 0x3c
abbrev TRAV_FAULT_KIND : Fld := ⟨0x3c, 0, 4⟩
abbrev TRAV_FAULT_INDEX : Fld := ⟨0x3c, 4, 20⟩
/-- `TRAV_SEG_STATE` (R263). -/
abbrev TRAV_SEG_STATE : Nat := 0x80
/-- `TRAV_SEG_KEEP0` (R263). -/
abbrev TRAV_SEG_KEEP0 : Nat := 0x90
/-- `TRAV_SEG_KEEP1` (R263). -/
abbrev TRAV_SEG_KEEP1 : Nat := 0x94

/-- `MER_TIME_LO` (R283). -/
abbrev MER_TIME_LO : Nat := 0x30000
/-- `MER_TIME_HI` (R283). -/
abbrev MER_TIME_HI : Nat := 0x30004
/-- `MER_EPOCH_LO` (R283). -/
abbrev MER_EPOCH_LO : Nat := 0x30008
/-- `MER_EPOCH_HI` (R283). -/
abbrev MER_EPOCH_HI : Nat := 0x3000c
/-- `MER_TIME_CTRL` (R283). -/
abbrev MER_TIME_CTRL : Nat := 0x30010
abbrev MER_TIME_CTRL_SET_NOW : Fld := ⟨0x30010, 0, 1⟩
abbrev MER_TIME_CTRL_SET_PPS : Fld := ⟨0x30010, 1, 1⟩
abbrev MER_TIME_CTRL_CANCEL : Fld := ⟨0x30010, 2, 1⟩
/-- `MER_TIME_STATUS` (R283). -/
abbrev MER_TIME_STATUS : Nat := 0x30014
abbrev MER_TIME_STATUS_SRC : Fld := ⟨0x30014, 0, 2⟩
abbrev MER_TIME_STATUS_TIME_SET : Fld := ⟨0x30014, 2, 1⟩
abbrev MER_TIME_STATUS_SET_PENDING : Fld := ⟨0x30014, 3, 1⟩
abbrev MER_TIME_STATUS_SLEWING : Fld := ⟨0x30014, 4, 1⟩
abbrev MER_TIME_STATUS_PPS_OK : Fld := ⟨0x30014, 5, 1⟩
abbrev MER_TIME_STATUS_STEPPED : Fld := ⟨0x30014, 6, 1⟩
abbrev MER_TIME_STATUS_OUTLIER : Fld := ⟨0x30014, 7, 1⟩
abbrev MER_TIME_STATUS_REFUSED : Fld := ⟨0x30014, 8, 1⟩
/-- `MER_OFFSET` (R283). -/
abbrev MER_OFFSET : Nat := 0x30018
/-- `MER_SLEW_LEFT` (R283). -/
abbrev MER_SLEW_LEFT : Nat := 0x3001c
/-- `MER_PPS_CFG` (R283). -/
abbrev MER_PPS_CFG : Nat := 0x30020
abbrev MER_PPS_CFG_DELAY_NS : Fld := ⟨0x30020, 0, 16⟩
abbrev MER_PPS_CFG_SLEW_RATE : Fld := ⟨0x30020, 16, 8⟩
abbrev MER_PPS_CFG_JUMP_POLICY : Fld := ⟨0x30020, 24, 1⟩
/-- `MER_STEP_AT_LO` (R283). -/
abbrev MER_STEP_AT_LO : Nat := 0x30024
/-- `MER_STEP_AT_HI` (R283). -/
abbrev MER_STEP_AT_HI : Nat := 0x30028
/-- `MER_STEP_SIZE_LO` (R283). -/
abbrev MER_STEP_SIZE_LO : Nat := 0x3002c
/-- `MER_STEP_SIZE_HI` (R283). -/
abbrev MER_STEP_SIZE_HI : Nat := 0x30030
/-- `MER_THAW_SKIP_LO` (R283). -/
abbrev MER_THAW_SKIP_LO : Nat := 0x30034
/-- `MER_THAW_SKIP_HI` (R283). -/
abbrev MER_THAW_SKIP_HI : Nat := 0x30038
/-- `MER_PTM_CTRL` (R284). -/
abbrev MER_PTM_CTRL : Nat := 0x30040
abbrev MER_PTM_CTRL_REQUEST : Fld := ⟨0x30040, 0, 1⟩
abbrev MER_PTM_CTRL_INTERVAL_MS : Fld := ⟨0x30040, 16, 10⟩
/-- `MER_PTM_STATUS` (R284). -/
abbrev MER_PTM_STATUS : Nat := 0x30044
abbrev MER_PTM_STATUS_VALID : Fld := ⟨0x30044, 0, 1⟩
abbrev MER_PTM_STATUS_NEW : Fld := ⟨0x30044, 1, 1⟩
abbrev MER_PTM_STATUS_FAILED : Fld := ⟨0x30044, 2, 1⟩
abbrev MER_PTM_STATUS_SEQ : Fld := ⟨0x30044, 16, 16⟩
/-- `MER_PTM_TIME_LO` (R284). -/
abbrev MER_PTM_TIME_LO : Nat := 0x30048
/-- `MER_PTM_TIME_HI` (R284). -/
abbrev MER_PTM_TIME_HI : Nat := 0x3004c
/-- `MER_PTM_HOST_LO` (R284). -/
abbrev MER_PTM_HOST_LO : Nat := 0x30050
/-- `MER_PTM_HOST_HI` (R284). -/
abbrev MER_PTM_HOST_HI : Nat := 0x30054
/-- `MER_LINK_CFG` (R284). -/
abbrev MER_LINK_CFG : Nat := 0x30058
abbrev MER_LINK_CFG_LINK_SRC : Fld := ⟨0x30058, 0, 2⟩
/-- `MER_IRQ_CFG` (R285). -/
abbrev MER_IRQ_CFG : Nat := 0x3005c
abbrev MER_IRQ_CFG_STEP_EN : Fld := ⟨0x3005c, 0, 1⟩
abbrev MER_IRQ_CFG_SLEW_EN : Fld := ⟨0x3005c, 1, 1⟩
abbrev MER_IRQ_CFG_PPS_EN : Fld := ⟨0x3005c, 2, 1⟩
abbrev MER_IRQ_CFG_AXIS_EN : Fld := ⟨0x3005c, 3, 1⟩
abbrev MER_IRQ_CFG_TIME_LINK_EN : Fld := ⟨0x3005c, 4, 1⟩
abbrev MER_IRQ_CFG_PTM_EN : Fld := ⟨0x3005c, 5, 1⟩
abbrev MER_IRQ_CFG_THAW_EN : Fld := ⟨0x3005c, 6, 1⟩
/-- `MER_IRQ_CAUSE` (R285). -/
abbrev MER_IRQ_CAUSE : Nat := 0x30060
abbrev MER_IRQ_CAUSE_CAUSE : Fld := ⟨0x30060, 0, 7⟩

/-- `MER_AX_LO` (R286). -/
abbrev MER_AX_LO : Nat := 0x0
/-- `MER_AX_HI` (R286). -/
abbrev MER_AX_HI : Nat := 0x4
/-- `MER_AX_POS` (R286). -/
abbrev MER_AX_POS : Nat := 0x8
/-- `MER_AX_CFG` (R286). -/
abbrev MER_AX_CFG : Nat := 0xc
abbrev MER_AX_CFG_DIR : Fld := ⟨0xc, 0, 1⟩
abbrev MER_AX_CFG_Z_EN : Fld := ⟨0xc, 1, 1⟩
abbrev MER_AX_CFG_PRESET : Fld := ⟨0xc, 2, 1⟩
abbrev MER_AX_CFG_POS_SHIFT : Fld := ⟨0xc, 3, 5⟩
abbrev MER_AX_CFG_LINK_DELAY : Fld := ⟨0xc, 8, 8⟩
abbrev MER_AX_CFG_POLL_US : Fld := ⟨0xc, 16, 10⟩
/-- `MER_AX_STATUS` (R286). -/
abbrev MER_AX_STATUS : Nat := 0x10
abbrev MER_AX_STATUS_ENABLED : Fld := ⟨0x10, 0, 1⟩
abbrev MER_AX_STATUS_LOST : Fld := ⟨0x10, 1, 1⟩
abbrev MER_AX_STATUS_ERROR : Fld := ⟨0x10, 2, 1⟩
abbrev MER_AX_STATUS_ZSEEN : Fld := ⟨0x10, 3, 1⟩
abbrev MER_AX_STATUS_INTERP_HELD : Fld := ⟨0x10, 4, 1⟩
abbrev MER_AX_STATUS_REFUSED : Fld := ⟨0x10, 5, 1⟩
abbrev MER_AX_STATUS_ERRORS : Fld := ⟨0x10, 16, 16⟩
/-- `MER_AX_RATE` (R286). -/
abbrev MER_AX_RATE : Nat := 0x14
/-- `MER_AX_SET_LO` (R286). -/
abbrev MER_AX_SET_LO : Nat := 0x18
/-- `MER_AX_SET_HI` (R286). -/
abbrev MER_AX_SET_HI : Nat := 0x1c

/-- `CLK_STATUS` (R299). -/
abbrev CLK_STATUS : Nat := 0x20000
abbrev CLK_STATUS_ACTIVE : Fld := ⟨0x20000, 0, 1⟩
abbrev CLK_STATUS_A_LOCKED : Fld := ⟨0x20000, 1, 1⟩
abbrev CLK_STATUS_B_LOCKED : Fld := ⟨0x20000, 2, 1⟩
abbrev CLK_STATUS_STANDBY_READY : Fld := ⟨0x20000, 3, 1⟩
abbrev CLK_STATUS_FALLBACK : Fld := ⟨0x20000, 4, 1⟩
abbrev CLK_STATUS_XIN_OK : Fld := ⟨0x20000, 5, 1⟩
abbrev CLK_STATUS_REF_PRESENT : Fld := ⟨0x20000, 6, 1⟩
abbrev CLK_STATUS_REF_QUALIFIED : Fld := ⟨0x20000, 7, 1⟩
abbrev CLK_STATUS_REF_LOCKED : Fld := ⟨0x20000, 8, 1⟩
abbrev CLK_STATUS_COASTING : Fld := ⟨0x20000, 9, 1⟩
abbrev CLK_STATUS_SWITCHED : Fld := ⟨0x20000, 10, 1⟩
abbrev CLK_STATUS_REBUILT : Fld := ⟨0x20000, 11, 1⟩
abbrev CLK_STATUS_REFUSED : Fld := ⟨0x20000, 12, 1⟩
abbrev CLK_STATUS_CLEANER_SRC : Fld := ⟨0x20000, 16, 2⟩
/-- `CLK_CTRL` (R299). -/
abbrev CLK_CTRL : Nat := 0x20004
abbrev CLK_CTRL_SWITCH : Fld := ⟨0x20004, 0, 1⟩
abbrev CLK_CTRL_FORCE_COAST : Fld := ⟨0x20004, 1, 1⟩
abbrev CLK_CTRL_IRQ_EN : Fld := ⟨0x20004, 2, 1⟩
/-- `CLK_CFG` (R299). -/
abbrev CLK_CFG : Nat := 0x20008
abbrev CLK_CFG_REFIN_FREQ : Fld := ⟨0x20008, 0, 2⟩
abbrev CLK_CFG_CLEANER_BW : Fld := ⟨0x20008, 16, 14⟩
/-- `CLK_QUAL` (R299). -/
abbrev CLK_QUAL : Nat := 0x2000c
abbrev CLK_QUAL_QUAL_MS : Fld := ⟨0x2000c, 0, 14⟩
/-- `CLK_CORR` (R300). -/
abbrev CLK_CORR : Nat := 0x20010
/-- `CLK_PHASE_ERR` (R300). -/
abbrev CLK_PHASE_ERR : Nat := 0x20014
/-- `CLK_REF_OFFSET` (R300). -/
abbrev CLK_REF_OFFSET : Nat := 0x20018
/-- `CLK_CORE_ERR` (R300). -/
abbrev CLK_CORE_ERR : Nat := 0x2001c
/-- `CLK_PLL_A` (R300). -/
abbrev CLK_PLL_A : Nat := 0x20020
abbrev CLK_PLL_A_BAND : Fld := ⟨0x20020, 0, 6⟩
abbrev CLK_PLL_A_SEARCHING : Fld := ⟨0x20020, 6, 1⟩
abbrev CLK_PLL_A_LOCKED : Fld := ⟨0x20020, 7, 1⟩
abbrev CLK_PLL_A_LOSSES : Fld := ⟨0x20020, 16, 16⟩
/-- `CLK_PLL_B` (R300). -/
abbrev CLK_PLL_B : Nat := 0x20024
abbrev CLK_PLL_B_BAND : Fld := ⟨0x20024, 0, 6⟩
abbrev CLK_PLL_B_SEARCHING : Fld := ⟨0x20024, 6, 1⟩
abbrev CLK_PLL_B_LOCKED : Fld := ⟨0x20024, 7, 1⟩
abbrev CLK_PLL_B_LOSSES : Fld := ⟨0x20024, 16, 16⟩
/-- `CLK_SWITCHES` (R300). -/
abbrev CLK_SWITCHES : Nat := 0x20028
abbrev CLK_SWITCHES_COUNT : Fld := ⟨0x20028, 0, 16⟩
abbrev CLK_SWITCHES_LAST_STEP_PS : Fld := ⟨0x20028, 16, 16⟩

/-- `MEM_RS_CFG` (R317). -/
abbrev MEM_RS_CFG : Nat := 0x60000
abbrev MEM_RS_CFG_PACE_US : Fld := ⟨0x60000, 0, 10⟩
abbrev MEM_RS_CFG_ENABLE : Fld := ⟨0x60000, 16, 1⟩
/-- `MEM_RS_STATUS` (R317). -/
abbrev MEM_RS_STATUS : Nat := 0x60004
abbrev MEM_RS_STATUS_TILE : Fld := ⟨0x60004, 0, 18⟩
abbrev MEM_RS_STATUS_BUSY : Fld := ⟨0x60004, 18, 1⟩
abbrev MEM_RS_STATUS_PATTERN : Fld := ⟨0x60004, 19, 1⟩
/-- `MEM_RS_PASS` (R317). -/
abbrev MEM_RS_PASS : Nat := 0x60008
/-- `MEM_RS_LATE` (R317). -/
abbrev MEM_RS_LATE : Nat := 0x6000c
/-- `MEM_RS_FAILS` (R317). -/
abbrev MEM_RS_FAILS : Nat := 0x60010
abbrev MEM_RS_FAILS_FAILS : Fld := ⟨0x60010, 0, 16⟩
abbrev MEM_RS_FAILS_RETESTS : Fld := ⟨0x60010, 16, 16⟩
/-- `MEM_EXCL_START` (R317). -/
abbrev MEM_EXCL_START : Nat := 0x60040
/-- `MEM_EXCL_LEN` (R317). -/
abbrev MEM_EXCL_LEN : Nat := 0x60044
/-- `MEM_ECC_COUNT` (R318). -/
abbrev MEM_ECC_COUNT : Nat := 0x60080
abbrev MEM_ECC_COUNT_CORRECTED : Fld := ⟨0x60080, 0, 16⟩
abbrev MEM_ECC_COUNT_UNCORR : Fld := ⟨0x60080, 16, 16⟩
/-- `MEM_ECC_ADDR` (R318). -/
abbrev MEM_ECC_ADDR : Nat := 0x60084
/-- `MEM_ECC_INFO` (R318). -/
abbrev MEM_ECC_INFO : Nat := 0x60088
abbrev MEM_ECC_INFO_BANK : Fld := ⟨0x60088, 0, 9⟩
abbrev MEM_ECC_INFO_UNCORR : Fld := ⟨0x60088, 9, 1⟩
abbrev MEM_ECC_INFO_READER : Fld := ⟨0x60088, 10, 3⟩
/-- `MEM_MBX_STATUS` (R318). -/
abbrev MEM_MBX_STATUS : Nat := 0x6008c
abbrev MEM_MBX_STATUS_COLLISIONS : Fld := ⟨0x6008c, 0, 16⟩
/-- `MEM_REPAIR_STATUS` (R318). -/
abbrev MEM_REPAIR_STATUS : Nat := 0x60090
abbrev MEM_REPAIR_STATUS_ENTRIES : Fld := ⟨0x60090, 0, 13⟩
abbrev MEM_REPAIR_STATUS_COMMIT_BUSY : Fld := ⟨0x60090, 13, 1⟩
abbrev MEM_REPAIR_STATUS_COMMIT_FAIL : Fld := ⟨0x60090, 14, 1⟩
abbrev MEM_REPAIR_STATUS_EXHAUSTED : Fld := ⟨0x60090, 15, 1⟩
abbrev MEM_REPAIR_STATUS_SEQ : Fld := ⟨0x60090, 16, 16⟩
/-- `MEM_STATUS` (R318). -/
abbrev MEM_STATUS : Nat := 0x60094
abbrev MEM_STATUS_REFUSED : Fld := ⟨0x60094, 0, 1⟩
/-- `MEM_SPARES` (R318). -/
abbrev MEM_SPARES : Nat := 0x60100

/-- `DATUM_STATUS` (R336). -/
abbrev DATUM_STATUS : Nat := 0x50000
abbrev DATUM_STATUS_BANK : Fld := ⟨0x50000, 0, 2⟩
abbrev DATUM_STATUS_VALID_F : Fld := ⟨0x50000, 2, 1⟩
abbrev DATUM_STATUS_VALID_A : Fld := ⟨0x50000, 3, 1⟩
abbrev DATUM_STATUS_VALID_B : Fld := ⟨0x50000, 4, 1⟩
abbrev DATUM_STATUS_COMMIT_BUSY : Fld := ⟨0x50000, 5, 1⟩
abbrev DATUM_STATUS_CAL_BUSY : Fld := ⟨0x50000, 6, 1⟩
abbrev DATUM_STATUS_DIRTY : Fld := ⟨0x50000, 7, 1⟩
abbrev DATUM_STATUS_RAMP_ACTIVE : Fld := ⟨0x50000, 8, 1⟩
abbrev DATUM_STATUS_REFUSED : Fld := ⟨0x50000, 9, 1⟩
/-- `DATUM_CFG` (R336). -/
abbrev DATUM_CFG : Nat := 0x50004
abbrev DATUM_CFG_RAMP_MS : Fld := ⟨0x50004, 0, 14⟩
abbrev DATUM_CFG_POINT_MS : Fld := ⟨0x50004, 16, 7⟩
/-- `DATUM_WORK_BASE` (R336). -/
abbrev DATUM_WORK_BASE : Nat := 0x50008
/-- `DATUM_SEQ` (R336). -/
abbrev DATUM_SEQ : Nat := 0x5000c
/-- `DATUM_CYCLES_F` (R336). -/
abbrev DATUM_CYCLES_F : Nat := 0x50010
/-- `DATUM_CYCLES_A` (R336). -/
abbrev DATUM_CYCLES_A : Nat := 0x50014
/-- `DATUM_CYCLES_B` (R336). -/
abbrev DATUM_CYCLES_B : Nat := 0x50018
/-- `DATUM_LAST` (R336). -/
abbrev DATUM_LAST : Nat := 0x5001c
abbrev DATUM_LAST_STATUS : Fld := ⟨0x5001c, 0, 4⟩
abbrev DATUM_LAST_PRECOND : Fld := ⟨0x5001c, 4, 4⟩
abbrev DATUM_LAST_SLICE : Fld := ⟨0x5001c, 8, 5⟩
/-- `DATUM_TEMP` (R336). -/
abbrev DATUM_TEMP : Nat := 0x50020
abbrev DATUM_TEMP_TEMP : Fld := ⟨0x50020, 0, 16⟩
abbrev DATUM_TEMP_SET_LO : Fld := ⟨0x50020, 16, 3⟩

/-- `DATUM_CAL_COUNT` (R337). -/
abbrev DATUM_CAL_COUNT : Nat := 0x0
/-- `DATUM_CAL_TIME_LO` (R337). -/
abbrev DATUM_CAL_TIME_LO : Nat := 0x8
/-- `DATUM_CAL_TIME_HI` (R337). -/
abbrev DATUM_CAL_TIME_HI : Nat := 0xc

/-- `FAULT_STATUS` (R356). -/
abbrev FAULT_STATUS : Nat := 0x40000
abbrev FAULT_STATUS_DEPTH : Fld := ⟨0x40000, 0, 7⟩
abbrev FAULT_STATUS_FULL_SEEN : Fld := ⟨0x40000, 7, 1⟩
abbrev FAULT_STATUS_ERR : Fld := ⟨0x40000, 8, 1⟩
abbrev FAULT_STATUS_CLEAR_REFUSED : Fld := ⟨0x40000, 9, 1⟩
abbrev FAULT_STATUS_INJ_PREEMPTED : Fld := ⟨0x40000, 10, 1⟩
abbrev FAULT_STATUS_LIVE_REFUSED : Fld := ⟨0x40000, 11, 1⟩
abbrev FAULT_STATUS_IRQ_ARMED : Fld := ⟨0x40000, 12, 1⟩
abbrev FAULT_STATUS_GRAVE : Fld := ⟨0x40000, 13, 1⟩
/-- `FAULT_CTRL` (R356). -/
abbrev FAULT_CTRL : Nat := 0x40004
abbrev FAULT_CTRL_LIVE : Fld := ⟨0x40004, 0, 1⟩
abbrev FAULT_CTRL_IRQ_REARM : Fld := ⟨0x40004, 1, 1⟩
/-- `FAULT_SUMMARY_REAL` (R356). -/
abbrev FAULT_SUMMARY_REAL : Nat := 0x40008
/-- `FAULT_SUMMARY_INJ` (R356). -/
abbrev FAULT_SUMMARY_INJ : Nat := 0x4000c
/-- `FAULT_WDOG` (R356). -/
abbrev FAULT_WDOG : Nat := 0x40038
abbrev FAULT_WDOG_PERIOD_US : Fld := ⟨0x40038, 0, 16⟩
abbrev FAULT_WDOG_KICK : Fld := ⟨0x40038, 16, 1⟩
/-- `FAULT_LAST_LO` (R357). -/
abbrev FAULT_LAST_LO : Nat := 0x40010
/-- `FAULT_LAST_HI` (R357). -/
abbrev FAULT_LAST_HI : Nat := 0x40014
/-- `FAULT_MERGED` (R357). -/
abbrev FAULT_MERGED : Nat := 0x40018
/-- `FAULT_CONSEQ` (R357). -/
abbrev FAULT_CONSEQ : Nat := 0x4001c
/-- `FAULT_INJECT_LO` (R357). -/
abbrev FAULT_INJECT_LO : Nat := 0x40020
/-- `FAULT_INJECT_HI` (R357). -/
abbrev FAULT_INJECT_HI : Nat := 0x40024
/-- `FAULT_ERR_SRC` (R357). -/
abbrev FAULT_ERR_SRC : Nat := 0x40028
abbrev FAULT_ERR_SRC_SOURCE : Fld := ⟨0x40028, 0, 10⟩
abbrev FAULT_ERR_SRC_VALID : Fld := ⟨0x40028, 31, 1⟩
/-- `FAULT_RESET_LAST` (R357). -/
abbrev FAULT_RESET_LAST : Nat := 0x4002c
abbrev FAULT_RESET_LAST_TARGET : Fld := ⟨0x4002c, 0, 22⟩
abbrev FAULT_RESET_LAST_REPEAT : Fld := ⟨0x4002c, 22, 1⟩
/-- `FAULT_RESET_COUNT` (R357). -/
abbrev FAULT_RESET_COUNT : Nat := 0x40030
abbrev FAULT_RESET_COUNT_RESETS : Fld := ⟨0x40030, 0, 16⟩
abbrev FAULT_RESET_COUNT_REPEATS : Fld := ⟨0x40030, 16, 16⟩
/-- `FAULT_DEP_COUNT` (R357). -/
abbrev FAULT_DEP_COUNT : Nat := 0x40034
abbrev FAULT_DEP_COUNT_COUNT : Fld := ⟨0x40034, 0, 11⟩
/-- `FAULT_REAL` (R358). -/
abbrev FAULT_REAL : Nat := 0x40100
/-- `FAULT_INJ` (R358). -/
abbrev FAULT_INJ : Nat := 0x40180
/-- `FAULT_CAUSE` (R358). -/
abbrev FAULT_CAUSE : Nat := 0x40200
/-- `FAULT_SRC` (R359). -/
abbrev FAULT_SRC : Nat := 0x41000
abbrev FAULT_SRC_CLASS : Fld := ⟨0x41000, 0, 2⟩
abbrev FAULT_SRC_IRQ : Fld := ⟨0x41000, 2, 1⟩
abbrev FAULT_SRC_TRAP : Fld := ⟨0x41000, 3, 1⟩
abbrev FAULT_SRC_BLOCK_RESET : Fld := ⟨0x41000, 4, 1⟩
abbrev FAULT_SRC_CHIP_RESET : Fld := ⟨0x41000, 5, 1⟩
abbrev FAULT_SRC_ERR_PIN : Fld := ⟨0x41000, 6, 1⟩
abbrev FAULT_SRC_SEEN : Fld := ⟨0x41000, 8, 2⟩
abbrev FAULT_SRC_PENDING : Fld := ⟨0x41000, 10, 1⟩
/-- `FAULT_DEP` (R359). -/
abbrev FAULT_DEP : Nat := 0x42000

/-- `HOST_STATUS` (R386). -/
abbrev HOST_STATUS : Nat := 0x70000
abbrev HOST_STATUS_REFUSED : Fld := ⟨0x70000, 0, 1⟩
abbrev HOST_STATUS_LATE_CPL : Fld := ⟨0x70000, 16, 16⟩
/-- `HOST_LINK` (R386). -/
abbrev HOST_LINK : Nat := 0x70004
abbrev HOST_LINK_SPEED : Fld := ⟨0x70004, 0, 3⟩
abbrev HOST_LINK_WIDTH : Fld := ⟨0x70004, 3, 5⟩
/-- `HOST_IRQ_HOLDOFF` (R386). -/
abbrev HOST_IRQ_HOLDOFF : Nat := 0x70008
abbrev HOST_IRQ_HOLDOFF_NS : Fld := ⟨0x70008, 0, 16⟩

/-- `HOST_RING_CFG` (R387). -/
abbrev HOST_RING_CFG : Nat := 0x0
abbrev HOST_RING_CFG_ENABLE : Fld := ⟨0x0, 0, 1⟩
abbrev HOST_RING_CFG_NODE : Fld := ⟨0x0, 1, 4⟩
abbrev HOST_RING_CFG_IRQ_EN : Fld := ⟨0x0, 5, 1⟩
abbrev HOST_RING_CFG_GROUP : Fld := ⟨0x0, 6, 5⟩
/-- `HOST_RING_STATUS` (R387). -/
abbrev HOST_RING_STATUS : Nat := 0x4
abbrev HOST_RING_STATUS_RUNNING : Fld := ⟨0x4, 0, 1⟩
abbrev HOST_RING_STATUS_ERR : Fld := ⟨0x4, 1, 2⟩
abbrev HOST_RING_STATUS_BARRIER_WAIT : Fld := ⟨0x4, 3, 1⟩
abbrev HOST_RING_STATUS_FENCE_WAIT : Fld := ⟨0x4, 4, 1⟩
abbrev HOST_RING_STATUS_IN_FLIGHT : Fld := ⟨0x4, 8, 8⟩
/-- `HOST_CMD_BASE_LO` (R387). -/
abbrev HOST_CMD_BASE_LO : Nat := 0x8
/-- `HOST_CMD_BASE_HI` (R387). -/
abbrev HOST_CMD_BASE_HI : Nat := 0xc
/-- `HOST_CMD_TAIL` (R387). -/
abbrev HOST_CMD_TAIL : Nat := 0x10
abbrev HOST_CMD_TAIL_TAIL : Fld := ⟨0x10, 0, 8⟩
/-- `HOST_CMD_HEAD` (R387). -/
abbrev HOST_CMD_HEAD : Nat := 0x14
abbrev HOST_CMD_HEAD_HEAD : Fld := ⟨0x14, 0, 8⟩
/-- `HOST_CPL_BASE_LO` (R387). -/
abbrev HOST_CPL_BASE_LO : Nat := 0x18
/-- `HOST_CPL_BASE_HI` (R387). -/
abbrev HOST_CPL_BASE_HI : Nat := 0x1c
/-- `HOST_CPL_TAIL` (R387). -/
abbrev HOST_CPL_TAIL : Nat := 0x20
abbrev HOST_CPL_TAIL_TAIL : Fld := ⟨0x20, 0, 8⟩
/-- `HOST_CPL_HEAD` (R387). -/
abbrev HOST_CPL_HEAD : Nat := 0x24
abbrev HOST_CPL_HEAD_HEAD : Fld := ⟨0x24, 0, 8⟩
/-- `HOST_RING_CAUSE` (R387). -/
abbrev HOST_RING_CAUSE : Nat := 0x28
abbrev HOST_RING_CAUSE_COMPLETION : Fld := ⟨0x28, 0, 1⟩
abbrev HOST_RING_CAUSE_CAPTURE : Fld := ⟨0x28, 1, 1⟩
abbrev HOST_RING_CAUSE_GROUP_EVENT : Fld := ⟨0x28, 2, 1⟩

/-- `HOST_CAP_CTRL` (R388). -/
abbrev HOST_CAP_CTRL : Nat := 0x0
abbrev HOST_CAP_CTRL_START : Fld := ⟨0x0, 0, 1⟩
abbrev HOST_CAP_CTRL_STOP : Fld := ⟨0x0, 1, 1⟩
/-- `HOST_CAP_STATUS` (R388). -/
abbrev HOST_CAP_STATUS : Nat := 0x4
abbrev HOST_CAP_STATUS_RUNNING : Fld := ⟨0x4, 0, 1⟩
abbrev HOST_CAP_STATUS_ERR_CAUSE : Fld := ⟨0x4, 1, 2⟩
abbrev HOST_CAP_STATUS_FULL : Fld := ⟨0x4, 3, 1⟩
/-- `HOST_SGL_BASE_LO` (R388). -/
abbrev HOST_SGL_BASE_LO : Nat := 0x8
/-- `HOST_SGL_BASE_HI` (R388). -/
abbrev HOST_SGL_BASE_HI : Nat := 0xc
/-- `HOST_SGL_COUNT` (R388). -/
abbrev HOST_SGL_COUNT : Nat := 0x10
abbrev HOST_SGL_COUNT_COUNT : Fld := ⟨0x10, 0, 13⟩
/-- `HOST_CAP_IRQ_BYTES` (R388). -/
abbrev HOST_CAP_IRQ_BYTES : Nat := 0x14
/-- `HOST_CAP_WRITTEN_LO` (R388). -/
abbrev HOST_CAP_WRITTEN_LO : Nat := 0x18
/-- `HOST_CAP_WRITTEN_HI` (R388). -/
abbrev HOST_CAP_WRITTEN_HI : Nat := 0x1c
/-- `HOST_CAP_CONSUMED_LO` (R388). -/
abbrev HOST_CAP_CONSUMED_LO : Nat := 0x20
/-- `HOST_CAP_CONSUMED_HI` (R388). -/
abbrev HOST_CAP_CONSUMED_HI : Nat := 0x24
/-- `HOST_CAP_WB_LO` (R388). -/
abbrev HOST_CAP_WB_LO : Nat := 0x28
/-- `HOST_CAP_WB_HI` (R388). -/
abbrev HOST_CAP_WB_HI : Nat := 0x2c

/-- `LINK_STATUS` (R417). -/
abbrev LINK_STATUS : Nat := 0x80000
abbrev LINK_STATUS_ROLE : Fld := ⟨0x80000, 0, 1⟩
abbrev LINK_STATUS_NODE : Fld := ⟨0x80000, 1, 4⟩
abbrev LINK_STATUS_RING : Fld := ⟨0x80000, 5, 1⟩
abbrev LINK_STATUS_UPSTREAM : Fld := ⟨0x80000, 6, 1⟩
abbrev LINK_STATUS_TURNED : Fld := ⟨0x80000, 7, 1⟩
abbrev LINK_STATUS_AUTH_REQUIRED : Fld := ⟨0x80000, 8, 1⟩
abbrev LINK_STATUS_REFUSED : Fld := ⟨0x80000, 9, 1⟩
/-- `LINK_CTRL` (R417). -/
abbrev LINK_CTRL : Nat := 0x80004
abbrev LINK_CTRL_IRQ_EN : Fld := ⟨0x80004, 0, 1⟩
/-- `LINK_TRIG_ENGINES` (R417). -/
abbrev LINK_TRIG_ENGINES : Nat := 0x80008
/-- `LINK_TRIG_CTRL` (R417). -/
abbrev LINK_TRIG_CTRL : Nat := 0x8000c
abbrev LINK_TRIG_CTRL_NODES : Fld := ⟨0x8000c, 0, 9⟩
abbrev LINK_TRIG_CTRL_SEND : Fld := ⟨0x8000c, 9, 1⟩
/-- `LINK_KEY_DATA` (R417). -/
abbrev LINK_KEY_DATA : Nat := 0x80010
/-- `LINK_KEY_CTRL` (R417). -/
abbrev LINK_KEY_CTRL : Nat := 0x80030
abbrev LINK_KEY_CTRL_SLOT : Fld := ⟨0x80030, 0, 3⟩
abbrev LINK_KEY_CTRL_LOAD : Fld := ⟨0x80030, 3, 1⟩
/-- `LINK_KEY_STATUS` (R417). -/
abbrev LINK_KEY_STATUS : Nat := 0x80034
abbrev LINK_KEY_STATUS_LOADED : Fld := ⟨0x80034, 0, 8⟩
abbrev LINK_KEY_STATUS_REFUSED : Fld := ⟨0x80034, 8, 1⟩
/-- `LINK_RKEY_DATA` (R418). -/
abbrev LINK_RKEY_DATA : Nat := 0x80040
/-- `LINK_RKEY_CTRL` (R418). -/
abbrev LINK_RKEY_CTRL : Nat := 0x80070
abbrev LINK_RKEY_CTRL_NODE : Fld := ⟨0x80070, 0, 4⟩
abbrev LINK_RKEY_CTRL_SEND : Fld := ⟨0x80070, 4, 1⟩
/-- `LINK_RKEY_STATUS` (R418). -/
abbrev LINK_RKEY_STATUS : Nat := 0x80074
abbrev LINK_RKEY_STATUS_BUSY : Fld := ⟨0x80074, 0, 1⟩
abbrev LINK_RKEY_STATUS_RESULT : Fld := ⟨0x80074, 1, 3⟩
/-- `LINK_XFER_SRC` (R418). -/
abbrev LINK_XFER_SRC : Nat := 0x80080
/-- `LINK_XFER_DST` (R418). -/
abbrev LINK_XFER_DST : Nat := 0x80084
/-- `LINK_XFER_LEN` (R418). -/
abbrev LINK_XFER_LEN : Nat := 0x80088
abbrev LINK_XFER_LEN_LEN : Fld := ⟨0x80088, 0, 25⟩
/-- `LINK_XFER_CTRL` (R418). -/
abbrev LINK_XFER_CTRL : Nat := 0x8008c
abbrev LINK_XFER_CTRL_START : Fld := ⟨0x8008c, 0, 1⟩
abbrev LINK_XFER_CTRL_NODE : Fld := ⟨0x8008c, 1, 4⟩
abbrev LINK_XFER_CTRL_BOOT : Fld := ⟨0x8008c, 5, 1⟩
abbrev LINK_XFER_CTRL_LAST : Fld := ⟨0x8008c, 6, 1⟩
/-- `LINK_XFER_STATUS` (R418). -/
abbrev LINK_XFER_STATUS : Nat := 0x80090
abbrev LINK_XFER_STATUS_BUSY : Fld := ⟨0x80090, 0, 1⟩
abbrev LINK_XFER_STATUS_DONE : Fld := ⟨0x80090, 1, 1⟩
abbrev LINK_XFER_STATUS_ERR : Fld := ⟨0x80090, 2, 2⟩

/-- `LINK_PORT_STATUS` (R419). -/
abbrev LINK_PORT_STATUS : Nat := 0x0
abbrev LINK_PORT_STATUS_LANES : Fld := ⟨0x0, 0, 2⟩
abbrev LINK_PORT_STATUS_UP : Fld := ⟨0x0, 2, 1⟩
abbrev LINK_PORT_STATUS_CALIBRATED : Fld := ⟨0x0, 3, 1⟩
abbrev LINK_PORT_STATUS_QUARANTINED : Fld := ⟨0x0, 4, 1⟩
abbrev LINK_PORT_STATUS_PARTNER_ABSENT : Fld := ⟨0x0, 5, 1⟩
abbrev LINK_PORT_STATUS_PARTNER_BOOT : Fld := ⟨0x0, 6, 1⟩
/-- `LINK_PORT_CTRL` (R419). -/
abbrev LINK_PORT_CTRL : Nat := 0x4
abbrev LINK_PORT_CTRL_RELEASE : Fld := ⟨0x4, 0, 1⟩
abbrev LINK_PORT_CTRL_RETRAIN : Fld := ⟨0x4, 1, 1⟩
/-- `LINK_PORT_CFG` (R419). -/
abbrev LINK_PORT_CFG : Nat := 0x8
abbrev LINK_PORT_CFG_TX_KEY : Fld := ⟨0x8, 0, 3⟩
/-- `LINK_PORT_HOP` (R419). -/
abbrev LINK_PORT_HOP : Nat := 0xc
abbrev LINK_PORT_HOP_D_PS : Fld := ⟨0xc, 0, 16⟩
/-- `LINK_PORT_AUTHFAIL` (R419). -/
abbrev LINK_PORT_AUTHFAIL : Nat := 0x10
/-- `LINK_PORT_RETX` (R419). -/
abbrev LINK_PORT_RETX : Nat := 0x14
/-- `LINK_PORT_CRCERR` (R419). -/
abbrev LINK_PORT_CRCERR : Nat := 0x18
/-- `LINK_PORT_MALFORMED` (R419). -/
abbrev LINK_PORT_MALFORMED : Nat := 0x1c

/-- `LINK_NODE_STATUS` (R420). -/
abbrev LINK_NODE_STATUS : Nat := 0x0
abbrev LINK_NODE_STATUS_STATE : Fld := ⟨0x0, 0, 2⟩
abbrev LINK_NODE_STATUS_PORT : Fld := ⟨0x0, 2, 1⟩
abbrev LINK_NODE_STATUS_HOPS : Fld := ⟨0x0, 3, 4⟩
abbrev LINK_NODE_STATUS_REJECTED : Fld := ⟨0x0, 7, 1⟩
/-- `LINK_NODE_ERR` (R420). -/
abbrev LINK_NODE_ERR : Nat := 0x4
/-- `LINK_NODE_FAULT_LO` (R420). -/
abbrev LINK_NODE_FAULT_LO : Nat := 0x8
/-- `LINK_NODE_FAULT_HI` (R420). -/
abbrev LINK_NODE_FAULT_HI : Nat := 0xc
/-- `LINK_NODE_XFER` (R420). -/
abbrev LINK_NODE_XFER : Nat := 0x10

/-- The register table of the Atlas registers. -/
def rowsAtlas : List RegRow :=
  [⟨0x10000, 1, 4, 0x0, 0x10, 0x0, 0x0⟩,
   ⟨0x10004, 1, 4, 0x0, 0x0, 0x0, 0x0⟩,
   ⟨0x10008, 1, 4, 0x0, 0x0, 0x0, 0x0⟩,
   ⟨0x1000c, 1, 4, 0xffffffff, 0x0, 0x0, 0x1000000⟩,
   ⟨0x10010, 1, 4, 0xffffffff, 0x0, 0x0, 0x0⟩,
   ⟨0x10014, 1, 4, 0x0, 0x0, 0x0, 0x0⟩]

/-- The register table of the Global registers. -/
def rowsGlobal : List RegRow :=
  [⟨0x8, 1, 4, 0x0, 0xc00, 0x0, 0x0⟩,
   ⟨0xc, 1, 4, 0x0, 0x0, 0x0, 0x0⟩,
   ⟨0x10, 1, 4, 0x7fffffff, 0x0, 0x0, 0x0⟩,
   ⟨0x14, 1, 4, 0x0, 0x0, 0x0, 0x0⟩,
   ⟨0x0, 1, 4, 0x0, 0x0, 0x0, 0x7a4e3200⟩,
   ⟨0x4, 1, 4, 0x0, 0x0, 0x0, 0xb00⟩,
   ⟨0x18, 1, 4, 0x0, 0x0, 0x0, 0x0⟩,
   ⟨0x1c, 1, 4, 0x0, 0x0, 0x0, 0x0⟩,
   ⟨0x20, 1, 4, 0x0, 0x0, 0x0, 0x0⟩]

/-- The register table of the Slice registers. -/
def rowsSlice : List RegRow :=
  [⟨0x0, 1, 4, 0x1f, 0x0, 0x0, 0x0⟩,
   ⟨0x4, 1, 4, 0x0, 0x0, 0x0, 0x1000000⟩,
   ⟨0x8, 1, 4, 0xfffff, 0x0, 0x0, 0x0⟩,
   ⟨0xc, 1, 4, 0xffffffff, 0x0, 0x0, 0xffffffff⟩,
   ⟨0x10, 1, 4, 0xfffff, 0x0, 0x0, 0x0⟩,
   ⟨0x14, 1, 4, 0xffffffff, 0x0, 0x0, 0xffffffff⟩,
   ⟨0x18, 1, 4, 0x800, 0x300, 0x0, 0x0⟩,
   ⟨0x1c, 1, 4, 0xffff001f, 0x100, 0x0, 0x0⟩,
   ⟨0x20, 1, 4, 0xffff, 0x0, 0x0, 0x3e8⟩,
   ⟨0x24, 1, 4, 0x3fffffff, 0x0, 0x0, 0x4c80140⟩,
   ⟨0x28, 1, 4, 0x0, 0x0, 0x0, 0x0⟩,
   ⟨0x2c, 1, 4, 0x0, 0x0, 0x0, 0x0⟩,
   ⟨0x30, 1, 4, 0x0, 0x0, 0x0, 0x0⟩,
   ⟨0x34, 1, 4, 0x7fffffff, 0x0, 0x0, 0x20000100⟩,
   ⟨0x38, 1, 4, 0x0, 0x80000000, 0x0, 0x0⟩,
   ⟨0x100, 1, 4, 0x7, 0x0, 0x0, 0x1⟩,
   ⟨0x104, 1, 4, 0x0, 0x0, 0x0, 0x0⟩,
   ⟨0x108, 1, 4, 0x0, 0x0, 0x0, 0x0⟩,
   ⟨0x10c, 1, 4, 0x0, 0x0, 0x0, 0x0⟩,
   ⟨0x110, 1, 4, 0x0, 0x0, 0x0, 0x0⟩] ++
  [⟨0x114, 1, 4, 0x0, 0x0, 0x0, 0x0⟩,
   ⟨0x118, 1, 4, 0x0, 0x0, 0x0, 0x0⟩,
   ⟨0x11c, 1, 4, 0x0, 0xf, 0x0, 0x0⟩,
   ⟨0x120, 1, 4, 0xffffff03, 0x0, 0x0, 0x100⟩,
   ⟨0x124, 1, 4, 0xff01, 0x0, 0x0, 0x101⟩,
   ⟨0x128, 1, 4, 0xffffffff, 0x0, 0x0, 0xf4240⟩,
   ⟨0x12c, 1, 4, 0xffffff, 0x0, 0x0, 0x0⟩,
   ⟨0x130, 1, 4, 0x1, 0x0, 0x0, 0x0⟩,
   ⟨0x134, 1, 4, 0x0, 0x0, 0x0, 0x0⟩,
   ⟨0x140, 1, 4, 0xffffffff, 0x0, 0x0, 0x0⟩,
   ⟨0x144, 1, 4, 0xffffffff, 0x0, 0x0, 0x0⟩,
   ⟨0x148, 1, 4, 0x0, 0x0, 0x0, 0x0⟩,
   ⟨0x14c, 1, 4, 0xffffffff, 0x0, 0x0, 0x0⟩,
   ⟨0x150, 1, 4, 0x0, 0x4, 0x0, 0x0⟩,
   ⟨0x154, 1, 4, 0x0, 0xffffffff, 0x0, 0x0⟩,
   ⟨0x160, 1, 4, 0xfffff706, 0x0, 0x0, 0x11500⟩,
   ⟨0x164, 1, 4, 0x0, 0x2, 0x0, 0x0⟩,
   ⟨0x168, 1, 4, 0x0, 0x0, 0x0, 0x0⟩,
   ⟨0x170, 1, 4, 0x0, 0x0, 0x0, 0x0⟩,
   ⟨0x174, 1, 4, 0x0, 0x0, 0x0, 0x0⟩] ++
  [⟨0x178, 1, 4, 0x0, 0x0, 0x0, 0x0⟩,
   ⟨0x17c, 1, 4, 0x0, 0x0, 0x0, 0x0⟩,
   ⟨0x180, 1, 4, 0x0, 0x0, 0x0, 0x0⟩,
   ⟨0x184, 1, 4, 0x0, 0x0, 0x0, 0x0⟩,
   ⟨0x188, 1, 4, 0x0, 0x0, 0x0, 0x0⟩,
   ⟨0x18c, 1, 4, 0x0, 0x0, 0x0, 0x0⟩,
   ⟨0x190, 1, 4, 0xffffffff, 0x0, 0x0, 0x0⟩,
   ⟨0x194, 1, 4, 0xffffffff, 0x0, 0x0, 0x0⟩,
   ⟨0x200, 1, 4, 0xff3ff1, 0x0, 0x0, 0x103900⟩,
   ⟨0x204, 1, 4, 0xffffffff, 0x0, 0x0, 0x4007d0⟩,
   ⟨0x208, 1, 4, 0xffffffff, 0x0, 0x0, 0x147bf333⟩,
   ⟨0x20c, 1, 4, 0xffff, 0x0, 0x0, 0x148⟩,
   ⟨0x210, 1, 4, 0x0, 0x0, 0x0, 0x0⟩,
   ⟨0x214, 1, 4, 0x0, 0x5000000, 0x0, 0x0⟩,
   ⟨0x218, 1, 4, 0x0, 0x0, 0x0, 0x0⟩,
   ⟨0x220, 4, 4, 0xffffffff, 0x0, 0x0, 0x0⟩,
   ⟨0x230, 1, 4, 0xffff, 0x0, 0x0, 0x0⟩,
   ⟨0x234, 5, 4, 0xffffffff, 0x0, 0x0, 0x0⟩,
   ⟨0x248, 1, 4, 0xffffffff, 0x0, 0x0, 0x0⟩,
   ⟨0x24c, 1, 4, 0xff, 0x0, 0x0, 0x0⟩,
   ⟨0x250, 1, 4, 0x0, 0x0, 0x0, 0x0⟩] ++
  [⟨0x260, 1, 4, 0xffffffff, 0x0, 0x0, 0x0⟩,
   ⟨0x264, 1, 4, 0x0, 0x10, 0x0, 0x0⟩,
   ⟨0x268, 1, 4, 0xffff0003, 0x0, 0x0, 0x27100001⟩,
   ⟨0x26c, 1, 4, 0x0, 0x8000000, 0x0, 0xfff⟩,
   ⟨0x270, 1, 4, 0x0, 0x0, 0x0, 0x0⟩,
   ⟨0x300, 1, 4, 0x3f3f3f, 0x0, 0x0, 0x50505⟩,
   ⟨0x304, 1, 4, 0x0, 0xff, 0x0, 0x0⟩,
   ⟨0x308, 1, 4, 0x0, 0x200, 0x0, 0x0⟩,
   ⟨0x30c, 1, 4, 0x3ff007f, 0x0, 0x0, 0xa0000⟩,
   ⟨0x310, 1, 4, 0xfff0fff, 0x0, 0x0, 0xfff⟩,
   ⟨0x314, 1, 4, 0x0, 0x0, 0x0, 0x0⟩,
   ⟨0x320, 1, 4, 0xffffff01, 0x0, 0x0, 0x4003e800⟩,
   ⟨0x324, 1, 4, 0x3ff03ff, 0x0, 0x0, 0x403ff⟩,
   ⟨0x328, 1, 4, 0xffffffff, 0x0, 0x0, 0x1f407d0⟩,
   ⟨0x32c, 1, 4, 0xffffffff, 0x0, 0x0, 0xfe0bf82f⟩,
   ⟨0x330, 1, 4, 0xffffffff, 0x0, 0x0, 0x800400⟩,
   ⟨0x334, 1, 4, 0xffff0fff, 0x0, 0x0, 0xa00000a⟩,
   ⟨0x338, 1, 4, 0xffff, 0x0, 0x0, 0x0⟩,
   ⟨0x33c, 1, 4, 0x0, 0xf000, 0x0, 0x0⟩,
   ⟨0x340, 1, 4, 0x0, 0x0, 0x0, 0x0⟩] ++
  [⟨0x400, 1, 4, 0xff1f, 0x0, 0x0, 0x400⟩,
   ⟨0x404, 1, 4, 0x0, 0x300, 0x0, 0x0⟩,
   ⟨0x408, 1, 4, 0xffff, 0x0, 0x0, 0x0⟩,
   ⟨0x40c, 1, 4, 0xfff1fff, 0x0, 0x0, 0x0⟩,
   ⟨0x410, 1, 4, 0xfffff, 0x0, 0x0, 0x80000⟩,
   ⟨0x414, 1, 4, 0xffffffff, 0x0, 0x0, 0xfff7ffff⟩,
   ⟨0x418, 1, 4, 0xfffff, 0x0, 0x0, 0x7ffff⟩,
   ⟨0x41c, 1, 4, 0xffffffff, 0x0, 0x0, 0xfff80000⟩,
   ⟨0x420, 1, 4, 0xfffff, 0x0, 0x0, 0x400⟩,
   ⟨0x424, 1, 4, 0xffffffff, 0x0, 0x0, 0xfffffbff⟩,
   ⟨0x428, 1, 4, 0xffffffff, 0x0, 0x0, 0x0⟩,
   ⟨0x42c, 1, 4, 0x0, 0x0, 0x0, 0x0⟩,
   ⟨0x430, 1, 4, 0x0, 0x0, 0x0, 0x0⟩,
   ⟨0x434, 1, 4, 0x0, 0x0, 0x0, 0x0⟩,
   ⟨0x438, 1, 4, 0x0, 0x0, 0x0, 0x0⟩,
   ⟨0x43c, 1, 4, 0x0, 0x0, 0x0, 0x0⟩,
   ⟨0x500, 1, 4, 0x0, 0x1, 0x0, 0x0⟩,
   ⟨0x508, 1, 4, 0xffffffff, 0x0, 0x0, 0x0⟩,
   ⟨0x50c, 1, 4, 0xffffffff, 0x0, 0x0, 0xffffffff⟩,
   ⟨0x510, 1, 4, 0xffffffff, 0x0, 0x0, 0x80000000⟩] ++
  [⟨0x514, 1, 4, 0xffffffff, 0x0, 0x0, 0x7fffffff⟩,
   ⟨0x518, 1, 4, 0xffffffff, 0x0, 0x0, 0x7fffffff⟩,
   ⟨0x51c, 1, 4, 0xffffffff, 0x0, 0x0, 0x80000000⟩,
   ⟨0x520, 1, 4, 0x0, 0x0, 0x0, 0x0⟩,
   ⟨0x524, 1, 4, 0x0, 0x0, 0x0, 0x0⟩,
   ⟨0x528, 1, 4, 0x0, 0x20000, 0x0, 0x0⟩,
   ⟨0x530, 1, 4, 0xff01, 0x0, 0x0, 0x1001⟩,
   ⟨0x534, 1, 4, 0x0, 0x200, 0x0, 0x0⟩,
   ⟨0x540, 1, 4, 0xf, 0x0, 0x0, 0x0⟩]

/-- The register table of the Mon registers. -/
def rowsMon : List RegRow :=
  [⟨0x0, 1, 4, 0x1ffff, 0x0, 0x0, 0x1464⟩,
   ⟨0x4, 1, 4, 0xfff0fff, 0x0, 0x0, 0x7ff0800⟩,
   ⟨0x8, 1, 4, 0x0, 0x38000, 0x0, 0x0⟩]

/-- The register table of the Gen registers. -/
def rowsGen : List RegRow :=
  [⟨0x0, 1, 4, 0xffffffff, 0x0, 0x0, 0x0⟩,
   ⟨0x4, 1, 4, 0x0, 0x40, 0x0, 0xf⟩,
   ⟨0x8, 1, 4, 0x0, 0x0, 0x0, 0x0⟩,
   ⟨0xc, 1, 4, 0x0, 0x0, 0x0, 0x0⟩,
   ⟨0x10, 1, 4, 0x0, 0x0, 0x0, 0x0⟩,
   ⟨0x14, 1, 4, 0x0, 0x0, 0x0, 0x0⟩,
   ⟨0x20, 1, 4, 0x0, 0x0, 0x0, 0x0⟩,
   ⟨0x24, 1, 4, 0x0, 0x0, 0x0, 0xffffffff⟩,
   ⟨0x28, 1, 4, 0x0, 0x0, 0x0, 0x0⟩,
   ⟨0x2c, 1, 4, 0x0, 0x0, 0x0, 0xffffffff⟩,
   ⟨0x30, 1, 4, 0x0, 0x0, 0x0, 0x0⟩,
   ⟨0x34, 1, 4, 0x0, 0x0, 0x0, 0xffffffff⟩,
   ⟨0x100, 1, 4, 0x0, 0x0, 0x0, 0x0⟩,
   ⟨0x104, 1, 4, 0x0, 0x0, 0x0, 0x0⟩,
   ⟨0x108, 1, 4, 0x0, 0x0, 0x0, 0x0⟩,
   ⟨0x10c, 1, 4, 0x0, 0x0, 0x0, 0x0⟩,
   ⟨0x110, 1, 4, 0x0, 0x0, 0x0, 0x0⟩,
   ⟨0x114, 1, 4, 0x0, 0x0, 0x0, 0x0⟩,
   ⟨0x118, 1, 4, 0x0, 0x0, 0x0, 0x0⟩,
   ⟨0x11c, 1, 4, 0x0, 0x0, 0x0, 0x0⟩] ++
  [⟨0x120, 1, 4, 0x0, 0x0, 0x0, 0x0⟩,
   ⟨0x124, 1, 4, 0x0, 0x0, 0x0, 0x0⟩,
   ⟨0x128, 1, 4, 0x0, 0x0, 0x0, 0x0⟩,
   ⟨0x12c, 1, 4, 0x0, 0xe, 0x0, 0x0⟩,
   ⟨0x140, 1, 4, 0xffffffff, 0x0, 0x0, 0x0⟩,
   ⟨0x144, 1, 4, 0xffffffff, 0x0, 0x0, 0x2004000⟩,
   ⟨0x148, 1, 4, 0x1ffff, 0x0, 0x0, 0x0⟩,
   ⟨0x14c, 1, 4, 0xffffffff, 0x0, 0x0, 0x0⟩]

/-- The register table of the Trav registers. -/
def rowsTrav : List RegRow :=
  [⟨0x0, 1, 4, 0x6, 0x0, 0x0, 0x0⟩,
   ⟨0x4, 1, 4, 0x0, 0x600, 0x0, 0x0⟩,
   ⟨0x8, 1, 4, 0xffffffff, 0x0, 0x0, 0x0⟩,
   ⟨0xc, 1, 4, 0x0, 0x0, 0x0, 0x0⟩,
   ⟨0x10, 1, 4, 0x0, 0x0, 0x0, 0x0⟩,
   ⟨0x14, 1, 4, 0x0, 0x0, 0x0, 0x0⟩,
   ⟨0x18, 1, 4, 0x0, 0x0, 0x0, 0x0⟩,
   ⟨0x1c, 1, 4, 0x1f, 0x0, 0x0, 0x0⟩,
   ⟨0x20, 1, 4, 0xfff01ff, 0x0, 0x0, 0x0⟩,
   ⟨0x24, 1, 4, 0xffffffff, 0x0, 0x0, 0x0⟩,
   ⟨0x28, 1, 4, 0x0, 0x0, 0x0, 0x0⟩,
   ⟨0x2c, 1, 4, 0x0, 0x0, 0x0, 0x0⟩,
   ⟨0x30, 1, 4, 0x0, 0xffffffff, 0x0, 0x0⟩,
   ⟨0x34, 1, 4, 0x0, 0xffffffff, 0x0, 0x0⟩,
   ⟨0x38, 1, 4, 0x0, 0xffffffff, 0x0, 0x0⟩,
   ⟨0x3c, 1, 4, 0x0, 0x0, 0x0, 0x0⟩,
   ⟨0x80, 4, 4, 0x0, 0x0, 0x0, 0x0⟩,
   ⟨0x90, 1, 4, 0x0, 0x0, 0x0, 0x0⟩,
   ⟨0x94, 1, 4, 0x0, 0x0, 0x0, 0x0⟩]

/-- The register table of the Mer registers. -/
def rowsMer : List RegRow :=
  [⟨0x30000, 1, 4, 0x0, 0x0, 0x0, 0x0⟩,
   ⟨0x30004, 1, 4, 0x0, 0x0, 0x0, 0x0⟩,
   ⟨0x30008, 1, 4, 0xffffffff, 0x0, 0x0, 0x0⟩,
   ⟨0x3000c, 1, 4, 0xffffffff, 0x0, 0x0, 0x0⟩,
   ⟨0x30010, 1, 4, 0x0, 0x0, 0x0, 0x0⟩,
   ⟨0x30014, 1, 4, 0x0, 0x1c0, 0x0, 0x0⟩,
   ⟨0x30018, 1, 4, 0x0, 0x0, 0x0, 0x0⟩,
   ⟨0x3001c, 1, 4, 0x0, 0x0, 0x0, 0x0⟩,
   ⟨0x30020, 1, 4, 0x1ffffff, 0x0, 0x0, 0x0⟩,
   ⟨0x30024, 1, 4, 0x0, 0x0, 0x0, 0x0⟩,
   ⟨0x30028, 1, 4, 0x0, 0x0, 0x0, 0x0⟩,
   ⟨0x3002c, 1, 4, 0x0, 0x0, 0x0, 0x0⟩,
   ⟨0x30030, 1, 4, 0x0, 0x0, 0x0, 0x0⟩,
   ⟨0x30034, 1, 4, 0x0, 0x0, 0x0, 0x0⟩,
   ⟨0x30038, 1, 4, 0x0, 0x0, 0x0, 0x0⟩,
   ⟨0x30040, 1, 4, 0x3ff0000, 0x0, 0x0, 0x0⟩,
   ⟨0x30044, 1, 4, 0x0, 0x6, 0x0, 0x0⟩,
   ⟨0x30048, 1, 4, 0x0, 0x0, 0x0, 0x0⟩,
   ⟨0x3004c, 1, 4, 0x0, 0x0, 0x0, 0x0⟩,
   ⟨0x30050, 1, 4, 0x0, 0x0, 0x0, 0x0⟩] ++
  [⟨0x30054, 1, 4, 0x0, 0x0, 0x0, 0x0⟩,
   ⟨0x30058, 1, 4, 0x3, 0x0, 0x0, 0x0⟩,
   ⟨0x3005c, 1, 4, 0x7f, 0x0, 0x0, 0x0⟩,
   ⟨0x30060, 1, 4, 0x0, 0x7f, 0x0, 0x0⟩]

/-- The register table of the MerAx registers. -/
def rowsMerAx : List RegRow :=
  [⟨0x0, 1, 4, 0x0, 0x0, 0x0, 0x0⟩,
   ⟨0x4, 1, 4, 0x0, 0x0, 0x0, 0x0⟩,
   ⟨0x8, 1, 4, 0x0, 0x0, 0x0, 0x0⟩,
   ⟨0xc, 1, 4, 0x3fffffb, 0x0, 0x0, 0xa0500⟩,
   ⟨0x10, 1, 4, 0x0, 0x24, 0x0, 0x0⟩,
   ⟨0x14, 1, 4, 0x0, 0x0, 0x0, 0x0⟩,
   ⟨0x18, 1, 4, 0xffffffff, 0x0, 0x0, 0x0⟩,
   ⟨0x1c, 1, 4, 0xffffffff, 0x0, 0x0, 0x0⟩]

/-- The register table of the Clk registers. -/
def rowsClk : List RegRow :=
  [⟨0x20000, 1, 4, 0x0, 0x1c00, 0x0, 0x0⟩,
   ⟨0x20004, 1, 4, 0x6, 0x0, 0x0, 0x0⟩,
   ⟨0x20008, 1, 4, 0x3fff0000, 0x0, 0x0, 0x0⟩,
   ⟨0x2000c, 1, 4, 0x3fff, 0x0, 0x0, 0x64⟩,
   ⟨0x20010, 1, 4, 0x0, 0x0, 0x0, 0x0⟩,
   ⟨0x20014, 1, 4, 0x0, 0x0, 0x0, 0x0⟩,
   ⟨0x20018, 1, 4, 0x0, 0x0, 0x0, 0x0⟩,
   ⟨0x2001c, 1, 4, 0x0, 0x0, 0x0, 0x0⟩,
   ⟨0x20020, 1, 4, 0x0, 0x0, 0x0, 0x0⟩,
   ⟨0x20024, 1, 4, 0x0, 0x0, 0x0, 0x0⟩,
   ⟨0x20028, 1, 4, 0x0, 0x0, 0x0, 0x0⟩]

/-- The register table of the Mem registers. -/
def rowsMem : List RegRow :=
  [⟨0x60000, 1, 4, 0x103ff, 0x0, 0x0, 0x10000⟩,
   ⟨0x60004, 1, 4, 0x0, 0x0, 0x0, 0x0⟩,
   ⟨0x60008, 1, 4, 0x0, 0x0, 0x0, 0x0⟩,
   ⟨0x6000c, 1, 4, 0x0, 0xffffffff, 0x0, 0x0⟩,
   ⟨0x60010, 1, 4, 0x0, 0x0, 0x0, 0x0⟩,
   ⟨0x60040, 8, 8, 0xffffffff, 0x0, 0x0, 0x0⟩,
   ⟨0x60044, 8, 8, 0xffffffff, 0x0, 0x0, 0x0⟩,
   ⟨0x60080, 1, 4, 0x0, 0x0, 0x0, 0x0⟩,
   ⟨0x60084, 1, 4, 0x0, 0x0, 0x0, 0x0⟩,
   ⟨0x60088, 1, 4, 0x0, 0x0, 0x0, 0x0⟩,
   ⟨0x6008c, 1, 4, 0x0, 0x0, 0x0, 0x0⟩,
   ⟨0x60090, 1, 4, 0x0, 0xc000, 0x0, 0x0⟩,
   ⟨0x60094, 1, 4, 0x0, 0x1, 0x0, 0x0⟩,
   ⟨0x60100, 40, 4, 0x0, 0x0, 0x0, 0x0⟩]

/-- The register table of the Datum registers. -/
def rowsDatum : List RegRow :=
  [⟨0x50000, 1, 4, 0x0, 0x200, 0x0, 0x0⟩,
   ⟨0x50004, 1, 4, 0x7f3fff, 0x0, 0x0, 0x1000a⟩,
   ⟨0x50008, 1, 4, 0xffffffff, 0x0, 0x0, 0x2640000⟩,
   ⟨0x5000c, 1, 4, 0x0, 0x0, 0x0, 0x0⟩,
   ⟨0x50010, 1, 4, 0x0, 0x0, 0x0, 0x0⟩,
   ⟨0x50014, 1, 4, 0x0, 0x0, 0x0, 0x0⟩,
   ⟨0x50018, 1, 4, 0x0, 0x0, 0x0, 0x0⟩,
   ⟨0x5001c, 1, 4, 0x0, 0x0, 0x0, 0x0⟩,
   ⟨0x50020, 4, 4, 0x0, 0x0, 0x0, 0x0⟩]

/-- The register table of the DatumCal registers. -/
def rowsDatumCal : List RegRow :=
  [⟨0x0, 1, 4, 0x0, 0x0, 0x0, 0x0⟩,
   ⟨0x8, 1, 4, 0x0, 0x0, 0x0, 0x0⟩,
   ⟨0xc, 1, 4, 0x0, 0x0, 0x0, 0x0⟩]

/-- The register table of the Fault registers. -/
def rowsFault : List RegRow :=
  [⟨0x40000, 1, 4, 0x0, 0xe80, 0x0, 0x1000⟩,
   ⟨0x40004, 1, 4, 0x1, 0x0, 0x0, 0x0⟩,
   ⟨0x40008, 1, 4, 0x0, 0x0, 0x0, 0x0⟩,
   ⟨0x4000c, 1, 4, 0x0, 0x0, 0x0, 0x0⟩,
   ⟨0x40038, 1, 4, 0xffff, 0x0, 0x0, 0x0⟩,
   ⟨0x40010, 1, 4, 0x0, 0x0, 0x0, 0x0⟩,
   ⟨0x40014, 1, 4, 0x0, 0x0, 0x0, 0x0⟩,
   ⟨0x40018, 1, 4, 0x0, 0xffffffff, 0x0, 0x0⟩,
   ⟨0x4001c, 1, 4, 0x0, 0xffffffff, 0x0, 0x0⟩,
   ⟨0x40020, 1, 4, 0x0, 0x0, 0xffffffff, 0x0⟩,
   ⟨0x40024, 1, 4, 0x0, 0x0, 0xffffffff, 0x0⟩,
   ⟨0x40028, 1, 4, 0x0, 0x0, 0x0, 0x0⟩,
   ⟨0x4002c, 1, 4, 0x0, 0x0, 0x0, 0x0⟩,
   ⟨0x40030, 1, 4, 0x0, 0x0, 0x0, 0x0⟩,
   ⟨0x40034, 1, 4, 0x0, 0x0, 0x0, 0x0⟩,
   ⟨0x40100, 32, 4, 0x0, 0xffffffff, 0x0, 0x0⟩,
   ⟨0x40180, 32, 4, 0x0, 0xffffffff, 0x0, 0x0⟩,
   ⟨0x40200, 32, 4, 0x0, 0x0, 0x0, 0x0⟩,
   ⟨0x41000, 1024, 4, 0x0, 0x0, 0x0, 0x0⟩,
   ⟨0x42000, 1024, 4, 0x0, 0x0, 0x0, 0x0⟩]

/-- The register table of the Host registers. -/
def rowsHost : List RegRow :=
  [⟨0x70000, 1, 4, 0x0, 0x1, 0x0, 0x0⟩,
   ⟨0x70004, 1, 4, 0x0, 0x0, 0x0, 0x0⟩,
   ⟨0x70008, 1, 4, 0xffff, 0x0, 0x0, 0x0⟩]

/-- The register table of the Ring registers. -/
def rowsRing : List RegRow :=
  [⟨0x0, 1, 4, 0x7ff, 0x0, 0x0, 0x0⟩,
   ⟨0x4, 1, 4, 0x0, 0x6, 0x0, 0x0⟩,
   ⟨0x8, 1, 4, 0xffffffff, 0x0, 0x0, 0x0⟩,
   ⟨0xc, 1, 4, 0xffffffff, 0x0, 0x0, 0x0⟩,
   ⟨0x10, 1, 4, 0xff, 0x0, 0x0, 0x0⟩,
   ⟨0x14, 1, 4, 0x0, 0x0, 0x0, 0x0⟩,
   ⟨0x18, 1, 4, 0xffffffff, 0x0, 0x0, 0x0⟩,
   ⟨0x1c, 1, 4, 0xffffffff, 0x0, 0x0, 0x0⟩,
   ⟨0x20, 1, 4, 0x0, 0x0, 0x0, 0x0⟩,
   ⟨0x24, 1, 4, 0xff, 0x0, 0x0, 0x0⟩,
   ⟨0x28, 1, 4, 0x0, 0x7, 0x0, 0x0⟩]

/-- The register table of the Cap registers. -/
def rowsCap : List RegRow :=
  [⟨0x0, 1, 4, 0x0, 0x0, 0x0, 0x0⟩,
   ⟨0x4, 1, 4, 0x0, 0x6, 0x0, 0x0⟩,
   ⟨0x8, 1, 4, 0xffffffff, 0x0, 0x0, 0x0⟩,
   ⟨0xc, 1, 4, 0xffffffff, 0x0, 0x0, 0x0⟩,
   ⟨0x10, 1, 4, 0x1fff, 0x0, 0x0, 0x0⟩,
   ⟨0x14, 1, 4, 0xffffffff, 0x0, 0x0, 0x0⟩,
   ⟨0x18, 1, 4, 0x0, 0x0, 0x0, 0x0⟩,
   ⟨0x1c, 1, 4, 0x0, 0x0, 0x0, 0x0⟩,
   ⟨0x20, 1, 4, 0xffffffff, 0x0, 0x0, 0x0⟩,
   ⟨0x24, 1, 4, 0xffffffff, 0x0, 0x0, 0x0⟩,
   ⟨0x28, 1, 4, 0xffffffff, 0x0, 0x0, 0x0⟩,
   ⟨0x2c, 1, 4, 0xffffffff, 0x0, 0x0, 0x0⟩]

/-- The register table of the Link registers. -/
def rowsLink : List RegRow :=
  [⟨0x80000, 1, 4, 0x0, 0x200, 0x0, 0x0⟩,
   ⟨0x80004, 1, 4, 0x1, 0x0, 0x0, 0x0⟩,
   ⟨0x80008, 1, 4, 0xffffffff, 0x0, 0x0, 0x0⟩,
   ⟨0x8000c, 1, 4, 0x1ff, 0x0, 0x0, 0x0⟩,
   ⟨0x80010, 8, 4, 0x0, 0x0, 0xffffffff, 0x0⟩,
   ⟨0x80030, 1, 4, 0x7, 0x0, 0x0, 0x0⟩,
   ⟨0x80034, 1, 4, 0x0, 0x100, 0x0, 0x0⟩,
   ⟨0x80040, 12, 4, 0x0, 0x0, 0xffffffff, 0x0⟩,
   ⟨0x80070, 1, 4, 0xf, 0x0, 0x0, 0x1⟩,
   ⟨0x80074, 1, 4, 0x0, 0x0, 0x0, 0x0⟩,
   ⟨0x80080, 1, 4, 0xffffffff, 0x0, 0x0, 0x0⟩,
   ⟨0x80084, 1, 4, 0xffffffff, 0x0, 0x0, 0x0⟩,
   ⟨0x80088, 1, 4, 0x1ffffff, 0x0, 0x0, 0x0⟩,
   ⟨0x8008c, 1, 4, 0x7e, 0x0, 0x0, 0x2⟩,
   ⟨0x80090, 1, 4, 0x0, 0xe, 0x0, 0x0⟩]

/-- The register table of the Port registers. -/
def rowsPort : List RegRow :=
  [⟨0x0, 1, 4, 0x0, 0x0, 0x0, 0x0⟩,
   ⟨0x4, 1, 4, 0x0, 0x0, 0x0, 0x0⟩,
   ⟨0x8, 1, 4, 0x7, 0x0, 0x0, 0x0⟩,
   ⟨0xc, 1, 4, 0x0, 0x0, 0x0, 0x0⟩,
   ⟨0x10, 1, 4, 0x0, 0x0, 0x0, 0x0⟩,
   ⟨0x14, 1, 4, 0x0, 0x0, 0x0, 0x0⟩,
   ⟨0x18, 1, 4, 0x0, 0x0, 0x0, 0x0⟩,
   ⟨0x1c, 1, 4, 0x0, 0x0, 0x0, 0x0⟩]

/-- The register table of the Node registers. -/
def rowsNode : List RegRow :=
  [⟨0x0, 1, 4, 0x0, 0x80, 0x0, 0x0⟩,
   ⟨0x4, 1, 4, 0x0, 0x0, 0x0, 0x0⟩,
   ⟨0x8, 1, 4, 0x0, 0x0, 0x0, 0x0⟩,
   ⟨0xc, 1, 4, 0x0, 0x0, 0x0, 0x0⟩,
   ⟨0x10, 1, 4, 0x0, 0x0, 0x0, 0x0⟩]

/-- The register table and the unit-relative offset of BAR0 offset `a`, with the index of the unit (R363). -/
def regBlock (a : Nat) : List RegRow × Nat × Nat :=
  if a < 0x10000 then (rowsGlobal, a, 0)
  else if a < 0x20000 then (rowsAtlas, a, 0)
  else if a < 0x30000 then (rowsClk, a, 0)
  else if a < 0x40000 then
    if a < 0x30100 then (rowsMer, a, 0)
    else if a < 0x30200 then (rowsMerAx, (a - 0x30100) % 0x40, (a - 0x30100) / 0x40 + 1)
    else ([], a, 0)
  else if a < 0x50000 then (rowsFault, a, 0)
  else if a < 0x60000 then
    if a < 0x50100 then (rowsDatum, a, 0)
    else if a < 0x50300 then (rowsDatumCal, (a - 0x50100) % 16, (a - 0x50100) / 16)
    else ([], a, 0)
  else if a < 0x70000 then (rowsMem, a, 0)
  else if a < 0x80000 then
    if a < 0x70100 then (rowsHost, a, 0)
    else if a < 0x70900 then (rowsRing, (a - 0x70100) % 0x40, (a - 0x70100) / 0x40)
    else if a < 0x71000 then ([], a, 0)
    else if a < 0x71800 then (rowsCap, (a - 0x71000) % 0x40, (a - 0x71000) / 0x40)
    else ([], a, 0)
  else if a < 0x90000 then
    if a < 0x80100 then (rowsLink, a, 0)
    else if a < 0x80180 then (rowsPort, (a - 0x80100) % 0x40, (a - 0x80100) / 0x40)
    else if a < 0x80220 then ([], a, 0)
    else if a < 0x80320 then (rowsNode, (a - 0x80200) % 0x20, (a - 0x80200) / 0x20)
    else ([], a, 0)
  else if a < 0xa0000 then
    if a < 0x90200 then (rowsMon, (a - 0x90000) % 16, (a - 0x90000) / 16) else ([], a, 0)
  else if a < 0x100000 then ([], a, 0)
  else if a < 0x300000 then (rowsSlice, a % 0x10000, (a - 0x100000) / 0x10000)
  else if a < 0x400000 then ([], a, 0)
  else if a < 0x420000 then (rowsTrav, a % 0x1000, (a - 0x400000) / 0x1000)
  else if a < 0x500000 then ([], a, 0)
  else if a < 0x520000 then (rowsGen, a % 0x1000, (a - 0x500000) / 0x1000)
  else ([], a, 0)

/-- Does row `r` of a table hold the word at offset `o`? -/
def RegRow.holds (r : RegRow) (o : Nat) : Bool :=
  r.off ≤ o && (o - r.off) % r.stride == 0 && (o - r.off) / r.stride < r.cnt

/-- The row that describes the word at BAR0 offset `a`, none where no register occupies it (R363). -/
def regRow (a : Nat) : Option RegRow :=
  let b := regBlock a
  b.1.find? (fun r => r.holds b.2.1)

/-- Default class of a fault source (R339, R281, R313, R384, R415): 0 Note, 1 Alert, 2 Serious, 3 Grave. -/
def defaultClass (x : Nat) : Nat :=
  if x < 0x100 then (if x % 8 == 3 then 0 else 1)
  else if x < 0x120 then 0
  else if x < 0x140 then 1
  else if x < 0x280 then 0
  else if x < 0x2A0 then (if x == 0x287 then 0 else if 0x282 ≤ x && x ≤ 0x284 then 3 else 1)
  else if x < 0x2C0 then (if [0x2A0, 0x2A4, 0x2A5, 0x2A6, 0x2A7].contains x then 1 else 0)
  else if x < 0x300 then (if [0x2C4, 0x2C5, 0x2C8, 0x2C9, 0x2CA].contains x then 0 else 1)
  else if x < 0x380 then 0
  else if x < 0x3A0 then (if x == 0x380 || x == 0x385 then 2 else if [0x381, 0x382, 0x386].contains x then 1 else 0)
  else if x < 0x3C0 then (if x == 0x3A0 then 2 else if x == 0x3A1 then 1 else 0)
  else if x < 0x3E0 then (if x ≤ 0x3C1 then 2 else 0)
  else if x == 0x3E0 || x == 0x3EB || x == 0x3EC then 2
  else if (0x3E1 ≤ x && x ≤ 0x3E6) || x == 0x3E9 then 3
  else if x == 0x3E7 || x == 0x3E8 then 1
  else 0

/-- Default reactions of a class as bits [6:2] of `FAULT_SRC_s` (R341). -/
def classReactions (c : Nat) : Nat :=
  if c == 0 then 0 else if c == 1 then 4 else 4 + 8 + 64

/-- Reset value of the word at BAR0 offset `a`. `FAULT_SRC_s` holds the entry that stands without a FAULT plate
(R339, R341). Three registers reset to a value that depends on their unit's number:
TRAV_BARRIER (R262), GEN_NOISE_SEED (R236) and HOST_RING_CFG (R387). -/
def regReset (a : Nat) : Word :=
  let b := regBlock a
  match b.1.find? (fun r => r.holds b.2.1) with
  | none => 0
  | some r =>
    if 0x41000 ≤ a && a < 0x42000 then
      BitVec.ofNat 32 (defaultClass ((a - 0x41000) / 4) + classReactions (defaultClass ((a - 0x41000) / 4)))
    else if 0x400000 ≤ a && a < 0x420000 && b.2.1 == TRAV_BARRIER then BitVec.ofNat 32 (2 ^ b.2.2)
    else if 0x500000 ≤ a && a < 0x520000 && b.2.1 == GEN_NOISE_SEED then BitVec.ofNat 32 (b.2.2 + 1)
    else if 0x70100 ≤ a && a < 0x70900 && b.2.1 == HOST_RING_CFG then BitVec.ofNat 32 (b.2.2 * 64)
    else BitVec.ofNat 32 r.reset

end Sys2Proof.Machine
end

