-- ==== Sys2Proof/Machine/State.lean ====
section
/-! DEFINITION. The state of the SND3200 as plain data. Every register of BAR0 stands in `Dev.regs`, by its offset
(DESIGN CHOICE, notes/assumptions/1.md); the structures beside it hold what the manual gives the machine and no register shows.
`Dev` is what runs on power; `State` adds the fuses and the queue of waiting commands. -/

namespace Sys2Proof.Machine

/-- Why the block stops with a fault. No meaning raises one: the device answers every command and event with a
state. -/
inductive Fault where
  /-- Reserved for a state no command leads to; raised by nothing. Safe. -/
  | none
  deriving DecidableEq, Repr

/-- Why a command is refused by the model. -/
inductive Refusal where
  /-- The command has no meaning yet. Raised by `exec` only. Safe. -/
  | notModelled (mnemonic : String)
  deriving DecidableEq, Repr

/-- A working value held with its complement and the value it had when the two last matched (R175, R315). -/
structure Pair where
  v    : Word
  c    : Word
  good : Word
  deriving DecidableEq, Repr

/-- Where a slice stands between park and operation (R85, R86, R89). -/
inductive Phase where
  /-- Park complete. -/
  | parked
  /-- The table of R85 runs from cycle `start`; `safe` once RG_SAFE is driven. -/
  | parking (start : Nat) (safe : Bool)
  /-- An inductive ramp runs: of the setpoint with the loop closed (R85), or of the code (R86). -/
  | ramp (code : Bool)
  /-- The UNPARK sequence of R89 runs from cycle `start`; `on` once OUTEN_N is low. -/
  | unparking (start : Nat) (on : Bool)
  /-- In operation: loop open, closed or in hold, or direct mode. -/
  | running
  deriving DecidableEq, Repr

/-- Delay lines of one compensator (R181): error taps in Q15 units, output taps in Q1.31 units. -/
structure Taps where
  e1 : Int
  e2 : Int
  e3 : Int
  y1 : Int
  y2 : Int
  y3 : Int
  deriving DecidableEq, Repr

/-- A coefficient set in a lane's working registers, with its complement and its last good image (R180). -/
structure CoefReg where
  img  : BitVec 128
  cmpl : BitVec 128
  good : BitVec 128
  deriving DecidableEq, Repr

/-- A limit set in force (R145), the four limits as 64-bit integers in nV and fA, with complements. -/
structure LimSet where
  vHi    : Word64
  vLo    : Word64
  iHi    : Word64
  iLo    : Word64
  vHiC   : Word64
  vLoC   : Word64
  iHiC   : Word64
  iLoC   : Word64
  margin : BitVec 16
  deriving DecidableEq, Repr

/-- The limits of the set in force as Q1.31 fractions of the ranges in force (R29, R137). -/
structure LimQ where
  vHi : Int
  vLo : Int
  iHi : Int
  iLo : Int
  deriving DecidableEq, Repr

/-- A current-range step in progress (R135, R136). -/
structure RStep where
  /-- Incoming range. -/
  into    : Nat
  /-- Incoming path: false A, true B. -/
  inPath  : Bool
  up      : Bool
  /-- Cycle at which PREPARE (or the solo switch of R141) ends; later the end of SW_TIME after RELEASE. -/
  endAt   : Nat
  /-- Overlap length L of this step. -/
  len     : Nat
  /-- Overlap samples still wanted, then fade samples done. -/
  left    : Nat
  sum     : Int
  used    : Nat
  delta   : Int
  fade    : Nat
  /-- A step of R141, on path A alone. -/
  solo    : Bool
  deriving DecidableEq, Repr

/-- Accumulated state of one record filter (R110): the sum of a mean, `c1` its samples; or the integrators `acc`, `i2`,
`i3` and the combs `c1`, `c2`, `c3` of the sinc³. `last` is the latest value, `rng` the range it was taken on, 15 before one, of
which everything held is a fraction (R113); `bad` counts the samples from the latest one that marks a record suspect on, that
one included, 0 without one (R114). -/
structure Filt where
  acc  : Int
  i2   : Int
  i3   : Int
  c1   : Int
  c2   : Int
  c3   : Int
  last : Int
  rng  : Nat
  bad  : Nat
  deriving DecidableEq, Repr

/-- What a record takes from the sampling instant of its last sample (R115): TIME, the station index, the ranges and the path
its I value comes from. -/
structure RecAt where
  time    : Word64
  station : Nat
  vrange  : Nat
  irange  : Nat
  path    : Bool
  deriving DecidableEq, Repr

/-- A closed record window of one slice that awaits RECORD_WINDOW_CLOSE: record values in Q0.27, ranges, suspect
mark, TIME and station index (R115); whether the station in force at the close has CAPTURE bit [0] set (R118), and the TIME of
the close (R119). -/
structure WinRes where
  v       : Int
  i       : Int
  vrange  : Nat
  irange  : Nat
  suspect : Bool
  time    : Word64
  station : Nat
  rec_    : Bool
  shut    : Word64
  deriving DecidableEq, Repr

/-- Correlator sums and window of one slice (R125, R126). -/
structure Corr where
  /-- 0 idle, 1 waiting for the mark or station, 2 waiting for a wrap, 3 open. -/
  st      : Nat
  i0      : Int
  q0      : Int
  i1      : Int
  q1      : Int
  n       : Nat
  periods : Nat
  /-- A wrap of θ happened since the last window decision. -/
  wrapped : Bool
  deriving DecidableEq, Repr

/-- Frozen-feedback run of one feedback word (R211). -/
structure Run where
  code : Nat
  run  : Nat
  deriving DecidableEq, Repr

/-- An agile WRITE that applies one field a sample (R205). -/
structure Agile where
  comp : Nat
  next : Nat
  img  : BitVec 128
  deriving DecidableEq, Repr

/-- What is on its way to an FDAC (R76 to R80): the read of the code queue's head, a code of direct mode, the holding register
as it stands when the strobe's latch comes, and a code of the lane with the gang code it was made from. -/
inductive Drive where
  | head
  | direct (c : Code)
  | holding
  | lane (c : Code) (gang : Int)
  deriving DecidableEq, Repr

/-- What slice n holds beside its registers. -/
structure Slice where
  phase     : Phase
  /-- The group's first UNPARK has completed OK (R56). -/
  enabled   : Bool
  /-- FORCE is held at 0 V by the clockless default (R54, R56). -/
  dflt      : Bool
  /-- Park was ended by a freeze-time INTERLOCK gate: OUTEN_N forced high by the clockless gate (R65). -/
  gate      : Bool
  queue     : List Code
  holding   : Code
  /-- Levels of RG0..RG7, and the cycles at which the latest pulse of PRG_PWM rises and falls (R164). -/
  rg        : Nat
  prgPwm    : Option (Nat × Nat)
  /-- Cycle at which the latest pre-regulator period started (R164). -/
  prgAt     : Nat
  /-- Cycle of the previous FDAC latch, none before the first (R74). -/
  latchAt   : Option Nat
  pendCode  : Option Code
  /-- What is on its way to the FDAC, with the cycle at which it gets there, oldest first. -/
  flight    : List (Nat × Drive)
  /-- Codes latched in the last 1,024 ns, newest first, with the cycle of each (R95). -/
  hist      : List (Nat × Code)
  /-- A die-to-die parity error has hit the next word (R5). -/
  dropV     : Bool
  dropIa    : Bool
  dropIb    : Bool
  dropCode  : Bool
  dropRg    : Bool
  dropEdge  : Bool
  dropThr   : Bool
  dropCtl   : Bool
  /-- Cycle of the slice's latest MADC slot, and whether the failing run that stands has raised its source (R95, R96). -/
  monAt     : Option Nat
  monRaised : Bool
  /-- Sequence tags of the latest conversions, of VADC and IADC-A and of IADC-B (R108); whether the words have still to
  reach the lane. -/
  tag       : Nat
  tagB      : Nat
  awaits    : Bool
  /-- TIME, cycle and mains-axis value of the latest sampling instant (R107, R111). -/
  instant   : Word64
  instantAt : Nat
  mains     : Word64
  /-- Station in force at that instant, where another has taken its place before the words arrived. -/
  stationWas : Option Nat
  /-- Setpoint in force (R177 step 1). -/
  sp        : Pair
  /-- A force-I setpoint waiting for TRANSFER, or a force-V one waiting for tick VHOLD (R138, R142). -/
  spWait    : Option Word
  limits    : LimSet
  /-- The last good limit set (R146). -/
  limGood   : LimSet
  /-- The LIMITS record as it stood when it last matched its complements (R29). -/
  hardGood  : LimSet
  /-- A limit set has passed its checks since release (R146). -/
  limPassed : Bool
  limQ      : LimQ
  coefM     : CoefReg
  coefL     : CoefReg
  coefO     : CoefReg
  tapsM     : Taps
  tapsL     : Taps
  tapsO     : Taps
  /-- Last applied output, Q1.31 (R182). -/
  yLast     : Int
  /-- Last good OUT_MIN, OUT_MAX, XMARGIN, outer SP, outer LO, outer HI words (R175). -/
  goodMin   : Word
  goodMax   : Word
  goodXm    : Word
  goodOsp   : Word
  goodOlo   : Word
  goodOhi   : Word
  /-- Last good HEAD pair (R166, R315). -/
  goodHead  : Word
  /-- Last good park code, and VEL, ACC and JERK of set 15 (R221, R315); a use of theirs at park met a mismatch whose message is
  due. -/
  goodPark  : Word
  goodVel   : Word
  goodAcc   : Word
  goodJerk  : Word
  parkMis   : Bool
  /-- The next computed sample is a closing sample (R200, R201). -/
  closing   : Bool
  /-- The next computed sample starts with its delay lines made from the held code, as for a bumpless close: the end of
  a clamp hold (R149) or of a context restore (R174). -/
  reinit    : Bool
  /-- Code the lane last had latched, in a gang without the trims (R201). -/
  gcode     : Int
  /-- This sample is held for a set or mode switch; the next recloses (R204, R84). -/
  held      : Bool
  /-- Tags last used of the feedback words (R210) and of the outer words (R209). -/
  fbTags    : List Nat
  outTags   : List Nat
  /-- The words of an outer tick have arrived and the law waits for OUTER_TICK: the cycle of the sampling instant and that at
  which the law starts. -/
  outerWait : Option (Nat × Nat)
  /-- c of R210, consecutive samples with a feedback word that is not fresh. -/
  stale     : Nat
  /-- Main error of the last sample before windowing, 33 bits (R125, R178). -/
  err       : Int
  /-- Balance trim in 2⁻⁴⁶ FDAC steps (R93). -/
  trim      : Int
  runs      : List Run
  /-- Consecutive computed samples with a non-zero main error, at most 255 (R211). -/
  errRun    : Nat
  /-- FDAC codes latched on the last 255 computed samples, newest first (R211). -/
  codes     : List Int
  /-- The lane was left unrestored by a refused reset (R351). -/
  unrestored : Bool
  /-- A lane context restore holds the loop (R174). -/
  restoring : Bool
  rstep     : Option RStep
  /-- Voltage hold: samples since its tick (R142). -/
  vhold     : Option Nat
  /-- VRANGE going into force at the end of the hold, and one that waits for the next hold. -/
  vNew      : Nat
  vWait     : Option Nat
  /-- Errors of the previous sample, used while frozen (R141, R142). -/
  eM        : Int
  eL        : Int
  downRun   : Nat
  /-- Cycle since which both clamp outputs are inactive (R149 mode 0). -/
  quietAt   : Nat
  /-- The clamp hold ends at the next tick (R149). -/
  holdEnds  : Bool
  /-- CLAMP_N is low. -/
  clampN    : Bool
  /-- Comparator levels when the freeze began (R160), and whether a clamp has tripped in it. -/
  levelAtFreeze : Nat
  tripped   : Bool
  /-- WIN: cycle of the latest sampled tick (R161), whether an undecided output stands in THR_HI's band (R158), and the cycle of an
  event that the comparator has offered and no jump has taken (R160, R161). -/
  winTick   : Nat
  winUndecHi : Bool
  winOffer  : Option Nat
  /-- A monitor's park is in force (R163). -/
  monPark   : Bool
  /-- Record filters V, IADC-A, IADC-B, samples in the open window, and its marks (R110 to R115). -/
  fV        : Filt
  fA        : Filt
  fB        : Filt
  wCount    : Nat
  /-- Records since the last start of a sinc³ filter, at most 2 (R114). -/
  fillRec   : Nat
  wOpen     : Bool
  /-- A freeze has ended since the last sample (R114). -/
  thawed    : Bool
  /-- What the record takes from the last sample in the window, samples still to settle, and the samples settled or, in a
  Meridian aperture, TIME or the mains axis at the window's first sample. -/
  wAt       : RecAt
  wSettle   : Nat
  wIndex    : Nat
  /-- The next sample opens a station window without SETTLE (R112). -/
  wNext     : Bool
  /-- The station window closes with the sample that is on its way: its REC bit, the TIME of the close, and the SETTLE of the
  window that follows, if one does (R112). -/
  wThen     : Option (Bool × Word64 × Option Nat)
  /-- Closed windows that await RECORD_WINDOW_CLOSE, oldest first. -/
  wDone     : List WinRes
  /-- The record of this slice for the row being assembled (R117). -/
  recDone   : Option Rec
  /-- TIME of its close and REC bit there. -/
  recTime   : Word64
  recBit    : Bool
  corr      : Corr
  /-- Pre-regulator: u of R166 in 2⁻²⁴ codes, e_prev in 2⁻¹² mV, overcurrent run, low-headroom run. -/
  prgU      : Int
  prgE      : Int
  prgOc     : Nat
  prgLow    : Nat
  prgStop   : Bool
  /-- Inner samples since the last headroom tick (R166). -/
  prgTick   : Nat
  agile     : Option Agile
  /-- Station fields that govern capture: CAPTURE [3:0] of the station in force, none when no station is. -/
  capture   : Option (BitVec 4)
  /-- Store index of the station word in force. -/
  station   : Nat
  /-- The slice's last calibration in the working copy: its KIND (R333). -/
  lastKind  : Byte
  /-- Datum corrections (R327), in the order of `corrFields`: at the start of the ramp, the target, steps done and
  steps in all; the cycle at which the ramp started and its length in cycles. -/
  c0        : List Int
  cT        : List Int
  cK        : Nat
  cS        : Nat
  cAt       : Nat
  cLen      : Nat
  /-- IFS[0..9] in fA and VFS[0..3] in nV as in force on the slice, then as the working copy holds them (R327). -/
  fs        : List Int
  fsNext    : List Int
  deriving DecidableEq, Repr

/-- Contour generator n beside its registers (R223). Position p in units of 2⁻⁴⁷ / (6·10²⁷) full scale, velocity v
in 2⁻⁴⁷ / (6·10¹⁸) full scale per second, acceleration a in 2⁻⁴⁷ / (6·10⁹) full scale per second², jerk in
2⁻⁴⁷ / 6 full scale per second³: with these the integration of R223 over N ns needs no division but by 2 and 6. -/
structure Contour where
  p    : Int
  v    : Int
  a    : Int
  /-- Target, Q1.31. -/
  x    : Int
  /-- Remaining phases of the plan: samples and jerk. -/
  plan : List (Nat × Int)
  /-- A target or set change waits for the arrival sample (R224). -/
  replan : Bool
  /-- VEL, ACC, JERK of the set in force. -/
  vel  : Word
  acc  : Word
  jerk : Word
  deriving DecidableEq, Repr

/-- A generator pair: contour, and of the waveform generator the LFSR and the last output (R229, R230). -/
structure Gen where
  con  : Contour
  lfsr : Word
  w    : Int
  deriving DecidableEq, Repr

/-- The work of a lane (R189): the cycles at which its law in progress and all its work end. -/
structure Lane where
  lawEnd  : Nat
  workEnd : Nat
  deriving DecidableEq, Repr

/-- The fields of one station word (R237). -/
structure Station where
  value    : Word
  dwell    : Nat
  irange   : Nat
  vrange   : Nat
  mode     : Nat
  coefSet  : Nat
  limitSet : Nat
  wait     : Nat
  capture  : BitVec 4
  contour  : Nat
  gen      : Nat
  deriving DecidableEq, Repr

/-- A leg descriptor as read (R245). -/
structure Leg where
  first   : Nat
  count   : Nat
  rep     : Nat
  timeout : Nat
  markPtr : Nat
  succ    : Nat
  flags   : Nat
  deriving DecidableEq, Repr

/-- A place on an engine's path (R246): leg, its descriptor, the step of the pass, the pass and the mark cursor. -/
structure PathPos where
  leg   : Nat
  desc  : Leg
  step  : Nat
  pass  : Nat
  markJ : Nat
  deriving DecidableEq, Repr

/-- Where a path leads next (R246). -/
inductive Place where
  | step (p : PathPos)
  | idle
  /-- The engine halts with this kind of R240. -/
  | bad (kind : Nat)
  deriving DecidableEq, Repr

/-- A step an engine holds (R248): its place with the mark cursor before it, its store index, its WAIT code, and the bytes read
for it by BAR2 offset: its words, the mark it needs and the sets and profiles it names. A read that met an uncorrectable error
is held as zeros, which fail its check. -/
structure HeldStep where
  pos   : PathPos
  ix    : Nat
  wait  : Nat
  cells : List (Nat × List Byte)
  deriving DecidableEq, Repr

/-- A prefetch window or a jump window (R248, R255): its steps in the order of the path, and where the path leads after them, as
far as it has been read. -/
structure Window where
  steps : List HeldStep
  last  : Option Place
  deriving DecidableEq, Repr

def Window.none : Window := ⟨[], .none⟩

/-- How to answer the command that waits: its header and payload, and what became of its ring. -/
structure Ctx where
  hdr    : Hdr
  opcode : Byte
  /-- The completion is discarded: a host reset came after the fetch (R64). -/
  drop   : Bool
  /-- The command came in a COMMAND frame: the completion leaves in a COMPLETION frame (R412). -/
  remote : Bool
  /-- INDEX of that frame, 0 for a command of the device's own rings. -/
  index  : Nat
  deriving DecidableEq, Repr

/-- A request in the jump latch (R255). -/
structure JumpReq where
  /-- The LEG_JUMP that made it; none for an armed jump. -/
  ctx : Option Ctx
  leg : Nat
  /-- Cycle at which it arrived, and its rank among requests of one cycle: 0 comparator, 1 trigger, 2 LEG_JUMP. -/
  at_ : Nat
  rank : Nat
  deriving DecidableEq, Repr

/-- The pending gap marker of a group (R122). -/
structure Gap where
  lost    : Nat
  slice   : Nat
  time    : Word64
  station : Nat
  deriving DecidableEq, Repr

/-- What engine g and group g hold beside their registers. -/
structure Engine where
  /-- Path position of the step in force, awaited or held; none before a start. -/
  pos       : Option PathPos
  /-- The step awaited, held or about to apply; none in DWELL and IDLE. -/
  next      : Option PathPos
  /-- Ticks of the wait so far (R243). -/
  waitTicks : Nat
  /-- Cycle at which the condition was met; the fields apply a latency after it (R242). -/
  metAt     : Option Nat
  /-- The awaited mark had been reached before its wait could be met on time (R278). -/
  late      : Bool
  /-- Marks counted late in a hold whose steps have still to come (R253, R278). -/
  heldLate  : Nat
  /-- The awaited step's fields stand in the engine and take effect at the next tick (R242). -/
  applied   : Bool
  latch     : Option JumpReq
  /-- A request that waits for its jump window to fill (R255). -/
  filling   : Option JumpReq
  /-- The armed jump window, once filled (R255). -/
  armed     : Option Window
  /-- An armed request of this rank waits for its jump window to fill (R255). -/
  armWait   : Option Nat
  /-- The command jump window, once filled. -/
  command   : Option Window
  /-- What the engine holds of the step in `next`, from the tick at which that step began. -/
  held      : Option HeldStep
  /-- Where a held path goes on at the next tick (R254). -/
  resume    : Option Place
  /-- The station took effect at a strobe between ticks: the next tick is the first it counts (R241). -/
  between   : Bool
  /-- The waveforms and direct-mode codes of the latest tick have still to be taken. -/
  unfinished : Bool
  /-- An event of the engine falls on the tick in progress: a dwell boundary, a wait timeout or a start, or an underrun resumes. -/
  due       : Bool
  /-- LEG_STOP MODE 1 commands that wait for the boundary (R259). -/
  stops     : List Ctx
  /-- LEG_START that waits for its first step: leg, AT, earliest cycle. -/
  start     : Option (Ctx × Nat × Word64 × Nat)
  /-- Completions that wait for the tick at which the applied step takes effect: LEG_START and LEG_JUMP. -/
  waiters   : List Ctx
  /-- The prefetch window (R248). -/
  window    : Window
  /-- Segments this engine has used since they became ACTIVE (R249). -/
  used      : List Nat
  /-- TIME and cycle of the group's latest tick; number of LOAD_IN or internal strobes is not kept. -/
  tickTime  : Word64
  tickAt    : Nat
  /-- Earliest cycle of the next tick after a step of TIME or a thaw (R270, R279). -/
  tickMin   : Nat
  /-- An accepted DIVIDER has still to take effect: the N in force, and the cycle of the write (R191). -/
  divOld    : Option (Nat × Nat)
  /-- Cycle and TIME of the last LOAD_IN edge (R82). -/
  strobeAt  : Nat
  strobeTime : Word64
  /-- Rows that wait for the write path, oldest first (R121). -/
  rows      : List (List Rec)
  gap       : Option Gap
  /-- START of the active CAPTURE_ARM and its command (R119). -/
  armStart  : Word64
  arm       : Option Ctx
  /-- Orphan policy applied already in this absence. -/
  orphaned  : Bool
  deriving DecidableEq, Repr

/-- A command in progress, with what its later steps need: slices still outstanding, earliest cycle, AT, status so
far. -/
structure Sched where
  ctx    : Ctx
  cmd    : RingCmd
  group  : Nat
  /-- Slices still outstanding, in device numbering. -/
  mask   : Word
  after  : Nat
  at_    : Word64
  status : Nat
  /-- RANGE: slices whose voltage part still runs; UNPARK: slices that have closed. -/
  vmask  : Word
  /-- RANGE: slices whose voltage part has still to begin its hold (R142, R151). -/
  wmask  : Word
  time   : Word64
  deriving DecidableEq, Repr

/-- Ring pair r beside its registers. -/
structure Ring where
  /-- Commands fetched and not yet executed. -/
  fetched  : Nat
  /-- Node and group, in order, of the commands fetched before a host reset and not yet executed: they execute as they were bound,
  and their completions are discarded (R64). -/
  bound    : List (Nat × Nat)
  /-- Completion entries between CPL_HEAD and CPL_TAIL, oldest first (R367). -/
  cpl      : List Cpl
  /-- PHASE of the pass in progress (R369). -/
  phase    : Bool
  /-- Fetching stopped by an error (R379). -/
  stopped  : Bool
  /-- The BARRIER or FENCE that holds the ring, with its mask and the cycle of its timeout. -/
  held     : Option (Ctx × Word × Option Nat)
  /-- Relayed commands without a completion: INDEX and XFER of the frame, and the command (R372, R401, R412). -/
  relayed  : List (Nat × Word × Ctx × RingCmd)
  /-- Cycle from which the next command may execute (R370). -/
  next     : Nat
  deriving DecidableEq, Repr

/-- Capture channel c beside its registers (R380 to R382). -/
structure Chan where
  sgl     : List (Nat × Nat)
  size    : Nat
  /-- Records that arrived in RECORD frames and wait for the host buffer. -/
  queue   : List Rec
  /-- WRITTEN at the last writeback. -/
  backed  : Nat
  /-- WRITTEN and CONSUMED as the channel counts them. -/
  written  : Nat
  consumed : Nat
  /-- Record last written to the host buffer. -/
  out      : Option Rec
  deriving DecidableEq, Repr

/-- MSI-X vector v (R365). -/
structure Vect where
  masked  : Bool
  pending : Bool
  /-- An event waits for the send. -/
  due     : Bool
  /-- Cycle before which no send may follow (HOST_IRQ_HOLDOFF). -/
  free    : Nat
  sent    : Nat
  deriving DecidableEq, Repr

/-- A block reset performed (R344, R351): target number, start cycle, end (none while in progress), and the sources
that asked for it. -/
structure Reset where
  target  : Nat
  start   : Nat
  ended   : Option Nat
  sources : List Nat
  deriving DecidableEq, Repr

/-- The fault collector beside its registers (R345 to R351). -/
structure Collector where
  queue   : List Msg
  /-- Overflow slots, lowest source first. -/
  slots   : List Msg
  /-- Sources whose REAL bit carries ERR_PIN, whose INJECTED bit does, and whose REAL bit a Grave message set. -/
  errReal : List Nat
  errInj  : List Nat
  grave   : List Nat
  /-- Sources whose grave wire pulls ERR_N before their message has set the REAL bit. -/
  wired   : List Nat
  /-- Cycle at which ERR_N is released after the last bit that held it has cleared (R348). -/
  errUntil : Nat
  resets  : List Reset
  /-- Lane parity errors found whose restore awaits the first parity message (R174). -/
  lanes   : List Nat
  /-- Surveyor trap cause register (R342) and number of traps. -/
  trap    : Option Nat
  /-- Surveyor runs firmware since step 6 (R47). -/
  surveyor : Bool
  /-- Cycle of the watchdog's last kick. -/
  kickAt  : Nat
  deriving DecidableEq, Repr

/-- The plates of the Atlas image in force (R22), as far as no register holds them. -/
structure GroupRec where
  first  : Nat
  size   : Nat
  gang   : Nat
  strobe : Bool
  axis   : Nat
  orphan : Nat
  deriving DecidableEq, Repr

structure LaneRec where
  lane  : Nat
  slot  : Nat
  oversub : Bool
  add   : Bool
  outM  : Nat
  outPh : Nat
  deriving DecidableEq, Repr

structure RouteRec where
  fbV  : Nat
  fbI  : Nat
  kind : Nat
  idx  : Nat
  red  : Bool
  deriving DecidableEq, Repr

structure AxisRec where
  en   : Bool
  kind : Nat
  a    : Nat
  b    : Nat
  deriving DecidableEq, Repr

structure LinkRec where
  remote   : Bool
  ports    : Nat
  ring     : Bool
  count    : Nat
  upstream : Nat
  node     : Nat
  slots    : Nat
  auth     : Bool
  rotate   : Bool
  freeze   : Bool
  deriving DecidableEq, Repr

/-- The configuration in force (R22). -/
structure Plates where
  groups  : List GroupRec
  lanes   : List LaneRec
  routes  : List RouteRec
  /-- LIMITS record of each slice, with IRANGE_MAX and VRANGE_MAX (R29). -/
  limits  : List LimSet
  irMax   : List Nat
  vrMax   : List Nat
  trig    : List Nat
  loadCfg : Nat
  rgSafe  : List Nat
  smon    : List Nat
  cmpSafe : List Nat
  ppsEdge : Nat
  axes    : List AxisRec
  link    : LinkRec
  segOwner : List Nat
  agile   : List Nat
  induct  : Word
  parkOnReset : Bool
  recovery : Bool
  entry   : Nat
  deriving DecidableEq, Repr

/-- Start-up sequence (R47): the step reached, 0 with RESET_N low. -/
structure Boot where
  step    : Nat
  /-- Cycle of RESET_N rising. -/
  zero    : Nat
  /-- An image is staged over the link from this port (R53), with its length so far and whether LAST has come. -/
  kport   : Option Nat
  klen    : Nat
  klast   : Bool
  /-- A host push waits for its check (R45). -/
  push    : Bool
  /-- A partial image waits for its check, or its application runs: mask once R40 has passed (R41). -/
  partial_ : Bool
  pmask   : Word
  /-- Application of the partial image has begun (R41). -/
  papply  : Bool
  /-- A CHIP_RESET waits for the inductive ramps (R63). -/
  chip    : Bool
  /-- The sequence of R68 has begun, and some slice still parks. -/
  failRun : Bool
  /-- Release deferred by PWRFAIL_N or a brown-out until this cycle (R51). -/
  deferTo : Nat
  /-- Lifecycle command in progress. -/
  fuseCmd : Nat
  /-- The key hash the lifecycle command in progress programs, as read at ATLAS_STAGE_ADDR when it was taken (R61). -/
  fuseKey : BitVec 384
  /-- Majority of the SERVICE fuse as it will load at the next start-up (R58). -/
  fused : Bool
  deriving DecidableEq, Repr

/-- Levels of the input balls the device watches, and the supplies (R54, R67). -/
structure Pins where
  resetN   : Bool
  pwrfailN : Bool
  interlockN : Bool
  freezeN  : Bool
  perstN   : Bool
  /-- Rails whose brown-out detector is tripped, VDD_CORE, VDD_SRD, VDD_IO, VDD_A18, VDD_AP, VDD_AN. -/
  brown    : List Nat
  /-- Cycle at which INTERLOCK_N rose (R66). -/
  interlockAt : Nat
  /-- LOAD_OUT pulse: cycle at which it falls (R81). -/
  loadOut  : Nat
  /-- Levels of ENCn_A and ENCn_B (R272). -/
  encoder  : List (Bool × Bool)
  /-- Edges come at XIN (R288). -/
  xin      : Bool
  deriving DecidableEq, Repr

/-- One external axis (R272 to R275): its value at its last event and the cycle of that event; the interval between the
last two edges, or the period last measured; edges still wanted before it interpolates again; its direction; the value
at position 0 of the revolution; the last serial position; whether an event has come; the last two serial frames
(cycle, position) or the link samples (TIME, value), newest first; the cycle of the last count edge; and the cycle at which the
last serial frame began. -/
structure AxisSt where
  value   : Word64
  at_     : Nat
  period  : Nat
  held    : Nat
  dirUp   : Bool
  zero    : Word64
  raw     : Nat
  seen    : Bool
  frames  : List (Nat × Word64)
  samples : List (Word64 × Word64)
  edgeAt  : Option Nat
  pollAt  : Option Nat
  deriving DecidableEq, Repr

/-- The Meridian beside its registers (R264 to R280). -/
structure Mer where
  /-- Cycle of the last accepted PPS edge, or from which the 2.5 s of PPS_LOST run; none once lost (R267). -/
  ppsAt     : Option Nat
  /-- Cycles of the last consecutive outliers, newest first, at most two. -/
  outliers  : List Nat
  /-- The next edge is accepted as the first (R267). -/
  firstEdge : Bool
  /-- The next accepted edge steps TIME by its offset (R268). -/
  stepPending : Bool
  /-- Cycle of the last slew decrement (R269), and the rate of the TIME frames, 0 without one (R271). -/
  slewAt    : Nat
  linkRate  : Nat
  /-- Axes 1 to 4 (R264). -/
  axes      : List AxisSt
  /-- A TIME frame has come since boot, and the cycle of the last one (R271). -/
  linkSeen  : Bool
  linkAt    : Nat
  /-- TIME and cycle of the PTM request that waits for its response (R280). -/
  ptmOpen   : Option Word64
  ptmAt     : Nat
  /-- Cycle from which INTERVAL_MS runs (R280). -/
  ptmTimer  : Nat
  linkLost  : Bool
  deriving DecidableEq, Repr

/-- The clocking system beside its registers (R289 to R297). -/
structure Clk where
  /-- Consecutive updates or comparisons within ±2 ns. -/
  okRun   : Nat
  /-- Phase of the previous update, ps. -/
  last    : Option Int
  /-- Phase trim that was still to run at cycle `trimAt`, ps, signed (R290). -/
  trim    : Int
  trimAt  : Nat
  /-- Slips met while frozen: the active PLL lost lock with no standby ready (R298). -/
  lateLoss : Bool
  /-- The fallback clock is the on-die oscillator: XIN is lost. -/
  osc     : Bool
  /-- REFIN's loss has been reported, and the cycle from which QUAL_MS runs (R291). -/
  refLost : Bool
  lostAt  : Nat
  /-- REFIN has been qualified since the boot: its phase can be predicted (R292). -/
  refSeen : Bool
  deriving DecidableEq, Repr

/-- A tile test in progress (R306): the position b × 520 + tile, its first cycle, and whether R304 or a BLOCK_RESET queued it. -/
structure TileTest where
  tile    : Nat
  start   : Nat
  retest  : Bool
  deriving DecidableEq, Repr

/-- A sampled monitor beside its registers: its ticks, which stand for a tag (R209), the cycle of the latest (R162), and whether an
undecided output stands in HI's band (R158). -/
structure Mon where
  ticks  : Nat
  at_    : Nat
  undecHi : Bool
  deriving DecidableEq, Repr

/-- Memory integrity beside its registers (R303 to R312). -/
structure MemSt where
  /-- Erroneous words: index of the 64-bit word in BAR2, and whether the error is uncorrectable. -/
  bad      : List (Nat × Bool)
  /-- Words whose scrub is still due (R304). -/
  scrub    : List Nat
  test     : Option TileTest
  /-- A pace tick fell before the previous test was done (R308). -/
  due      : Bool
  retest   : List Nat
  /-- Remapped tiles: position and the spare in use. -/
  remap    : List (Nat × Nat)
  /-- Positions of tiles and spares recorded bad, and of unrepaired tiles (R311). -/
  dead     : List Nat
  /-- Entries of the repair list, committed or not, oldest first (R312). -/
  entries  : List Word
  /-- Cycle at which the commit in progress began; a commit waits behind a Datum commit (R316). -/
  commit   : Option Nat
  waiting  : Bool
  /-- Position of the pass that follows the last one tested, and the cycle of the last pace tick (R308). -/
  next     : Nat
  paceAt   : Nat
  deriving DecidableEq, Repr

/-- A CALIBRATE that runs (R329). -/
structure CalRun where
  ctx   : Ctx
  kind  : Nat
  p     : CalP
  group : Nat
  mask  : Word
  start : Nat
  /-- A freeze or a power-fail sequence has met the run (R330 code 2). -/
  broken : Bool
  /-- Temperature of each octant at the checks before the first point (R330 code 3). -/
  temps : List Int
  deriving DecidableEq, Repr

/-- A commit that runs (R333): target bank 0 F, 1 A, 2 B. -/
structure CommitRun where
  ctx    : Ctx
  bank   : Nat
  staged : Option Nat
  start  : Nat
  time   : Word64
  /-- The target's header is erased and its counter advanced; not yet while the commit waits for the die (R316). -/
  begun  : Bool
  deriving DecidableEq, Repr

/-- The Datum path beside its registers and the die. -/
structure DatumSt where
  cal     : Option CalRun
  commit  : Option CommitRun
  /-- Slices whose records are restored before the next run of the service (R326). -/
  restore : List Nat
  /-- Cycle of the latest run of the service. -/
  serviceAt : Nat
  deriving DecidableEq, Repr

/-- What a frame carries (R395). -/
inductive Body where
  | command (ring index : Nat) (xfer : Word) (hdr : Hdr) (cmd : RingCmd)
  | keyLoad (wrap : List Word)
  | completion (ring : Nat) (c : Cpl)
  | records (group : Nat) (first : Nat) (recs : List Rec)
  | station (addr : Word) (data : List Byte) (boot last : Bool)
  | timeSync (slew : Nat) (second : Bool) (t : Word64)
  | timeStep (t d : Word64)
  | timeAxis (axis : Nat) (t v : Word64)
  | trigger (engines : Word) (nodes : BitVec 16)
  | freeze (origin : Nat)
  | fault (m : Msg) (atlasError : Word) (state : Nat)
  | heartbeat (b : Beat)
  deriving DecidableEq, Repr

/-- A frame on its way out of a port: destination 15 means all nodes (R392). -/
structure TxFrame where
  dst     : Nat
  src     : Nat
  seq     : Nat
  counter : Nat
  body    : Body
  deriving DecidableEq, Repr

/-- A virtual channel 0, 1 or 2 of a port (R396, R397, R403). -/
structure Vc where
  txSeq    : Nat
  rxSeq    : Nat
  credits  : Nat
  /-- Credits to return. -/
  owed     : Nat
  txCount  : Nat
  rxCount  : Nat
  unacked  : List TxFrame
  waiting  : List TxFrame
  /-- Credits of RECORD frames withheld while their channel is full or stopped (R381). -/
  withheld : Nat
  deriving DecidableEq, Repr

/-- A Kortor port beside its registers. -/
structure Port where
  session   : Word64
  peer      : Option Word64
  /-- Cycle of the last heartbeat received, or since which the port waits for one. -/
  heardAt   : Nat
  /-- RESTARTED is announced, since the cycle given (R403). -/
  restart   : Option Nat
  vcs       : Vector Vc 3
  /-- Replay counters of the link frames, VC 3: of the next one sent, and of the last one accepted (R403). -/
  beatTx    : Nat
  beatRx    : Nat
  /-- The partner's session whose restart announcement has been acted on. -/
  restartOf : Option Word64
  nakDue    : Bool
  failAt    : List Nat
  quarAt    : Nat
  /-- Twice the one-way delays of the last 16 heartbeats, ns, newest first (R399). -/
  delays    : List Int
  /-- T_TX of the partner's last heartbeat and the TIME it arrived. -/
  echo      : Option (Word64 × Word64)
  downAt    : Option Nat
  /-- Last link frame sent. -/
  sent      : Option TxFrame
  deriving DecidableEq, Repr

/-- A relayed command that waits on a remote for its STATION_DATA frames (R412), since the cycle given. -/
structure XferWait where
  ring  : Nat
  index : Nat
  xfer  : Nat
  hdr   : Hdr
  cmd   : RingCmd
  since : Nat
  deriving DecidableEq, Repr

/-- The link beside its registers. -/
structure LinkSt where
  ports    : Vector Port 2
  keys     : Vector (Option (BitVec 256)) 8
  /-- Highest LOAD_SEQ accepted since boot (R406). -/
  loadSeq  : Nat
  /-- STATION_DATA frames written on this remote (R412). -/
  written  : Nat
  xferWait : List XferWait
  /-- Completions sent, newest first: ring, index, completion (R401). -/
  done     : List (Nat × Nat × Cpl)
  /-- The last TRIGGER acted on and the port it came by (R401). -/
  trig     : Option (Word × BitVec 16 × Nat)
  /-- T and V of the last STEP acted on (R401, R407). -/
  step     : Option (Word64 × Word64)
  /-- Milliseconds of TIME at the last TIME SYNC sent, and microseconds at the last AXIS frame (R407, R408). -/
  syncMs   : Nat
  axisUs   : Nat
  /-- Node of the transfer that runs (R411). -/
  xferNode : Nat
  /-- Records sent by each group (FIRST, R395). -/
  sentRecs : List (Nat × Nat)
  /-- FIRST expected next of each node and group (R401). -/
  recvRecs : List ((Nat × Nat) × Nat)
  deriving DecidableEq, Repr

/-- Freeze and the test port (R421 to R429). -/
structure Frz where
  frozen   : Bool
  cause    : Nat
  unlocked : Bool
  lockedOut : Bool
  refused  : Bool
  busy     : Bool
  count    : Nat
  fails    : Nat
  rnd      : BitVec 384
  /-- The response under check: KEY_INDEX, PUBLIC_KEY and SIGNATURE. -/
  verify   : Option (Word × List Byte × List Byte)
  scanSel  : Nat
  /-- Shifts of the selected chain away from home. -/
  shifts   : Nat
  memAddr  : Word
  memData  : BitVec 80
  /-- Width and content of the data register last captured, as TDO shifts it out. -/
  dr       : Nat × Nat
  /-- Boundary cells last preloaded. -/
  cells    : List Bool
  bypass   : Bool
  /-- EXTEST drives the balls from `cells`. -/
  extest   : Bool
  /-- Core cycles stopped so far in this freeze, as the counter ahead of the gates counts them (R279). -/
  span     : Nat
  /-- The link to the host was up when the freeze began (R429). -/
  linkUp   : Bool
  /-- Grave sources whose wires were asserted during the freeze (R355). -/
  wires    : List Nat
  /-- INTERLOCK_N fell during the freeze: the clocked park comes at thaw (R65). -/
  lock     : Bool
  deriving DecidableEq, Repr

/-- The endpoint's configuration state (R360, R365). -/
structure Cfg where
  d3     : Bool
  ptm    : Bool
  msix   : Bool
  fmask  : Bool
  /-- The link to the host is up. -/
  link   : Bool
  deriving DecidableEq, Repr

/-- What the block last answered to a read: the data, the poisoned bit, or Configuration Request Retry Status. -/
structure Answer where
  data     : Word64
  poisoned : Bool
  retry    : Bool
  deriving DecidableEq, Repr

/-- The fuses (R19, R58, R61). `blown0` and `blown1` say that some bit of the hash slot is blown. -/
structure Fuses where
  hash0   : BitVec 384
  hash1   : BitVec 384
  valid0  : Bool
  valid1  : Bool
  blown0  : Bool
  blown1  : Bool
  revoked : BitVec 2
  service : BitVec 3
  uid     : Word64
  deriving DecidableEq, Repr

/-- Everything that runs on power: registers, stores, the Datum die and the units. -/
structure Dev where
  /-- Core cycles run since power-on, those stopped in freeze left out, and Meridian TIME. -/
  now     : Nat
  time    : Word64
  /-- Index of the next free value (Config); the model's own field. -/
  freeCtr : Nat
  /-- BAR0 register words by offset that differ from their reset value. -/
  regs    : List (Nat × Word)
  /-- BAR2 bytes that are not zero. -/
  mem     : List Host.Cell
  /-- Bytes of the Datum die that are not erased (0xFF). -/
  nvm     : List Host.Cell
  slices  : Vector Slice 32
  gens    : Vector Gen 32
  lanes   : Vector Lane 32
  engines : Vector Engine 32
  rings   : Vector Ring 32
  chans   : Vector Chan 32
  vects   : Vector Vect 40
  sched   : List Sched
  col     : Collector
  plates  : Plates
  boot    : Boot
  pins    : Pins
  mer     : Mer
  clk     : Clk
  memst   : MemSt
  mons    : Vector Mon 32
  datum   : DatumSt
  link    : LinkSt
  frz     : Frz
  cfg     : Cfg
  /-- State of each station segment, 0 FREE, 1 READY, 2 ACTIVE, 3 DONE, and its KEEP bit (R249). -/
  segs    : Vector (Nat × Bool) 64
  /-- Group whose row was written last (R121). -/
  rowLast : Nat
  /-- High words latched: requester, offset of the low word, value (R265). -/
  latches : List (Requester × Nat × Word)
  /-- Values staged by a _V write: requester, offset of the pair, value (R314). -/
  staged  : List (Requester × Nat × Word)
  answer  : Answer
  deriving DecidableEq, Repr

/-- The whole block: what runs on power, the fuses, and the commands that wait, first in, first out. -/
structure State extends Dev where
  fuses   : Fuses
  pending : List Instr
  deriving DecidableEq, Repr

/-- A pair at rest: the value and its complement match. -/
def Pair.of (w : Word) : Pair := ⟨w, ~~~w, w⟩

/-- The reset set of R180: A1 is −1, everything else zero. -/
def CoefReg.atReset : CoefReg :=
  ⟨0x80000000000000000000#128, ~~~0x80000000000000000000#128, 0x80000000000000000000#128⟩

/-- Limits of zero with matching complements (DESIGN CHOICE, notes/assumptions/2.md). -/
def LimSet.atReset : LimSet := ⟨0, 0, 0, 0, ~~~0, ~~~0, ~~~0, ~~~0, 0⟩

def Taps.zero : Taps := ⟨0, 0, 0, 0, 0, 0⟩
def Filt.zero : Filt := ⟨0, 0, 0, 0, 0, 0, 0, 15, 0⟩
def RecAt.zero : RecAt := ⟨0, 0, 0, 15, false⟩
def Corr.idle : Corr := ⟨0, 0, 0, 0, 0, 0, 0, false⟩

/-- Full scales of a slice when no Datum image is valid (R324): 10 fA-decades from 10 nA to 10 A are given by R131,
in fA, then 20 mV, 200 mV, 2 V and 20 V in nV. -/
def fsDefault : List Int :=
  [10000000, 100000000, 1000000000, 10000000000, 100000000000, 1000000000000, 10000000000000, 100000000000000,
   1000000000000000, 10000000000000000, 20000000, 200000000, 2000000000, 20000000000]

/-- A slice after a reset: parked, on the clockless default (R54, R98). -/
def Slice.atReset : Slice :=
  { phase := .parked, enabled := false, dflt := true, gate := false, queue := [], holding := 0, rg := 0,
    prgPwm := none, prgAt := 0, latchAt := none, pendCode := none, flight := [], hist := [], dropV := false, dropIa := false, dropIb := false,
    dropCode := false, dropRg := false, dropEdge := false, dropThr := false, dropCtl := false,
    monAt := none, monRaised := false, tag := 0, tagB := 0, awaits := false, instant := 0, instantAt := 0, mains := 0, stationWas := none, sp := .of 0, spWait := none, limits := .atReset, limGood := .atReset, hardGood := .atReset, limPassed := false, limQ := ⟨0, 0, 0, 0⟩,
    coefM := .atReset, coefL := .atReset, coefO := .atReset, tapsM := .zero, tapsL := .zero, tapsO := .zero,
    yLast := 0, goodMin := 0x80000, goodMax := 0x7FFFF, goodXm := 0x400, goodOsp := 0, goodOlo := 0x80000000, goodOhi := 0x7FFFFFFF, goodHead := 0x01F407D0, goodPark := 0, goodVel := 0, goodAcc := 0, goodJerk := 0, parkMis := false,
    closing := false, reinit := false, gcode := 0, held := false, fbTags := [], outTags := [], outerWait := none, stale := 0, err := 0, trim := 0, runs := [],
    errRun := 0, codes := [], unrestored := false, restoring := false, rstep := none, vhold := none, vNew := 0,
    vWait := none, eM := 0, eL := 0, downRun := 0, quietAt := 0, holdEnds := false, clampN := false,
    levelAtFreeze := 0, tripped := false, winTick := 0, winUndecHi := false, winOffer := none, monPark := false, fV := .zero, fA := .zero, fB := .zero, wCount := 0, fillRec := 0,
    wOpen := false, thawed := false, wAt := .zero, wSettle := 0, wIndex := 0,
    wNext := false, wThen := none, wDone := [], recDone := none, recTime := 0, recBit := false, corr := .idle, prgU := 0, prgE := 0, prgOc := 0, prgLow := 0, prgStop := false, prgTick := 0,
    agile := none, capture := none, station := 0, lastKind := 0xFF, c0 := [], cT := [], cK := 0, cS := 0, cAt := 0, cLen := 0,
    fs := fsDefault, fsNext := fsDefault }

def Contour.atReset : Contour := ⟨0, 0, 0, 0, [], false, 0, 0, 0⟩

/-- Generator n after a reset: the LFSR holds the reset seed n + 1 (R229, R236). -/
def Gen.atReset (n : Nat) : Gen := ⟨.atReset, BitVec.ofNat 32 (n + 1), 0⟩

def Engine.atReset : Engine :=
  { pos := none, next := none, waitTicks := 0, metAt := none, late := false, heldLate := 0, applied := false,
    latch := none, filling := none, armed := none, armWait := none, command := none, held := none, resume := none, between := false, unfinished := false, due := false, stops := [], start := none, waiters := [],
    window := .none, used := [], tickTime := 0, tickAt := 0, tickMin := 0, divOld := none, strobeAt := 0, strobeTime := 0, rows := [], gap := none,
    armStart := 0, arm := none, orphaned := false }

def Ring.atReset : Ring :=
  { fetched := 0, bound := [], cpl := [], phase := true, stopped := false, held := none, relayed := [], next := 0 }

def Chan.atReset : Chan := ⟨[], 0, [], 0, 0, 0, none⟩
/-- Each vector starts masked, as the MSI-X standard has it (PRESUMED, notes/assumptions/2.md). -/
def Vect.atReset : Vect := ⟨true, false, false, 0, 0⟩

def Collector.atReset : Collector :=
  { queue := [], slots := [], errReal := [], errInj := [], grave := [], wired := [], errUntil := 0, resets := [], lanes := [],
    trap := none, surveyor := false, kickAt := 0 }

/-- No image applied: no group, no lane assigned, no limits, pins off. The device
does nothing with these before an image replaces them (R47). -/
def Plates.none : Plates :=
  { groups := [], lanes := [], routes := [], limits := [], irMax := [], vrMax := [], trig := [], loadCfg := 0,
    rgSafe := [], smon := [], cmpSafe := [], ppsEdge := 1, axes := [],
    link := ⟨false, 0, false, 0, 0, 0, 8, false, false, false⟩, segOwner := [], agile := [], induct := 0,
    parkOnReset := false, recovery := false, entry := 0 }

def Boot.atReset : Boot :=
  { step := 0, zero := 0, kport := none, klen := 0, klast := false, push := false,
    partial_ := false, pmask := 0, papply := false, chip := false, failRun := false, deferTo := 0, fuseCmd := 0, fuseKey := 0, fused := false }

def AxisSt.atReset : AxisSt := ⟨0, 0, 0, 0, true, 0, 0, false, [], [], none, none⟩

def Mer.atReset : Mer :=
  { ppsAt := none, outliers := [], firstEdge := true, stepPending := false, slewAt := 0, linkRate := 0
    axes := [.atReset, .atReset, .atReset, .atReset], linkSeen := false, linkAt := 0, ptmOpen := none, ptmAt := 0, ptmTimer := 0
    linkLost := false }

def Clk.atReset : Clk := ⟨0, none, 0, 0, false, false, false, 0, false⟩
def MemSt.atReset : MemSt := ⟨[], [], none, false, [], [], [], [], none, false, 0, 0⟩
def DatumSt.atReset : DatumSt := ⟨none, none, [], 0⟩

/-- A virtual channel after boot: replay counters start at 1 (R403), 32 credits (R396). -/
def Vc.atReset : Vc := ⟨0, 0, 32, 0, 1, 0, [], [], 0⟩

def Port.atReset : Port :=
  { session := 0, peer := none, heardAt := 0, restart := none, vcs := Vector.replicate 3 .atReset, beatTx := 1, beatRx := 0,
    restartOf := none, nakDue := false,
    failAt := [], quarAt := 0, delays := [], echo := none, downAt := none, sent := none }

def LinkSt.atReset : LinkSt :=
  { ports := Vector.replicate 2 .atReset, keys := Vector.replicate 8 none, loadSeq := 0, written := 0, step := none, syncMs := 0, axisUs := 0, xferNode := 0,
    xferWait := [], done := [], trig := none, sentRecs := [], recvRecs := [] }

def Frz.atReset : Frz :=
  { frozen := false, cause := 0, unlocked := false, lockedOut := false, refused := false, busy := false, count := 0,
    fails := 0, rnd := 0, verify := none, scanSel := 0, shifts := 0, memAddr := 0, memData := 0, dr := (0, 0),
    cells := [], bypass := false, extest := false, span := 0, linkUp := false, wires := [], lock := false }

/-- The block right after power-on reset; `Dev.resetAll` in Machine/Resets.lean says what RESET_N low keeps when no supply
has failed. RESET_N is low (R46, R54, R72), the input balls at their inactive levels but RESET_N and PERST#
(DESIGN CHOICE, notes/assumptions/2.md). -/
def Dev.atPowerOn : Dev :=
  { now := 0, time := 0, freeCtr := 0, regs := [], mem := [], nvm := [],
    slices := Vector.replicate 32 .atReset, gens := Vector.ofFn (fun n => .atReset n.val),
    lanes := Vector.replicate 32 ⟨0, 0⟩, engines := Vector.replicate 32 .atReset,
    rings := Vector.replicate 32 .atReset, chans := Vector.replicate 32 .atReset,
    vects := Vector.replicate 40 .atReset, sched := [], col := .atReset, plates := .none, boot := .atReset,
    pins := ⟨false, true, true, true, false, [], 0, 0, [(false, false), (false, false)], true⟩, mer := .atReset, clk := .atReset, memst := .atReset,
    mons := Vector.replicate 32 ⟨0, 0, false⟩, datum := .atReset, link := .atReset, frz := .atReset, cfg := ⟨false, false, false, false, false⟩,
    segs := Vector.replicate 64 (0, false), rowLast := 31, latches := [], staged := [], answer := ⟨0, false, false⟩ }

/-- Fuses as the device leaves the factory: no key hash, no key revoked, the SERVICE fuse whole (R58). -/
def Fuses.factory : Fuses :=
  { hash0 := 0, hash1 := 0, valid0 := false, valid1 := false, blown0 := false, blown1 := false, revoked := 0,
    service := 0, uid := Config.uid }

/-- The machine right after reset: power-on reset has taken place and RESET_N is still low (R46). -/
def State.reset : State := { toDev := .atPowerOn, fuses := .factory, pending := [] }

end Sys2Proof.Machine
end

