-- ==== Sys2Proof/Machine/Ops.lean ====
section
/-! DEFINITION. The named operations every meaning is written with: the sparse stores, register words and fields,
BAR2 bytes, the Datum die, time, free values, groups, and MSI-X vectors. -/

namespace Sys2Proof.Machine

/-! ## Bits of numbers and words -/

/-- Bits [lo+w−1 : lo] of a number. -/
def getBits (x lo w : Nat) : Nat := x / 2 ^ lo % 2 ^ w

/-- `x` with bits [lo+w−1 : lo] replaced by `v`. -/
def putBits (x lo w v : Nat) : Nat := x - getBits x lo w * 2 ^ lo + v % 2 ^ w * 2 ^ lo

/-- Bit `i` of a number. -/
def bitOf (x i : Nat) : Bool := x / 2 ^ i % 2 == 1

/-- A number read as a two's-complement integer of `w` bits. -/
def signed (w x : Nat) : Int := if x % 2 ^ w < 2 ^ (w - 1) then (x % 2 ^ w : Nat) else (x % 2 ^ w : Nat) - (2 ^ w : Nat)

/-- An integer as a two's-complement number of `w` bits. -/
def unsigned (w : Nat) (i : Int) : Nat := (i % (2 ^ w : Nat)).toNat

/-- An integer held to [lo, hi]. -/
def clampI (lo hi i : Int) : Int := max lo (min hi i)

/-- An integer saturated to `w` bits, two's complement. -/
def satS (w : Nat) (i : Int) : Int := clampI (-(2 ^ (w - 1) : Nat)) ((2 ^ (w - 1) : Nat) - 1) i

/-- Quotient rounded to the nearest integer, ties away from zero (R326, R327), for a positive divisor. -/
def roundDiv (a b : Int) : Int := if 0 ≤ a then (2 * a + b) / (2 * b) else -((2 * -a + b) / (2 * b))

/-- A quotient whose rounding the manual leaves open: the integer below it, or where it is not whole possibly the one
above; which, is a free value (DESIGN CHOICE, notes/assumptions/4.md). -/
def openDiv (a b : Int) : Int := a / b + (if a % b = 0 then 0 else clampI 0 1 (Config.approx 0 [a, b]))

/-- A slice number taken modulo 32. -/
def sid (n : Nat) : SliceId := Fin.ofNat 32 n

/-- The set bits of a 32-bit mask, in ascending order. -/
def maskList (m : Word) : List Nat := (List.range 32).filter (fun i => m.getLsbD i)

/-! ## Sparse stores: ascending keys, no entry at the default -/

/-- What a sparse store holds at `a`. -/
def Store.get {α : Type} (d : α) (l : List (Nat × α)) (a : Nat) : α :=
  match l.find? (fun c => c.1 == a) with
  | some c => c.2
  | none => d

/-- Insert a pair before the first greater key. -/
def Store.insert {α : Type} (a : Nat) (v : α) : List (Nat × α) → List (Nat × α)
  | [] => [(a, v)]
  | c :: l => if a < c.1 then (a, v) :: c :: l else c :: Store.insert a v l

/-- A sparse store with `v` at `a`: the default is not listed. -/
def Store.set {α : Type} [DecidableEq α] (d : α) (l : List (Nat × α)) (a : Nat) (v : α) : List (Nat × α) :=
  if v = d then l.filter (fun c => !(c.1 == a)) else Store.insert a v (l.filter (fun c => !(c.1 == a)))

/-- The canonical form of a sparse store: keys strictly rise and no entry holds the default. -/
def Store.wf {α : Type} [DecidableEq α] (d : Nat → α) (l : List (Nat × α)) : Bool :=
  l.all (fun c => decide (c.2 ≠ d c.1)) && decide (l.Pairwise (fun x y => x.1 < y.1))

/-! ## Registers -/

/-- The register word at BAR0 offset `a`. -/
def Dev.rd (s : Dev) (a : Nat) : Word := Store.get (regReset a) s.regs a

/-- Store a register word. -/
def Dev.wr (s : Dev) (a : Nat) (v : Word) : Dev := { s with regs := Store.set (regReset a) s.regs a v }

/-- A field of the unit at `base`, as a number. -/
def Dev.fld (s : Dev) (base : Nat) (f : Fld) : Nat := getBits (s.rd (base + f.off)).toNat f.lo f.w

/-- Set a field of the unit at `base`. -/
def Dev.setFld (s : Dev) (base : Nat) (f : Fld) (v : Nat) : Dev :=
  s.wr (base + f.off) (BitVec.ofNat 32 (putBits (s.rd (base + f.off)).toNat f.lo f.w v))

/-- Is a one-bit field set? -/
def Dev.flag (s : Dev) (base : Nat) (f : Fld) : Bool := s.fld base f == 1

/-- Set or clear a one-bit field. -/
def Dev.setFlag (s : Dev) (base : Nat) (f : Fld) (b : Bool) : Dev := s.setFld base f b.toNat

/-- Add to a counter field, modulo its width. -/
def Dev.addFld (s : Dev) (base : Nat) (f : Fld) (n : Nat) : Dev := s.setFld base f (s.fld base f + n)

/-- Add one to a counter word, saturating. -/
def Dev.bumpSat (s : Dev) (a : Nat) : Dev :=
  if s.rd a = 0xFFFFFFFF then s else s.wr a (s.rd a + 1)

/-- Add to a counter word, modulo 2³². -/
def Dev.addWord (s : Dev) (a n : Nat) : Dev := s.wr a (s.rd a + BitVec.ofNat 32 n)

/-- A write of a register word: the bits its table marks RW or WO take the value written, a one clears a W1C bit, the others
stay (R3, R4). -/
def Dev.store (s : Dev) (a : Nat) (v : Word) : Dev :=
  match regRow a with
  | some r =>
    let m := BitVec.ofNat 32 r.rw ||| BitVec.ofNat 32 r.wo
    s.wr a (((s.rd a &&& ~~~m) ||| (v &&& m)) &&& ~~~(v &&& BitVec.ofNat 32 r.w1c))
  | none => s

/-- A 64-bit register held in two words, low at `lo`, high at `hi`. -/
def Dev.rd64 (s : Dev) (lo hi : Nat) : Word64 := (s.rd hi) ++ (s.rd lo)

/-- Store a 64-bit register in its two words. -/
def Dev.wr64 (s : Dev) (lo hi : Nat) (v : Word64) : Dev :=
  (s.wr lo (v.extractLsb' 0 32)).wr hi (v.extractLsb' 32 32)

/-! ## Units -/

def Dev.sl (s : Dev) (n : SliceId) : Slice := s.slices.get n
def Dev.setSl (s : Dev) (n : SliceId) (x : Slice) : Dev := { s with slices := s.slices.set n.val x n.isLt }
def Dev.modSl (s : Dev) (n : SliceId) (f : Slice → Slice) : Dev := s.setSl n (f (s.sl n))
def Dev.gen (s : Dev) (n : SliceId) : Gen := s.gens.get n
def Dev.modGen (s : Dev) (n : SliceId) (f : Gen → Gen) : Dev :=
  { s with gens := s.gens.set n.val (f (s.gens.get n)) n.isLt }
def Dev.eng (s : Dev) (g : GroupId) : Engine := s.engines.get g
def Dev.modEng (s : Dev) (g : GroupId) (f : Engine → Engine) : Dev :=
  { s with engines := s.engines.set g.val (f (s.engines.get g)) g.isLt }
def Dev.ring (s : Dev) (r : RingId) : Ring := s.rings.get r
def Dev.modRing (s : Dev) (r : RingId) (f : Ring → Ring) : Dev :=
  { s with rings := s.rings.set r.val (f (s.rings.get r)) r.isLt }
def Dev.chan (s : Dev) (c : RingId) : Chan := s.chans.get c
def Dev.modChan (s : Dev) (c : RingId) (f : Chan → Chan) : Dev :=
  { s with chans := s.chans.set c.val (f (s.chans.get c)) c.isLt }
def Dev.modLane (s : Dev) (l : LaneId) (f : Lane → Lane) : Dev :=
  { s with lanes := s.lanes.set l.val (f (s.lanes.get l)) l.isLt }
def Dev.modMon (s : Dev) (m : SliceId) (f : Mon → Mon) : Dev :=
  { s with mons := s.mons.set m.val (f (s.mons.get m)) m.isLt }
def Dev.modVect (s : Dev) (v : Fin 40) (f : Vect → Vect) : Dev :=
  { s with vects := s.vects.set v.val (f (s.vects.get v)) v.isLt }
def Dev.port (s : Dev) (p : PortId) : Port := s.link.ports.get p
def Dev.modPort (s : Dev) (p : PortId) (f : Port → Port) : Dev :=
  { s with link := { s.link with ports := s.link.ports.set p.val (f (s.link.ports.get p)) p.isLt } }

/-- Base of the slice, generator or engine block a unit number names. -/
abbrev sB (n : SliceId) : Nat := sliceBase n.val
abbrev gB (n : SliceId) : Nat := genBase n.val
abbrev tB (g : GroupId) : Nat := travBase g.val
abbrev rB (r : RingId) : Nat := ringBase r.val
abbrev cB (c : RingId) : Nat := capBase c.val
abbrev pB (p : PortId) : Nat := portBase p.val

/-- Node and group the next fetched command of ring `r` was bound to as it was fetched (R64, R366). -/
def Dev.binding (s : Dev) (r : RingId) : Nat × Nat :=
  match (s.ring r).bound with
  | b :: _ => b
  | [] => (s.fld (rB r) HOST_RING_CFG_NODE, s.fld (rB r) HOST_RING_CFG_GROUP)

/-- Apply a change for each element of a list, in order. -/
def Dev.each {α : Type} (s : Dev) (l : List α) (f : Dev → α → Dev) : Dev := l.foldl f s

/-- A change made only when a condition holds. -/
def Dev.when (s : Dev) (b : Bool) (f : Dev → Dev) : Dev := if b then f s else s

/-! ## BAR2 bytes and the Datum die -/

/-- The byte of a store at a BAR2 offset; a byte nothing has written reads zero (DESIGN CHOICE, notes/assumptions/3.md). -/
def Dev.byte (s : Dev) (a : Nat) : Byte := Store.get 0 s.mem a

/-- Write one byte of a store. -/
def Dev.setByte (s : Dev) (a : Nat) (v : Byte) : Dev := { s with mem := Store.set 0 s.mem a v }

/-- Write consecutive bytes. -/
def Dev.setBytes (s : Dev) (a : Nat) : List Byte → Dev
  | [] => s
  | b :: l => (s.setByte a b).setBytes (a + 1) l

def Dev.modMem (s : Dev) (f : MemSt → MemSt) : Dev := { s with memst := f s.memst }

/-- A write of the device or of a requester to a store: the words it touches are written afresh with good check bits, and
a scrub that waits for one is dropped (R302, R304). -/
def Dev.put (s : Dev) (a : Nat) (l : List Byte) : Dev :=
  let clear := fun (w : Nat) => decide (w < a / 8) || decide ((a + l.length - 1) / 8 < w)
  (s.setBytes a l).modMem (fun m => { m with bad := m.bad.filter (fun b => clear b.1), scrub := m.scrub.filter clear })

/-- `n` consecutive bytes. -/
def Dev.bytes (s : Dev) (a n : Nat) : List Byte := (List.range n).map (fun i => s.byte (a + i))

/-- A little-endian number (R3). -/
def leNat : List Byte → Nat
  | [] => 0
  | b :: l => b.toNat + 256 * leNat l

/-- A number as `n` bytes, little-endian. -/
def leBytes : Nat → Nat → List Byte
  | 0, _ => []
  | n + 1, v => BitVec.ofNat 8 v :: leBytes n (v / 256)

/-- A little-endian number of `n` bytes in BAR2. -/
def Dev.num (s : Dev) (a n : Nat) : Nat := leNat (s.bytes a n)

def Dev.word (s : Dev) (a : Nat) : Word := BitVec.ofNat 32 (s.num a 4)
def Dev.word64 (s : Dev) (a : Nat) : Word64 := BitVec.ofNat 64 (s.num a 8)

/-- The byte of the Datum die at an offset; erased bytes read 0xFF (R319). -/
def Dev.nvByte (s : Dev) (a : Nat) : Byte := Store.get 0xFF s.nvm a
def Dev.setNv (s : Dev) (a : Nat) : List Byte → Dev
  | [] => s
  | b :: l => { s with nvm := Store.set 0xFF s.nvm a b }.setNv (a + 1) l
def Dev.nvNum (s : Dev) (a n : Nat) : Nat := leNat ((List.range n).map (fun i => s.nvByte (a + i)))
def Dev.nvBytes (s : Dev) (a n : Nat) : List Byte := (List.range n).map (fun i => s.nvByte (a + i))

/-- Is a BAR2 offset backed by a bank (R301, R302)? -/
def backed (a : Nat) : Bool := a < 0x27E0000 || (0x2800000 ≤ a && a < 0x2820000)

/-- Does [a, a + n) lie in the system store? -/
def inSystem (a n : Nat) : Bool := 0x2400000 ≤ a && a + n ≤ 0x27E0000

/-! ## Time -/

/-- RESET_N is high and no freeze is in force: the device's own logic runs. -/
def Dev.awake (s : Dev) : Bool := s.pins.resetN && !s.frz.frozen

def Dev.fallback (s : Dev) : Bool := s.flag 0 CLK_STATUS_FALLBACK

/-- The domains R297 stops on the fallback clock are running. -/
def Dev.domains (s : Dev) : Bool := s.awake && decide (6 ≤ s.boot.step) && !s.fallback

/-- Release has taken place (R60). -/
def Dev.released (s : Dev) : Bool := s.flag 0 GLOBAL_STATUS_READY

/-- `d` core cycles pass: TIME counts one a cycle, ten on the fallback clock, nothing before step 3 of R47 has ended
(R266, R297). In freeze they are stopped, and counted as such (R279). -/
def Dev.pass (s : Dev) (d : Nat) : Dev :=
  if s.frz.frozen then { s with frz := { s.frz with span := s.frz.span + d } }
  else
    { s with
      now := s.now + d
      time := if s.awake && decide (4 ≤ s.boot.step) then s.time + BitVec.ofNat 64 (if s.fallback then 10 * d else d) else s.time }

/-- Time runs on to cycle `c`; a cycle already past changes nothing (DESIGN CHOICE, notes/assumptions/5.md). -/
def Dev.upTo (s : Dev) (c : Nat) : Dev := s.pass (c - s.now)

/-- The cycle of the first TIME value at or after `t`, seen from now. -/
def Dev.cycleOf (s : Dev) (t : Word64) : Nat := if t.toNat ≤ s.time.toNat then s.now else s.now + (t.toNat - s.time.toNat)

/-- Index of the next free value, which the state counts. -/
def Dev.draw (s : Dev) : Dev := { s with freeCtr := s.freeCtr + 1 }

/-! ## Groups -/

/-- The group whose number is `g` (R6). -/
def Dev.group (s : Dev) (g : Nat) : Option GroupRec := s.plates.groups.find? (fun r => r.first == g)

/-- The group slice `n` belongs to. -/
def Dev.groupOf (s : Dev) (n : Nat) : Option GroupRec :=
  s.plates.groups.find? (fun r => decide (r.first ≤ n) && decide (n < r.first + r.size))

def GroupRec.slices (r : GroupRec) : List SliceId := (List.range r.size).map (fun i => sid (r.first + i))

/-- Number of the lowest slice of the group that holds slice `n`; `n` itself outside every group. -/
def Dev.low (s : Dev) (n : SliceId) : SliceId :=
  match s.groupOf n.val with
  | some r => sid r.first
  | none => n

/-- Slices of group `g`; none where no group has that number. -/
def Dev.members (s : Dev) (g : Nat) : List SliceId :=
  match s.group g with
  | some r => r.slices
  | none => []

/-- Is the group of slice `n` PARALLEL or SERIES? -/
def Dev.ganged (s : Dev) (n : SliceId) : Bool :=
  match s.groupOf n.val with
  | some r => r.gang != 0
  | none => false

/-- Slices that act together with slice `n`: its whole gang, or itself. -/
def Dev.gang (s : Dev) (n : SliceId) : List SliceId :=
  match s.groupOf n.val with
  | some r => if r.gang != 0 then r.slices else [n]
  | none => [n]

/-- The slice whose lane computes the loop of slice `n`, and whose generator serves it: the lowest of its gang, otherwise
itself. -/
def Dev.owner (s : Dev) (n : SliceId) : SliceId := if s.ganged n then s.low n else n

/-- A group that takes its values at the common load strobe: 4 or more slices (R10). -/
def GroupRec.strobed (r : GroupRec) : Bool := decide (4 ≤ r.size)

/-- DIVIDER of group `g` as last accepted. -/
def Dev.divider (s : Dev) (g : Nat) : Nat := s.fld (sliceBase g) SLICE_LOOP_DIV_DIVIDER

/-- Sample period N of group `g` in cycles: the one in force, until an accepted one takes effect (R25, R191). -/
def Dev.period (s : Dev) (g : Nat) : Nat :=
  match (s.eng (sid g)).divOld with
  | some o => o.1
  | none => s.divider g

/-- Slices a SLICE_MASK names in group `r`: bit i is the group's i-th slice (R198). -/
def GroupRec.masked (r : GroupRec) (m : Word) : List SliceId :=
  ((List.range r.size).filter (fun i => m.getLsbD i)).map (fun i => sid (r.first + i))

/-- Is a SLICE_MASK good for group `r`: no slice outside the group, only bit 0 in a gang (R151, R198)? -/
def GroupRec.maskOk (r : GroupRec) (m : Word) : Bool :=
  decide (m.toNat < 2 ^ r.size) && (r.gang == 0 || decide (m.toNat ≤ 1))

/-- Is slice `n` marked inductive? -/
def Dev.induct (s : Dev) (n : SliceId) : Bool := s.plates.induct.getLsbD n.val

def Dev.parked (s : Dev) (n : SliceId) : Bool := s.flag (sB n) SLICE_FORCE_STATUS_PARKED

/-- The table of R85 runs on slice `n` or is complete: the FDAC obeys its park (R76), and a range code takes effect at once
(R132, R150). -/
def Dev.inPark (s : Dev) (n : SliceId) : Bool :=
  match (s.sl n).phase with
  | .parked => true
  | .parking _ _ => true
  | _ => false

/-! ## MSI-X -/

/-- An event for vector `v`: while the vector or the function is masked, or MSI-X is off, its pending bit is set;
otherwise the send is due (R365). -/
def Dev.vector (s : Dev) (v : Fin 40) : Dev :=
  s.modVect v (fun x => if x.masked || s.cfg.fmask || !s.cfg.msix then { x with pending := true } else { x with due := true })

/-- The ring pair bound to group `g` of node `k` (R366): an enabled or still running pair. -/
def Dev.boundRing (s : Dev) (k g : Nat) : Option RingId :=
  (List.range 32 |>.map sid).find? (fun r =>
    (s.flag (rB r) HOST_RING_CFG_ENABLE || s.flag (rB r) HOST_RING_STATUS_RUNNING)
      && s.fld (rB r) HOST_RING_CFG_NODE == k && s.fld (rB r) HOST_RING_CFG_GROUP == g)

/-- Vector 4 + r. -/
def ringVector (r : RingId) : Fin 40 := ⟨4 + r.val, by omega⟩

/-- A slice, Traverse or generator event of group `g`: GROUP_EVENT and the group's vector, if a ring pair is bound to
it (R365, R366). -/
def Dev.groupEvent (s : Dev) (g : Nat) : Dev :=
  match s.boundRing 0 g with
  | some r => (s.setFlag (rB r) HOST_RING_CAUSE_GROUP_EVENT true).vector (ringVector r)
  | none => s

/-- The group event of the group slice `n` belongs to. -/
def Dev.sliceEvent (s : Dev) (n : SliceId) : Dev := s.groupEvent (s.low n).val

/-- Meridian event `b` of R285: the cause bit is set, and vector 3 is sent when an enabled cause bit rises. -/
def Dev.merEvent (s : Dev) (b : Nat) : Dev :=
  let was := bitOf (s.rd MER_IRQ_CAUSE).toNat b
  let t := s.setFld 0 ⟨MER_IRQ_CAUSE, b, 1⟩ 1
  if !was && bitOf (s.rd MER_IRQ_CFG).toNat b then t.vector 3 else t

/-- A change of bits [4:0] or [9:7] of CLK_STATUS from `old` raises vector 3 if CLK_CTRL.IRQ_EN is set (R299). -/
def Dev.clkEvent (s old : Dev) : Dev :=
  let w := fun (x : Dev) => (x.rd CLK_STATUS) &&& 0x39F
  if w s != w old && s.flag 0 CLK_CTRL_IRQ_EN then s.vector 3 else s

/-- A link event raises vector 2 if LINK_CTRL.IRQ_EN is set (R417). -/
def Dev.linkEvent (s : Dev) : Dev := if s.flag 0 LINK_CTRL_IRQ_EN then s.vector 2 else s

/-! ## Lifting to the block -/

/-- A change of what runs on power, as the outcome of a command: the queue and the fuses stay. -/
def State.on (s : State) (f : Dev → Dev) : Host.Outcome State Fault Refusal := .next { s with toDev := f s.toDev }

/-- As `State.on`, for an event of the device's own logic: with RESET_N low or in freeze it does not occur. -/
def State.onAwake (s : State) (f : Dev → Dev) : Host.Outcome State Fault Refusal :=
  s.on (fun d => if d.awake then f d else d)

end Sys2Proof.Machine
end

