-- ==== Sys2Proof/Machine/Operands.lean ====
section
/-! DEFINITION. Number formats and stored layouts: CRC-32 and CRC-8 (R21, R238), full scales and their rescaling
(R92, R131, R137), clamp threshold codes (R148), station words and leg descriptors (R237, R245), coefficient, limit
and contour sets (R145, R179, R221). -/

namespace Sys2Proof.Machine

/-! ## CRC -/

/-- One bit of the reflected CRC-32 of polynomial 0x04C11DB7. -/
def crc32Bit (c : Word) : Word := if c.getLsbD 0 then (c >>> 1) ^^^ 0xEDB88320 else c >>> 1

def crc32Byte (c : Word) (b : Byte) : Word :=
  let x := c ^^^ b.setWidth 32
  crc32Bit (crc32Bit (crc32Bit (crc32Bit (crc32Bit (crc32Bit (crc32Bit (crc32Bit x)))))))

/-- CRC-32 of a byte string (R21). -/
def crc32 (l : List Byte) : Word := ~~~(l.foldl crc32Byte 0xFFFFFFFF)

/-- One bit of the CRC-8 of polynomial 0x07. -/
def crc8Bit (c : Byte) : Byte := if c.getLsbD 7 then (c <<< 1) ^^^ 0x07 else c <<< 1

def crc8Byte (c b : Byte) : Byte :=
  crc8Bit (crc8Bit (crc8Bit (crc8Bit (crc8Bit (crc8Bit (crc8Bit (crc8Bit (c ^^^ b))))))))

/-- CRC-8 of a byte string: initial value 0xFF (R238). -/
def crc8 (l : List Byte) : Byte := l.foldl crc8Byte 0xFF

/-! ## Full scales -/

/-- Full scale of current range `k` of slice `n`, fA (R131). -/
def Dev.ifs (s : Dev) (n : SliceId) (k : Nat) : Int := (s.sl n).fs.getD k 1
/-- Full scale of voltage range `v` of slice `n`, nV. -/
def Dev.vfs (s : Dev) (n : SliceId) (v : Nat) : Int := (s.sl n).fs.getD (10 + v) 1

def Dev.irange (s : Dev) (n : SliceId) : Nat := s.fld (sB n) SLICE_RANGE_STATUS_IRANGE
def Dev.vrange (s : Dev) (n : SliceId) : Nat := s.fld (sB n) SLICE_RANGE_STATUS_VRANGE
/-- Force mode in force: 0 V, 1 I, 2 R (R98). -/
def Dev.mode (s : Dev) (n : SliceId) : Nat := s.fld (sB n) SLICE_FORCE_STATUS_MODE

/-- Number of slices whose currents add up in the gang of slice `n` (R92). -/
def Dev.parN (s : Dev) (n : SliceId) : Int :=
  match s.groupOf n.val with
  | some r => if r.gang == 1 then r.size else 1
  | none => 1
/-- Number of slices whose voltages add up in the gang of slice `n` (R92). -/
def Dev.serN (s : Dev) (n : SliceId) : Int :=
  match s.groupOf n.val with
  | some r => if r.gang == 2 then r.size else 1
  | none => 1

/-- `x` × old ÷ new, rounded to nearest with ties away from zero, saturated to `w` bits (R137). -/
def rescale (w : Nat) (x old new : Int) : Int := satS w (roundDiv (x * old) new)

/-- The limits of a set as Q1.31 fractions of ranges `k` and `v`, or of the gang's full scales, rounded toward the
inside of the interval (R146). -/
def Dev.fracs (s : Dev) (n : SliceId) (l : LimSet) (k v : Nat) : LimQ :=
  let up := fun (lim fs : Int) => satS 32 (lim * 2147483648 / fs)
  let dn := fun (lim fs : Int) => satS 32 (-(-(lim * 2147483648) / fs))
  { vHi := up l.vHi.toInt (s.vfs n v * s.serN n), vLo := dn l.vLo.toInt (s.vfs n v * s.serN n)
    iHi := up l.iHi.toInt (s.ifs n k * s.parN n), iLo := dn l.iLo.toInt (s.ifs n k * s.parN n) }

/-- A LIMITS record or set matches its complements. -/
def LimSet.ok (l : LimSet) : Bool :=
  l.vHiC == ~~~l.vHi && l.vLoC == ~~~l.vLo && l.iHiC == ~~~l.iHi && l.iLoC == ~~~l.iLo

/-- LIMITS record of slice `n` as the image gives it, as it is used, the last good one where its complements do not match
(R29, R175), and its highest ranges. -/
def Dev.hardRec (s : Dev) (n : SliceId) : LimSet := s.plates.limits.getD n.val .atReset
def Dev.hard (s : Dev) (n : SliceId) : LimSet := if (s.hardRec n).ok then s.hardRec n else (s.sl n).hardGood
def Dev.irMax (s : Dev) (n : SliceId) : Nat := s.plates.irMax.getD n.val 0
def Dev.vrMax (s : Dev) (n : SliceId) : Nat := s.plates.vrMax.getD n.val 0

/-- The limit set the slice uses: the set in force where its complements match, else the last good one (R175). -/
def Slice.limUse (x : Slice) : LimSet := if x.limits.ok then x.limits else x.limGood

/-- An FDAC code lies within the LIMITS record of slice `n` when it is converted to volts as a fraction of the active VRANGE
(R99, R196; DEDUCED, notes/assumptions/25.md). -/
def Dev.codeInLimits (s : Dev) (n : SliceId) (c : Int) : Bool :=
  let h := s.hard n
  decide (h.vLo.toInt * 524288 ≤ c * s.vfs n (s.vrange n)) && decide (c * s.vfs n (s.vrange n) ≤ h.vHi.toInt * 524288)

/-! ## Clamp thresholds (R147, R148) -/

def ceilDiv (a b : Int) : Int := -(-a / b)

/-- Range code the clamps of slice `n` watch when they watch current: during a step the coarser of the two, the incoming one from
the end of PREPARE of an upward step, the outgoing one until RELEASE of a downward one (R135, R147); in a switch of R141 the new
one. -/
def Dev.watchRange (s : Dev) (n : SliceId) : Nat :=
  match (s.sl n).rstep with
  | some st =>
    let phase := s.fld (sB n) SLICE_RANGE_STATUS_PHASE
    if st.solo then st.into
    else if st.up then (if 2 ≤ phase then st.into else s.irange n)
    else if phase == 3 then st.into + 1 else s.irange n
  | none => s.irange n

/-- The clamps of slice `n` watch voltage: force I (R147). -/
def Dev.watchV (s : Dev) (n : SliceId) : Bool := s.mode (s.owner n) == 1

/-- Input of the clamps of slice `n`: 0 VS pair, 1 path A, 2 path B (R147, R155). -/
def Dev.clampInput (s : Dev) (n : SliceId) : Nat :=
  if s.watchV n then 0
  else
    let active := s.flag (sB n) SLICE_RANGE_STATUS_APATH
    let p := match (s.sl n).rstep with
      | some st =>
        let phase := s.fld (sB n) SLICE_RANGE_STATUS_PHASE
        if st.solo then active
        else if phase ≤ 2 then (if st.up && decide (2 ≤ phase) then st.inPath else active)
        else if st.up then active else (if phase == 3 then !active else active)
      | none => active
    if p then 2 else 1

/-- Voltage range the divider and the clamps of slice `n` work on: the new one from cycle 0 of a hold (R142). -/
def Dev.vPins (s : Dev) (n : SliceId) : Nat := if (s.sl n).vhold.isSome then (s.sl n).vNew else s.vrange n

/-- Threshold codes of slice `n`, high then low: the limits of the gang's lowest slice with MARGIN, rounded outward,
clipped to the first step beyond the hard limit and to the DAC's ends (R148; DEDUCED, notes/assumptions/12.md). -/
def Dev.thresholds (s : Dev) (n : SliceId) : Nat × Nat :=
  let m := s.low n
  let own := if s.ganged n then m else n
  let l := (s.sl own).limUse
  let h := s.hard own
  let wv := s.watchV n
  let fs := if wv then s.vfs n (s.vPins n) else s.ifs n (s.watchRange n)
  let k := if wv then s.serN n else s.parN n
  let lim := fun (v i : Word64) => if wv then v.toInt else i.toInt
  let den := 40 * fs * k
  let mg : Int := l.margin.toNat
  let hi := min (2048 + ceilDiv (lim l.vHi l.iHi * 65536 + mg * fs * k) den) (2048 + lim h.vHi h.iHi * 65536 / den + 1)
  let lo := max (2048 + (lim l.vLo l.iLo * 65536 - mg * fs * k) / den) (2048 + ceilDiv (lim h.vLo h.iLo * 65536) den - 1)
  ((clampI 0 4095 hi).toNat, (clampI 0 4095 lo).toNat)

/-- The device reloads both thresholds and the input of slice `n` (R148): a threshold or control write hit by a parity error is
discarded (R5). -/
def Dev.loadThr (s : Dev) (n : SliceId) : Dev :=
  let t := s.thresholds n
  let x := s.sl n
  let s1 := if x.dropThr then s.modSl n (fun y => { y with dropThr := false })
    else (s.setFld (sB n) SLICE_CLAMP_STATUS_THR_HI t.1).setFld (sB n) SLICE_CLAMP_STATUS_THR_LO t.2
  if s.clampInput n == s.fld (sB n) SLICE_CLAMP_STATUS_INPUT then s1
  else if x.dropCtl then s1.modSl n (fun y => { y with dropCtl := false })
  else s1.setFld (sB n) SLICE_CLAMP_STATUS_INPUT (s.clampInput n)

/-! ## Range patterns (R133, R134) -/

/-- Byte `j` of a run of pattern words from offset `a`. -/
def Dev.patByte (s : Dev) (n : SliceId) (a j : Nat) : Nat := getBits (s.rd (sB n + a + 4 * (j / 4))).toNat (8 * (j % 4)) 8

/-- RG = (IPAT & ~VMASK) | (VPAT[VRANGE] & VMASK) for a current pattern (R133). -/
def Dev.rgWith (s : Dev) (n : SliceId) (ipat v : Nat) : Nat :=
  let vm : BitVec 8 := BitVec.ofNat 8 (s.fld (sB n) SLICE_RG_CFG_VMASK)
  let vp : BitVec 8 := BitVec.ofNat 8 (s.patByte n SLICE_RG_VOLT v)
  ((BitVec.ofNat 8 ipat &&& ~~~vm) ||| (vp &&& vm)).toNat

/-- PAIR(k, o) and SOLO(k, o). -/
def Dev.pairPat (s : Dev) (n : SliceId) (k : Nat) (o : Bool) : Nat := s.patByte n SLICE_RG_PAIR (2 * k + o.toNat)
def Dev.soloPat (s : Dev) (n : SliceId) (k : Nat) (o : Bool) : Nat := s.patByte n SLICE_RG_SOLO (2 * k + o.toNat)

/-- Path A alone is in use: IB_EN clear or a path lost (R134, R144). -/
def Dev.solo (s : Dev) (n : SliceId) : Bool :=
  !s.flag (sB n) SLICE_MEAS_CFG_IB_EN || s.flag (sB n) SLICE_RANGE_STATUS_PATH_LOST

/-- Steady-state current pattern of range `a` on path `p`, and the standby range, 15 none (R134). -/
def Dev.steady (s : Dev) (n : SliceId) (a : Nat) (p : Bool) : Nat × Nat :=
  if s.solo n || decide (s.irMax n ≤ a) then (s.soloPat n a p, 15) else (s.pairPat n a p, a + 1)

/-- Drive a pattern on the RG pins: before the group is enabled they stay low (R54, R56), and a pattern hit by a parity error on
its way to the octant is discarded (R5). -/
def Dev.driveRg (s : Dev) (n : SliceId) (pat : Nat) : Dev :=
  let p := if (s.sl n).enabled then pat else 0
  if (s.sl n).dropRg && (s.sl n).rg != p then s.modSl n (fun x => { x with dropRg := false })
  else (s.modSl n (fun x => { x with rg := p })).setFld (sB n) SLICE_RG_NOW_PATTERN p

/-- Current pattern and standby range of slice `n` now: the steady state, or that of a step in progress (R134, R135,
R141). -/
def Dev.ipatNow (s : Dev) (n : SliceId) : Nat × Nat :=
  let path := s.flag (sB n) SLICE_RANGE_STATUS_APATH
  match (s.sl n).rstep with
  | some st =>
    if st.solo then (s.soloPat n st.into path, 15)
    else if st.up then s.steady n (s.irange n) path
    else (s.pairPat n st.into st.inPath, if s.irange n == st.into then st.into + 1 else st.into)
  | none => s.steady n (s.irange n) path

/-- Drive the pattern of now and show the standby range; a parked or parking slice keeps its pins (R132). -/
def Dev.driveNow (s : Dev) (n : SliceId) : Dev :=
  let st := s.ipatNow n
  let s1 := s.setFld (sB n) SLICE_RANGE_STATUS_STANDBY st.2
  match (s.sl n).phase with
  | .parked => s1
  | .parking _ _ => s1
  | _ => s1.driveRg n (s.rgWith n st.1 (s.vPins n))

/-! ## Station words and leg descriptors -/

/-- The step of slice words whose word 0 has index `i` lies in segment i ÷ 16,384 (R249). -/
def segOf (i : Nat) : Nat := i / 16384

/-- The fields of the station word at store index `i` (R237). -/
def Dev.station (s : Dev) (i : Nat) : Station :=
  let a := 16 * i
  let w2 := s.num (a + 8) 4
  let w3 := s.num (a + 12) 4
  { value := s.word a, dwell := getBits w2 0 24, irange := getBits w2 24 4, vrange := getBits w2 28 4,
    mode := getBits w3 0 2, coefSet := getBits w3 2 2, limitSet := getBits w3 4 4, wait := getBits w3 8 4,
    capture := BitVec.ofNat 4 (getBits w3 12 4), contour := getBits w3 16 4, gen := getBits w3 20 4 }

/-- An uncorrectable error lies in `n` bytes from BAR2 offset `a` (R303). -/
def Dev.uncorrectable (s : Dev) (a n : Nat) : Bool :=
  s.memst.bad.any (fun b => b.2 && decide (a / 8 ≤ b.1) && decide (b.1 ≤ (a + n - 1) / 8))

/-- A station word is well-formed (R238). -/
def Dev.stationOk (s : Dev) (i : Nat) : Bool :=
  let a := 16 * i
  s.word (a + 4) == ~~~s.word a && crc8 (s.bytes (a + 8) 7) == s.byte (a + 15)
    && decide ((s.station i).wait ≤ 9) && !s.uncorrectable a 16

/-- Leg descriptor `k` of engine `g` as stored (R245). -/
def Dev.leg (s : Dev) (g : GroupId) (k : Nat) : Leg :=
  let a := (s.rd (tB g + TRAV_LEG_BASE)).toNat + 32 * k
  { first := s.num a 4, count := s.num (a + 4) 4, rep := s.num (a + 8) 4, timeout := s.num (a + 12) 4,
    markPtr := s.num (a + 16) 4, succ := s.num (a + 20) 2, flags := s.num (a + 22) 2 }

/-- The field rules of R245 for a group of `n` slices. -/
def Leg.fieldsOk (l : Leg) (n : Nat) : Bool :=
  decide (l.first < 2 ^ 20) && l.first % n == 0 && decide (l.count ≤ 1048576)
    && decide (l.first + l.count * n ≤ 1048576)
    && (decide (l.succ ≤ 4095) || l.succ == 0xFFFF) && decide (l.flags < 32) && getBits l.flags 1 2 != 3
    && (l.markPtr == 0 || (l.markPtr % 16 == 0 && inSystem l.markPtr 16))

/-- CHECK of descriptor `k` matches, its reserved bytes are zero and no word of it is uncorrectable. -/
def Dev.legCrcOk (s : Dev) (g : GroupId) (k : Nat) : Bool :=
  let a := (s.rd (tB g + TRAV_LEG_BASE)).toNat + 32 * k
  crc32 (s.bytes a 28) == s.word (a + 28) && !s.uncorrectable a 32

def Dev.legRsvOk (s : Dev) (g : GroupId) (k : Nat) : Bool :=
  s.num ((s.rd (tB g + TRAV_LEG_BASE)).toNat + 32 * k + 24) 4 == 0

def Dev.legOk (s : Dev) (g : GroupId) (k n : Nat) : Bool :=
  (s.leg g k).fieldsOk n && s.legRsvOk g k && s.legCrcOk g k

/-! ## Coefficient, limit and contour sets in the store -/

/-- Kinds of compensator: 0 main, 1 limit, 2 outer; set `j` lies at this BAR2 offset (R179). -/
def Dev.coefAddr (s : Dev) (n : SliceId) (comp j : Nat) : Nat := (s.rd (sB n + SLICE_COEF_BASE)).toNat + 128 * comp + 32 * j

/-- `SLICE_COEF_BASE` + 384 lies in the system store (R180). -/
def Dev.coefBaseOk (s : Dev) (n : SliceId) : Bool := inSystem (s.rd (sB n + SLICE_COEF_BASE)).toNat 384

/-- A limit set as stored (R145). -/
def Dev.limAt (s : Dev) (a : Nat) : LimSet :=
  { vHi := s.word64 a, vHiC := s.word64 (a + 8), vLo := s.word64 (a + 16), vLoC := s.word64 (a + 24)
    iHi := s.word64 (a + 32), iHiC := s.word64 (a + 40), iLo := s.word64 (a + 48), iLoC := s.word64 (a + 56)
    margin := BitVec.ofNat 16 (s.num (a + 64) 2) }

/-- Limit set base of slice `n`: all 16 sets lie in the system store (R146). -/
def Dev.limBaseOk (s : Dev) (n : SliceId) : Bool := inSystem (s.rd (sB n + SLICE_LIM_BASE)).toNat 1536

end Sys2Proof.Machine
end

