-- ==== Sys2Proof/Machine/Reply.lean ====
section
/-! DEFINITION. What leaves the block for another agent: frames on the Kortor ports (R392 to R397) and completions
(R369), on a ring or, on a remote, in a COMPLETION frame (R412). -/

namespace Sys2Proof.Machine

/-! ## Ports -/

def Dev.isRemote (s : Dev) : Bool := s.plates.link.remote
def Dev.node (s : Dev) : Nat := s.plates.link.node
def portOf (b : Bool) : PortId := if b then 1 else 0
/-- Port of a remote that leads to the hub (R417). -/
def Dev.upPort (s : Dev) : PortId := portOf (s.flag 0 LINK_STATUS_UPSTREAM)
def otherPort (p : PortId) : PortId := if p = 0 then 1 else 0
def Dev.portEnabled (s : Dev) (p : PortId) : Bool := bitOf s.plates.link.ports p.val
/-- Ports a node sends away from the hub: every enabled one on a hub, the downstream one on a remote. -/
def Dev.downPorts (s : Dev) : List PortId :=
  ([0, 1] : List PortId).filter (fun p => s.portEnabled p && !(s.isRemote && p == s.upPort))

/-- A port that may send more than heartbeats: up, not in quarantine, its partner's session known (R403, R404). -/
def Dev.canSend (s : Dev) (p : PortId) : Bool :=
  s.awake && !s.fallback && s.flag (pB p) LINK_PORT_STATUS_UP && !s.flag (pB p) LINK_PORT_STATUS_QUARANTINED
    && (s.port p).peer.isSome

/-- Send the frames that wait, in order, while credits and the window of 64 last (R396, R397, R403). -/
def Vc.pump (v : Vc) : List TxFrame → Vc
  | [] => { v with waiting := [] }
  | f :: l =>
    if decide (0 < v.credits) && decide (v.unacked.length < 64) then
      Vc.pump { v with credits := v.credits - 1, txSeq := (v.txSeq + 1) % 256, txCount := v.txCount + 1
                       unacked := v.unacked ++ [{ f with seq := v.txSeq, counter := v.txCount }] } l
    else { v with waiting := f :: l }

/-- Send what waits on virtual channel `k` of port `p`. -/
def Dev.pumpVc (s : Dev) (p : PortId) (k : Fin 3) : Dev :=
  if s.canSend p then
    s.modPort p (fun x => { x with vcs := x.vcs.set k.val ((x.vcs.get k).pump (x.vcs.get k).waiting) k.isLt })
  else s

def Dev.pumpPort (s : Dev) (p : PortId) : Dev := ((s.pumpVc p 1).pumpVc p 0).pumpVc p 2

/-- FREEZE leaves before TRIGGER and a STEP before a SYNC (R416). -/
def Body.urgent : Body → Nat
  | .freeze _ => 0
  | .timeStep _ _ => 1
  | _ => 2

/-- Place a frame among those that wait: behind every frame at least as urgent. -/
def enqueueFrame (f : TxFrame) : List TxFrame → List TxFrame
  | [] => [f]
  | x :: l => if f.body.urgent < x.body.urgent then f :: x :: l else x :: enqueueFrame f l

/-- Queue a frame on a virtual channel of a port and send what can be sent. -/
def Dev.sendFrom (s : Dev) (p : PortId) (k : Fin 3) (src dst : Nat) (b : Body) : Dev :=
  (s.modPort p (fun x =>
    let v := x.vcs.get k
    { x with vcs := x.vcs.set k.val { v with waiting := enqueueFrame ⟨dst, src, 0, 0, b⟩ v.waiting } k.isLt })).pumpVc p k

def Dev.send (s : Dev) (p : PortId) (k : Fin 3) (dst : Nat) (b : Body) : Dev := s.sendFrom p k s.node dst b

/-- Hub: send to node `n` out of the port that reaches it (R420). -/
def Dev.sendNode (s : Dev) (n : Nat) (k : Fin 3) (b : Body) : Dev :=
  s.send (portOf (s.flag (nodeBase n) LINK_NODE_STATUS_PORT)) k n b

/-- Remote: send to the hub. -/
def Dev.sendHub (s : Dev) (k : Fin 3) (b : Body) : Dev := s.send s.upPort k 0 b

/-- Send out of every port that leads away from the hub, to all nodes. -/
def Dev.sendDown (s : Dev) (k : Fin 3) (b : Body) : Dev := s.each s.downPorts (fun d p => d.send p k 15 b)

/-- The link to a partner is silent while the domains do not run: nothing more is modelled of it. -/
def Dev.anyPortUp (s : Dev) : Bool := ([0, 1] : List PortId).any (fun p => s.flag (pB p) LINK_PORT_STATUS_UP)

/-! ## Completions -/

/-- Write a completion entry to ring `r`: the phase of the pass, CPL_TAIL, IN_FLIGHT and RUNNING, and the interrupt
(R367, R368, R369). -/
def Dev.postCpl (s : Dev) (r : RingId) (c : Cpl) (irq : Bool) : Dev :=
  let tail := s.fld (rB r) HOST_CPL_TAIL_TAIL
  let left := s.fld (rB r) HOST_RING_STATUS_IN_FLIGHT - 1
  let s1 := s.modRing r (fun x =>
    { x with cpl := x.cpl ++ [{ c with phase := x.phase }], phase := if tail % 128 == 127 then !x.phase else x.phase })
  let s2 := ((s1.setFld (rB r) HOST_CPL_TAIL_TAIL (tail + 1)).setFld (rB r) HOST_RING_STATUS_IN_FLIGHT left).setFlag
    (rB r) HOST_RING_STATUS_RUNNING (s.flag (rB r) HOST_RING_CFG_ENABLE || decide (0 < left))
  if irq && s.flag (rB r) HOST_RING_CFG_IRQ_EN then
    (s2.setFlag (rB r) HOST_RING_CAUSE_COMPLETION true).vector (ringVector r)
  else s2

/-- Commands of ring `r` that have executed and are not yet complete. -/
def Dev.open_ (s : Dev) (r : RingId) : Nat :=
  s.fld (rB r) HOST_RING_STATUS_IN_FLIGHT - ((s.ring r).fetched - (s.ring r).bound.length)

/-- Relay a command to node `k`, that of its ring: the COMMAND frame counts the STATION_DATA frames queued for the node (R372,
R395, R412). -/
def Dev.relay (s : Dev) (c : Ctx) (k index : Nat) (cmd : RingCmd) : Dev :=
  let r := c.hdr.ring
  let x := s.rd (nodeBase k + LINK_NODE_XFER)
  (s.modRing r (fun q => { q with relayed := q.relayed ++ [(index, x, c, cmd)] })).sendNode k 0 (.command r.val index x c.hdr cmd)

/-- `CMD_HEAD` value of the entry executed last: its INDEX in a COMMAND frame (R395). -/
def Dev.lastIndex (s : Dev) (r : RingId) : Nat :=
  (s.fld (rB r) HOST_CMD_HEAD_HEAD + 512 - (s.ring r).fetched - 1) % 256

/-- Ring `r` is no longer held. -/
def Dev.unhold (s : Dev) (r : RingId) : Dev :=
  ((s.modRing r (fun q => { q with held := none })).setFlag (rB r) HOST_RING_STATUS_BARRIER_WAIT false).setFlag (rB r)
    HOST_RING_STATUS_FENCE_WAIT false

/-- A FENCE that holds ring `r` passes once it is the only executed command without a completion (R378): it completes
OK, or, on a remote's ring, goes to the remote, which answers it. -/
def Dev.fencePass (s : Dev) (r : RingId) : Dev :=
  match (s.ring r).held with
  | some (c, _, _) =>
    if c.opcode == 0x12 && s.open_ r == 1 && (s.ring r).relayed.isEmpty then
      if s.fld (rB r) HOST_RING_CFG_NODE == 0 then
        (s.unhold r).postCpl r { tag := c.hdr.tag, status := 0, phase := false, relayed := false, opcode := 0x12
                                 group := c.hdr.group.toNat % 32, node := 0, faultOff := 0xFF, time := s.time } (c.hdr.flags.getLsbD 0)
      else s.relay c (s.fld (rB r) HOST_RING_CFG_NODE) (s.lastIndex r) .fence
    else s
  | none => s

/-- Complete a command: `off` is the payload offset of the first faulty field, 0xFF for none. On a remote the entry
leaves in a COMPLETION frame and is kept for a repeat of the command (R401, R412); a command fetched before a host
reset completes without trace (R64). -/
def Dev.completeAt (s : Dev) (c : Ctx) (status off : Nat) (t : Word64) : Dev :=
  let e : Cpl := { tag := c.hdr.tag, status := status, phase := false, relayed := c.remote, opcode := c.opcode
                   group := c.hdr.group.toNat % 32
                   node := if c.remote then s.node else s.fld (rB c.hdr.ring) HOST_RING_CFG_NODE
                   faultOff := off, time := t }
  if c.drop then s
  else if c.remote then
    ({ s with link := { s.link with done := s.link.done.map (fun (d : Nat × Nat × Cpl) =>
        if d.1 == c.hdr.ring.val && d.2.1 == c.index && d.2.2.status == 255 then (d.1, d.2.1, e) else d) } }).sendHub 0
      (.completion c.hdr.ring.val e)
  else (s.postCpl c.hdr.ring e (c.hdr.flags.getLsbD 0)).fencePass c.hdr.ring

/-- Complete a command in this cycle without a faulty field. -/
def Dev.complete (s : Dev) (c : Ctx) (status : Nat) : Dev := s.completeAt c status 0xFF s.time

/-- Status codes of R374. -/
abbrev OK : Nat := 0
abbrev BAD_PARAM : Nat := 1
abbrev LOOP_CLOSED : Nat := 2
abbrev LIMIT : Nat := 3
abbrev PRECONDITION : Nat := 4
abbrev BUSY : Nat := 5
abbrev PARKED : Nat := 6
abbrev INTEGRITY : Nat := 7
abbrev ABSENT : Nat := 8
abbrev TIMEOUT : Nat := 9

/-- Complete, in order, the scheduled commands that satisfy `p`, each with the status and TIME `f` gives it. -/
def Dev.settle (s : Dev) (p : Sched → Bool) (f : Sched → Nat × Word64) : Dev :=
  let due := s.sched.filter p
  ({ s with sched := s.sched.filter (fun x => !p x) }).each due (fun d x => d.completeAt x.ctx (f x).1 0xFF (f x).2)

end Sys2Proof.Machine
end

