-- ==== Sys2Proof/Machine/Window.lean ====
section
/-! DEFINITION. Record windows and station segments: closing a window of a slice's record filters (R110 to R117), the
segments in use (R249), and an engine going idle (R259). -/

namespace Sys2Proof.Machine

/-! ## Record windows -/

/-- Path the I value of a record comes from: false A, true B (R117). -/
def Dev.recPath (s : Dev) (n : SliceId) : Bool :=
  let r := s.fld (sB n) SLICE_MEAS_CFG_I_REC
  if r == 1 then false else if r == 2 then true else s.flag (sB n) SLICE_RANGE_STATUS_APATH

/-- Range a path carries, 15 none (R134). -/
def Dev.pathRange (s : Dev) (n : SliceId) (p : Bool) : Nat :=
  if p == s.flag (sB n) SLICE_RANGE_STATUS_APATH then s.irange n else s.fld (sB n) SLICE_RANGE_STATUS_STANDBY

/-- A mean of Q1.31 values as Q0.27: nearest, ties away from zero, saturated (R115). -/
def meanQ27 (sum : Int) (den : Nat) : Int := satS 28 (roundDiv sum (16 * den))

/-- KIND of the group slice `n` belongs to, from its lowest slice (R110). -/
def Dev.recKind (s : Dev) (n : SliceId) : Nat := s.fld (sB (s.low n)) SLICE_REC_CFG_KIND
def Dev.recD (s : Dev) (n : SliceId) : Nat := s.fld (sB (s.low n)) SLICE_REC_CFG_D

/-- What a record of slice `n` takes from its latest sampling instant. -/
def Dev.recAt (s : Dev) (n : SliceId) : RecAt :=
  let p := s.recPath n
  let m := s.sl (s.low n)
  { time := (s.sl n).instant, station := m.stationWas.getD m.station, vrange := s.vrange n, irange := s.pathRange n p, path := p }

/-- REC of the station in force on the group of slice `n` (R118). -/
def Dev.recBit (s : Dev) (n : SliceId) : Bool :=
  match (s.sl (s.low n)).capture with
  | some c => c.getLsbD 0
  | none => false

/-- A record from the values of the three filters, Q0.27, with the REC bit and the TIME of its close (R115, R117). -/
def RecAt.win (m : RecAt) (v a b : Int) (suspect bit : Bool) (shut : Word64) : WinRes :=
  { v := v, i := if m.irange == 15 then 0 else if m.path then b else a, vrange := m.vrange
    irange := if m.irange == 15 then 0xB else m.irange, suspect := suspect, time := m.time, station := m.station, rec_ := bit
    shut := shut }

/-- A sample in the last `span` of a record of slice `n`, or any with `span` 0, marks it suspect: V always counts, of the
currents the path the record takes (R114). -/
def Slice.marked (x : Slice) (p : Bool) (span : Nat) : Bool :=
  let hit := fun (f : Filt) => f.bad != 0 && (span == 0 || decide (f.bad ≤ span))
  hit x.fV || hit (if p then x.fB else x.fA)

/-- Mean of the samples a filter has summed, zero without one. -/
def Filt.mean (f : Filt) : Int := if f.c1 ≤ 0 then 0 else meanQ27 f.acc f.c1.toNat

/-- The sums of a mean begin afresh. -/
def Filt.clear (f : Filt) : Filt := { f with acc := 0, c1 := 0, bad := 0 }

/-- Open the next window of a slice with `settle` samples still to skip. -/
def Slice.openWindow (x : Slice) (settle : Nat) : Slice :=
  { x with fV := x.fV.clear, fA := x.fA.clear, fB := x.fB.clear, wCount := 0, wOpen := true
           wSettle := settle, wIndex := 0, wNext := false }

/-- Close the open window of slice `n` at TIME `t` (R110 to R115). A window without a sample gives the empty record, with the
TIME, station and ranges of the close; a station aperture that only settled carries its last sample; a sinc³ closed early gives a
free value. `bit` is the REC bit that decides on its row. -/
def Dev.closeWith (s : Dev) (n : SliceId) (suspect bit : Bool) (t : Word64) : Dev :=
  let x := s.sl n
  let q := fun (f : Filt) => meanQ27 f.last 1
  let r :=
    if x.wCount == 0 && !(s.recKind n == 3 && x.wIndex != 0) then { s.recAt n with time := t }.win 0 0 0 true bit t
    else if s.recKind n == 1 then
      let v := satS 28 (Config.approx s.freeCtr [])
      x.wAt.win v v v true bit t
    else if x.wCount == 0 then x.wAt.win (q x.fV) (q x.fA) (q x.fB) true bit t
    else x.wAt.win x.fV.mean x.fA.mean x.fB.mean (suspect || x.marked x.wAt.path 0) bit t
  (s.modSl n (fun y => { y with wDone := y.wDone ++ [r], wOpen := false, wCount := 0, fV := y.fV.clear
                                fA := y.fA.clear, fB := y.fB.clear })).draw

def Dev.closeWindow (s : Dev) (n : SliceId) (suspect : Bool) (t : Word64) : Dev := s.closeWith n suspect (s.recBit n) t

/-- The words of a sample taken before this cycle have still to arrive. -/
def Dev.wordsAway (s : Dev) (n : SliceId) : Bool := (s.sl n).awaits && decide ((s.sl n).instantAt < s.now)

/-- Close the open station-aperture windows of group `g`: with the last sample taken before this cycle, also where its words have
still to arrive (R112). The REC bit of the station that ends decides on the row, and the row closes where the next station takes
effect (R118, R119; DESIGN CHOICE, notes/assumptions/58.md). -/
def Dev.closeStation (s : Dev) (g : Nat) : Dev :=
  s.each (s.members g) (fun d n =>
    if d.recKind n == 3 && ((d.sl n).wOpen || (d.sl n).wNext) then
      if d.wordsAway n then d.modSl n (fun x => { x with wThen := some (d.recBit n, d.time, none) })
      else if (d.sl n).wOpen then d.closeWindow n false d.time
      else d.modSl n (fun x => { x with wNext := false })
    else d)

/-! ## Segments -/

def Dev.seg (s : Dev) (k : Nat) : Nat × Bool := s.segs.get (Fin.ofNat 64 k)
def Dev.setSeg (s : Dev) (k : Nat) (v : Nat × Bool) : Dev :=
  { s with segs := s.segs.set (Fin.ofNat 64 k).val v (Fin.ofNat 64 k).isLt }

/-- State of engine `g`: 0 IDLE, 1 DWELL, 2 WAIT, 3 HOLD, 4 HALTED (R261). -/
def Dev.travState (s : Dev) (g : GroupId) : Nat := s.fld (tB g) TRAV_STATUS_STATE

/-- Store index of the step at a place on a path, for a group of `n` slices (R239, R246). -/
def PathPos.index (p : PathPos) (n : Nat) : Nat := p.desc.first + p.step * n

/-- Segments engine `g` uses: of its current step, of one that waits to take effect, of its prefetch window and its jump windows
(R249). An engine that is IDLE or HALTED uses none but its windows' (DEDUCED, notes/assumptions/14.md). -/
def Dev.segsOf (s : Dev) (g : GroupId) : List Nat :=
  let e := s.eng g
  let n := match s.group g.val with
    | some r => r.size
    | none => 1
  let st := s.travState g
  let path := if st == 1 || st == 2 || st == 3 then
      (match e.pos with
        | some p => [segOf (p.index n)]
        | none => []) ++ (match e.next with
        | some p => if st == 2 || e.held.isSome then [segOf (p.index n)] else []
        | none => [])
    else []
  let win := fun (w : Window) => w.steps.map (fun h => segOf h.ix)
  path ++ win e.window ++ win (e.armed.getD .none) ++ win (e.command.getD .none)

/-- Segment `k`, if no engine uses it any more, leaves use: DONE, or READY with KEEP (R249). -/
def Dev.sweepSeg (s : Dev) (k : Nat) : Dev :=
  let gs := (List.range 32).map sid
  if (s.seg k).1 == 2 && !gs.any (fun g => (s.segsOf g).contains k) then
    let s1 := s.setSeg k (if (s.seg k).2 then 1 else 3, (s.seg k).2)
    s1.each gs (fun d g =>
      if (d.eng g).used.contains k then
        let d1 := d.modEng g (fun e => { e with used := e.used.filter (fun j => j != k) })
        if (s.seg k).2 then d1
        else
          let d2 := d1.setFlag (tB g) TRAV_STATUS_SEG_DONE true
          if d2.flag (tB g) TRAV_CTRL_SEG_IRQ_EN then d2.groupEvent g.val else d2
      else d)
  else s

/-- Every segment that has left use changes its state. -/
def Dev.sweep (s : Dev) : Dev := s.each (List.range 64) Dev.sweepSeg

/-- Engine `g` enters segment `k`: READY becomes ACTIVE before the first read (R249). -/
def Dev.enterSeg (s : Dev) (g : GroupId) (k : Nat) : Dev :=
  let s1 := if (s.seg k).1 == 1 then s.setSeg k (2, (s.seg k).2) else s
  if (s1.seg k).1 == 2 && !(s1.eng g).used.contains k then s1.modEng g (fun e => { e with used := k :: e.used }) else s1

/-! ## An engine goes idle -/

/-- Discard the request in the latch or filling, completing its LEG_JUMP with `status` (R255, R257, R259). -/
def Dev.dropJump (s : Dev) (g : GroupId) (status : Nat) : Dev :=
  let e := s.eng g
  let cs := (match e.latch with
      | some ⟨some c, _, _, _⟩ => [c]
      | _ => []) ++ (match e.filling with
      | some ⟨some c, _, _, _⟩ => [c]
      | _ => [])
  ((s.modEng g (fun e => { e with latch := none, filling := none, armWait := none })).setFlag (tB g) TRAV_STATUS_JUMP_PENDING false).each cs
    (fun d c => d.complete c status)

/-- Commands whose first step has not taken effect when the engine stops complete PRECONDITION
(DEDUCED, notes/assumptions/15.md). -/
def Dev.dropStarts (s : Dev) (g : GroupId) : Dev :=
  let e := s.eng g
  let cs := e.waiters ++ (match e.start with
      | some (c, _) => [c]
      | none => [])
  (s.modEng g (fun e => { e with waiters := [], start := none })).each cs (fun d c => d.complete c PRECONDITION)

/-- Engine `g` leaves its path for `state`, IDLE or HALTED: wait, window and latch are gone, pending LEG_STOPs are done,
and the station aperture closes (R112, R259). -/
def Dev.leavePath (s : Dev) (g : GroupId) (state : Nat) : Dev :=
  let stops := (s.eng g).stops
  let s1 := (s.closeStation g.val).modEng g (fun e =>
    { e with next := none, waitTicks := 0, metAt := none, late := false, applied := false, due := false, stops := [], held := none
             resume := none, between := false, heldLate := 0, window := .none })
  let s2 := ((s1.setFld (tB g) TRAV_STATUS_STATE state).setFld (tB g) TRAV_STATUS_WAIT 0).setFld (tB g) TRAV_DWELL_LEFT 0
  ((s2.each stops (fun d c => d.complete c OK)).dropJump g PRECONDITION).sweep

/-- Stop engine `g` as LEG_STOP MODE 0 does (R259): nothing on an engine that is IDLE or HALTED. -/
def Dev.stopEngine (s : Dev) (g : GroupId) : Dev :=
  if s.travState g == 0 || s.travState g == 4 then s else (s.dropStarts g).leavePath g 0

def Dev.stopEngines (s : Dev) : Dev := s.each ((List.range 32).map sid) Dev.stopEngine

end Sys2Proof.Machine
end

