-- ==== Sys2Proof/Machine/Contour.lean ====
section
/-! DEFINITION. Contour generators as they move (R222 to R225), and the rescaling of what a slice holds in fractions of
a range that changes (R137, R142, R225). -/

namespace Sys2Proof.Machine

/-! ## Contour generators -/

/-- Units of a contour position in one step of Q1.31. -/
abbrev posUnit : Int := 65536 * 6000000000000000000000000000
/-- Units of a contour position in one FDAC step, the span of 2¹⁹ steps being full scale (R86). -/
abbrev codeUnit : Int := 4096 * posUnit

/-- Position of a generator as Q1.31. -/
def Contour.q (c : Contour) : Int := satS 32 (openDiv c.p posUnit)

/-- At rest: nothing left of a plan and no motion (R224). -/
def Contour.rest (c : Contour) : Bool := c.plan.isEmpty && c.v == 0 && c.a == 0

/-- The least number at which `p` holds, below 2 to the power of the first argument, for a `p` that holds from some number on. -/
def leastNat (p : Nat → Bool) : Nat → Nat → Nat
  | 0, n => n
  | k + 1, n => leastNat p k (if p (n + 2 ^ k - 1) then n else n + 2 ^ k)

def ceilNat (a b : Nat) : Nat := (a + b - 1) / b

/-- Least-time lengths from rest to rest over a distance `d`, in whole samples of `n` ns: of the four jerk phases, the two of
constant acceleration, the cruise (R223). The path reaches VEL with or without reaching ACC first, or ACC alone, or neither;
each comparison is that of the exact lengths. -/
def restLengths (d v a j n : Nat) : Nat × Nat × Nat :=
  if a * a ≤ v * j ∧ v * (a * a + v * j) ≤ d * a * j then
    (ceilNat a (j * n), ceilNat (v * j - a * a) (a * j * n), ceilNat (d * a * j - v * (a * a + v * j)) (v * a * j * n))
  else if v * j < a * a ∧ 4 * v ^ 3 ≤ d * d * j then
    (leastNat (fun k => decide (v ≤ (k * n) ^ 2 * j)) 64 0, 0, leastNat (fun k => decide ((d - v * k * n) ^ 2 * j ≤ 4 * v ^ 3)) 64 0)
  else if 2 * a ^ 3 ≤ d * j * j then
    (ceilNat a (j * n), leastNat (fun k => decide (d * j * j ≤ a * (a + k * n * j) * (2 * a + k * n * j))) 64 0, 0)
  else (leastNat (fun k => decide (d ≤ 2 * j * (k * n) ^ 3)) 64 0, 0, 0)

/-- VEL, ACC and JERK of a set in the units of a generator (R221). -/
def Contour.velU (c : Contour) : Nat := c.vel.toNat * 134217728 * 6000000000000000000
def Contour.accU (c : Contour) : Nat := c.acc.toNat * 2147483648 * 6000000000
def Contour.jerkU (c : Contour) : Nat := c.jerk.toNat * 34359738368 * 6

/-- The seven phases from rest to position `xp`. With the lengths rounded up only one jerk, the same in all four jerk phases,
still ends at the target with v = 0 and a = 0 (R223). -/
def Contour.restPlan (c : Contour) (xp : Int) (n : Nat) : List (Nat × Int) :=
  let l := restLengths (xp - c.p).natAbs c.velU c.accU c.jerkU n
  let m := l.1 * (l.1 + l.2.1) * (2 * l.1 + l.2.1 + l.2.2)
  let j := openDiv (xp - c.p) (n ^ 3 * m : Nat)
  [(l.1, j), (l.2.1, 0), (l.1, -j), (l.2.2, 0), (l.1, -j), (l.2.1, 0), (l.1, j)]

/-! ### Plans from a state in motion (R223)

Lengths of phases are exact ratios of integers, up to the whole units of the square roots in them, until they are rounded up to whole
samples. -/

/-- The whole part of the square root. -/
def isqrt (m : Nat) : Nat := leastNat (fun k => decide (m < (k + 1) * (k + 1))) (m.log2 / 2 + 1) 0

/-- The limits of a plan, in the units of a generator: VEL, ACC, JERK, and N. -/
structure Limits where
  vel  : Nat
  acc  : Nat
  jerk : Nat
  n    : Nat
  deriving DecidableEq, Repr

def Contour.lims (c : Contour) (n : Nat) : Limits := ⟨c.velU, c.accU, c.jerkU, n⟩

/-- Position, speed and acceleration. -/
structure Motion where
  p : Int
  v : Int
  a : Int
  deriving DecidableEq, Repr

def Motion.neg (m : Motion) : Motion := ⟨-m.p, -m.v, -m.a⟩

/-- After the acceleration has gone to `b` at full jerk. -/
def Motion.swing (l : Limits) (m : Motion) (b : Int) : Motion :=
  let d : Int := (b - m.a).natAbs
  let j : Int := max 1 l.jerk
  ⟨m.p + openDiv (m.v * d) j + openDiv ((2 * m.a + b) * d * d) (6 * j * j), m.v + openDiv ((m.a + b) * d) (2 * j), b⟩

/-- After the speed has changed by `w` at the acceleration held. -/
def Motion.hold (m : Motion) (w : Int) : Motion :=
  if m.a == 0 then m else ⟨m.p + openDiv ((2 * m.v + w) * w) (2 * m.a), m.v + w, m.a⟩

/-- Samples of a change of the acceleration to `b` at full jerk, and of a change of speed `w` at acceleration `a`. -/
def Limits.swingLen (l : Limits) (a b : Int) : Nat := ceilNat (b - a).natAbs (max 1 (l.jerk * l.n))
def Limits.holdLen (l : Limits) (a w : Int) : Nat := if a == 0 then 0 else ceilNat w.natAbs (max 1 (a.natAbs * l.n))

/-- Speed once the acceleration has gone to 0 at full jerk. -/
def Motion.coastV (l : Limits) (m : Motion) : Int := m.v + openDiv (m.a * m.a.natAbs) (2 * max 1 l.jerk)

/-- Braking to rest from a motion whose speed is not negative once its acceleration is 0: the deceleration reached, and the change
of speed at it. -/
def Motion.brakeFwd (l : Limits) (m : Motion) : Nat × Int :=
  let b := isqrt (max 0 (l.jerk * m.v + openDiv (m.a * m.a) 2)).toNat
  if b ≤ l.acc then (b, 0) else (l.acc, min 0 (((⟨0, 0, -l.acc⟩ : Motion).swing l 0).v * -1 - (m.swing l (-l.acc)).v))

/-- The least-time stop of a motion: the acceleration it swings to, the change of speed at it, and where it comes to rest. -/
def Motion.stop (l : Limits) (m : Motion) : Int × Int × Int :=
  if 0 ≤ m.coastV l then
    let b := m.brakeFwd l
    (-b.1, b.2, (((m.swing l (-b.1)).hold b.2).swing l 0).p)
  else
    let b := m.neg.brakeFwd l
    (b.1, -b.2, -(((m.neg.swing l (-b.1)).hold b.2).swing l 0).p)

/-- A plan in the direction of rising positions: the acceleration after the first phase, the change of speed at it, the samples
of the cruise, and the motion the braking starts from. The first two phases last as long as the stop still falls short of `d` and
the speed they lead to stays within VEL; what is then missing is cruised (least time). -/
def Motion.climb (l : Limits) (m : Motion) (d : Int) : Int × Int × Nat × Motion :=
  let top : Nat := min l.acc (isqrt (max 0 (l.jerk * (l.vel - m.v) + openDiv (m.a * m.a) 2)).toNat)
  let range := (max 0 (top - m.a)).toNat
  let stopAt := fun (u : Nat) => ((m.swing l (m.a + u)).stop l).2.2
  if d ≤ stopAt range then
    let u := leastNat (fun u => decide (d ≤ stopAt u)) (range.log2 + 1) 0
    (m.a + u, 0, 0, m.swing l (m.a + u))
  else
    let m1 := m.swing l (m.a + range)
    let w := (max 0 (l.vel - m1.coastV l)).toNat
    if d ≤ ((m1.hold w).stop l).2.2 && m1.a != 0 then
      let k := leastNat (fun k => decide (d ≤ ((m1.hold k).stop l).2.2)) (w.log2 + 1) 0
      (m1.a, k, 0, m1.hold k)
    else
      let m2 := (m1.hold w).swing l 0
      (m1.a, w, ceilNat (d - (m2.stop l).2.2).toNat (max 1 (m2.v.toNat * l.n)), m2)

/-- The first segments of a plan outside the limits: the acceleration comes within ACC, then the speed within VEL, each at full
jerk; a speed the acceleration in force would carry past VEL is met as one past it (DEDUCED, notes/assumptions/56.md). The answer is
samples with their jerks. -/
def Motion.prepend (l : Limits) (m : Motion) : List (Nat × Int) :=
  let go := fun (a b : Int) => let k := l.swingLen a b; (k, openDiv (b - a) (max 1 (k * l.n) : Nat))
  let lim : Int := if l.acc < m.a.natAbs then (if m.a < 0 then -l.acc else l.acc) else m.a
  let m1 := m.swing l lim
  let first := if lim == m.a then [] else [go m.a lim]
  if (m1.coastV l).natAbs ≤ l.vel then first
  else
    let sg : Int := if m1.coastV l < 0 then 1 else -1
    let b : Int := if 0 ≤ sg * m1.a then sg * m1.a else 0
    let m2 := m1.swing l (sg * b)
    let past : Int := max 0 ((-sg) * m2.v - l.vel)
    let peak := min l.acc (isqrt (l.jerk * 2 * past.toNat + b.toNat * b.toNat))
    let m3 := m2.swing l (sg * peak)
    let left : Int := max 0 ((-sg) * m3.v - l.vel)
    first ++ (if m1.a == sg * peak then [] else [go m1.a (sg * peak)]) ++ [(l.holdLen peak left, 0)]

/-- Motion after phases. -/
def Motion.run (n : Nat) : Motion → List (Nat × Int) → Motion
  | m, [] => m
  | m, (k, j) :: q =>
    let t : Int := k * n
    Motion.run n ⟨m.p + m.v * t + openDiv (3 * m.a * t * t + j * t * t * t) 6, m.v + openDiv (2 * m.a * t + j * t * t) 2, m.a + j * t⟩ q

/-- An integer combination of 1, the acceleration after the first phase and the one braking reaches. -/
abbrev Comb : Type := Int × Int × Int

def Comb.add (x y : Comb) : Comb := (x.1 + y.1, x.2.1 + y.2.1, x.2.2 + y.2.2)
def Comb.times (x : Comb) (k : Int) : Comb := (k * x.1, k * x.2.1, k * x.2.2)

/-- Six times the position and twice the speed after phases given by their lengths in ns and the accelerations they end with. -/
def combRun : Comb → Comb → Comb → List (Int × Comb) → Comb × Comb
  | p, v, _, [] => (p, v)
  | p, v, a, (h, b) :: q =>
    combRun ((p.add (v.times (3 * h))).add ((a.times (2 * h * h)).add (b.times (h * h)))) (v.add ((a.add b).times h)) b q

/-- The accelerations after the first and the fifth phase with which phases of the lengths `h` end at `d` with v = 0 and a = 0, none
where no two do; the cruise between has acceleration 0, or with `low` there is none and braking starts from the first
acceleration (R223). -/
def solvePhases (m : Motion) (d : Int) (h : List Nat) (low : Bool) : Option (Int × Int) :=
  let t := fun (i : Nat) => ((h.getD i 0 : Nat) : Int)
  let x : Comb := (0, 1, 0)
  let y : Comb := (0, 0, 1)
  let mid : Comb := if low then x else (0, 0, 0)
  let r := combRun (6 * m.p, 0, 0) (2 * m.v, 0, 0) (m.a, 0, 0)
    [(t 0, if t 0 == 0 then (m.a, 0, 0) else x), (t 1, if t 0 == 0 then (m.a, 0, 0) else x), (t 2, if t 0 == 0 && low then (m.a, 0, 0) else mid),
     (t 3, if t 0 == 0 && low then (m.a, 0, 0) else mid), (t 4, y), (t 5, y), (t 6, (0, 0, 0))]
  let p0 := r.1.1 - 6 * d
  let v0 := r.2.1
  let det := r.2.2.1 * r.1.2.2 - r.2.2.2 * r.1.2.1
  let near := fun (x y : Int) => decide ((p0 + r.1.2.1 * x + r.1.2.2 * y).natAbs * 65536 ≤ 6 * posUnit.toNat)
  if det != 0 then
    some (openDiv (r.2.2.2 * p0 - v0 * r.1.2.2) det, openDiv (v0 * r.1.2.1 - r.2.2.1 * p0) det)
  else if r.2.2.2 != 0 then
    (let b := openDiv (-v0) r.2.2.2
     if near m.a b then some (m.a, b) else none)
  else if r.2.2.1 != 0 then
    (let b := openDiv (-v0) r.2.2.1
     if near b 0 then some (b, 0) else none)
  else none

/-- Jerks of the phases `h` from the accelerations they reach. -/
def phaseJerks (l : Limits) (a x y : Int) (h : List Nat) (low : Bool) : List (Nat × Int) :=
  let t := fun (i : Nat) => h.getD i 0
  let j := fun (i : Nat) (d : Int) => (t i, openDiv d (max 1 (t i * l.n) : Nat))
  let x1 := if t 0 == 0 then a else x
  [j 0 (x1 - a), (t 1, 0), j 2 (if low then 0 else -x1), (t 3, 0), j 4 (y - (if low then x1 else 0)), (t 5, 0), j 6 (-y)]

/-- Phases within the limits: no jerk above JERK, and no acceleration or speed above ACC and VEL where a phase ends. -/
def phasesOk (l : Limits) (m : Motion) (q : List (Nat × Int)) : Bool :=
  let ends := (List.range (q.length + 1)).map (fun i => m.run l.n (q.take i))
  q.all (fun x => decide (x.2.natAbs ≤ l.jerk)) && ends.all (fun e => decide (e.a.natAbs ≤ l.acc) && decide (e.v.natAbs ≤ l.vel))

/-- Phases with free jerks: none above JERK, and as far as that allows no acceleration above ACC and no speed above VEL. -/
def freePhases (l : Limits) : Motion → List Nat → List (Nat × Int) → List (Nat × Int)
  | _, [], _ => []
  | m, k :: h, f =>
    let t : Int := max 1 (k * l.n)
    let j0 := (f.head?.map (fun x => x.2)).getD 0
    let j1 := clampI (openDiv (2 * (-l.vel - m.v - m.a * t)) (t * t)) (openDiv (2 * (l.vel - m.v - m.a * t)) (t * t)) j0
    let j := clampI (-l.jerk) l.jerk (clampI (openDiv (-l.acc - m.a) t) (openDiv (l.acc - m.a) t) j1)
    (k, j) :: freePhases l (m.run l.n [(k, j)]) h f.tail

/-- The phases of lengths `h` that end at `d`, if they keep the limits. -/
def exactPhases (l : Limits) (m : Motion) (d : Int) (low : Bool) (h : List Nat) : Option (List (Nat × Int)) :=
  match solvePhases m d (h.map (fun k => k * l.n)) low with
  | some (x, y) => let q := phaseJerks l m.a x y h low; if phasesOk l m q then some q else none
  | none => none

/-- The phases of a plan for rising positions: their least-time lengths rounded up to whole samples, with the jerks that end at `d`
with v = 0 and a = 0. Where the rounded lengths admit no such jerks within the limits, R223 does not say what gives way: the
first and third phase are longer by the least power of two with which they do, and where none is, the jerks are a free value
within the limits and the last sample lands on `d` (DESIGN CHOICE, notes/assumptions/56.md). -/
def Motion.upward (l : Limits) (m : Motion) (d : Int) (free : List (Nat × Int)) : List (Nat × Int) :=
  let c := m.climb l d
  let low := decide (c.2.2.2.a < 0) || (decide (c.2.2.2.a ≤ 0) && decide (c.1 < 0))
  let b := c.2.2.2.stop l
  let peak := if low then c.1 else 0
  let h := [l.swingLen m.a c.1, l.holdLen c.1 c.2.1, if low then 0 else l.swingLen c.1 0, c.2.2.1, l.swingLen peak b.1, l.holdLen b.1 b.2.1,
    l.swingLen b.1 0]
  let longer := fun (k : Nat) => match h with
    | a :: b :: c :: r => (a + k) :: b :: (if low then c else c + k) :: r
    | r => r
  match (0 :: (List.range 17).map (fun i => 2 ^ i)).findSome? (fun k => exactPhases l m d low (longer k)) with
  | some q => q
  | none => freePhases l m h free

/-- The phases from a state in motion to position `xp` (R223). -/
def Contour.movingPlan (c : Contour) (xp : Int) (n : Nat) : List (Nat × Int) :=
  let l := c.lims n
  let m : Motion := ⟨c.p, c.v, c.a⟩
  let pre := m.prepend l
  let m1 := m.run n pre
  let free := Config.contourPhases [c.p, c.v, c.a, xp, c.vel.toNat, c.acc.toNat, c.jerk.toNat, n]
  if (m1.stop l).2.2 ≤ xp then pre ++ m1.upward l xp free
  else pre ++ (m1.neg.upward l (-xp) free).map (fun q => (q.1, -q.2))

/-- A plan toward `x`, position `xp` in position units (R223); a plan that is not empty ends on a sample, so one without a
sample is one sample long. -/
def Contour.planTo (c : Contour) (x xp : Int) (n : Nat) : Contour :=
  let ph := (if c.v == 0 && c.a == 0 then c.restPlan xp n else c.movingPlan xp n).filter (fun q => q.1 != 0)
  if c.p == xp && c.v == 0 && c.a == 0 then { c with x := x, plan := [], replan := false }
  else { c with x := x, plan := if ph.isEmpty then [(1, 0)] else ph, replan := false }

/-- One sample of a path, `n` ns after the one before; the last sample of the plan lands on the target `xp`
(R223). -/
def Contour.move (c : Contour) (xp : Int) (n : Nat) : Contour :=
  match c.plan with
  | [] => c
  | (k, j) :: l =>
    let rest := if k ≤ 1 then l else (k - 1, j) :: l
    if rest.isEmpty then { c with p := xp, v := 0, a := 0, plan := [] }
    else
      let t : Int := n
      { c with p := c.p + c.v * t + c.a * t * t / 2 + j * t * t * t / 6, v := c.v + c.a * t + j * t * t / 2
               a := c.a + j * t, plan := rest }

/-- The generator stands at a position, at rest. -/
def Contour.at (c : Contour) (p x : Int) : Contour := { c with p := p, v := 0, a := 0, x := x, plan := [], replan := false }

/-- Positions, speeds and plan multiplied by old ÷ new (R225). -/
def Contour.scale (c : Contour) (old new : Int) : Contour :=
  let f := fun (x : Int) => roundDiv (x * old) new
  { c with p := f c.p, v := f c.v, a := f c.a, x := rescale 32 c.x old new, plan := c.plan.map (fun q => (q.1, f q.2)) }

/-- Show generator `n` in its registers (R234). -/
def Dev.showContour (s : Dev) (n : SliceId) : Dev :=
  let c := (s.gen n).con
  let w := fun (x u : Int) => BitVec.ofNat 32 (unsigned 32 (satS 32 (openDiv x u)))
  ((((s.wr (gB n + GEN_CONTOUR_POS) (w c.p posUnit)).wr (gB n + GEN_CONTOUR_VEL)
    (w c.v (268435456 * 6000000000000000000))).wr (gB n + GEN_CONTOUR_ACC) (w c.a (4294967296 * 6000000000))).wr
    (gB n + GEN_CONTOUR_TARGET) (BitVec.ofNat 32 (unsigned 32 c.x))).setFlag (gB n) GEN_CONTOUR_STATUS_BUSY (!c.plan.isEmpty)

def Dev.modCon (s : Dev) (n : SliceId) (f : Contour → Contour) : Dev :=
  (s.modGen n (fun g => { g with con := f g.con })).showContour n

/-- The words of a register pair match; the value its user takes, which is its last good one where they do not (R175, R315). -/
def Dev.pairMatch (s : Dev) (a : Nat) : Bool := s.rd (a + 4) == ~~~s.rd a
def Dev.pairUse (s : Dev) (a : Nat) (good : Word) : Word := if s.pairMatch a then s.rd a else good

/-- VEL, ACC and JERK of set 15 of generator `n` (R221, R315). -/
def Dev.parkSet (s : Dev) (n : SliceId) (c : Contour) : Contour :=
  { c with vel := s.pairUse (gB n + GEN_PARK_VEL_V) (s.sl n).goodVel, acc := s.pairUse (gB n + GEN_PARK_ACC_V) (s.sl n).goodAcc
           jerk := s.pairUse (gB n + GEN_PARK_JERK_V) (s.sl n).goodJerk }

/-- The park code of slice `n` (R85, R99, R315). -/
def Dev.parkCode (s : Dev) (n : SliceId) : Code :=
  BitVec.ofNat 20 (s.pairUse (sB n + SLICE_PARK_CODE_V) (s.sl n).goodPark).toNat

/-- What a park of slice `n` has used becomes the last good values, and a mismatch it met is due as a message: of the park code, and
with `ramp` of set 15 (R315). -/
def Dev.keepPark (s : Dev) (n : SliceId) (ramp : Bool) : Dev :=
  let c := s.parkSet n (s.gen n).con
  let ok := s.pairMatch (sB n + SLICE_PARK_CODE_V) && (!ramp || (s.pairMatch (gB n + GEN_PARK_VEL_V)
    && s.pairMatch (gB n + GEN_PARK_ACC_V) && s.pairMatch (gB n + GEN_PARK_JERK_V)))
  let p := s.pairUse (sB n + SLICE_PARK_CODE_V) (s.sl n).goodPark
  s.modSl n (fun x =>
    { x with goodPark := p, parkMis := x.parkMis || !ok, goodVel := if ramp then c.vel else x.goodVel
             goodAcc := if ramp then c.acc else x.goodAcc, goodJerk := if ramp then c.jerk else x.goodJerk })

/-! ## Range changes -/

def Taps.scaleErr (t : Taps) (old new : Int) : Taps :=
  { t with e1 := rescale 16 t.e1 old new, e2 := rescale 16 t.e2 old new, e3 := rescale 16 t.e3 old new }

def Taps.scaleOut (t : Taps) (old new : Int) : Taps :=
  { t with y1 := rescale 32 t.y1 old new, y2 := rescale 32 t.y2 old new, y3 := rescale 32 t.y3 old new }

def scaleWord (w : Word) (old new : Int) : Word := BitVec.ofNat 32 (unsigned 32 (rescale 32 w.toInt old new))

/-- Convert the limits in use to the ranges in force. R137 multiplies the current limits at a TRANSFER and rounds to nearest,
R146 converts them again at each range change, rounded toward the inside: the model does the second (DESIGN CHOICE,
notes/assumptions/59.md). -/
def Dev.convertLimits (s : Dev) (n : SliceId) : Dev :=
  let q := s.fracs n (s.sl n).limUse (s.irange n) (s.vrange n)
  s.modSl n (fun x => { x with limQ := q })

/-- What slice `n` holds as fractions of the forced quantity's full scale, multiplied by old ÷ new: the setpoint if
`sp`, with an outer loop its output and output taps (`LOOP_OUTER`'s OUTER_M is not 0), and the contour (R137, R142,
R225). -/
def Dev.scaleForced (s : Dev) (n : SliceId) (old new : Int) (sp : Bool) : Dev :=
  let s1 := s.modSl n (fun x => { x with sp := if sp then .of (scaleWord x.sp.v old new) else x.sp
                                         tapsM := x.tapsM.scaleErr old new })
  let s2 := s1.modCon n (fun c => c.scale old new)
  if s.fld (sB n) SLICE_LOOP_OUTER_OUTER_M == 0 then s2
  else (s2.modSl n (fun x => { x with tapsO := x.tapsO.scaleOut old new })).wr (sB n + SLICE_OUTER_Y)
    (scaleWord (s.rd (sB n + SLICE_OUTER_Y)) old new)

/-- Tick VHOLD on slice `n`, or its early end at park: the new voltage range is in force, and what is held in fractions
of the voltage range is rescaled (R142). -/
def Dev.rescaleV (s : Dev) (n : SliceId) (new : Nat) : Dev :=
  let old := s.vrange n
  let fo := s.vfs n old
  let fn := s.vfs n new
  let s0 := (s.setFld (sB n) SLICE_RANGE_STATUS_VRANGE new).modSl n (fun x => { x with vhold := none, runs := [] })
  let s1 := s0.setFlag (sB n) SLICE_RANGE_STATUS_VHOLD_ACTIVE false
  let s2 := if s.mode n == 0 then s1.scaleForced n fo fn true
    else if s.mode n == 1 then s1.modSl n (fun x => { x with tapsL := x.tapsL.scaleErr fo fn })
    else s1.modSl n (fun x => { x with tapsM := x.tapsM.scaleErr fo fn })
  s2.convertLimits n

/-- The range and path of a TRANSFER are in force on slice `n`, and what is held in fractions of the current range is
rescaled (R137). -/
def Dev.rescaleI (s : Dev) (n : SliceId) (new : Nat) : Dev :=
  let old := s.irange n
  let fo := s.ifs n old
  let fn := s.ifs n new
  let s1 := (s.setFld (sB n) SLICE_RANGE_STATUS_IRANGE new).modSl n (fun x => { x with runs := [] })
  let s2 := if s.mode n == 1 then s1.scaleForced n fo fn true
    else s1.modSl n (fun x => { x with tapsL := x.tapsL.scaleErr fo fn })
  s2.convertLimits n

end Sys2Proof.Machine
end

