-- ==== Sys2Proof/Machine/Park.lean ====
section
/-! DEFINITION. Park (R85 to R88): what begins, what it abandons (R150, R89, R205, R257) and how its table ends. Nothing
here raises a fault message. -/

namespace Sys2Proof.Machine

/-! ## The FDAC -/

/-- Code history kept for R95: 1,024 ns and the code before it. -/
def pruneHist (now : Nat) (l : List (Nat × Code)) : List (Nat × Code) :=
  l.takeWhile (fun e => decide (now < e.1 + 1024)) ++ (l.dropWhile (fun e => decide (now < e.1 + 1024))).take 1

/-- The FDAC of slice `n` latches a code at cycle `t` (R74). -/
def Dev.latchOn (s : Dev) (n : SliceId) (t : Nat) (c : Code) : Dev :=
  ((s.setFld (sB n) SLICE_FORCE_STATUS_CODE c.toNat).setFlag (sB n) SLICE_FORCE_STATUS_PENDING false).modSl n (fun x =>
    { x with latchAt := some t, pendCode := none, hist := pruneHist t ((t, c) :: x.hist) })

def Dev.latch (s : Dev) (n : SliceId) (c : Code) : Dev := s.latchOn n s.now c

/-- The code in the FDAC. -/
def Dev.code (s : Dev) (n : SliceId) : Code := BitVec.ofNat 20 (s.fld (sB n) SLICE_FORCE_STATUS_CODE)

def Dev.clampHeld (s : Dev) (n : SliceId) : Bool := s.flag (sB n) SLICE_FORCE_STATUS_CLAMP_HOLD

/-- A code presented to the FDAC at cycle `c`: in clamp hold it is discarded (R76), and so is one hit by a parity error (R5);
it is latched if 20 cycles have passed since the previous latch, otherwise held pending in place of one that waits (R74). -/
def Dev.presentAt (s : Dev) (n : SliceId) (code : Code) (c : Nat) : Dev :=
  let x := s.sl n
  if s.clampHeld n then s
  else if x.dropCode then s.modSl n (fun y => { y with dropCode := false })
  else
    let ready := match x.latchAt with
      | some a => decide (a + 20 ≤ c)
      | none => true
    if ready then s.latchOn n c code
    else (s.setFlag (sB n) SLICE_FORCE_STATUS_PENDING true).modSl n (fun y => { y with pendCode := some code })

/-- The cycle at which the pending code of a slice may latch. -/
def Slice.pendAt (x : Slice) : Nat :=
  match x.latchAt with
  | some a => a + 20
  | none => 0

/-- A code that waits under R74 latches at its cycle if that is `t` or earlier; in clamp hold it is discarded (R76). -/
def Dev.pendTo (s : Dev) (n : SliceId) (t : Nat) : Dev :=
  match (s.sl n).pendCode with
  | none => s
  | some c =>
    if t < (s.sl n).pendAt then s
    else if s.clampHeld n then
      (s.modSl n (fun x => { x with pendCode := none })).setFlag (sB n) SLICE_FORCE_STATUS_PENDING false
    else s.latchOn n (s.sl n).pendAt c

/-- A flag of the code queue rises: the group's vector with IRQ_EN (R79). -/
def Dev.queueFlag (s : Dev) (n : SliceId) (f : Fld) : Dev :=
  let s1 := s.setFlag (sB n) f true
  if s1.flag (sB n) SLICE_QUEUE_STATUS_IRQ_EN then s1.sliceEvent n else s1

/-- What was on its way to the FDAC of slice `n` gets there at cycle `c`. The head of the queue, read a cycle after its tick, is
at the FDAC in the next cycle (R79); the holding register gives what it holds in the cycle of the latch (R80); a code of the
lane finds the FDAC held where the loop has opened since (R77). -/
def Dev.landOne (s : Dev) (n : SliceId) (c : Nat) (d : Drive) : Dev :=
  match d with
  | .head =>
    (match (s.sl n).queue with
      | [] => s.queueFlag n SLICE_QUEUE_STATUS_UNDERFLOW
      | q :: l => (s.modSl n (fun x => { x with queue := l, flight := (c + 1, .direct q) :: x.flight })).setFld (sB n)
          SLICE_QUEUE_STATUS_DEPTH l.length)
  | .direct q => s.presentAt n q c
  | .holding => s.presentAt n (s.sl n).holding c
  | .lane q g =>
    if s.fld (sB (s.owner n)) SLICE_LOOP_STATUS_STATE == 0 || s.clampHeld n then s
    else (s.presentAt n q c).modSl n (fun x => { x with gcode := g })

/-- What is due at the FDAC of slice `n` by cycle `t` gets there, in order of its cycles; `k` bounds the steps. -/
def Dev.landBy : Nat → Dev → SliceId → Nat → Dev
  | 0, s, _, _ => s
  | k + 1, s, n, t =>
    match (s.sl n).flight with
    | [] => s.pendTo n t
    | e :: l =>
      if t < e.1 then s.pendTo n t
      else Dev.landBy k (((s.pendTo n (e.1 - 1)).modSl n (fun x => { x with flight := l })).landOne n e.1 e.2) n t

/-- What is due at the FDAC of slice `n` by now gets there. -/
def Dev.land (s : Dev) (n : SliceId) : Dev := Dev.landBy (2 * (s.sl n).flight.length + 1) s n s.now

/-- Something starts on its way to the FDAC of slice `n`, due at cycle `c`. -/
def Dev.fly (s : Dev) (n : SliceId) (c : Nat) (d : Drive) : Dev := s.modSl n (fun x => { x with flight := x.flight ++ [(c, d)] })

/-- The code the lane has last given the FDAC of slice `n`: the one on its way, else the one that is there. -/
def Dev.codeAhead (s : Dev) (n : SliceId) : Code :=
  match (s.sl n).flight.getLast? with
  | some (_, .lane c _) => c
  | _ => s.code n

/-- FORCE_P − FORCE_N in FDAC steps: the clockless default holds it at zero until the first UNPARK (R54, R56). -/
def Dev.forced (s : Dev) (n : SliceId) : Int := if (s.sl n).dflt then 0 else (s.code n).toInt

/-! ## Commands in progress -/

/-- Commands of the kind `kind` selected by `sel` lose the slices `m` from their first part and `v` from the second; one
whose parts are both over completes with its status, or `st`, unless it is OK, where a slice of the first part was lost. -/
def Dev.resolve (s : Dev) (kind sel : Sched → Bool) (m v : Word) (st : Nat) : Dev :=
  let upd := fun (x : Sched) =>
    if kind x && sel x then
      { x with mask := x.mask &&& ~~~m, vmask := x.vmask &&& ~~~v, status := if x.mask &&& m == 0 || st == OK then x.status else st }
    else x
  let l := s.sched.map upd
  let due := fun (x : Sched) => kind x && x.mask == 0 && x.vmask == 0
  ({ s with sched := l }).settle due (fun x => (x.status, s.time))

def isRange : RingCmd → Bool
  | .range _ => true
  | _ => false
def isUnpark : RingCmd → Bool
  | .unpark => true
  | _ => false
def isPark : RingCmd → Bool
  | .park => true
  | _ => false

def bit32 (n : Nat) : Word := BitVec.ofNat 32 (2 ^ n)
def maskOf (l : List SliceId) : Word := l.foldl (fun m n => m ||| bit32 n.val) 0

/-- Slice `n` leaves the UNPARK sequence of its group: the command completes PARKED when no slice is outstanding, with
the TIME of the closing tick if any slice closed (R89). -/
def Dev.leaveUnpark (s : Dev) (n : SliceId) : Dev :=
  let b := bit32 n.val
  let sel := fun (x : Sched) => isUnpark x.cmd && x.mask &&& b != 0
  let l := s.sched.map (fun x => if sel x then { x with mask := x.mask &&& ~~~b, status := PARKED } else x)
  ({ s with sched := l }).settle (fun x => isUnpark x.cmd && x.mask == 0)
    (fun x => (PARKED, if x.vmask == 0 then s.time else x.time))

/-- The voltage range that waits on slice `n`: of the last RANGE command whose tick has not come, or behind a hold. -/
def Dev.voltWaiting (s : Dev) (n : SliceId) : Option Nat :=
  match (s.sched.filterMap (fun (c : Sched) => match c.cmd with
      | .range p => if c.wmask.getLsbD n.val && c.after != 0 then some p.vrange.toNat else none
      | _ => none)).getLast? with
  | some v => some v
  | none => (s.sl n).vWait

/-- Range steps and holds of slice `n` end with park, and a voltage range that waits takes effect at once on all that act
with it (R150; DEDUCED, notes/assumptions/24.md). -/
def Dev.abandonRanges (s : Dev) (n : SliceId) : Dev :=
  let x := s.sl n
  let s1 := ((s.setFld (sB n) SLICE_RANGE_STATUS_PHASE 0).setFld (sB n) SLICE_RANGE_STATUS_TARGET (s.irange n)).modSl n
    (fun y => { y with rstep := none, spWait := none, downRun := 0 })
  let s2 := if x.vhold.isSome then s1.rescaleV n x.vNew else s1
  let s3 := match s.voltWaiting n with
    | some v => s2.each (s2.gang n) (fun d m => (d.rescaleV m v).modSl m (fun y => { y with vWait := none }))
    | none => s2
  let s4 := (s3.setFld (sB n) SLICE_RANGE_STATUS_STANDBY (s3.ipatNow n).2).loadThr n
  s4.resolve (fun c => isRange c.cmd) (fun c => (c.mask ||| c.vmask) &&& bit32 n.val != 0) (bit32 n.val) (bit32 n.val) PARKED

/-- The application of an agile WRITE ends; the store holds the new set and its command completes
(R205, R215; DEDUCED, notes/assumptions/16.md). -/
def Dev.endAgile (s : Dev) (n : SliceId) : Dev :=
  let s1 := ((s.modSl n (fun x => { x with agile := none })).setFlag (sB n) SLICE_COEF_WSTATUS_AGILE_BUSY false).setFld
    (sB n) SLICE_COEF_WSTATUS_AGILE_NEXT 0
  let agile := fun (x : Sched) => match x.cmd with
    | .coefSelect op _ => op != 0
    | _ => false
  s1.resolve agile (fun x => x.mask &&& bit32 n.val != 0) (bit32 n.val) 0 OK

/-! ## Park of one slice -/

/-- Is the output of CLAMP_HI (`high`) or CLAMP_LO of slice `n` active: above for one, below for the other (R157)? -/
def Dev.clampOn (s : Dev) (n : SliceId) (high : Bool) : Bool :=
  bitOf (s.fld (sB n) SLICE_CMP_STATUS_LEVEL) (if high then 0 else 1) == high

/-- Is a clamp output of slice `n`, or of its gang (R94), active? -/
def Dev.clampActive (s : Dev) (n : SliceId) : Bool := (s.gang n).any (fun m => s.clampOn m true || s.clampOn m false)

/-- The loop of slice `n` is open. -/
def Dev.openLoop (s : Dev) (n : SliceId) : Dev :=
  ((((s.setFld (sB n) SLICE_LOOP_STATUS_STATE 0).setFlag (sB n) SLICE_FORCE_STATUS_HOLD false).setFlag (sB n)
    SLICE_FB_STATUS_STALE_HOLD false).setFld (sB n) SLICE_FB_STATUS_STALE_RUN 0).modSl n (fun x =>
      { x with closing := false, reinit := false, held := false, stale := 0, runs := [], errRun := 0, codes := [] })

/-- Cycle 0 of the table of R85 on slice `n`: what is on its way to the FDAC is latched no more (R76). -/
def Dev.parkSlice (s : Dev) (n : SliceId) : Dev :=
  let c := s.parkCode n
  let s1 := (((((s.keepPark n false).land n).openLoop n).abandonRanges n).endAgile n).latch n c
  let s2 := s1.modSl n (fun x =>
    { x with phase := .parking s.now false, flight := [], queue := [], holding := c, gcode := c.toInt, prgPwm := none, prgStop := false
             clampN := x.clampN && s.clampActive n, holdEnds := false, codes := [], spWait := none
             trim := 0, outerWait := none })
  let s3 := (((((((((s2.setFlag (sB n) SLICE_FORCE_STATUS_OUTEN false).setFlag (sB n) SLICE_FORCE_STATUS_PARKED false).setFlag
    (sB n) SLICE_FORCE_STATUS_PARK_BUSY true).setFlag (sB n) SLICE_FORCE_STATUS_CLAMP_HOLD false).setFlag (sB n)
    SLICE_CLAMP_STATUS_HOLD false).setFld (sB n) SLICE_QUEUE_STATUS_DEPTH 0).setFlag (sB n)
    SLICE_PRG_STATUS_RUNNING false).setFlag (sB n) SLICE_PRG_STATUS_SOFT false).setFld (sB n) SLICE_BAL_TRIM_TRIM 0).setFlag
    (gB n) GEN_CONTOUR_STATUS_PARK_RAMP false
  (s3.modCon n (fun k => { k with p := 0, v := 0, a := 0, plan := [], replan := false })).leaveUnpark n

/-- The code ramp of slice `n` begins from the code in the FDAC, or in a gang from the gang code, at rest (R86): of a gang in
direct mode, whose slices hold codes of their own, from the code of the lowest slice, which all its slices then follow (DESIGN
CHOICE, notes/assumptions/57.md). In a gang the lowest slice's generator alone acts (R222). -/
def Dev.codeRamp (s0 : Dev) (n : SliceId) : Dev :=
  let s := s0.land n
  let s1 := ((s.keepPark n (s.owner n == n)).openLoop n).modSl n (fun y => { y with phase := .ramp true })
  if s.owner n != n then s1
  else
    let x := (s.parkCode n).toInt
    let c := if s.ganged n && !s.flag (sB n) SLICE_FORCE_CFG_DIRECT then (s.sl n).gcode else (s.code n).toInt
    let s2 := (s1.setFlag (gB n) GEN_CONTOUR_STATUS_PARK_RAMP true).setFld (gB n) GEN_CONTOUR_STATUS_SET 15
    s2.modCon n (fun k => ((s.parkSet n k).at (c * codeUnit) 0).planTo (x * 4096) (x * codeUnit) (s.period (s.low n).val))

/-- The setpoint ramp of slice `n` begins from the present state of its generator (R85, R225). -/
def Dev.setRamp (s : Dev) (n : SliceId) : Dev :=
  let s1 := (s.keepPark n (s.owner n == n)).modSl n (fun y => { y with phase := .ramp false })
  if s.owner n != n then s1
  else
  let s2 := (s1.setFlag (gB n) GEN_CONTOUR_STATUS_PARK_RAMP true).setFld (gB n) GEN_CONTOUR_STATUS_SET 15
  s2.modCon n (fun k => (s.parkSet n k).planTo 0 0 (s.period (s.low n).val))

/-- Park begins on slice `n` alone: the table of R85, or the ramp of an inductive slice in the arrangement it is in
(R85, R86). On the fallback clock there is no ramp (R88, R297). A slice that parks already goes on (R88). -/
def Dev.parkOne (s : Dev) (n : SliceId) : Dev :=
  match (s.sl n).phase with
  | .parked => s
  | .parking _ _ => s
  | .ramp _ => s
  | _ =>
    if !s.induct n || s.fallback then s.parkSlice n
    else
      let m := s.owner n
      let closed := s.fld (sB m) SLICE_LOOP_STATUS_STATE == 1 && s.mode m != 2 && !s.flag (sB n) SLICE_FORCE_CFG_DIRECT
      let s1 := ((((s.abandonRanges n).endAgile n).leaveUnpark n).setFlag (sB n) SLICE_FORCE_STATUS_PARKED false).setFlag
        (sB n) SLICE_FORCE_STATUS_PARK_BUSY true
      if closed then s1.setRamp n else s1.codeRamp n

/-- What the start of a park does to the group's engine: a leg with STOP_ON_PARK stops it, otherwise a pending jump is
discarded (R259). -/
def Dev.parkEngine (s : Dev) (n : SliceId) : Dev :=
  let g := s.low n
  let stop := match ((s.eng g).next.or (s.eng g).pos) with
    | some p => bitOf p.desc.flags 4
    | none => false
  if stop && s.travState g != 0 && s.travState g != 4 then s.stopEngine g else s.dropJump g PRECONDITION

/-- Is a park on slice `n` complete or in progress? -/
def Dev.parking (s : Dev) (n : SliceId) : Bool :=
  match (s.sl n).phase with
  | .parked => true
  | .parking _ _ => true
  | .ramp _ => true
  | _ => false

/-- Park begins on slice `n`, and with it on its whole gang (R87). -/
def Dev.parkBegin (s : Dev) (n : SliceId) : Dev :=
  if s.parking n then s else (s.each (s.gang n) Dev.parkOne).parkEngine n

def Dev.allSlices : List SliceId := (List.range 32).map sid

/-- Park begins on every slice. -/
def Dev.parkAll (s : Dev) : Dev := s.each Dev.allSlices Dev.parkBegin

/-- Park begins on every slice of group `g`. -/
def Dev.parkGroup (s : Dev) (g : Nat) : Dev := s.each (s.members g) Dev.parkBegin

/-! ## Its end -/

/-- RG_SAFE on slice `n` (R30, R85). -/
def Dev.rgSafe (s : Dev) (n : SliceId) : Dev := s.driveRg n (s.plates.rgSafe.getD n.val 0)

/-- Some slice parks. -/
def Dev.anyParking (s : Dev) : Bool := Dev.allSlices.any (fun n => s.flag (sB n) SLICE_FORCE_STATUS_PARK_BUSY)

/-- Park complete on slice `n` (R85); a PARK command whose slices are all parked completes (R376), and with the last slice a power-fail
sequence ends (R68). -/
def Dev.parkDone (s : Dev) (n : SliceId) : Dev :=
  let s1 := ((s.setFlag (sB n) SLICE_FORCE_STATUS_PARKED true).setFlag (sB n) SLICE_FORCE_STATUS_PARK_BUSY false).modSl n
    (fun x => { x with phase := .parked })
  let s2 : Dev := { s1 with boot := { s1.boot with failRun := s1.boot.failRun && s1.anyParking } }
  s2.settle (fun x => isPark x.cmd && (s1.members x.group).all (fun m => s1.parked m)) (fun _ => (OK, s1.time))

/-- Slices on which a power-fail sequence or any park still runs. -/
def Dev.parkBusy (s : Dev) (n : SliceId) : Bool := s.flag (sB n) SLICE_FORCE_STATUS_PARK_BUSY

/-- The cycle 0 of the table on an inductive gang whose ramp has ended. -/
def Dev.endRamp (s : Dev) (n : SliceId) : Dev := s.each (s.gang n) Dev.parkSlice

end Sys2Proof.Machine
end

