-- ==== Sys2Proof/Machine/Resets.lean ====
section
/-! DEFINITION. What the resets act on, without a fault message of their own: the host interface (R64), the targets of
R344, the power-fail sequence (R68), RESET_N (R54, R62) and the restart of a CHIP_RESET (R63). -/

namespace Sys2Proof.Machine

/-- Register words at offsets in [lo, hi) take their reset values. -/
def Dev.clearRegs (s : Dev) (lo hi : Nat) : Dev :=
  { s with regs := s.regs.filter (fun c => decide (c.1 < lo) || decide (hi ≤ c.1)) }

/-! ## Host interface (R64) -/

/-- A command whose completion is discarded from now on; a relayed command of another device keeps its own. -/
def Ctx.cut (c : Ctx) : Ctx := if c.remote then c else { c with drop := true }

def JumpReq.cut (j : JumpReq) : JumpReq := { j with ctx := j.ctx.map Ctx.cut }

def Engine.cut (e : Engine) : Engine :=
  { e with latch := e.latch.map JumpReq.cut, filling := e.filling.map JumpReq.cut, stops := e.stops.map Ctx.cut
           start := e.start.map (fun p => (p.1.cut, p.2)), waiters := e.waiters.map Ctx.cut, arm := e.arm.map Ctx.cut }

/-- A ring pair, bound to node and group `b`, after a host reset: the commands it had fetched execute, their completions discarded.
A command that holds the ring has been fetched: the ring goes on without it. -/
def Ring.cut (r : Ring) (b : Nat × Nat) : Ring :=
  { Ring.atReset with
    fetched := r.fetched, next := r.next, bound := r.bound ++ List.replicate (r.fetched - r.bound.length) b, relayed := r.relayed.map (fun p => (p.1, p.2.1, p.2.2.1.cut, p.2.2.2)) }

/-- PERST# and Function Level Reset on the host interface alone: rings, capture DMA, MSI-X and configuration space. -/
def Dev.hostClear (s : Dev) : Dev :=
  { s.clearRegs 0x70000 0x80000 with
    rings := Vector.ofFn (fun r => (s.ring r).cut (s.fld (rB r) HOST_RING_CFG_NODE, s.fld (rB r) HOST_RING_CFG_GROUP)), chans := Vector.replicate 32 .atReset, vects := Vector.replicate 40 .atReset
    sched := s.sched.map (fun x => { x with ctx := x.ctx.cut }), engines := s.engines.map Engine.cut
    cfg := { s.cfg with d3 := false, ptm := false, msix := false, fmask := false }
    datum := { s.datum with cal := s.datum.cal.map (fun c => { c with ctx := c.ctx.cut })
                            commit := s.datum.commit.map (fun c => { c with ctx := c.ctx.cut }) } }

/-- A host reset: with `link`, the link to the host goes down too (PERST#). After release HOST_RESET_SEEN is set, and
with FLAGS.PARK_ON_HOST_RESET every slice parks, 4 cycles on as on the grave path (R13). The caller raises 0x300. -/
def Dev.hostReset (s : Dev) (link : Bool) : Dev :=
  let s1 := s.hostClear
  let s2 := if link then { s1 with cfg := { s1.cfg with link := false } } else s1
  if s.released then
    let s3 := s2.setFlag 0 GLOBAL_STATUS_HOST_RESET_SEEN true
    if s.plates.parkOnReset then (s3.upTo (s3.now + 4)).parkAll else s3
  else s2

/-! ## Lanes (R174) -/

/-- Does lane `l` serve slice `n`: by its LANE field, or its gang's lowest slice where that field is 0xFF? -/
def Dev.serves (s : Dev) (l n : Nat) : Bool :=
  match s.plates.lanes[n]? with
  | some r =>
    if r.lane == 0xFF then
      (match s.groupOf n with
        | some g => decide (g.gang ≠ 0) && (match s.plates.lanes[g.first]? with
            | some q => q.lane == l
            | none => false)
        | none => false)
    else r.lane == l
  | none => false

def Dev.served (s : Dev) (l : Nat) : List SliceId := Dev.allSlices.filter (fun n => s.serves l n.val)

/-- Lane that serves slice `n`. -/
def Dev.laneOf (s : Dev) (n : Nat) : Nat := ((List.range 32).find? (fun l => s.serves l n)).getD n

/-- Loop hold on slice `n`, if its loop is closed (R76, R98). -/
def Dev.holdLoop (s : Dev) (n : SliceId) : Dev :=
  if s.fld (sB n) SLICE_LOOP_STATUS_STATE == 1 then
    (s.setFld (sB n) SLICE_LOOP_STATUS_STATE 2).setFlag (sB n) SLICE_FORCE_STATUS_HOLD true
  else s

/-- Slice `n` enters the hold of a lane context restore (R174 step 1); an inductive ramp in closed loop goes on as a
code ramp (R86). -/
def Dev.restoreHold (s : Dev) (n : SliceId) : Dev :=
  let s1 := match (s.sl n).phase with
    | .ramp false => s.codeRamp n
    | _ => s.holdLoop n
  (s1.modSl n (fun x => { x with restoring := true })).setFlag (sB n) SLICE_LOOP_STATUS_RESTORE true

/-! ## Clocks (R293 to R295) -/

/-- PLL b searches a band afresh (R293). -/
def Dev.pllSearch (s : Dev) (b : Bool) : Dev :=
  let s1 := s.setFlag 0 CLK_STATUS_STANDBY_READY false
  if b then ((s1.setFlag 0 CLK_STATUS_B_LOCKED false).setFlag 0 CLK_PLL_B_LOCKED false).setFlag 0 CLK_PLL_B_SEARCHING true
  else ((s1.setFlag 0 CLK_STATUS_A_LOCKED false).setFlag 0 CLK_PLL_A_LOCKED false).setFlag 0 CLK_PLL_A_SEARCHING true

/-- The glitch-free selector moves the domains to the standby, with the phase step met (R294). -/
def Dev.pllSwitch (s : Dev) (step : Nat) : Dev :=
  let s1 := s.setFlag 0 CLK_STATUS_ACTIVE (!s.flag 0 CLK_STATUS_ACTIVE)
  ((s1.setFlag 0 CLK_STATUS_SWITCHED true).addFld 0 CLK_SWITCHES_COUNT 1).setFld 0 CLK_SWITCHES_LAST_STEP_PS step

/-- BLOCK_RESET of PLL b (R344): the active one switches first if the standby is ready, otherwise nothing. The phase
step is a free value of at most 50 ps. -/
def Dev.pllReset (s : Dev) (b : Bool) : Dev :=
  if s.flag 0 CLK_STATUS_ACTIVE == b then
    if s.flag 0 CLK_STATUS_STANDBY_READY then
      ((s.pllSwitch (clampI 0 50 (Config.approx s.freeCtr [])).toNat).draw).pllSearch b
    else s
  else s.pllSearch b

/-! ## Ports, monitors, Datum records, tiles, the Surveyor -/

/-- Port `p` goes down and trains anew (R398). -/
def Dev.portDown (s : Dev) (p : PortId) : Dev :=
  let s1 := (s.setFlag (pB p) LINK_PORT_STATUS_UP false).setFld (pB p) LINK_PORT_STATUS_LANES 0
  s1.modPort p (fun x => { x with peer := none, downAt := some (x.downAt.getD s.now) })

/-- A monitor code lies in the hysteresis band of HI, or of LO (R157, R162). -/
def Dev.monIn (s : Dev) (m : Nat) (high : Bool) (v : Int) : Bool :=
  let b := monBase m
  let h : Int := s.fld b MON_CFG_HYST
  let lo := 2 * signed 12 (s.fld b MON_THR_LO)
  let hi := 2 * signed 12 (s.fld b MON_THR_HI)
  if high then decide (hi - h ≤ 2 * v) && decide (2 * v ≤ hi) else decide (lo ≤ 2 * v) && decide (2 * v ≤ lo + h)

/-- The hysteresis band a monitor code lies in: true HI's, false LO's. -/
def Dev.monBand (s : Dev) (m : Nat) (v : Int) : Option Bool :=
  if s.monIn m true v then some true else if s.monIn m false v then some false else none

/-- Monitor `m` is armed with its input in the band given: its output is forced to the side SMON_CFG names, below or
above the threshold of that band, and it is undecided (R158). -/
def Dev.monArm (s : Dev) (m : Nat) (band : Option Bool) : Dev :=
  let b := monBase m
  let above := bitOf (s.plates.smon.getD m 0) 1
  match band with
  | none => s.setFlag b MON_STATUS_UNDECIDED false
  | some hi =>
    ((s.setFlag b MON_STATUS_UNDECIDED true).setFld b MON_STATUS_STATE (if hi then (if above then 2 else 0) else (if above then 0 else 1))).modMon
      (sid m) (fun x => { x with undecHi := hi })

/-- First byte of bank `b` of the Datum die: 0 F, 1 A, 2 B (R319). -/
abbrev bankBase (b : Nat) : Nat := 0x110000 * b
/-- Offset of the record of slice `n` in set `t` of an image (R322). -/
abbrev recOff (t n : Nat) : Nat := 0x1000 + 0x20000 * t + 0x1000 * n

def Dev.workBase (s : Dev) : Nat := (s.rd DATUM_WORK_BASE).toNat

/-- The records of slice `n` in the working copy are read again from the bank in force (R326, R344); with no bank in
force nothing can be read. -/
def Dev.reloadRecords (s : Dev) (n : Nat) : Dev :=
  let b := s.fld 0 DATUM_STATUS_BANK
  if b == 3 then s
  else s.each (List.range 8) (fun d t => d.put (d.workBase + recOff t n) (d.nvBytes (bankBase b + recOff t n) 4096))

/-- A tile is queued for retest: four at most, each once (R309). -/
def Dev.queueRetest (s : Dev) (t : Nat) : Dev :=
  if s.memst.retest.contains t || decide (4 ≤ s.memst.retest.length) then s
  else { s with memst := { s.memst with retest := s.memst.retest ++ [t] } }

/-- Position b × 520 + tile of the physical tile that serves BAR2 offset `a`, through its remap (R306, R310). -/
def Dev.tileOf (s : Dev) (a : Nat) : Nat :=
  let k := if 0x2800000 ≤ a then 319 else a / 131072
  let t := k * 520 + a % 131072 / 256
  match s.memst.remap.find? (fun r => r.1 == t) with
  | some r => k * 520 + 512 + r.2
  | none => t

/-! ## Power failure (R68, R70) -/

/-- An NVM commit is abandoned: no further program operation is issued (R70). The Datum commit's command completes
INTEGRITY, its bank no longer valid (DEDUCED, notes/assumptions/18.md). -/
def Dev.abandonCommits (s : Dev) : Dev :=
  let s1 := match s.datum.commit with
    | some c => ({ s with datum := { s.datum with commit := none } }).complete c.ctx INTEGRITY
    | none => s
  let s2 := s1.setFlag 0 DATUM_STATUS_COMMIT_BUSY false
  { s2 with memst := { s2.memst with commit := none, waiting := false } }.setFlag 0 MEM_REPAIR_STATUS_COMMIT_BUSY false

/-- A calibration in progress can no longer succeed (R330 code 2). -/
def Dev.breakCal (s : Dev) : Dev := { s with datum := { s.datum with cal := s.datum.cal.map (fun c => { c with broken := true }) } }

/-- A Datum commit that waits behind a repair-list commit has not begun, and none begins in the sequence: its command completes
PRECONDITION, as one asked for then would (R70, R334; DEDUCED, notes/assumptions/18.md). -/
def Dev.dropWaiting (s : Dev) : Dev :=
  match s.datum.commit with
  | some c => if c.begun then s
    else (({ s with datum := { s.datum with commit := none } }).setFlag 0 DATUM_STATUS_COMMIT_BUSY false).complete c.ctx PRECONDITION
  | none => s

/-- Cycle 5 of R68: every slice parks or begins its ramp, engines stop. An NVM commit in progress runs on only for
PWRFAIL_N with HOLDUP_US of 400 or more (R70). -/
def Dev.powerFail (s : Dev) (pin : Bool) : Dev :=
  let s0 := s.parkAll.stopEngines
  let s1 := { s0 with boot := { s0.boot with failRun := s0.anyParking } }.breakCal
  if pin && decide (400 ≤ s.fld 0 GLOBAL_PWR_CFG_HOLDUP_US) then s1.dropWaiting else s1.abandonCommits

/-- The sequence of R68 runs, from its trigger until every slice has parked. -/
def Dev.powerFailing (s : Dev) : Bool := s.boot.failRun && s.anyParking

/-- No NVM commit begins: the sequence runs, or a trigger of it stands (R70, R334). -/
def Dev.noCommit (s : Dev) : Bool := !s.pins.pwrfailN || !s.pins.brown.isEmpty || s.powerFailing

/-! ## Start-up -/

/-- Everything RESET_N low resets (R54, R62): what stays is what stands on the Datum die, the stores' bytes
(DEDUCED, notes/assumptions/6.md), the pins, the count of cycles, the R59 latch, which only power-on clears, and a fuse command in
progress, which a CHIP_RESET does not cut short (DEDUCED, notes/assumptions/37.md). -/
def Dev.resetAll (s : Dev) : Dev :=
  let d := Dev.atPowerOn
  let d1 : Dev := { d with now := s.now, freeCtr := s.freeCtr, mem := s.mem, nvm := s.nvm, pins := s.pins
                           boot := { Boot.atReset with fused := s.boot.fused, fuseCmd := s.boot.fuseCmd, fuseKey := s.boot.fuseKey }
                           memst := { MemSt.atReset with bad := s.memst.bad } }
  ((d1.setFlag 0 GLOBAL_STATUS_GRAVE_LATCH (s.flag 0 GLOBAL_STATUS_GRAVE_LATCH)).setFlag 0 GLOBAL_STATUS_INTERLOCK
    (!s.pins.interlockN)).setFlag 0 GLOBAL_STATUS_PWRFAIL (!s.pins.pwrfailN)

/-- Steps 1 and 2 of R47: the fuses are loaded and the ROM starts on XIN; both PLLs search (step 3). -/
def Dev.bootStart (s : Dev) (bootsel : Nat) (recovery : Bool) : Dev :=
  let d := s.resetAll
  let d1 := (((d.setFld 0 GLOBAL_STATUS_BOOTSEL bootsel).setFlag 0 GLOBAL_STATUS_RECOVERY_STRAP recovery).setFlag 0
    GLOBAL_STATUS_SERVICE_FUSED s.boot.fused).setFlag 0 CLK_STATUS_XIN_OK s.pins.xin
  let d2 := (d1.setFlag 0 CLK_PLL_A_SEARCHING true).setFlag 0 CLK_PLL_B_SEARCHING true
  let d3 := d2.each ([0, 1] : List PortId) (fun x p => x.modPort p (fun k => { k with restart := some s.now }))
  { d3 with boot := { d3.boot with step := 3, zero := s.now } }

/-- A CHIP_RESET that has waited for the inductive ramps restarts the device with the straps as sampled (R63). -/
def Dev.chipTry (s : Dev) : Dev :=
  let ramping := Dev.allSlices.any (fun n => match (s.sl n).phase with
    | .ramp _ => true
    | _ => false)
  if s.boot.chip && !ramping then
    s.bootStart (s.fld 0 GLOBAL_STATUS_BOOTSEL) (s.flag 0 GLOBAL_STATUS_RECOVERY_STRAP)
  else s

/-- A CHIP_RESET reaction: every slice parks, then the restart (R63). -/
def Dev.chipReset (s : Dev) : Dev :=
  let s1 := s.parkAll
  ({ s1 with boot := { s1.boot with chip := true } }).chipTry

end Sys2Proof.Machine
end

