-- ==== Sys2Proof/Machine/Flags.lean ====
section
/-! DEFINITION. The fault collector (R338 to R355): classes and floors, the sticky banks, the reactions, block resets and
their repetition, and `raise`, by which every block presents a message. -/

namespace Sys2Proof.Machine

/-! ## Messages -/

/-- Message words [31:0] and [63:32] (R338). -/
def msgLo (m : Msg) : Word := BitVec.ofNat 32 (m.source.toNat + 1024 * m.kind.toNat + 65536 * (m.addr.toNat % 65536))
def msgHi (m : Msg) : Word :=
  BitVec.ofNat 32 (m.addr.toNat / 65536 + 65536 * m.unit.toNat + 16777216 * m.injected.toNat)

/-- The message two words spell; INJECTED is forced (R352). -/
def msgOf (lo hi : Word) : Msg :=
  { source := lo.extractLsb' 0 10, kind := lo.extractLsb' 10 6, addr := (hi.extractLsb' 0 16) ++ (lo.extractLsb' 16 16)
    unit := hi.extractLsb' 16 8, injected := true }

/-- Offset of `FAULT_SRC_s`. -/
abbrev srcBase (x : Nat) : Nat := 4 * x

/-- A source whose Grave class is fixed (R34). -/
def fixedGrave (x : Nat) : Bool := (decide (0x282 ≤ x) && decide (x ≤ 0x284)) || (decide (0x3E1 ≤ x) && decide (x ≤ 0x3E6)) || x == 0x3E9

/-- Floor class of a kind (R313, R340). -/
def kindFloor (x k : Nat) : Nat :=
  if x < 0x100 then
    if x % 8 == 1 then (if k == 1 || k == 2 then 2 else 0)
    else if x % 8 == 2 then (if k == 2 then 2 else 0)
    else if x % 8 == 3 then (if k == 1 then 2 else 0)
    else 0
  else if 0x140 ≤ x && x < 0x280 then
    (if k == 2 || k == 4 then 2 else if k == 3 || k == 5 || k == 6 then 1 else 0)
  else 0

def Dev.srcClass (s : Dev) (x : Nat) : Nat := if fixedGrave x then 3 else s.fld (srcBase x) FAULT_SRC_CLASS

/-- Effective class of a message (R340). -/
def Dev.effClass (s : Dev) (m : Msg) : Nat := max (s.srcClass m.source.toNat) (kindFloor m.source.toNat m.kind.toNat)

/-- Reactions of a message as bits [6:2] of `FAULT_SRC_s`: the source's mask, with the default reactions of a class that
a floor raises it to; a Grave message holds ERR_N (R341). -/
def Dev.reactions (s : Dev) (m : Msg) : Word :=
  let x := m.source.toNat
  let c := s.effClass m
  let w := (s.rd (FAULT_SRC + 4 * x)) &&& 0x7C
  let r := if s.srcClass x < c then w ||| BitVec.ofNat 32 (classReactions c) else w
  if c == 3 then r ||| 0x40 else r

/-- Offset of the sticky word of a source in a bank, and its bit. -/
def bankWord (inj : Bool) (x : Nat) : Nat := (if inj then FAULT_INJ else FAULT_REAL) + 4 * (x / 32)
def Dev.sticky (s : Dev) (inj : Bool) (x : Nat) : Bool := (s.rd (bankWord inj x)).getLsbD (x % 32)
def Dev.setBit (s : Dev) (a i : Nat) (b : Bool) : Dev := s.setFld 0 ⟨a, i, 1⟩ b.toNat
def Dev.setSticky (s : Dev) (inj : Bool) (x : Nat) : Dev := s.setBit (bankWord inj x) (x % 32) true

/-- The cause of a source persists, or no longer does (R349). -/
def Dev.cause (s : Dev) (x : Nat) (b : Bool) : Dev := s.setBit (FAULT_CAUSE + 4 * (x / 32)) (x % 32) b

/-- The cause of 0x3E8 ends once INTERLOCK_N has been high for 1 ms (R66). -/
def Dev.refreshLock (s : Dev) : Dev :=
  if s.pins.interlockN && decide (s.pins.interlockAt + 1000000 ≤ s.now) then s.cause 0x3E8 false else s

/-- `FAULT_CTRL.LIVE` with a lifecycle state that allows it. -/
def Dev.live (s : Dev) : Bool := s.flag 0 FAULT_CTRL_LIVE

/-- Sources that hold ERR_N low, lowest first (R346, R348). -/
def Dev.errSources (s : Dev) : List Nat :=
  (List.range 1024).filter (fun x => s.col.wired.contains x || (s.col.errReal.contains x && s.sticky false x)
    || (s.live && s.col.errInj.contains x && s.sticky true x))

/-- ERR_N is low: in RESET_N low and BOOT, then while a source holds it and for 2 cycles after (R54, R348). -/
def Dev.errLow (s : Dev) : Bool := !s.pins.resetN || !s.released || !s.errSources.isEmpty || decide (s.now < s.col.errUntil)

def Dev.modCol (s : Dev) (f : Collector → Collector) : Dev := { s with col := f s.col }

def addNat (x : Nat) (l : List Nat) : List Nat := if l.contains x then l else l ++ [x]

/-! ## The grave path (R346) -/

def Dev.inService (s : Dev) : Bool := s.fld 0 GLOBAL_STATUS_STATE == 2

/-- A Grave fault while a partial image is still checked abandons the reload (R41; DEDUCED, notes/assumptions/36.md). -/
def Dev.abandonPartial (s : Dev) : Dev :=
  if s.boot.partial_ && !s.boot.papply then
    ({ s with boot := { s.boot with partial_ := false, pmask := 0 } }.setFlag 0 ATLAS_STATUS_PARTIAL_BUSY false).setFlag 0
      ATLAS_STATUS_PARTIAL_DONE true |>.vector 1
  else s

/-- A grave wire is asserted in this cycle: ERR_N is low 3 cycles later, and 4 cycles later every slice parks, with the engines
stopped and in SERVICE the latch of R59 set (R13, R343, R346). -/
def Dev.graveErr (s : Dev) (x : Nat) : Dev := (s.upTo (s.now + 3)).modCol (fun c => { c with wired := addNat x c.wired })
def Dev.gravePark (s : Dev) : Dev :=
  let s1 := s.parkAll.stopEngines.abandonPartial
  s1.when s1.inService (fun d => d.setFlag 0 GLOBAL_STATUS_GRAVE_LATCH true)
def Dev.graveAct (s : Dev) (x : Nat) : Dev := ((s.graveErr x).upTo (s.now + 4)).gravePark

/-! ## Block resets (R344, R350, R351) -/

/-- Target number: CLASS in [21:18], INDEX in [17:0]. -/
abbrev target (cls idx : Nat) : Nat := cls * 262144 + idx

/-- Kortor port a source of 0x2C0 to 0x2FF resets (R344). -/
def Dev.portTarget (s : Dev) (x : Nat) : Nat :=
  if x == 0x2D0 then s.upPort.val
  else if 0x2D1 ≤ x && x ≤ 0x2D8 then s.fld (nodeBase (x - 0x2D0)) LINK_NODE_STATUS_PORT
  else x % 2

/-- Target of a source's BLOCK_RESET, none where it resets nothing. -/
def Dev.resetTarget (s : Dev) (m : Msg) : Option Nat :=
  let x := m.source.toNat
  if x < 0x100 then some (target 0 (s.laneOf (x / 8)))
  else if 0x120 ≤ x && x < 0x140 then some (target 1 (x - 0x120))
  else if 0x140 ≤ x && x < 0x280 then some (target 2 (s.tileOf m.addr.toNat))
  else if x == 0x280 || x == 0x281 then some (target 3 (x - 0x280))
  else if 0x2C0 ≤ x && x < 0x300 then some (target 4 (s.portTarget x))
  else if 0x300 ≤ x && x < 0x340 then some (target 5 0)
  else if 0x340 ≤ x && x < 0x380 then some (target 6 (x % 32))
  else if 0x380 ≤ x && x < 0x3A0 && m.unit.toNat < 32 then some (target 7 m.unit.toNat)
  else if x == 0x3C0 || x == 0x3C1 then some (target 8 0)
  else none

/-- A PLL that is active without a ready standby cannot be reset: the reset is ignored. -/
def Dev.resetIgnored (s : Dev) (t : Nat) : Bool :=
  t / 262144 == 3 && (s.flag 0 CLK_STATUS_ACTIVE == (t % 262144 == 1)) && !s.flag 0 CLK_STATUS_STANDBY_READY

def Dev.enqueue (s : Dev) (m : Msg) : Dev :=
  let x := m.source.toNat
  let c := s.effClass m
  if s.col.queue.length < 64 then
    let s1 := s.modCol (fun k => { k with queue := k.queue ++ [m] })
    s1.when (decide (63 ≤ s.col.queue.length)) (fun d => d.setFlag 0 FAULT_STATUS_FULL_SEEN true)
  else
    let merged := s.bumpSat FAULT_MERGED
    let slotted := fun (d : Dev) =>
      let d1 := (d.setSticky m.injected x).setFld (srcBase x) FAULT_SRC_SEEN (max c (d.fld (srcBase x) FAULT_SRC_SEEN))
      let err := d1.reactions m &&& 0x40 != 0 && (!m.injected || d1.live)
      ((d1.setFlag (srcBase x) FAULT_SRC_PENDING true).modCol (fun k =>
        { k with slots := (k.slots.filter (fun q => q.source != m.source)) ++ [m]
                 errReal := if err && !m.injected then addNat x k.errReal else k.errReal
                 errInj := if err && m.injected then addNat x k.errInj else k.errInj
                 grave := if c == 3 && !m.injected then addNat x k.grave else k.grave }))
    match s.col.slots.find? (fun q => q.source == m.source) with
    | some q => if s.effClass q < c then slotted s else merged
    | none =>
      if s.sticky m.injected x && decide (c ≤ s.fld (srcBase x) FAULT_SRC_SEEN) then merged else slotted s

/-- A message a detecting block presents: a Grave one also asserts its wire (R346). -/
def Dev.presentMsg (s : Dev) (m : Msg) : Dev :=
  let s1 := if s.effClass m == 3 then s.graveAct m.source.toNat else s
  s1.enqueue m

/-- The message of source `x` and kind `k` with UNIT `u`. -/
def msg (x k a u : Nat) : Msg :=
  { source := BitVec.ofNat 10 x, kind := BitVec.ofNat 6 k, addr := BitVec.ofNat 32 a, unit := BitVec.ofNat 8 u, injected := false }

/-- The reset itself, at the start of a performed reset (R344). Lane restores and tile tests end by events of their
own. -/
def Dev.resetAct (s : Dev) (t : Nat) : Dev :=
  let i := t % 262144
  match t / 262144 with
  | 0 => s.each (s.served i) Dev.restoreHold
  | 1 => (s.stopEngine (sid i)).modEng (sid i) (fun e =>
      { e with window := .none, armed := none, armWait := none, command := none })
  | 2 => s.queueRetest i
  | 3 => let s1 := s.pllReset (i == 1)
         s1.cause (0x280 + i % 2) (!s1.flag 0 (if i == 1 then CLK_PLL_B_LOCKED else CLK_PLL_A_LOCKED))
  | 4 => s.portDown (Fin.ofNat 2 i)
  | 5 => let s1 := s.hostReset true
         s1.when s.released (fun d => d.presentMsg (msg 0x300 0 0 0xFF))
  | 6 => s.monArm i (s.monBand i (signed 12 (s.fld (monBase i) MON_STATUS_VALUE)))
  | 7 => s.reloadRecords i
  | 8 => s.modCol (fun c => { c with surveyor := true, trap := none, kickAt := s.now })
  | _ => s

/-- Is target `t`'s reset in progress? -/
def Dev.resetting (s : Dev) (t : Nat) : Bool := s.col.resets.any (fun r => r.target == t && r.ended.isNone)

/-- Was a reset of target `t` performed within the last 10 ms? -/
def Dev.recent (s : Dev) (t : Nat) : Bool := s.col.resets.any (fun r => r.target == t && decide (s.now < r.start + 10000000))

/-- Groups a refused reset of target `t` parks (R351). -/
def Dev.stormSlices (s : Dev) (t : Nat) : List SliceId :=
  let i := t % 262144
  match t / 262144 with
  | 0 => s.served i
  | 1 => s.members i
  | 7 => [sid i]
  | _ => []

/-- A message consequential on a block reset in progress or ended at most 2 µs ago (R350). -/
def Dev.consequential (s : Dev) (m : Msg) : Bool :=
  let n := s.fld 0 FAULT_DEP_COUNT_COUNT
  let deps := (List.range n).map (fun i => s.rd (FAULT_DEP + 4 * i))
  let open_ := s.col.resets.filter (fun r => match r.ended with
    | none => true
    | some e => decide (s.now ≤ e + 2000))
  decide (s.effClass m ≤ 2) && (!m.injected || s.live)
    && open_.any (fun r => r.sources.any (fun x =>
      deps.any (fun d => d.toNat % 1024 == x && d.toNat / 65536 % 1024 == m.source.toNat)))

/-! ## Reactions (R342) -/

/-- Surveyor trap: its cause register, and vector 1 for the host. -/
def Dev.trap (s : Dev) (x : Nat) : Dev := (s.modCol (fun c => { c with trap := some x })).vector 1

/-- Vector 0 while it is armed. -/
def Dev.irq (s : Dev) : Dev := if s.flag 0 FAULT_STATUS_IRQ_ARMED then (s.setFlag 0 FAULT_STATUS_IRQ_ARMED false).vector 0 else s

/-- Cycle 4 of R345: the sticky bit, SEEN and FAULT_LAST; a remote reports the message to the hub if it carries IRQ or
ERR_PIN (R413). -/
def Dev.record (s : Dev) (m : Msg) : Dev :=
  let x := m.source.toNat
  let c := s.effClass m
  let s1 := (s.setSticky m.injected x).setFld (srcBase x) FAULT_SRC_SEEN (max c (s.fld (srcBase x) FAULT_SRC_SEEN))
  let s2 := (s1.wr FAULT_LAST_LO (msgLo m)).wr FAULT_LAST_HI (msgHi m)
  let s3 := s2.modCol (fun k => { k with wired := if m.injected then k.wired else k.wired.filter (fun y => y != x)
                                         grave := if c == 3 && !m.injected then addNat x k.grave else k.grave })
  s3.when (s3.isRemote && s3.reactions m &&& 0x44 != 0) (fun d => d.sendHub 0 (.fault m 0 (d.fld 0 GLOBAL_STATUS_STATE)))

/-- ERR_PIN: ERR_N is held while the bit stays set (R348). -/
def Dev.errPin (s : Dev) (m : Msg) : Dev :=
  s.modCol (fun k => if m.injected then { k with errInj := addNat m.source.toNat k.errInj }
                     else { k with errReal := addNat m.source.toNat k.errReal })

/-- Reactions but the block reset. An injected message outside live mode gives IRQ only, if the
source's mask holds it; a live Grave injection parks
(R352), and a live injection of a power-fail source starts the sequence of R68 (R341). -/
def Dev.react (s : Dev) (m : Msg) : Dev :=
  let x := m.source.toNat
  let r := s.reactions m
  let full := !m.injected || s.live
  let s1 := s.when (if full then r &&& 4 != 0 else s.flag (srcBase x) FAULT_SRC_IRQ) Dev.irq
  if !full then s1
  else if r &&& 0x20 != 0 then s1.chipReset
  else
    let s2 := s1.when (r &&& 8 != 0 || x == 0x3EB) (fun d => d.trap x)
    let s3 := s2.when (r &&& 0x40 != 0) (fun d => d.errPin m)
    let s4 := s3.when (m.injected && s.effClass m == 3) (fun d =>
      let d1 := (d.upTo (d.now + 4)).parkAll.stopEngines
      d1.when d1.inService (fun e => e.setFlag 0 GLOBAL_STATUS_GRAVE_LATCH true))
    s4.when (m.injected && decide (0x3E0 ≤ x) && decide (x ≤ 0x3E6)) (fun d => d.powerFail (x == 0x3E0))

/-- RESET_STORM: classified, recorded and dispatched in the cycle of the refusal (R351). -/
def Dev.storm (s : Dev) (t : Nat) : Dev :=
  let m := msg 0x3EB 0 t 0xFF
  let s1 := (s.each (s.stormSlices t) (fun d n => d.each (d.members (d.low n).val) Dev.parkBegin))
  if s1.consequential m then s1.bumpSat FAULT_CONSEQ
  else
    let s2 := if s1.effClass m == 3 then s1.graveAct 0x3EB else s1
    (s2.record m).react m

/-- A request to reset target `t` by the sources `xs`: absorbed, refused or performed (R351). A lane refused leaves its
slices unrestored. -/
def Dev.requestReset (s : Dev) (t : Nat) (xs : List Nat) : Dev :=
  if s.resetIgnored t then s
  else
    let s0 := (s.setFld 0 FAULT_RESET_LAST_TARGET t).setFlag 0 FAULT_RESET_LAST_REPEAT false
    if s.resetting t then
      s0.modCol (fun c => { c with resets := c.resets.map (fun r =>
        if r.target == t && r.ended.isNone then { r with sources := xs.foldl (fun l x => addNat x l) r.sources } else r) })
    else if s.recent t then
      let s1 := (s0.setFlag 0 FAULT_RESET_LAST_REPEAT true).addFld 0 FAULT_RESET_COUNT_REPEATS 1
      let s2 := if t / 262144 == 0 then
          s1.each (s1.served (t % 262144)) (fun d n => (d.modSl n (fun y => { y with unrestored := true, restoring := false })).setFlag
            (sB n) SLICE_LOOP_STATUS_RESTORE false)
        else s1
      (s2.trap 0x3EB).storm t
    else
      let s1 := s0.addFld 0 FAULT_RESET_COUNT_RESETS 1
      (s1.modCol (fun c => { c with resets := (c.resets.filter (fun r => r.target != t)) ++ [⟨t, s.now, none, xs⟩] })).resetAct t

/-- The reset of target `t` has ended. -/
def Dev.endReset (s : Dev) (t : Nat) : Dev :=
  s.modCol (fun c => { c with resets := c.resets.map (fun r =>
    if r.target == t && r.ended.isNone then { r with ended := some s.now } else r) })

/-- The first parity message of a lane asks for its restore (R174, R344). -/
def Dev.laneRestore (s : Dev) (m : Msg) : Dev :=
  let x := m.source.toNat
  let l := s.laneOf (x / 8)
  if !m.injected && decide (x < 0x100) && x % 8 == 7 && s.col.lanes.contains l then
    (s.modCol (fun c => { c with lanes := c.lanes.filter (fun k => k != l) })).requestReset (target 0 l)
      ((s.served l).map (fun n => n.val * 8 + 7))
  else s

/-- Cycles 3 to 6 of R345 for one message: classification, the sticky bit and the reactions. -/
def Dev.dispatch (s : Dev) (m : Msg) : Dev :=
  if s.consequential m then (s.laneRestore m).bumpSat FAULT_CONSEQ
  else
    let r := s.reactions m
    let s1 := ((s.record m).react m).laneRestore m
    let block := r &&& 0x10 != 0 && r &&& 0x20 == 0 && (!m.injected || s.live)
    match s1.resetTarget m with
    | some t => if block then s1.requestReset t [m.source.toNat] else s1
    | none => s1

/-- Take the head of the queue and dispatch it; an occupied overflow slot, lowest source first, then takes the place
that is free (R347). -/
def Dev.collect (s : Dev) : Dev :=
  match s.col.queue with
  | [] => s
  | m :: l => (s.modCol (fun c => { c with queue := l })).dispatch m

/-- Source of the occupied slot to take first. -/
def Dev.lowSlot (s : Dev) : Option Msg :=
  s.col.slots.foldl (fun b m => match b with
    | some q => if m.source < q.source then some m else b
    | none => some m) none

/-- An occupied slot is taken while the queue holds fewer than 64 messages. -/
def Dev.takeSlot (s : Dev) : Dev :=
  match s.lowSlot with
  | some m =>
    if s.col.queue.length < 64 then
      ((s.modCol (fun c => { c with slots := c.slots.filter (fun q => q.source != m.source) })).setFlag
        (srcBase m.source.toNat) FAULT_SRC_PENDING false).dispatch m
    else s
  | none => s

/-- The collector works through its queue as it stands; what that raises waits for the next event or idle step
(DESIGN CHOICE, notes/assumptions/7.md). -/
def Dev.drain : Nat → Dev → Dev
  | 0, s => s
  | k + 1, s => Dev.drain k s.collect

/-- A message without the wire of a Grave one, which has acted (R355). -/
def Dev.raiseWired (s : Dev) (m : Msg) : Dev :=
  let s1 := s.enqueue m
  Dev.drain s1.col.queue.length s1

/-- A block raises a message. -/
def Dev.raiseMsg (s : Dev) (m : Msg) : Dev :=
  let s1 := s.presentMsg m
  Dev.drain s1.col.queue.length s1

/-- Source `x`, kind `k`, ADDRESS `a`, UNIT `u`. -/
def Dev.raise (s : Dev) (x k a u : Nat) : Dev := s.raiseMsg (msg x k a u)

/-- Slice source n × 8 + k with a kind. -/
def Dev.raiseSlice (s : Dev) (n : SliceId) (k kind : Nat) : Dev := s.raise (n.val * 8 + k) kind 0 n.val

/-- A source without unit. -/
def Dev.raiseGlobal (s : Dev) (x kind : Nat) : Dev := s.raise x kind 0 0xFF

end Sys2Proof.Machine
end

