-- ==== Sys2Proof/Machine/Memory.lean ====
section
/-! DEFINITION. Memory integrity (R301 to R318): ECC results at a read, Resurvey's tile tests and repairs, the repair list on
the Datum die, scrubbing and the exclusion ranges. -/

namespace Sys2Proof.Machine

/-! ## ECC (R303, R304) -/

/-- Readers of `MEM_ECC_INFO`. -/
abbrev rdSet : Nat := 0
abbrev rdTrav : Nat := 1
abbrev rdCap : Nat := 2
abbrev rdGen : Nat := 3
abbrev rdSurveyor : Nat := 4
abbrev rdHost : Nat := 5
abbrev rdResurvey : Nat := 6

/-- Bank of a BAR2 offset (R301). -/
def bankOf (a : Nat) : Nat := if 0x2800000 ≤ a then 319 else a / 131072

/-- What one erroneous word does to its reader: counts, address, message; a single-bit error awaits its scrub, and an
uncorrectable one traps the Surveyor that reads it. -/
def Dev.eccWord (s : Dev) (reader : Nat) (b : Nat × Bool) : Dev :=
  let a := 8 * b.1
  let s1 := ((s.wr MEM_ECC_ADDR (BitVec.ofNat 32 a)).setFld 0 MEM_ECC_INFO_BANK (bankOf a)).setFlag 0 MEM_ECC_INFO_UNCORR b.2
  let s2 := s1.setFld 0 MEM_ECC_INFO_READER reader
  if b.2 then
    let s3 := (s2.addFld 0 MEM_ECC_COUNT_UNCORR 1).raise (0x140 + bankOf a) 2 a 0xFF
    if reader == rdSurveyor then s3.trap (0x140 + bankOf a) else s3
  else
    ((s2.addFld 0 MEM_ECC_COUNT_CORRECTED 1).modMem (fun m => { m with scrub := addNat b.1 m.scrub })).raise
      (0x140 + bankOf a) 1 a 0xFF

/-- A read of `n` bytes from BAR2 offset `a` meets the errors that lie there. -/
def Dev.eccRead (s : Dev) (a n reader : Nat) : Dev :=
  s.each (s.memst.bad.filter (fun b => decide (a / 8 ≤ b.1) && decide (b.1 ≤ (a + n - 1) / 8))) (fun d b => d.eccWord reader b)

/-- SCRUB_WRITE: the corrected word is written back, unless a write came first; `stillBad`, the word read back shows the
error again, queues its tile (R304). -/
def execScrubWrite (word : Nat) (stillBad : Bool) (s : State) : Host.Outcome State Fault Refusal :=
  s.onAwake (fun d =>
    if d.memst.scrub.contains word then
      let d1 := d.modMem (fun m => { m with scrub := m.scrub.filter (fun w => w != word) })
      if stillBad then d1.queueRetest (d1.tileOf (8 * word))
      else d1.modMem (fun m => { m with bad := m.bad.filter (fun b => b.1 != word) })
    else d)

/-! ## The repair list (R310 to R312) -/

/-- BAR2 offset of a tile in the numbering b × 520 + tile. -/
def tileOffset (p : Nat) : Nat := (if p / 520 == 319 then 0x2800000 else p / 520 * 131072) + p % 520 * 256

/-- BAR2 offset of the tile a physical position serves; that of its bank for a spare that serves none. -/
def Dev.servedOffset (s : Dev) (p : Nat) : Nat :=
  if p % 520 < 512 then tileOffset p
  else match s.memst.remap.find? (fun r => r.1 / 520 == p / 520 && 512 + r.2 == p % 520) with
    | some r => tileOffset r.1
    | none => tileOffset (p / 520 * 520)

/-- A spare in use. -/
def MemSt.inUse (m : MemSt) (p : Nat) : Bool := m.remap.any (fun r => r.1 / 520 == p / 520 && 512 + r.2 == p % 520)

/-- A free, good spare of bank `k`. -/
def MemSt.freeSpare (m : MemSt) (k : Nat) : Option Nat :=
  (List.range 8).find? (fun i => !m.inUse (k * 520 + 512 + i) && !m.dead.contains (k * 520 + 512 + i))

/-- An entry of the list (R312). -/
def repairEntry (p spare : Nat) (bad : Bool) : Word :=
  let w := p / 520 + 512 * (p % 520) + 524288 * spare + 4194304 * bad.toNat
  BitVec.ofNat 32 (w + 16777216 * (crc8 (leBytes 3 w)).toNat)

/-- Apply one entry: tile or spare `p` is replaced by a spare, or is bad without replacement. -/
def MemSt.apply (m : MemSt) (w : Word) : MemSt :=
  let p := getBits w.toNat 0 9 * 520 + getBits w.toNat 9 10
  let sp := getBits w.toNat 19 3
  if crc8 (leBytes 3 w.toNat) != BitVec.ofNat 8 (getBits w.toNat 24 8) then m
  else if bitOf w.toNat 22 then { m with dead := addNat p m.dead }
  else if p % 520 < 512 then { m with remap := (m.remap.filter (fun r => r.1 != p)) ++ [(p, sp)] }
  else { m with dead := addNat p m.dead
                remap := m.remap.map (fun r => if r.1 / 520 == p / 520 && 512 + r.2 == p % 520 then (r.1, sp) else r) }

/-- Spares used or bad in bank `k`, shown in its nibble. -/
def Dev.showSpares (s : Dev) (k : Nat) : Dev :=
  let n := ((List.range 8).filter (fun i => s.memst.inUse (k * 520 + 512 + i) || s.memst.dead.contains (k * 520 + 512 + i))).length
  s.setFld 0 ⟨MEM_SPARES + 4 * (k / 8), 4 * (k % 8), 4⟩ n

/-- First byte of copy `c` of the list on the Datum die (R319). -/
abbrev repairCopy (c : Nat) : Nat := 0x330000 + 0x10000 * c

/-- Copy `c` is valid: MAGIC, COUNT and CRC. -/
def Dev.repairValid (s : Dev) (c : Nat) : Bool :=
  let a := repairCopy c
  let n := s.nvNum (a + 8) 4
  s.nvNum a 4 == 0x50524552 && decide (n ≤ 5120) && crc32 (s.nvBytes (a + 16) (4 * n)) == BitVec.ofNat 32 (s.nvNum (a + 12) 4)

/-- The valid copy with the higher SEQUENCE. -/
def Dev.repairActive (s : Dev) : Option Nat :=
  let q := fun (c : Nat) => s.nvNum (repairCopy c + 4) 4
  match s.repairValid 0, s.repairValid 1 with
  | true, true => some (if q 0 < q 1 then 1 else 0)
  | true, false => some 0
  | false, true => some 1
  | false, false => none

/-- The list in force is applied before step 4 of R47. -/
def Dev.loadRepairs (s : Dev) : Dev :=
  match s.repairActive with
  | none => s
  | some c =>
    let a := repairCopy c
    let es := (List.range (s.nvNum (a + 8) 4)).map (fun i => BitVec.ofNat 32 (s.nvNum (a + 16 + 4 * i) 4))
    let s1 := s.modMem (fun m => { es.foldl MemSt.apply m with entries := es })
    let s2 := (s1.setFld 0 MEM_REPAIR_STATUS_ENTRIES es.length).setFld 0 MEM_REPAIR_STATUS_SEQ (s.nvNum (a + 4) 4)
    s2.each (List.range 320) Dev.showSpares

/-- A commit of the list starts, or waits behind another commit on the die; none starts once a power-fail sequence has
begun (R70, R316). -/
def Dev.startRepairCommit (s : Dev) : Dev :=
  if s.memst.commit.isSome || s.datum.commit.isSome then s.modMem (fun m => { m with waiting := true })
  else if !s.noCommit then
    (s.modMem (fun m => { m with commit := some s.now, waiting := false })).setFlag 0 MEM_REPAIR_STATUS_COMMIT_BUSY true
  else s

/-- A commit that waits starts when the die is free. -/
def Dev.nextCommit (s : Dev) : Dev := if s.memst.waiting then s.startRepairCommit else s

/-- REPAIR_COMMIT: the inactive copy is written and selected; `ok` is its read-back. A copy that fails holds no valid CRC
(R70, R312). -/
def execRepairCommit (ok : Bool) (s : State) : Host.Outcome State Fault Refusal :=
  s.onAwake (fun d =>
    match d.memst.commit with
    | none => d
    | some _ =>
      let es := d.memst.entries.take 5120
      let act := d.repairActive
      let seq := match act with
        | some c => d.nvNum (repairCopy c + 4) 4 + 1
        | none => 1
      let a := repairCopy (match act with
        | some 0 => 1
        | _ => 0)
      let body := es.flatMap (fun e => leBytes 4 e.toNat)
      let crc := if ok then crc32 body else ~~~crc32 body
      let d1 := d.setNv a (leBytes 4 0x50524552 ++ leBytes 4 seq ++ leBytes 4 es.length ++ leBytes 4 crc.toNat ++ body)
      let d2 := (d1.modMem (fun m => { m with commit := none })).setFlag 0 MEM_REPAIR_STATUS_COMMIT_BUSY false
      let d3 := if ok then (d2.setFld 0 MEM_REPAIR_STATUS_ENTRIES es.length).setFld 0 MEM_REPAIR_STATUS_SEQ seq
        else (match es.getLast? with
          | some e => (d2.setFlag 0 MEM_REPAIR_STATUS_COMMIT_FAIL true).raise (0x140 + getBits e.toNat 0 9) 6
              (d2.servedOffset (getBits e.toNat 0 9 * 520 + getBits e.toNat 9 10)) 0xFF
          | none => d2.setFlag 0 MEM_REPAIR_STATUS_COMMIT_FAIL true)
      d3.nextCommit)

/-! ## Resurvey (R306 to R309) -/

/-- A BAR2 offset lies in an exclusion range. -/
def Dev.excluded (s : Dev) (a : Nat) : Bool :=
  (List.range 8).any (fun e =>
    let st := (s.rd (MEM_EXCL_START + 8 * e)).toNat
    decide (st ≤ a) && decide (a < st + (s.rd (MEM_EXCL_LEN + 8 * e)).toNat))

/-- The physical position a pass tests at position `p`: a tile through its remap, an unused good spare itself; nothing at
an excluded tile or another spare. -/
def Dev.passTile (s : Dev) (p : Nat) : Option Nat :=
  if p % 520 < 512 then
    (if s.excluded (tileOffset p) then none
     else match s.memst.remap.find? (fun r => r.1 == p) with
       | some r => some (p / 520 * 520 + 512 + r.2)
       | none => some p)
  else if s.memst.inUse p || s.memst.dead.contains p then none
  else some p

/-- A pass whose last position is done is counted, and the next one changes the pattern. -/
def Dev.endPass (s : Dev) : Dev :=
  if s.memst.next == 166400 then
    ((s.modMem (fun m => { m with next := 0 })).addWord MEM_RS_PASS 1).setFlag 0 MEM_RS_STATUS_PATTERN (!s.flag 0 MEM_RS_STATUS_PATTERN)
  else s

/-- The next position of the pass with a tile to test, from `next` on. -/
def Dev.seekTile : Nat → Dev → Dev × Option Nat
  | 0, s => (s, none)
  | k + 1, s =>
    let s0 := s.endPass
    let p := s0.memst.next
    let s1 := s0.modMem (fun m => { m with next := p + 1 })
    match s1.passTile p with
    | some t => (s1.setFld 0 MEM_RS_STATUS_TILE p, some t)
    | none => Dev.seekTile k s1

/-- The words the save burst takes from the tile at BAR2 offset `a` stand corrected in the shadow and after the restore, and their
scrubs are dropped; an uncorrectable word stays so (R303, R316). -/
def Dev.saveTile (s : Dev) (a : Nat) : Dev :=
  s.modMem (fun m => { m with bad := m.bad.filter (fun b => b.2 || b.1 / 32 != a / 256)
                              scrub := m.scrub.filter (fun w => w / 32 != a / 256) })

/-- A test of physical tile `t` starts: the save burst reads it through its remap. -/
def Dev.startTest (s : Dev) (t : Nat) (retest : Bool) : Dev :=
  let s1 := (s.modMem (fun m => { m with test := some ⟨t, s.now, retest⟩, due := false })).setFlag 0 MEM_RS_STATUS_BUSY true
  let s2 := if retest then s1.addFld 0 MEM_RS_FAILS_RETESTS 1 else s1
  if t % 520 < 512 || s2.memst.inUse t then (s2.eccRead (s2.servedOffset t) 256 rdResurvey).saveTile (s2.servedOffset t) else s2

/-- A test starts: the first tile queued for retest that is not excluded, otherwise the pass goes on. -/
def Dev.nextTest (s : Dev) : Dev :=
  match s.memst.retest.find? (fun t => !s.excluded (s.servedOffset t)) with
  | some t => (s.modMem (fun m => { m with retest := m.retest.filter (fun x => x != t) })).startTest t true
  | none =>
    let r := Dev.seekTile 166400 s
    match r.2 with
    | some t => r.1.startTest t false
    | none => r.1

/-- RESURVEY_PACE_TICK (R308): a test starts, or is due when the one in progress is done. -/
def execResurveyPaceTick (s : State) : Host.Outcome State Fault Refusal :=
  s.onAwake (fun d =>
    if d.boot.step < 9 then d
    else
      let d0 := d.upTo (d.memst.paceAt + 1000 * d.fld 0 MEM_RS_CFG_PACE_US)
      let d1 := d0.modMem (fun m => { m with paceAt := d0.now })
      if !d1.flag 0 MEM_RS_CFG_ENABLE then d1
      else if d1.memst.test.isSome then d1.modMem (fun m => { m with due := true })
      else d1.nextTest)

/-- Tile `t` fails (R310, R311). -/
def Dev.tileFails (s : Dev) (t : Nat) : Dev :=
  let k := t / 520
  let s1 := s.addFld 0 MEM_RS_FAILS_FAILS 1
  let append := fun (d : Dev) (e : Word) => (d.modMem (fun m => { m.apply e with entries := m.entries ++ [e] })).showSpares k
  if 512 ≤ t % 520 && !s1.memst.inUse t then (append s1 (repairEntry t 0 true)).startRepairCommit
  else
    let a := s1.servedOffset t
    match s1.memst.freeSpare k with
    | some sp => ((append s1 (repairEntry t sp false)).startRepairCommit).raise (0x140 + k) 3 a 0xFF
    | none =>
      let s2 := if s1.memst.dead.contains t then s1 else (append s1 (repairEntry t 0 true)).startRepairCommit
      (s2.setFlag 0 MEM_REPAIR_STATUS_EXHAUSTED true).raise (0x140 + k) 4 a 0xFF

/-- RESURVEY_TEST_DONE: 392 cycles after the start on an idle bank; a reset of the tile's bank ends, and a test that was due
starts late (R306, R308, R344). -/
def execResurveyTestDone (failed : Bool) (s : State) : Host.Outcome State Fault Refusal :=
  s.onAwake (fun d =>
    match d.memst.test with
    | none => d
    | some t =>
      let d0 := d.upTo (t.start + 392)
      let d1 := ((d0.modMem (fun m => { m with test := none })).setFlag 0 MEM_RS_STATUS_BUSY false).endPass
      let d2 := (if failed then d1.tileFails t.tile else d1).endReset (target 2 t.tile)
      if d2.memst.due && d2.flag 0 MEM_RS_CFG_ENABLE then (d2.bumpSat MEM_RS_LATE).nextTest
      else d2.modMem (fun m => { m with due := false }))

/-! ## Exclusion ranges (R309, R317, R457) -/

/-- A range is well-formed: aligned, of a permitted length, and wholly within backed offsets. -/
def exclusionOk (start len : Nat) : Bool :=
  start % 256 == 0 && len % 256 == 0 && decide (len ≤ 4194304)
    && (len == 0 || decide (start + len ≤ 0x27E0000) || (decide (0x2800000 ≤ start) && decide (start + len ≤ 0x2820000)))

def Dev.memRefuse (s : Dev) : Dev := s.setFlag 0 MEM_STATUS_REFUSED true

/-- EXCLUSION_WRITE of `MEM_EXCL_START_e`, or `MEM_EXCL_LEN_e` with `len`. -/
def execExclusionWrite (rq : Requester) (e : Fin 8) (len : Bool) (v : Word) (s : State) : Host.Outcome State Fault Refusal :=
  s.onAwake (fun d =>
    let st := MEM_EXCL_START + 8 * e.val
    let ln := MEM_EXCL_LEN + 8 * e.val
    let ok := if len then exclusionOk (d.rd st).toNat v.toNat else exclusionOk v.toNat (d.rd ln).toNat
    if rq = .surveyor ∧ ok = true then d.wr (if len then ln else st) v else d.memRefuse)

end Sys2Proof.Machine
end

