-- ==== Sys2Proof/Machine/Ring.lean ====
section
/-! DEFINITION. How a command of a ring comes to execute (R6, R41, R368, R370 to R372, R379), and how one that waits for
a tick is held. -/

namespace Sys2Proof.Machine

/-- Is group `g` one of those a partial reload is replacing, from the cycle its conditions have passed (R41)? -/
def Dev.reloading (s : Dev) (g : Nat) : Bool := s.flag 0 ATLAS_STATUS_PARTIAL_BUSY && s.boot.pmask.getLsbD g

/-- Execute a command on this device: entry rules, the group, a partial reload, then the opcode. -/
def Dev.perform (s : Dev) (c : Ctx) (body : Dev → Ctx → GroupRec → Dev) : Dev :=
  match c.hdr.rsv with
  | some o => s.completeAt c BAD_PARAM o.toNat s.time
  | none =>
    match s.group (c.hdr.group.toNat % 32) with
    | none => s.complete c ABSENT
    | some r => if s.reloading r.first then s.complete c BUSY else body s c r

/-- A command of ring `r` executes: at least 16 cycles after the one before it (R370). -/
def Dev.paced (s : Dev) (r : RingId) : Dev :=
  let s1 := s.upTo (s.ring r).next
  s1.modRing r (fun x => { x with next := s1.now + 16 })

/-- The next fetched command of its ring executes: nothing happens where the ring holds none or is held. A command whose
FLAGS has a reserved bit, or whose GROUP is not the binding, completes BAD_PARAM; one for another node is relayed, or
completes ABSENT if the node is not there (R368, R372, R379). -/
def Dev.ringCmd (s : Dev) (h : Hdr) (opcode : Byte) (cmd : RingCmd) (body : Dev → Ctx → GroupRec → Dev) : Dev :=
  let q := s.ring h.ring
  if !s.released || q.fetched == 0 || q.held.isSome then s
  else
    let c : Ctx := { hdr := h, opcode := opcode, drop := !q.bound.isEmpty, remote := false, index := 0 }
    let s1 := (s.paced h.ring).modRing h.ring (fun x => { x with fetched := x.fetched - 1, bound := x.bound.tail })
    let k := (s.binding h.ring).1
    if decide (1 < h.flags.toNat) || h.group.toNat != (s.binding h.ring).2 then s1.complete c BAD_PARAM
    else if k == 0 then s1.perform c body
    else if decide (s.plates.link.count < k) || s.fld (nodeBase k) LINK_NODE_STATUS_STATE == 0
        || s.fld (nodeBase k) LINK_NODE_STATUS_STATE == 3 then s1.complete c ABSENT
    else s1.relay c k (s1.lastIndex h.ring) cmd

/-- Hold a command until its effect; its slices in device numbering. -/
def Dev.schedule (s : Dev) (c : Ctx) (cmd : RingCmd) (g : Nat) (mask : Word) (after : Nat) (t : Word64) : Dev :=
  { s with sched := s.sched ++ [{ ctx := c, cmd := cmd, group := g, mask := mask, after := after, at_ := t, status := 0
                                  vmask := 0, wmask := 0, time := 0 }] }

/-- A held command is due at a tick that falls now. -/
def Sched.due (x : Sched) (now : Nat) (t : Word64) : Bool := decide (x.after ≤ now) && decide (x.at_.toNat ≤ t.toNat)

/-- Slices of group `r` that a SLICE_MASK names, as a mask in device numbering. -/
def GroupRec.devMask (r : GroupRec) (m : Word) : Word := maskOf (r.masked m)

def sliceList (m : Word) : List SliceId := (maskList m).map sid

end Sys2Proof.Machine
end

