-- ==== Sys2Proof/Machine/Apply.lean ====
section
/-! DEFINITION. What the fields of a station, of SET and of RANGE do to a slice: mode and set switches (R84, R204), current
chains and voltage holds (R131 to R144), limit, contour and coefficient sets as they are read (R146, R180, R224),
generator profiles (R231), and the setpoint (R10, R138, R142). -/

namespace Sys2Proof.Machine

/-- COMPLEMENT_MISMATCH on slice `n` (R175). -/
def Dev.mismatch (s : Dev) (n : SliceId) : Dev := s.raiseSlice n 3 1
/-- The Note of a refused set or write on slice `n`. -/
def Dev.note (s : Dev) (n : SliceId) : Dev := s.raiseSlice n 3 3
/-- The Note of a mismatched pair on slice `n` (R314). -/
def Dev.pairNote (s : Dev) (n : SliceId) : Dev := s.raiseSlice n 3 2

/-! ## Loop state -/

/-- Loop state of slice `n`: 0 open, 1 closed, 2 loop hold. -/
def Dev.loopState (s : Dev) (n : SliceId) : Nat := s.fld (sB n) SLICE_LOOP_STATUS_STATE
def Dev.direct (s : Dev) (n : SliceId) : Bool := s.flag (sB n) SLICE_FORCE_CFG_DIRECT

/-- The loop of slice `n` goes to state `k`; every slice that acts with `n` shows it (DEDUCED, notes/assumptions/31.md). -/
def Dev.setLoop (s : Dev) (n : SliceId) (k : Nat) : Dev :=
  s.each (s.gang n) (fun d m => (d.setFld (sB m) SLICE_LOOP_STATUS_STATE k).setFlag (sB m) SLICE_FORCE_STATUS_HOLD (k == 2))

/-- The one-sample hold of a set or mode switch begins (R84, R204). -/
def Dev.holdOne (s : Dev) (n : SliceId) : Dev := (s.setLoop n 2).modSl n (fun x => { x with held := true })

/-! ## Coefficient sets -/

def Dev.coefImage (s : Dev) (n : SliceId) (comp j : Nat) : BitVec 128 := BitVec.ofNat 128 (s.num (s.coefAddr n comp j) 16)
def Dev.coefCompl (s : Dev) (n : SliceId) (comp j : Nat) : BitVec 128 := BitVec.ofNat 128 (s.num (s.coefAddr n comp j + 16) 16)

/-- Working registers of compensator 0 main, 1 limit, 2 outer. -/
def Slice.coef (x : Slice) : Nat → CoefReg
  | 0 => x.coefM
  | 1 => x.coefL
  | _ => x.coefO

def Slice.setCoef (x : Slice) (comp : Nat) (img : BitVec 128) : Slice :=
  let c : CoefReg := ⟨img, ~~~img, img⟩
  match comp with
  | 0 => { x with coefM := c }
  | 1 => { x with coefL := c }
  | _ => { x with coefO := c }

/-- Copy set `j` of one compensator into the working registers, checked (R180). -/
def Dev.copyOne (s : Dev) (n : SliceId) (j comp : Nat) : Dev :=
  let img := s.coefImage n comp j
  let a := s.coefAddr n comp j
  let s1 := s.eccRead a 32 rdSet
  if s.coefCompl n comp j == ~~~img && img.extractLsb' 120 8 == 0 && !s.uncorrectable a 32 then
    s1.modSl n (fun x => x.setCoef comp img)
  else s1.mismatch n

def Dev.copySets (s : Dev) (n : SliceId) (j : Nat) : Dev := s.each [0, 1, 2] (fun d c => d.copyOne n j c)

/-- Set `j` is in force on slice `n`: on an open loop without more, otherwise with the held sample of R204; the set in
force again changes nothing. -/
def Dev.useSet (s : Dev) (n : SliceId) (j : Nat) : Dev :=
  if s.fld (sB n) SLICE_LOOP_STATUS_COEF_SET == j then s
  else
    let s1 := (s.setFld (sB n) SLICE_LOOP_STATUS_COEF_SET j).endAgile n
    if s1.loopState n == 0 then s1 else (s1.holdOne n).copySets n j

/-! ## Modes -/

/-- Thresholds and clamp inputs of every slice that acts with `n`. -/
def Dev.loadThrs (s : Dev) (n : SliceId) : Dev := s.each (s.gang n) Dev.loadThr

/-- Force mode `m` takes effect (R84, R147). -/
def Dev.useMode (s : Dev) (n : SliceId) (m : Nat) : Dev :=
  if m == 3 || s.mode n == m then s
  else
    let s1 := s.each (s.gang n) (fun d k => d.setFld (sB k) SLICE_FORCE_STATUS_MODE m)
    (if s1.loopState n == 0 then s1 else s1.holdOne n).loadThrs n

/-! ## Record filters at a range change (R113) -/

def Filt.scale (f : Filt) (old new : Int) : Filt :=
  let g := fun (x : Int) => openDiv (x * old) new
  { f with acc := g f.acc, i2 := g f.i2, i3 := g f.i3, last := rescale 32 f.last old new }

/-- As `Filt.scale` for a sinc³, whose combs hold integrator values too. -/
def Filt.scaleAll (f : Filt) (kind : Nat) (old new : Int) : Filt :=
  let h := f.scale old new
  if kind == 1 then { h with c1 := openDiv (f.c1 * old) new, c2 := openDiv (f.c2 * old) new, c3 := openDiv (f.c3 * old) new } else h

/-- A filter meets a sample taken on range `r`, 15 none, of a path with full scales `fs`: what it holds becomes a fraction of that
range (R113; DEDUCED, notes/assumptions/58.md), and the count since the latest bad sample goes on, or starts with this one. -/
def Filt.meet (f : Filt) (kind : Nat) (fs : Nat → Int) (r : Nat) (bad : Bool) : Filt :=
  let g := if r == 15 then f else if f.rng == r || f.rng == 15 then { f with rng := r }
    else { f.scaleAll kind (fs f.rng) (fs r) with rng := r }
  { g with bad := if bad then 1 else if f.bad == 0 then 0 else min 65535 (f.bad + 1) }

/-! ## Current chains (R131 to R139, R141) -/

/-- Cycles of SW_TIME of slice `n`: the range registers of a gang act in its lowest slice (R135, R152). -/
def Dev.swTime (s : Dev) (n : SliceId) : Nat := s.fld (sB (s.owner n)) SLICE_RANGE_TIMING_SW_TIME_NS

/-- The current part of RANGE commands ends on slice `n` (R139, R151). -/
def Dev.endRangePart (s : Dev) (n : SliceId) (status : Nat) : Dev :=
  s.resolve (fun c => isRange c.cmd) (fun c => c.mask &&& bit32 n.val != 0) (bit32 n.val) 0 status

/-- The voltage part of RANGE commands whose hold has begun ends on slice `n` (R151). -/
def Dev.endVoltPart (s : Dev) (n : SliceId) : Dev :=
  s.resolve (fun c => isRange c.cmd) (fun c => (c.vmask &&& ~~~c.wmask).getLsbD n.val) 0 (bit32 n.val) OK

/-- The voltage parts of RANGE commands that wait on slice `n` for their hold have begun; one with `after` not 0 waits for
its tick. -/
def Dev.voltBegun (s : Dev) (n : SliceId) : Dev :=
  { s with sched := s.sched.map (fun c => if isRange c.cmd && c.after == 0 then { c with wmask := c.wmask &&& ~~~bit32 n.val } else c) }

/-- A step toward `k` begins on slice `m` in this cycle (R135), or the switch of R141; `fast` is the short overlap of
R143. -/
def Dev.beginStep (s : Dev) (m : SliceId) (k : Nat) (fast : Bool) : Dev :=
  let a := s.irange m
  let p := s.flag (sB m) SLICE_RANGE_STATUS_APATH
  let up := decide (a < k)
  let sw := s.swTime m
  let l := if fast then 2 else s.fld (sB (s.owner m)) SLICE_RANGE_CFG_OVERLAP
  let st : RStep :=
    if s.solo m then ⟨k, p, up, s.now + 2 + sw, 0, 0, 0, 0, 0, 0, true⟩
    else ⟨if up then a + 1 else a - 1, !p, up, if up then s.now + 2 else s.now + 2 + sw, l, l, 0, 0, 0, 0, false⟩
  let s1 := (s.modSl m (fun x => { x with rstep := some st, runs := [], downRun := 0 })).setFld (sB m) SLICE_RANGE_STATUS_PHASE 1
  (s1.driveNow m).loadThr m

/-- Range code `k` is asked of slice `n` in this cycle, and of its whole gang: at once in park (R132), otherwise a chain begins
or, where one runs, is redirected (R139). -/
def Dev.goRange (s : Dev) (n : SliceId) (k : Nat) (fast : Bool) : Dev :=
  if s.inPark n then
    s.each (s.gang n) (fun d m =>
      (((d.rescaleI m k).driveNow m).setFld (sB m) SLICE_RANGE_STATUS_TARGET k).loadThr m)
  else
    let s1 := s.each (s.gang n) (fun d m => d.setFld (sB m) SLICE_RANGE_STATUS_TARGET k)
    if (s1.sl n).rstep.isSome || s1.irange n == k then s1
    else s1.each (s1.gang n) (fun d m => d.beginStep m k fast)

/-! ## Voltage ranges (R142) -/

/-- A hold toward voltage range `v` begins at this tick, cycle 0. -/
def Dev.beginHold (s : Dev) (n : SliceId) (v : Nat) : Dev :=
  let s1 := (s.voltBegun n).each (s.gang n) (fun d m =>
    ((((d.modSl m (fun x => { x with vhold := some 0, vNew := v, vWait := none })).setFlag (sB m)
      SLICE_RANGE_STATUS_VHOLD_ACTIVE true)).driveNow m))
  if s1.watchV n then s1.loadThrs n else s1

/-- Voltage range `v` takes effect at this tick: at once in park, later where a hold runs; the range that hold goes to needs no
hold of its own (R142). -/
def Dev.goVolt (s : Dev) (n : SliceId) (v : Nat) : Dev :=
  if s.inPark n then
    ((s.each (s.gang n) (fun d m => ((d.rescaleV m v).driveNow m).loadThr m)).voltBegun n).endVoltPart n
  else if (s.sl n).vhold.isSome then
    (if (s.sl n).vNew == v then (s.voltBegun n).modSl n (fun x => { x with vWait := none })
     else s.modSl n (fun x => { x with vWait := some v }))
  else if s.vrange n == v then (s.voltBegun n).endVoltPart n
  else s.beginHold n v

/-! ## Limits (R146, R148) -/

/-- The two intervals of a set are not empty and lie within the LIMITS record (R29). -/
def LimSet.within (l h : LimSet) : Bool :=
  decide (l.vLo.toInt < l.vHi.toInt) && decide (l.iLo.toInt < l.iHi.toInt) && decide (l.vHi.toInt ≤ h.vHi.toInt)
    && decide (h.vLo.toInt ≤ l.vLo.toInt) && decide (l.iHi.toInt ≤ h.iHi.toInt) && decide (h.iLo.toInt ≤ l.iLo.toInt)

/-- Read and check limit set `j` of slice `n`. -/
def Dev.readLimits (s0 : Dev) (n : SliceId) (j : Nat) : Dev :=
  let a := (s0.rd (sB n + SLICE_LIM_BASE)).toNat + 96 * j
  let s := s0.eccRead a 96 rdSet
  let l := s.limAt a
  if !(l.ok && s.word (a + 0x44) == ~~~s.word (a + 0x40)) || s.uncorrectable a 72 then s.mismatch n
  else if !l.within (s.hard n) then (s.setFlag (sB n) SLICE_LIM_STATUS_REFUSED true).note n
  else
    let s1 := (s.modSl n (fun x => { x with limits := l, limGood := l, limPassed := true })).setFld (sB n) SLICE_LIM_STATUS_ACTIVE j
    (s1.convertLimits n).loadThrs n

def Dev.useLimits (s : Dev) (n : SliceId) (j : Nat) : Dev :=
  if s.fld (sB n) SLICE_LIM_STATUS_ACTIVE == j then s else s.readLimits n j

/-! ## Contour sets (R221, R224) -/

/-- The generator of slice `n` copies set `j`, 15 step. -/
def Dev.copyContour (s0 : Dev) (n : SliceId) (j : Nat) : Dev :=
  if j == 15 then s0.setFld (gB n) GEN_CONTOUR_STATUS_SET 15
  else
    let a := (s0.rd (gB n + GEN_CONTOUR_BASE)).toNat + 32 * j
    let s := s0.eccRead a 32 rdSet
    let w := fun (o : Nat) => s.word (a + o)
    if w 4 != ~~~(w 0) || w 12 != ~~~(w 8) || w 20 != ~~~(w 16) || s.uncorrectable a 32 then s.mismatch n
    else if w 0 == 0 || w 8 == 0 || w 16 == 0 || s.num (a + 24) 8 != 0 then
      (s.setFlag (gB n) GEN_CONTOUR_STATUS_REFUSED true).note n
    else
      (s.modGen n (fun g => { g with con := { g.con with vel := w 0, acc := w 8, jerk := w 16 } })).setFld (gB n)
        GEN_CONTOUR_STATUS_SET j

/-- A station or SET names target `x` and contour `j`: a new target, or a set other than the one in force, is planned at
the arrival sample. The generator acts only in loop mode, in force V and force I (R222); in a park ramp it ignores both (R225). -/
def Dev.useContour (s : Dev) (n : SliceId) (x : Int) (j : Nat) : Dev :=
  if s.flag (gB n) GEN_CONTOUR_STATUS_PARK_RAMP || s.direct n || s.mode n == 2 then s
  else if (s.gen n).con.x == x && s.fld (gB n) GEN_CONTOUR_STATUS_SET == j then s
  else (s.copyContour n j).modGen n (fun g =>
    { g with con := { g.con with replan := g.con.replan || s.fld (gB n) GEN_CONTOUR_STATUS_SET != j } })

/-! ## Generator profiles (R228 to R232) -/

/-- A 48-bit value in two words. -/
def Dev.rd48 (s : Dev) (lo hi : Nat) : Nat := (s.rd64 lo hi).toNat % 2 ^ 48
def Dev.wr48 (s : Dev) (lo hi v : Nat) : Dev := s.wr64 lo hi (BitVec.ofNat 64 (v % 2 ^ 48))

/-- Load profile `p` into generator `n`: the status GEN_SET completes with. -/
def Dev.loadProfile (s0 : Dev) (n : SliceId) (p : Nat) : Dev × Nat :=
  let b := gB n
  if p == 0 then
    (((((s0.wr (b + GEN_MODE) 0).wr (b + GEN_AMPL) 0).wr (b + GEN_OFFSET) 0).wr (b + GEN_NOISE_AMPL) 0), OK)
  else
    let a := (s0.rd (b + GEN_PROF_BASE)).toNat + 64 * (p - 1)
    let s := s0.eccRead a 64 rdSet
    let shape := (s.byte (a + 0x1C)).toNat
    let noise := (s.byte (a + 0x1D)).toNat
    let route := (s.byte (a + 0x1E)).toNat
    if s.bytes (a + 32) 32 != (s.bytes a 32).map (fun x => ~~~x) || s.uncorrectable a 64 then (s.mismatch n, INTEGRITY)
    else if decide (4 < shape) || (shape == 4 && s.fld b GEN_TABLE_LEN_LEN == 0) || decide (2 < noise) || decide (2 < route)
        || s.byte (a + 0x1F) != 0 || s.num (a + 6) 2 != 0 || s.num (a + 14) 2 != 0 then
      ((s.setFlag b GEN_STATUS_REFUSED true).note n, BAD_PARAM)
    else
      let s1 := s.wr (b + GEN_MODE) (BitVec.ofNat 32 (shape + 8 * noise + 32 * route + 256 * p))
      let s2 := (s1.wr48 (b + GEN_FREQ_LO) (b + GEN_FREQ_HI) (s.num a 6)).wr48 (b + GEN_PHASE0_LO) (b + GEN_PHASE0_HI) (s.num (a + 8) 6)
      (((s2.wr (b + GEN_AMPL) (s.word (a + 16))).wr (b + GEN_OFFSET) (s.word (a + 20))).wr (b + GEN_NOISE_AMPL) (s.word (a + 24)), OK)

/-! ## Setpoints and codes -/

/-- A setpoint in force. -/
def Dev.takeSp (s : Dev) (n : SliceId) (w : Word) : Dev := s.modSl n (fun x => { x with sp := .of w, spWait := none })

/-- A TRANSFER of the chain on slice `n` is still to come. -/
def Dev.chainRuns (s : Dev) (n : SliceId) : Bool :=
  (s.sl n).rstep.isSome && (decide (s.fld (sB n) SLICE_RANGE_STATUS_PHASE < 3) || s.fld (sB n) SLICE_RANGE_STATUS_TARGET != s.irange n)

/-- A setpoint of a station or SET: it waits for the chain or the hold that R138 and R142 name. After the TRANSFER of a chain's
last step there is none to wait for. -/
def Dev.useSp (s : Dev) (n : SliceId) (w : Word) : Dev :=
  let x := s.sl n
  let wait := (s.mode n == 1 && s.chainRuns n) || (s.mode n == 0 && (x.vhold.isSome || x.vWait.isSome))
  if wait then s.modSl n (fun y => { y with spWait := some w }) else s.takeSp n w

/-- A Q1.31 value as an FDAC code: saturate(round(v / 2¹²)) (R78). -/
def codeOf (v : Int) : Code := BitVec.ofNat 20 (unsigned 20 (satS 20 (roundDiv v 4096)))

/-- A code enters the queue, or the holding register of a group of 4 or more (R78, R79, R80). -/
def Dev.pushCode (s : Dev) (n : SliceId) (c : Code) : Dev :=
  let strobed := match s.groupOf n.val with
    | some r => r.strobed
    | none => false
  if strobed then s.modSl n (fun x => { x with holding := c })
  else if (s.sl n).queue.length < 16 then
    (s.modSl n (fun x => { x with queue := x.queue ++ [c] })).setFld (sB n) SLICE_QUEUE_STATUS_DEPTH ((s.sl n).queue.length + 1)
  else
    let s1 := s.setFlag (sB n) SLICE_QUEUE_STATUS_OVERFLOW true
    if s1.flag (sB n) SLICE_QUEUE_STATUS_IRQ_EN then s1.sliceEvent n else s1

/-- DIRECT_SRC, reserved as host (R97). -/
def Dev.directSrc (s : Dev) (n : SliceId) : Nat :=
  let k := s.fld (sB n) SLICE_FORCE_CFG_DIRECT_SRC
  if k == 3 then 0 else k

/-! ## Stations (R237 to R240) -/

/-- Is a value of mode `m` within the LIMITS record at ranges `k` and `v` (R29)? Resistance has no limit; neither has an
outer setpoint (R208) nor a direct-mode code (R83). -/
def Dev.valueOk (s : Dev) (n : SliceId) (m k v : Nat) (w : Word) : Bool :=
  let h := s.hard n
  let outer := s.fld (sB n) SLICE_LOOP_OUTER_OUTER_M != 0 && !s.flag (sB n) SLICE_LOOP_CFG_OUTER_ADD
  let inside := fun (lo hi : Word64) (fs : Int) =>
    decide (lo.toInt * 2147483648 ≤ w.toInt * fs) && decide (w.toInt * fs ≤ hi.toInt * 2147483648)
  if s.direct n || outer then true
  else if m == 0 then inside h.vLo h.vHi (s.vfs n v * s.serN n)
  else if m == 1 then inside h.iLo h.iHi (s.ifs n k * s.parN n)
  else true

/-- Range and value fields a slice may take (R29, R131). -/
def Dev.fieldsOk (s : Dev) (n : SliceId) (st : Station) : Bool :=
  let k := if st.irange == 15 then s.fld (sB n) SLICE_RANGE_STATUS_TARGET else st.irange
  let v := if st.vrange == 15 then (s.sl n).vWait.getD (s.vPins n) else st.vrange
  let m := if st.mode == 3 then s.mode n else st.mode
  (st.irange == 15 || decide (st.irange ≤ s.irMax n)) && (st.vrange == 15 || decide (st.vrange ≤ s.vrMax n))
    && s.valueOk n m k v st.value

/-- A station word applies on slice `n`, which computes its own loop (R92, R239): at this tick its fields take effect. -/
def Dev.applyFields (s : Dev) (n : SliceId) (st : Station) : Dev :=
  let s1 := if s.direct n then
      (if st.mode == 3 then s else (s.setFld (sB n) SLICE_FORCE_STATUS_MODE st.mode).loadThrs n)
    else s.useMode n st.mode
  let s2 := s1.useSet n st.coefSet
  let s3 := if st.irange == 15 then s2 else (s2.goRange n st.irange false).modSl n (fun x => { x with downRun := 0 })
  let s4 := if st.vrange == 15 then s3 else s3.goVolt n st.vrange
  let s5 := (s4.useSp n st.value).useLimits n st.limitSet
  let s6 := s5.useContour n st.value.toInt st.contour
  s6.each (s6.gang n) (fun d m => if d.direct m && d.directSrc m == 1 then d.pushCode m (codeOf st.value.toInt) else d)

/-- The station window of slice `n` opens (R112): with SETTLE if its CAPTURE field says so; a RAW station has none. It waits
where the window before it waits for the sample it closes with. -/
def Dev.openStation (s : Dev) (n : SliceId) (cap : BitVec 4) : Dev :=
  if s.recKind n == 3 && !cap.getLsbD 3 then
    let k := if cap.getLsbD 1 then s.fld (sB (s.low n)) SLICE_REC_SETTLE_SETTLE else 0
    s.modSl n (fun x => match x.wThen with
      | some w => { x with wThen := some (w.1, w.2.1, some k) }
      | none => x.openWindow k)
  else s

/-- The stores as a held step shows them (R248). -/
def Dev.holding (s : Dev) (h : HeldStep) : Dev :=
  let s1 := s.each h.cells (fun d c => d.setBytes c.1 c.2)
  { s1 with memst := { s1.memst with bad := [] } }

/-- `f` reads through a window: from what the held step shows, with the stores as they were afterwards. -/
def Dev.through (s : Dev) (h : HeldStep) (f : Dev → Dev) : Dev :=
  let d := f (s.holding h)
  { d with mem := s.mem, memst := { d.memst with bad := s.memst.bad } }

/-- The step `h` of group `r` takes effect at this tick, all its words in one cycle (R239), with what the prefetch window holds
of it (R248). -/
def Dev.applyStep (s : Dev) (r : GroupRec) (h : HeldStep) : Dev :=
  let i := h.ix
  let v := s.holding h
  let s0 := s.closeStation r.first
  let cap := (v.station i).capture
  let s1 := s0.each (List.range r.size) (fun d k =>
    let n := sid (r.first + k)
    let st := v.station (i + k)
    let d1 := if r.gang == 0 || k == 0 then d.through h (fun x => x.applyFields n st) else d
    let d2 := if st.gen == 0 then d1 else d1.through h (fun x => (x.loadProfile n st.gen).1)
    d2.modSl n (fun x =>
      { x with capture := some ((cap &&& 0b1011) ||| (st.capture &&& 0b0100)), station := i + k
               stationWas := if d2.wordsAway n && x.stationWas.isNone then some x.station else x.stationWas }))
  s1.each r.slices (fun d n => d.openStation n cap)

/-- Does the step at index `i` pass R29 on every slice of group `r` (R240)? -/
def Dev.stepFieldsOk (s : Dev) (r : GroupRec) (i : Nat) : Bool :=
  (List.range r.size).all (fun k => (r.gang != 0 && k != 0) || s.fieldsOk (sid (r.first + k)) (s.station (i + k)))

end Sys2Proof.Machine
end

