-- ==== Sys2Proof/Machine/Axis.lean ====
section
/-! DEFINITION. The external axes as they stand in this cycle (R264, R272 to R275), from their last events. -/

namespace Sys2Proof.Machine

/-- Record of axis `a`, 1 to 4, in the MERIDIAN plate; disabled where there is none. -/
def Dev.axisRec (s : Dev) (a : Nat) : AxisRec := (s.plates.axes[a - 1]?).getD ⟨false, 0, 0, 0⟩
def Dev.axisSt (s : Dev) (a : Nat) : AxisSt := (s.mer.axes[a - 1]?).getD .atReset
def Dev.modAxis (s : Dev) (a : Nat) (f : AxisSt → AxisSt) : Dev :=
  { s with mer := { s.mer with axes := s.mer.axes.modify (a - 1) f } }

/-- Axis `a` counts down. -/
def Dev.axisDown (s : Dev) (a : Nat) : Bool := a != 3 && s.flag (axBase a) MER_AX_CFG_DIR

/-- The fraction of a quadrature axis (R272). -/
def AxisSt.quadFrac (x : AxisSt) (now : Nat) : Nat :=
  if x.held != 0 || x.period == 0 then 0 else min 255 (256 * (now - x.at_) / x.period)

/-- The extrapolation of a serial axis from its last two frames (R273). -/
def AxisSt.extrapolate (x : AxisSt) (now : Nat) : Word64 :=
  match x.frames with
  | (t1, p1) :: (t2, p2) :: _ => p1 + BitVec.ofInt 64 (openDiv ((p1 - p2).toInt * ((now : Int) - t1)) ((t1 : Int) - t2))
  | (_, p1) :: _ => p1
  | [] => x.value

/-- A serial axis never moves against its direction: it holds where the extrapolation lies behind it. -/
def AxisSt.serial (x : AxisSt) (now : Nat) (down : Bool) : Word64 :=
  let e := x.extrapolate now
  let d := (e - x.value).toInt
  if x.frames.length < 2 then x.value else if (if down then decide (d ≤ 0) else decide (0 ≤ d)) then e else x.value

/-- The mains axis: in free run it goes on past the next whole cycle (R274). -/
def AxisSt.mains (x : AxisSt) (now : Nat) (lost : Bool) : Word64 :=
  if x.period == 0 || !x.seen then x.value
  else
    let f := 4294967296 * (now - x.at_) / x.period
    x.value + BitVec.ofNat 64 (if lost then f else min f 4294967295)

/-- The relayed axis at TIME `t` from its samples, newest first: interpolated, or extrapolated for 8 µs and then held
(R275). -/
def linkValue (t : Word64) : List (Word64 × Word64) → Word64
  | [] => 0
  | [(_, v)] => v
  | (t1, v1) :: (t2, v2) :: l =>
    if (t1 - t2).toInt ≤ 0 then v1
    else if 0 ≤ (t - t2).toInt then
      v2 + BitVec.ofInt 64 (openDiv ((v1 - v2).toInt * min (t - t2).toInt ((t1 - t2).toInt + 8000)) (t1 - t2).toInt)
    else linkValue t ((t2, v2) :: l)

/-- TIME at which the link axis is presented now. -/
def Dev.linkTime (s : Dev) : Word64 := s.time - BitVec.ofNat 64 (1000 * s.fld (axBase 4) MER_AX_CFG_LINK_DELAY)

/-- Value of axis `a`, 1 to 4, in this cycle. -/
def Dev.axisNow (s : Dev) (a : Nat) : Word64 :=
  let x := s.axisSt a
  let r := s.axisRec a
  if !r.en then 0
  else if a == 3 then x.mains s.now (s.flag (axBase 3) MER_AX_STATUS_LOST)
  else if a == 4 then linkValue s.linkTime x.samples
  else if r.kind == 1 then x.serial s.now (s.axisDown a)
  else
    let f := BitVec.ofNat 64 (x.quadFrac s.now)
    if x.dirUp then x.value + f else x.value - f

/-- A serial axis holds: until its first frame after a thaw, or while the extrapolation lies behind it (R273, R279). -/
def Dev.serialHeld (s : Dev) (a : Nat) : Bool :=
  let x := s.axisSt a
  x.held != 0 || (decide (2 ≤ x.frames.length) && x.extrapolate s.now != s.axisNow a)

/-- Units in a revolution of an encoder axis. -/
def Dev.revolution (s : Dev) (a : Nat) : Nat := (s.axisRec a).a * 256

/-- Position of an encoder in its revolution (R272, R273). -/
def Dev.axisPos (s : Dev) (a : Nat) : Nat :=
  let x := s.axisSt a
  let v := s.axisNow a
  if a == 3 then v.toNat % 4294967296
  else if a == 4 then v.toNat % 4294967296
  else if s.revolution a == 0 then 0
  else if (s.axisRec a).kind == 1 then
    let base := match x.frames with
      | (_, p) :: _ => p
      | [] => x.value
    ((x.raw * 256 : Int) + (v - base).toInt).emod (s.revolution a) |>.toNat
  else ((v - x.zero).toInt.emod (s.revolution a)).toNat

end Sys2Proof.Machine
end

