-- ==== Sys2Proof/Machine/Measure.lean ====
section
/-! DEFINITION. Measurement (R107 to R126): the corrected words as a lane sees them, one sample of the record filters, one
sample of the correlators. -/

namespace Sys2Proof.Machine

/-! ## Words -/

/-- Last corrected V, and current of path A or B, of slice `m` (R109, R128). -/
def Dev.mV (s : Dev) (m : SliceId) : Int := (s.rd (sB m + SLICE_MEAS_V)).toInt
def Dev.mI (s : Dev) (m : SliceId) (p : Bool) : Int :=
  (s.rd (sB m + (if p then SLICE_MEAS_IB else SLICE_MEAS_IA))).toInt
def Dev.apath (s : Dev) (m : SliceId) : Bool := s.flag (sB m) SLICE_RANGE_STATUS_APATH
/-- Current on the active path. -/
def Dev.mAct (s : Dev) (m : SliceId) : Int := s.mI m (s.apath m)

/-- Raw word of ADC 0 V, 1 IADC-A, 2 IADC-B. -/
def Dev.raw (s : Dev) (m : SliceId) (k : Nat) : Nat := (s.rd (sB m + SLICE_MEAS_RAW_V + 4 * k)).toNat

/-- The offset that fades from the incoming path's value after a TRANSFER (R136). -/
def RStep.fading (st : RStep) : Int := if st.len == 0 then 0 else openDiv (st.delta * (st.len - min st.len st.fade : Nat)) st.len

/-- The current of slice `m` as its loop takes it: faded during RELEASE and the TRANSFER sample. -/
def Dev.loopI (s : Dev) (m : SliceId) : Int :=
  match (s.sl m).rstep with
  | some st =>
    if !st.solo && decide (3 ≤ s.fld (sB m) SLICE_RANGE_STATUS_PHASE) then satS 32 (s.mAct m - st.fading) else s.mAct m
  | none => s.mAct m

/-! ## Datum corrections of a word (R109, R322, R327) -/

/-- Correction `i` of slice `n` now (R327): `i` counts ICORR offset and gain of ten ranges and two paths, VCORR of four
ranges, FDAC, MADC, the linearity tables of V, IA and IB, and the FDAC trims. -/
def Dev.corrOf (s : Dev) (n : SliceId) (i : Nat) : Int :=
  let x := s.sl n
  let d : Int := if i < 52 && i % 2 == 1 then 1073741824 else 0
  let a := x.c0.getD i d
  let b := x.cT.getD i d
  if x.cS == 0 then b else a + roundDiv ((b - a) * x.cK) x.cS

/-- Corrected value of a raw code (R109, R323): the linearity table from entry `lin`, interpolated, then GAIN × (x − OFFSET)
of the range carried, entries `k` and `k` + 1; Q1.31, saturated. -/
def Dev.correct (s : Dev) (n : SliceId) (code : Code) (lin k : Nat) : Int :=
  let u := (code.toInt + 524288).toNat
  let a := s.corrOf n (lin + u / 4096)
  let b := s.corrOf n (lin + min (u / 4096 + 1) 255)
  let x := code.toInt * 65536 + 4096 * a + (b - a) * (u % 4096 : Nat)
  satS 32 (openDiv (s.corrOf n (k + 1) * (x - 16 * s.corrOf n k)) 17179869184)

/-- A raw word (R108). -/
def rawWord (code : Code) (tag : Nat) : Word :=
  let ovr := code == 0x80000 || code == 0x7FFFF
  BitVec.ofNat 32 (code.toNat + 1048576 * (tag % 256) + 268435456 * ovr.toNat)

/-- Is OVR set in a raw word? -/
def rawOvr (w : Nat) : Bool := bitOf w 28

/-- Tag of the latest conversion of ADC `k` (R108). -/
def Slice.tagOf (x : Slice) (k : Nat) : Nat := if k == 2 then x.tagB else x.tag

/-- The corrected word of ADC `k` of slice `n` arrives: both registers in one cycle, and the sticky OVR flag. A path that carries
no range has no OFFSET and GAIN of its own: range 0's are taken (DESIGN CHOICE, notes/assumptions/58.md). -/
def Dev.takeWord (s : Dev) (n : SliceId) (k : Nat) (code : Code) : Dev :=
  let x := s.sl n
  let w := rawWord code (x.tagOf k)
  let p := k == 2
  let r := s.pathRange n p
  let v := if k == 0 then s.correct n code 52 (40 + 2 * s.vrange n)
    else s.correct n code (if p then 564 else 308) (4 * (if r == 15 then 0 else r) + 2 * p.toNat)
  let s1 := (s.wr (sB n + SLICE_MEAS_V + 4 * k) (BitVec.ofNat 32 (unsigned 32 v))).wr (sB n + SLICE_MEAS_RAW_V + 4 * k) w
  if rawOvr w.toNat then s1.setFld (sB n) ⟨SLICE_MEAS_STATUS, k, 1⟩ 1 else s1

/-! ## Record filters, one sample (R110 to R114) -/

/-- A mean takes a sample, or misses it. -/
def Filt.add (f : Filt) (v : Option Int) : Filt :=
  match v with
  | some x => { f with acc := f.acc + x, c1 := f.c1 + 1, last := x }
  | none => f

/-- The three integrators of a sinc³ take a sample. -/
def Filt.integrate (f : Filt) (v : Int) : Filt :=
  let a := f.acc + v
  let b := f.i2 + a
  { f with acc := a, i2 := b, i3 := f.i3 + b, last := v }

/-- The three combs at the end of `d` samples: the output and the filter after it. -/
def Filt.comb (f : Filt) (d : Nat) : Int × Filt :=
  let a := f.i3 - f.c1
  let b := a - f.c2
  let c := b - f.c3
  (meanQ27 c (d * d * d), { f with c1 := f.i3, c2 := a, c3 := b })

/-- Where the latest sampling instant of slice `n` lies on what sets its Meridian apertures, and their length there (R111): TIME
and PERIOD, or the mains axis and K cycles of 2³² units. -/
def Dev.apertureAt (s : Dev) (n : SliceId) : Nat × Nat :=
  let b := sB (s.low n)
  if s.fld b SLICE_REC_APERTURE_SRC == 1 then ((s.sl n).instant.toNat, (s.rd (b + SLICE_REC_PERIOD)).toNat)
  else ((s.sl n).mains.toNat, s.fld b SLICE_REC_APERTURE_K * 4294967296)

/-- What a sample brought the filters: of each ADC the corrected value of the word that arrived and is used, the range it was
taken on, and whether it marks its record suspect: the word was missing, had OVR set, or fell in the hold of a range change. -/
structure Sample where
  v : Option Int
  a : Option Int
  b : Option Int
  rv : Nat
  ra : Nat
  rb : Nat
  sv : Bool
  sa : Bool
  sb : Bool
  deriving DecidableEq, Repr

/-- The three filters of slice `n` meet a sample: ranges and marks (R113, R114). -/
def Dev.meetSample (s : Dev) (n : SliceId) (q : Sample) : Dev :=
  let k := s.recKind n
  let at_ := s.recAt n
  s.modSl n (fun x => { x with fV := x.fV.meet k (s.vfs n) q.rv q.sv, fA := x.fA.meet k (s.ifs n) q.ra q.sa
                               fB := x.fB.meet k (s.ifs n) q.rb q.sb, wAt := at_ })

def Slice.addSample (x : Slice) (q : Sample) : Slice :=
  { x with fV := x.fV.add q.v, fA := x.fA.add q.a, fB := x.fB.add q.b, wCount := x.wCount + 1 }

/-- A window that reaches 16,777,216 samples closes as suspect; the next opens with the next sample, without SETTLE. -/
def Dev.limitWindow (s : Dev) (n : SliceId) : Dev :=
  if 16777216 ≤ (s.sl n).wCount then
    (s.closeWindow n true (s.sl n).instant).modSl n (fun x => { x with wNext := s.recKind n == 3 })
  else s

/-- Sinc³: the sample a missing word leaves is a free value (DESIGN CHOICE, notes/assumptions/4.md). Each output spans 3D − 2
samples. -/
def Dev.sincSample (s : Dev) (n : SliceId) (q : Sample) : Dev :=
  let d := s.recD n
  let g := satS 32 (Config.approx s.freeCtr [])
  let s1 := ((s.meetSample n q).modSl n (fun x =>
    { x with fV := x.fV.integrate (q.v.getD g), fA := x.fA.integrate (q.a.getD g), fB := x.fB.integrate (q.b.getD g)
             wCount := x.wCount + 1, wOpen := true })).draw
  let x := s1.sl n
  if x.wCount < d then s1
  else
    let v := x.fV.comb d
    let a := x.fA.comb d
    let b := x.fB.comb d
    let r := x.wAt.win v.1 a.1 b.1 (x.marked x.wAt.path (3 * d - 2) || decide (x.fillRec < 2)) (s1.recBit n) x.instant
    s1.modSl n (fun y => { y with fV := v.2, fA := a.2, fB := b.2, wCount := 0
                                  fillRec := min 2 (y.fillRec + 1), wDone := y.wDone ++ [r] })

/-- The first sample after a thaw closes the window that spans the freeze and is the first of the next, which opens without
SETTLE; a sinc³ starts afresh with it (R114; DESIGN CHOICE, notes/assumptions/58.md). -/
def Dev.thawWindow (s : Dev) (n : SliceId) : Dev :=
  if !(s.sl n).thawed then s
  else
    let t := s.modSl n (fun x => { x with thawed := false })
    if !(t.sl n).wOpen then t
    else if t.recKind n == 1 then
      ((if (t.sl n).wCount == 0 then t else t.closeWindow n true (t.sl n).instant).modSl n (fun x =>
        { x with fV := .zero, fA := .zero, fB := .zero, fillRec := 0, wCount := 0, wOpen := false }))
    else (t.closeWindow n true (t.sl n).instant).modSl n (fun x => { x with wNext := t.recKind n == 3 })

/-- A sample meets the station window of slice `n` (R112): it settles, or is taken. -/
def Dev.stationSample (s : Dev) (n : SliceId) (q : Sample) : Dev :=
  let s0 := if !(s.sl n).wOpen && (s.sl n).wNext then s.modSl n (fun x => x.openWindow 0) else s
  if !(s0.sl n).wOpen then s0
  else if 0 < (s0.sl n).wSettle then
    let w := s0.meetSample n { q with sv := false, sa := false, sb := false }
    w.modSl n (fun x => { x with wSettle := x.wSettle - 1, wIndex := x.wIndex + 1
                                 fV := { x.fV with last := q.v.getD x.fV.last }
                                 fA := { x.fA with last := q.a.getD x.fA.last }
                                 fB := { x.fB with last := q.b.getD x.fB.last } })
  else ((s0.meetSample n q).modSl n (fun x => x.addSample q)).limitWindow n

/-- The station window of slice `n` closes with the sample just taken, where it waited for it, and the next may open (R112). -/
def Dev.stationThen (s : Dev) (n : SliceId) : Dev :=
  match (s.sl n).wThen with
  | none => s
  | some (bit, t, k) =>
    let s1 := if (s.sl n).wOpen then s.closeWith n false bit t else s
    s1.modSl n (fun x => match k with
      | some j => { x with wThen := none }.openWindow j
      | none => { x with wThen := none, wNext := false })

/-- One sample of the record filters of slice `n` (R110 to R114). -/
def Dev.filterSample (s : Dev) (n : SliceId) (q : Sample) : Dev :=
  let s0 := s.thawWindow n
  match s0.recKind n with
  | 0 =>
    let s1 := if (s0.sl n).wOpen then s0 else s0.modSl n (fun x => x.openWindow 0)
    let s2 := (s1.meetSample n q).modSl n (fun x => x.addSample q)
    if s2.recD n ≤ (s2.sl n).wCount then s2.closeWindow n false (s2.sl n).instant else s2
  | 1 => s0.sincSample n q
  | 2 =>
    let k := s0.apertureAt n
    let s1 := if (s0.sl n).wOpen && decide ((s0.sl n).wIndex / k.2 < k.1 / k.2) then s0.closeWindow n false (s0.sl n).instant else s0
    let s2 := if (s1.sl n).wOpen then s1 else s1.modSl n (fun x => { x.openWindow 0 with wIndex := k.1 })
    ((s2.meetSample n q).modSl n (fun x => x.addSample q)).limitWindow n
  | _ => (s0.stationSample n q).stationThen n

/-- Input SRC 0 to 5 of a correlator, Q1.31, exact (R125): 4 the FDAC code, 5 the injected signal. The error before windowing
takes 33 bits. -/
def Dev.source (s : Dev) (n : SliceId) (src : Nat) (err : Int) : Int :=
  if src == 0 then s.mV n
  else if src == 1 then s.mAct n
  else if src == 2 then (s.rd (sB n + SLICE_LOOP_SP)).toInt
  else if src == 3 then err
  else if src == 4 then (BitVec.ofNat 20 (s.fld (sB n) SLICE_FORCE_STATUS_CODE)).toInt * 4096
  else if s.fld (gB n) GEN_MODE_ROUTE == 2 then (s.gen n).w else 0

/-- Entry `i` of the sine table (R228). -/
def Dev.sine (s : Dev) (i : Nat) : Int := signed 32 (s.num (0x2000000 + 4 * (i % 4096)) 4)

/-- Phase θ of generator `n` at the last sampling instant (R227). -/
def Dev.theta (s : Dev) (n : SliceId) : Nat := s.rd48 (gB n + GEN_PHASE_LO) (gB n + GEN_PHASE_HI)

/-- Both correlators of slice `n` take the sample (R125). -/
def Dev.correlate (s : Dev) (n : SliceId) (err : Int) : Dev :=
  let c := (s.sl n).corr
  if c.st != 3 || decide (s.fld (sB n) SLICE_CORR_CTRL_PERIODS ≤ c.periods) || decide (16777216 ≤ c.n) then s
  else
    let i := s.theta n / 68719476736
    let sn := s.sine i / 16
    let cs := s.sine (i + 1024) / 16
    let x0 := s.source n (s.fld (sB n) SLICE_CORR_CTRL_SRC0) err / 256
    let x1 := s.source n (s.fld (sB n) SLICE_CORR_CTRL_SRC1) err / 256
    s.modSl n (fun y => { y with corr := { c with i0 := c.i0 + x0 * sn, q0 := c.q0 + x0 * cs, i1 := c.i1 + x1 * sn
                                                  q1 := c.q1 + x1 * cs, n := c.n + 1 } })

/-- Truncation of Q1.31 to Q0.27. -/
def truncQ27 (v : Int) : Int := satS 28 (v / 16)

/-- The record of a RAW or a pair row of slice `n` (R118, R214). -/
def Dev.tickRecord (s : Dev) (n : SliceId) (suspect pair : Bool) (err : Int) : Dev :=
  let x := s.sl n
  let r := if pair then
      let m := s.owner n
      let p := s.fld (sB m) SLICE_LOOP_CFG_INJ_POINT
      let j := s.source m 5 0
      let inj := if p == 1 then j / 65536 * 65536 else j
      let resp := s.fld (sB n) SLICE_TUNE_CFG_RESP
      { (s.recAt n).win 0 0 0 false (s.recBit n) x.instant with
        v := truncQ27 inj, i := truncQ27 (s.source n resp err), vrange := p, irange := 0xC }
    else (s.recAt n).win (truncQ27 (s.mV n)) (truncQ27 (s.mI n false)) (truncQ27 (s.mI n true)) suspect (s.recBit n) x.instant
  s.modSl n (fun y => { y with wDone := y.wDone ++ [r] })

end Sys2Proof.Machine
end

