-- ==== Sys2Proof/Machine/Handover.lean ====
section
/-! DEFINITION. The phases of a current handover that fall on samples (R135 to R138), its abort (R136, R150), the redundant
move (R144) and auto-range (R143). -/

namespace Sys2Proof.Machine

def Dev.phase (s : Dev) (n : SliceId) : Nat := s.fld (sB n) SLICE_RANGE_STATUS_PHASE

/-- Word of ADC `k` of slice `m` arrived on the latest sample. -/
def Dev.newWord (s : Dev) (m : SliceId) (k : Nat) : Bool := getBits (s.raw m k) 20 8 == (s.sl m).tagOf k % 256

/-- The number of a path's ADC. -/
abbrev adcOf (p : Bool) : Nat := if p then 2 else 1

/-- One overlap sample on slice `m`: the step with its sum, and whether it aborts on an overrange (R136). -/
def Dev.overlapOne (s : Dev) (m : SliceId) (st : RStep) : RStep × Bool :=
  let p := s.apath m
  let a := s.irange m
  if !s.newWord m 1 || !s.newWord m 2 then (st, false)
  else
    let ovr := fun (q : Bool) => rawOvr (s.raw m (adcOf q))
    let d := s.mI m st.inPath - openDiv (s.mI m p * s.ifs m a) (s.ifs m st.into)
    let st1 := if ovr p then st else { st with sum := st.sum + d, used := st.used + 1 }
    ({ st1 with left := st1.left - 1 }, !st.up && ovr st.inPath)

/-- The step of every slice that acts with `n` is abandoned; slice `m` is the one that aborts (R136, R150). -/
def Dev.abortStep (s : Dev) (n m : SliceId) : Dev :=
  let s1 := s.each (s.gang n) (fun d k =>
    let d1 := ((d.setFld (sB k) SLICE_RANGE_STATUS_PHASE 0).setFld (sB k) SLICE_RANGE_STATUS_TARGET (d.irange k)).modSl k
      (fun x => { x with rstep := none, downRun := 0, spWait := if d.mode n == 1 then none else x.spWait })
    (d1.driveNow k).loadThr k)
  let s2 := (s1.setFlag (sB n) SLICE_RANGE_STATUS_ABORTED true).addFld (sB n) SLICE_RANGE_COUNT_ABORTS 1
  (s2.endRangePart n PRECONDITION).raiseSlice m 5 0

/-- The offset of an overlap that is over: δ, and whether it exceeds MATCH_LIMIT. -/
def Dev.offsetOf (s : Dev) (n : SliceId) (st : RStep) : Int × Bool :=
  let d := if st.used == 0 then 0 else openDiv st.sum st.used
  let lim : Int := s.fld (sB n) SLICE_RANGE_MATCH_MATCH_LIMIT * 32768
  (d, decide (lim < d) || decide (d < -lim))

/-- An overlap sample on every slice that acts with `n` (R135, R136). -/
def Dev.overlap (s : Dev) (n : SliceId) : Dev :=
  let go := fun (r : Dev × Option SliceId) (m : SliceId) =>
    match (r.1.sl m).rstep with
    | some st =>
      if r.1.phase m == 2 && decide (0 < st.left) then
        let o := r.1.overlapOne m st
        let f := r.1.offsetOf n o.1
        let fin := o.1.left == 0 && decide (0 < st.left)
        let d1 := r.1.modSl m (fun x => { x with rstep := some (if fin then { o.1 with delta := f.1 } else o.1) })
        let d2 := if fin then d1.wr (sB m + SLICE_RANGE_DELTA) (BitVec.ofNat 32 (unsigned 32 f.1)) else d1
        (d2, if r.2.isNone && (o.2 || (fin && f.2)) then some m else r.2)
      else r
    | none => r
  let r := (s.gang n).foldl go (s, none)
  match r.2 with
  | some m => r.1.abortStep n m
  | none => r.1

/-- A TRANSFER is due on this sample of slice `n`: the overlap is over on every slice that acts with it, and no voltage hold runs
(R142, R150). -/
def Dev.transferDue (s : Dev) (n : SliceId) : Bool :=
  (s.gang n).all (fun m => match (s.sl m).rstep with
    | some st => !st.solo && s.phase m == 2 && st.left == 0
    | none => false) && (s.sl n).vhold.isNone

/-- The incoming range and path are in force from this computation on every slice that acts with `n`; a force-I setpoint
that waits for the chain's last step is in force too (R137, R138). -/
def Dev.transfer (s : Dev) (n : SliceId) : Dev :=
  let s1 := s.each (s.gang n) (fun d m =>
    match (d.sl m).rstep with
    | some st =>
      ((d.rescaleI m st.into).setFlag (sB m) SLICE_RANGE_STATUS_APATH st.inPath).setFld (sB m)
        SLICE_RANGE_STATUS_PHASE 3
    | none => d)
  match (s1.sl n).spWait with
  | some w => if s1.mode n == 1 && s1.fld (sB n) SLICE_RANGE_STATUS_TARGET == s1.irange n then s1.takeSp n w else s1
  | none => s1

/-- After a TRANSFER computation: the RELEASE pattern, the clamps on the incoming path (R135). -/
def Dev.release (s : Dev) (n : SliceId) : Dev :=
  s.each (s.gang n) (fun d m =>
    if d.phase m == 3 then
      let d1 := (d.setFld (sB m) SLICE_RANGE_STATUS_PHASE 4).modSl m (fun x =>
        { x with rstep := x.rstep.map (fun st => { st with endAt := if st.up then d.now + 2 + d.swTime m else d.now }) })
      (d1.driveNow m).loadThr m
    else d)

/-- A fade sample has been computed. -/
def Dev.fadeOn (s : Dev) (n : SliceId) : Dev :=
  s.each (s.gang n) (fun d m =>
    if 3 ≤ d.phase m then d.modSl m (fun x => { x with rstep := x.rstep.map (fun st => { st with fade := min (st.len + 1) (st.fade + 1) }) })
    else d)

/-- The redundant move on slice `n` (R144): the standby range and path are in force at once, and the old path is lost. -/
def Dev.losePath (s : Dev) (n : SliceId) : Dev :=
  let s1 := s.each (s.gang n) (fun d m =>
    let a := d.irange m
    let q := !d.apath m
    let d1 := (((d.rescaleI m (a + 1)).setFlag (sB m) SLICE_RANGE_STATUS_APATH q).setFlag (sB m) SLICE_RANGE_STATUS_PATH_LOST true).driveNow m
    (d1.setFld (sB m) SLICE_RANGE_STATUS_TARGET (a + 1)).loadThr m)
  s1.setFlag (sB n) SLICE_FB_STATUS_REDUNDANT true

/-- Auto-range decides after a computation of slice `n` (R143). -/
def Dev.autoRange (s : Dev) (n : SliceId) : Dev :=
  let b := sB n
  let a := s.irange n
  let k := adcOf (s.apath n)
  if !s.flag b SLICE_RANGE_CFG_AUTO_EN || s.solo n || s.mode n == 1 || (s.sl n).rstep.isSome || s.parking n || !s.newWord n k
  then s
  else
    let x := s.mAct n
    let ovr := rawOvr (s.raw n k)
    let m := if x < 0 then -x else x
    let upT : Int := s.fld b SLICE_RANGE_THR_UP_THR * 32768
    let dnT : Int := s.fld b SLICE_RANGE_THR_DOWN_THR * 32768
    if (decide (upT < m) || ovr) && decide (a < min (s.fld b SLICE_RANGE_CFG_AR_MAX) (s.irMax n)) then
      (s.modSl n (fun y => { y with downRun := 0 })).goRange n (a + 1) ovr
    else if m < dnT then
      let s1 := s.modSl n (fun y => { y with downRun := y.downRun + 1 })
      if decide (s.fld b SLICE_RANGE_TIMING_DOWN_COUNT ≤ (s1.sl n).downRun) && decide (s.fld b SLICE_RANGE_CFG_AR_MIN < a) then
        (s1.modSl n (fun y => { y with downRun := 0 })).goRange n (a - 1) false
      else s1
    else s.modSl n (fun y => { y with downRun := 0 })

end Sys2Proof.Machine
end

