-- ==== Sys2Proof/Machine/Law.lean ====
section
/-! DEFINITION. The control law of one sample (R173 to R215): the arithmetic of a compensator, the setpoint's composition,
the selector, feedback supervision, and the codes and balance trims that follow. -/

namespace Sys2Proof.Machine

/-! ## Arithmetic (R176 to R182) -/

/-- Value in use of a pair: the value, or the one it had when it last matched (R175). -/
def Pair.use (p : Pair) : Word := if p.c == ~~~p.v then p.v else p.good
def CoefReg.use (c : CoefReg) : BitVec 128 := if c.cmpl == ~~~c.img then c.img else c.good

/-- Fields of a set image (R179). -/
def coB (i : BitVec 128) (k : Nat) : Int := signed 16 (getBits i.toNat (16 * k) 16)
def coA (i : BitVec 128) (k : Nat) : Int := signed 16 (getBits i.toNat (48 + 16 * k) 16)
def cShift (i : BitVec 128) : Nat := getBits i.toNat 112 3
def cEwin (i : BitVec 128) : Nat := getBits i.toNat 115 4
def cOrder (i : BitVec 128) : Bool := bitOf i.toNat 119

/-- An error windowed under EWIN, negated with POLARITY (R178). -/
def window (d : Int) (ewin : Nat) (neg : Bool) : Int :=
  let e := satS 16 (d / (2 ^ (16 - ewin) : Nat))
  if neg then satS 16 (-e) else e

/-- An a-term: the low product truncated to 2⁻³⁰ units (R181). -/
def aTerm (a y : Int) : Int := a * (y / 65536) + a * (y % 65536) / 65536

/-- Output of a compensator in direct form I, clamped to [lo, hi] (R181). -/
def Taps.out (t : Taps) (i : BitVec 128) (e lo hi : Int) : Int :=
  let third := fun (x : Int) => if cOrder i then x else 0
  let acc := coB i 0 * e + coB i 1 * t.e1 + coB i 2 * t.e2 + third (coB i 3 * t.e3)
    - aTerm (coA i 1) t.y1 - aTerm (coA i 2) t.y2 - third (aTerm (coA i 3) t.y3)
  clampI lo hi (2 * satS 31 (satS 40 (acc * (2 ^ cShift i : Nat))))

/-- The delay lines advance by one sample. -/
def Taps.push (t : Taps) (e y : Int) : Taps := ⟨e, t.e1, t.e2, y, t.y1, t.y2⟩
/-- A dropped sample repeats the previous one (R189). -/
def Taps.again (t : Taps) : Taps := t.push t.e1 t.y1
def Taps.clampY (t : Taps) (lo hi : Int) : Taps :=
  { t with y1 := clampI lo hi t.y1, y2 := clampI lo hi t.y2, y3 := clampI lo hi t.y3 }
/-- Taps that stand at an output with no error behind them. -/
def Taps.still (y : Int) : Taps := ⟨0, 0, 0, y, y, y⟩

/-- A start value saturated to the output range and clamped (R181). -/
def startY (lo hi y : Int) : Int := clampI lo hi (clampI (-2147483648) 2147483646 y)

/-- OUT_MIN, OUT_MAX and XMARGIN as Q1.31. -/
def Dev.outLo (s : Dev) (n : SliceId) : Int :=
  (BitVec.ofNat 20 (s.pairUse (sB n + SLICE_LOOP_OUTMIN_V) (s.sl n).goodMin).toNat).toInt * 4096
def Dev.outHi (s : Dev) (n : SliceId) : Int :=
  (BitVec.ofNat 20 (s.pairUse (sB n + SLICE_LOOP_OUTMAX_V) (s.sl n).goodMax).toNat).toInt * 4096
def Dev.xMargin (s : Dev) (n : SliceId) : Int :=
  ((s.pairUse (sB n + SLICE_LOOP_XMARGIN_V) (s.sl n).goodXm).toNat % 1048576 : Nat) * 4096

/-! ## Feedback (R28, R92, R210) -/

def Dev.route (s : Dev) (n : SliceId) : RouteRec := s.plates.routes.getD n.val ⟨n.val, n.val, 0, 0, false⟩

def sumOf (l : List Int) : Int := l.foldl (· + ·) 0

/-- Voltage and current the loop of slice `n` works on, Q1.31 of the active range or the gang's. -/
def Dev.fbV (s : Dev) (n : SliceId) : Int :=
  let r := s.route n
  if r.fbV == 0xFE then openDiv (sumOf ((s.gang n).map s.mV)) (s.gang n).length else s.mV (sid r.fbV)
def Dev.fbI (s : Dev) (n : SliceId) : Int :=
  let r := s.route n
  if r.fbI == 0xFE then openDiv (sumOf ((s.gang n).map s.loopI)) (s.gang n).length else s.loopI (sid r.fbI)

/-- Feedback words of slice `n`: slice and ADC of each. -/
def Dev.fbWords (s : Dev) (n : SliceId) : List (SliceId × Nat) :=
  let r := s.route n
  (if r.fbV == 0xFE then (s.gang n).map (fun m => (m, 0)) else [(sid r.fbV, 0)])
    ++ (if r.fbI == 0xFE then (s.gang n).map (fun m => (m, adcOf (s.apath m))) else [(sid r.fbI, adcOf (s.apath (sid r.fbI)))])

def Dev.fbTagsNow (s : Dev) (n : SliceId) : List Nat := (s.fbWords n).map (fun w => getBits (s.raw w.1 w.2) 20 8)

/-- Every feedback word is fresh: its tag differs from the tag last used. -/
def Dev.fbFresh (s : Dev) (n : SliceId) : Bool :=
  let old := (s.sl n).fbTags
  let new := s.fbTagsNow n
  old.length != new.length || (old.zip new).all (fun p => p.1 != p.2)

/-! ## Setpoint (R177, R222 to R225) -/

/-- Step 1: the base value. -/
def Dev.baseSp (s : Dev) (n : SliceId) : Int :=
  let v := (s.sl n).sp.use.toInt
  if s.mode n == 2 then satS 32 (openDiv (v * s.fbI n) 2147483648) else v

/-- Step 2: the contour generator toward the base value. The device after it, the position, and whether the lane has
replanned (R224). With CONTOUR 15 the generator stands at the base value (DEDUCED, notes/assumptions/19.md). -/
def Dev.contourStep (s : Dev) (n : SliceId) (base : Int) : Dev × Int × Bool :=
  let c := (s.gen n).con
  let p := s.period (s.low n).val
  if s.flag (gB n) GEN_CONTOUR_STATUS_PARK_RAMP then
    let c1 := c.move (c.x * posUnit) p
    (s.modCon n (fun _ => c1), c1.q, false)
  else if s.mode n == 2 then (s, base, false)
  else if s.fld (gB n) GEN_CONTOUR_STATUS_SET == 15 then (s.modCon n (fun k => k.at (base * posUnit) base), base, false)
  else
    let c1 := c.move (c.x * posUnit) p
    if c.replan || c.x != base then
      let s1 := s.modCon n (fun _ => c1.planTo base (base * posUnit) p)
      if c1.rest then (s1, c1.q, false) else (s1.addFld (gB n) GEN_CONTOUR_STATUS_REPLANS 1, c1.q, true)
    else (s.modCon n (fun _ => c1), c1.q, false)

/-- Step 3: the overlay of the waveform generator. -/
def Dev.overlay (s : Dev) (n : SliceId) : Int := if s.fld (gB n) GEN_MODE_ROUTE == 1 then (s.gen n).w else 0

/-- The injected signal (R213). -/
def Dev.injected (s : Dev) (n : SliceId) : Int := if s.fld (gB n) GEN_MODE_ROUTE == 2 then (s.gen n).w else 0

/-- Injection at point `k` on this sample. -/
def Dev.injectAt (s : Dev) (n : SliceId) (k : Nat) : Int :=
  if s.flag (sB n) SLICE_LOOP_CFG_INJ_EN && s.fld (sB n) SLICE_LOOP_CFG_INJ_POINT == k then s.injected n else 0

/-- Step 4: the outer output. -/
def Dev.withOuter (s : Dev) (n : SliceId) (v : Int) : Int :=
  if s.fld (sB n) SLICE_LOOP_OUTER_OUTER_M == 0 then v
  else
    let y := (s.rd (sB n + SLICE_OUTER_Y)).toInt
    if s.flag (sB n) SLICE_LOOP_CFG_OUTER_ADD then v + y else y

/-- Hard limits of the quantity the setpoint is in: current in force I, else voltage (R29, R177). -/
def Dev.hardQ (s : Dev) (n : SliceId) : Int × Int :=
  let h := s.fracs n (s.hard n) (s.irange n) (s.vrange n)
  if s.mode n == 1 then (h.iLo, h.iHi) else (h.vLo, h.vHi)

/-! ## The law of a sample -/

/-- R201: y0, the code that the FDAC holds. -/
def Dev.heldY (s : Dev) (n : SliceId) : Int := (if s.ganged n then (s.sl n).gcode else (s.code n).toInt) * 4096

/-- The outer compensator at a close (R201); its output in use is its last output tap (DEDUCED, notes/assumptions/20.md). -/
def Dev.outerStart (s : Dev) (n : SliceId) : Dev :=
  let y := if s.flag (sB n) SLICE_LOOP_CFG_OUTER_ADD then 0 else (if s.mode n == 1 then s.fbI n else s.fbV n)
  if s.fld (sB n) SLICE_LOOP_OUTER_OUTER_M == 0 then s
  else (s.modSl n (fun x => { x with tapsO := .still y })).wr (sB n + SLICE_OUTER_Y) (BitVec.ofNat 32 (unsigned 32 y))

/-- The trims a gang's codes carry, whole FDAC steps (R93). -/
def trimSteps (t : Int) : Int := openDiv t 70368744177664

/-- Codes leave the lane and are at the FDACs at cycle `c`: on every slice that acts with `n`, the trim added (R93). -/
def Dev.emit (s : Dev) (n : SliceId) (code : Int) (c : Nat) : Dev :=
  s.each (s.gang n) (fun d m =>
    let t := if d.ganged n then trimSteps (d.sl m).trim else 0
    d.fly m c (.lane (BitVec.ofNat 20 (unsigned 20 (satS 20 (code + t)))) code))

/-- Balance trims of a gang after a sample (R93). -/
def Dev.balance (s : Dev) (n : SliceId) : Dev :=
  if !s.ganged n || s.loopState n == 2 || s.phase n == 2 || s.parking n then s
  else
    let ser := decide (s.serN n ≠ 1)
    let q := fun (m : SliceId) => if ser then s.mV m else s.mAct m
    let avg := openDiv (sumOf ((s.gang n).map q)) (s.gang n).length
    let k : Int := signed 16 (s.fld (sB n) SLICE_BAL_CFG_K_BAL)
    let mx : Int := s.fld (sB n) SLICE_BAL_CFG_TRIM_MAX * 70368744177664
    let s1 := s.each (s.gang n) (fun d m =>
      let t := clampI (-mx) mx ((d.sl m).trim + k * (avg - q m))
      let d1 := (d.modSl m (fun x => { x with trim := t })).setFld (sB m) SLICE_BAL_TRIM_TRIM (unsigned 20 (trimSteps t))
      if t == mx || t == -mx then d1.setFlag (sB m) SLICE_BAL_TRIM_BAL_SAT true else d1)
    let rose := (s.gang n).any (fun m => s1.flag (sB m) SLICE_BAL_TRIM_BAL_SAT && !s.flag (sB m) SLICE_BAL_TRIM_BAL_SAT)
    if rose && s1.flag (sB n) SLICE_BAL_CFG_IRQ_EN then s1.sliceEvent n else s1

/-- The fields of an agile WRITE or WRITE_ONE that this sample applies (R205). -/
def putField (img : BitVec 128) (f : Nat) (v : Nat) : BitVec 128 := BitVec.ofNat 128 (putBits img.toNat (16 * f) 16 v)

def Dev.agileStep (s : Dev) (n : SliceId) (start : Nat) : Dev :=
  let t := (s.sl n).instant
  let one := fun (d : Dev) (c : Sched) => match c.cmd with
    | .coefSelect op p =>
      if op == 2 && c.mask.getLsbD n.val && decide (c.after ≤ start) then
        let k := p.comp.toNat
        let img := putField ((d.sl n).coef k).use p.field.toNat (p.image.toNat % 65536)
        d.modSl n (fun x => x.setCoef k img)
      else d
    | _ => d
  let s1 := s.each s.sched one
  let sel := fun (c : Sched) => match c.cmd with
    | .coefSelect op _ => op == 2 && c.mask.getLsbD n.val && decide (c.after ≤ start)
    | _ => false
  let s2 := { s1 with sched := s1.sched.map (fun c => if sel c then { c with mask := c.mask &&& ~~~bit32 n.val, time := t } else c) }
  let s3 := s2.settle (fun c => c.mask == 0 && (match c.cmd with
    | .coefSelect op _ => op == 2
    | _ => false)) (fun c => (OK, c.time))
  match (s3.sl n).agile with
  | none => s3
  | some a =>
    let wait := s3.sched.any (fun c => (match c.cmd with
      | .coefSelect op _ => op == 1 && c.mask.getLsbD n.val && decide (start < c.after)
      | _ => false))
    if wait then s3
    else
      let img := putField ((s3.sl n).coef a.comp).use a.next (getBits a.img.toNat (16 * a.next) 16)
      let s4 := s3.modSl n (fun x => { x.setCoef a.comp img with agile := some { a with next := a.next + 1 } })
      if a.next < 7 then s4.setFld (sB n) SLICE_COEF_WSTATUS_AGILE_NEXT (a.next + 1)
      else
        let s5 := ((s4.modSl n (fun x => { x with agile := none })).setFlag (sB n) SLICE_COEF_WSTATUS_AGILE_BUSY false).setFld
          (sB n) SLICE_COEF_WSTATUS_AGILE_NEXT 0
        let sel1 := fun (c : Sched) => match c.cmd with
          | .coefSelect op _ => op == 1 && c.mask.getLsbD n.val
          | _ => false
        ({ s5 with sched := s5.sched.map (fun c => if sel1 c then { c with mask := c.mask &&& ~~~bit32 n.val, time := t } else c) }).settle
          (fun c => c.mask == 0 && (match c.cmd with
            | .coefSelect op _ => op == 1
            | _ => false)) (fun c => (OK, c.time))

/-- At a close the contour generator starts at the closing sample's PV, at rest (R201). -/
def Dev.contourClose (s : Dev) (n : SliceId) : Dev :=
  let pv := if s.mode n == 1 then s.fbI n else s.fbV n
  s.modCon n (fun c => { c.at (pv * posUnit) pv with replan := true })

/-- Every pair that a sample of slice `n` uses matches: those of the main and limit laws (R29, R175), and on a sample whose outer
law is computed, `outer`, those of the outer law (R208). -/
def Dev.pairsOk (s : Dev) (n : SliceId) (outer : Bool) : Bool :=
  let x := s.sl n
  let r := fun (a : Nat) => s.rd (sB n + a + 4) == ~~~s.rd (sB n + a)
  let add := s.flag (sB n) SLICE_LOOP_CFG_OUTER_ADD
  x.sp.c == ~~~x.sp.v && x.limits.ok && (s.hardRec n).ok && x.coefM.cmpl == ~~~x.coefM.img && x.coefL.cmpl == ~~~x.coefL.img
    && r SLICE_LOOP_OUTMIN_V && r SLICE_LOOP_OUTMAX_V && r SLICE_LOOP_XMARGIN_V
    && (!outer || (x.coefO.cmpl == ~~~x.coefO.img && r SLICE_OUTER_LO_V && r SLICE_OUTER_HI_V && (!add || r SLICE_OUTER_SP_V)))

/-- The pairs a sample of slice `n` has checked and found matching become the last good ones (R315). -/
def Dev.keepGood (s : Dev) (n : SliceId) (outer : Bool) : Dev :=
  let k := fun (a : Nat) (g : Word) => s.pairUse (sB n + a) g
  let h := s.hard n
  s.modSl n (fun x =>
    { x with hardGood := h, goodMin := k SLICE_LOOP_OUTMIN_V x.goodMin, goodMax := k SLICE_LOOP_OUTMAX_V x.goodMax
             goodXm := k SLICE_LOOP_XMARGIN_V x.goodXm
             goodOsp := if outer then k SLICE_OUTER_SP_V x.goodOsp else x.goodOsp
             goodOlo := if outer then k SLICE_OUTER_LO_V x.goodOlo else x.goodOlo
             goodOhi := if outer then k SLICE_OUTER_HI_V x.goodOhi else x.goodOhi })

/-- The main and limit laws on slice `n`, the selector and the codes (R177 to R186); the law starts at cycle `start`, its code
leaves the lane at its end and is at the FDAC in the next cycle (R9). `outer`: the sample is an outer tick, on which the outer law
has run or, where the tick was stale, has been skipped. -/
def Dev.runLaw (s0 : Dev) (n : SliceId) (outer : Bool) (start : Nat) : Dev :=
  let b := sB n
  let sa := s0.agileStep n start
  let checked := outer && !sa.flag b SLICE_OUTER_STATUS_STALE
  let sm := (if sa.pairsOk n checked then sa else sa.mismatch n).keepGood n checked
  let fresh := (sm.sl n).closing || (sm.sl n).reinit
  let closing := (sm.sl n).closing
  let mode := sm.mode n
  let v := sm.fbV n
  let i := sm.fbI n
  let pv := if mode == 1 then i else v
  let q := if mode == 1 then v else i
  let sn := if fresh && !outer then sm.outerStart n else sm
  let s1 := if closing then sn.contourClose n else sn
  let x := s1.sl n
  let neg := s1.flag b SLICE_LOOP_CFG_POLARITY
  let lo := s1.outLo n
  let hi := s1.outHi n
  let xm := s1.xMargin n
  -- setpoint
  let cs := s1.contourStep n (s1.baseSp n)
  let s2 := cs.1
  let h := s2.hardQ n
  let sp0 := satS 32 (s2.withOuter n (cs.2.1 + s2.overlay n) + s2.injectAt n 0)
  let sp := clampI h.1 h.2 sp0
  -- limit half
  let lhi := if mode == 1 then x.limQ.vHi else x.limQ.iHi
  let llo := if mode == 1 then x.limQ.vLo else x.limQ.iLo
  let mid := (lhi + llo) / 2
  let band := (lhi - llo) / 16
  let half0 := s2.flag b SLICE_LOOP_STATUS_HALF
  let half := if fresh then decide (mid ≤ q)
    else if mid + band ≤ q then true else if q < mid - band then false else half0
  let up := half != neg
  let y0 := s2.heldY n
  let tm := if fresh then Taps.still y0 else x.tapsM.clampY lo hi
  let tl := if fresh then Taps.still (startY lo hi (if up then y0 + xm else y0 - xm))
    else if half != half0 then Taps.still (startY lo hi (if up then x.yLast + xm else x.yLast - xm))
    else x.tapsL.clampY lo hi
  -- errors
  let cm := x.coefM.use
  let cl := x.coefL.use
  let solo := match x.rstep with
    | some st => st.solo
    | none => false
  let frozenM := if mode == 1 then solo else x.vhold.isSome
  let frozenL := if mode == 1 then x.vhold.isSome else solo
  let full := sp - pv
  let e0 := if frozenM then x.eM else window full (cEwin cm) neg
  let eM := satS 16 (e0 + s2.injectAt n 1 / 65536)
  let eL := if frozenL then x.eL else window ((if half then lhi else llo) - q) (cEwin cl) neg
  let sat := !frozenM && satS 16 (full / (2 ^ (16 - cEwin cm) : Nat)) != full / (2 ^ (16 - cEwin cm) : Nat)
  -- laws and selector
  let uM := tm.out cm eM lo hi
  let uL := tl.out cl eL lo hi
  let y := if up then min uM uL else max uM uL
  let isMain := y == uM
  let o := if isMain then uL else uM
  let other := if up then min o (y + xm) else max o (y - xm)
  let yM := if isMain then y else other
  let yL := if isMain then other else y
  let out := clampI lo hi (y + s2.injectAt n 2)
  let code := satS 20 (roundDiv (if s2.injectAt n 2 == 0 then y else out) 4096)
  let cycles := 31 + (if outer then 12 else 0) + (if cs.2.2 then 10 else 0) + (if s2.flag b SLICE_LOOP_CFG_INJ_EN then 5 else 0)
  let w := fun (k : Int) => BitVec.ofNat 32 (unsigned 32 k)
  let s3 := s2.modSl n (fun z =>
    { z with tapsM := tm.push eM yM, tapsL := tl.push eL yL, yLast := y, eM := e0, eL := eL, err := full, closing := false
             reinit := false })
  let s4 := (((s3.wr (b + SLICE_LOOP_SP) (w sp)).wr (b + SLICE_LOOP_ERR)
    (BitVec.ofNat 32 (unsigned 16 eM + 65536 * unsigned 16 eL))).wr (b + SLICE_LOOP_YM) (w yM)).wr (b + SLICE_LOOP_YL) (w yL)
  let s5 := (((((s4.setLoop n 1).setFlag b SLICE_LOOP_STATUS_ACTIVE (!isMain)).setFlag b SLICE_LOOP_STATUS_HALF half).setFlag b
    SLICE_LOOP_STATUS_OUT_SAT (y == lo || y == hi)).setFlag b SLICE_LOOP_STATUS_ERR_SAT sat).setFld b
    SLICE_LOOP_STATUS_LAST_CYCLES cycles
  let s6 := (if sp != sp0 then s5.setFlag b SLICE_LOOP_STATUS_SP_CLIP true else s5).setFld b SLICE_LOOP_OVR_RUN 0
  s6.emit n code (start + cycles + 1)

/-! ## Supervision (R210 to R212) -/

/-- A cause parks slice `n`'s gang: a setpoint ramp goes on as a code ramp, anything else parks (R86). -/
def Dev.causePark (s : Dev) (n : SliceId) : Dev :=
  match (s.sl n).phase with
  | .ramp false => s.each (s.gang n) Dev.codeRamp
  | _ => (s.upTo (s.now + 2)).parkBegin n

/-- The longest run shows in `SLICE_FB_STATUS` (R211). -/
def Dev.showRuns (s : Dev) (n : SliceId) (runs : List Run) : Dev :=
  (s.modSl n (fun x => { x with runs := runs })).setFld (sB n) SLICE_FB_STATUS_FROZEN_RUN
    (min 256 (runs.foldl (fun a r => max a r.run) 0))

/-- A sample in loop hold or with the loop open: every run is 1, none is kept with FROZEN_EN clear, and no computed sample
precedes the next (R211). -/
def Dev.resetRuns (s : Dev) (n : SliceId) : Dev :=
  (s.showRuns n (if s.flag (sB n) SLICE_FB_CFG_FROZEN_EN then (s.fbWords n).map (fun p => ⟨s.raw p.1 p.2 % 1048576, 1⟩) else [])).modSl n
    (fun x => { x with errRun := 0, codes := [] })

/-- The sample of slice `n` falls in loop hold; in a setpoint ramp it becomes a code ramp (R86). -/
def Dev.holdSample (s : Dev) (n : SliceId) : Dev :=
  match (s.sl n).phase with
  | .ramp false => s.each (s.gang n) Dev.codeRamp
  | _ => (s.setLoop n 2).resetRuns n

/-- The tags of this sample have been used. -/
def Dev.useTags (s : Dev) (n : SliceId) : Dev :=
  let t := s.fbTagsNow n
  s.modSl n (fun x => { x with fbTags := t })

/-- R211: the runs after this sample, in the order of the feedback words; `fresh`: every word has arrived (R215). A run past 256
stands at 257, as its word was found at 256. -/
def Dev.newRuns (s : Dev) (n : SliceId) (fresh : Bool) : List Run :=
  let ws := s.fbWords n
  let step := (s.sl n).rstep.isSome
  if !s.flag (sB n) SLICE_FB_CFG_FROZEN_EN then []
  else
    (ws.zip (List.range ws.length)).map (fun p =>
      let raw := s.raw p.1.1 p.1.2
      let c := raw % 1048576
      match (s.sl n).runs[p.2]? with
      | some r => if r.code == c && !rawOvr raw && !step && fresh then ⟨c, min 257 (r.run + 1)⟩ else ⟨c, 1⟩
      | none => ⟨c, 1⟩)

def spanOf (l : List Int) : Int :=
  match l with
  | [] => 0
  | x :: t => t.foldl max x - t.foldl min x

/-- The first frozen feedback word of this sample, if any. -/
def Dev.frozenWord (s : Dev) (n : SliceId) (runs : List Run) : Option (SliceId × Nat) :=
  let x := s.sl n
  if s.flag (sB n) SLICE_FB_CFG_FROZEN_EN && decide (255 ≤ x.errRun)
      && decide ((s.fld (sB n) SLICE_FB_CFG_FROZEN_MOVE : Int) ≤ spanOf x.codes) then
    ((s.fbWords n).zip runs).findSome? (fun p => if p.2.run == 256 then some p.1 else none)
  else none

/-- What R212 does with a frozen word. -/
def Dev.onFrozen (s : Dev) (n : SliceId) (w : SliceId × Nat) : Dev :=
  let s1 := (s.holdSample n).setFlag (sB n) SLICE_FB_STATUS_FROZEN true
  let m := w.1
  let own := (s.gang n).contains m && w.2 != 0 && w.2 == adcOf (s.apath m)
  if own && (s.route n).red && s.flag (sB m) SLICE_MEAS_CFG_IB_EN && s.fld (sB m) SLICE_RANGE_STATUS_STANDBY != 15
      && (s.sl m).rstep.isNone && !s.flag (sB m) SLICE_RANGE_STATUS_PATH_LOST then
    (s1.losePath m).raiseSlice n 1 3
  else (s1.causePark n).raiseSlice n 1 2

/-- A computed sample enters the windows of R211. -/
def Dev.keepRun (s : Dev) (n : SliceId) (runs : List Run) : Dev :=
  let c := (s.codeAhead n).toInt
  let nz := (s.sl n).eM != 0
  (s.showRuns n runs).modSl n (fun x => { x with errRun := if nz then min 255 (x.errRun + 1) else 0
                                                 codes := (c :: x.codes).take 255 })

end Sys2Proof.Machine
end

