-- ==== Sys2Proof/Machine/Sample.lean ====
section
/-! DEFINITION. One sample of a slice (R185 to R190, R206 to R212): the words arrive, the law runs or is held or dropped, the
background work follows; and the context restore of a lane (R174). -/

namespace Sys2Proof.Machine

/-- Cycles from the group's tick to the sampling instant of slice `n` (R27). -/
def Dev.slotDelay (s : Dev) (n : SliceId) : Nat :=
  let l := s.laneOf (s.owner n).val
  let k := (s.plates.lanes.filter (fun r => r.lane == l)).length
  if k ≤ 1 then 0 else (s.plates.lanes.getD (s.owner n).val ⟨0, 0, false, false, 0, 0⟩).slot * (s.period (s.low n).val / k)

/-- Rows of slice `n`'s group bypass the filters: a RAW station or pair rows (R118, R214). -/
def Dev.pairRows (s : Dev) (n : SliceId) : Bool := s.flag (sB (s.low n)) SLICE_TUNE_CFG_PAIR_REC
def Dev.rawRows (s : Dev) (n : SliceId) : Bool :=
  s.pairRows n || (match (s.sl (s.low n)).capture with
    | some c => c.getLsbD 3
    | none => false)

/-- The word of ADC `k` of the latest sample is missing or had OVR set. -/
def Dev.badWord (s : Dev) (n : SliceId) (k : Nat) : Bool := !s.newWord n k || rawOvr (s.raw n k)

/-- A word that a record of slice `n` is made of is bad: V, or the current of the path it takes (R114, R118). -/
def Dev.badWords (s : Dev) (n : SliceId) : Bool := s.badWord n 0 || s.badWord n (adcOf (s.recPath n))

/-- The words of the latest sampling instant reach the lane (R107 to R109): one hit by a parity error is missing, and
IADC-B converts only with IB_EN. The record filters take them (R110). -/
def Dev.words (s : Dev) (n : SliceId) (v ia ib : Code) : Dev :=
  let x := s.sl n
  let bOn := s.flag (sB n) SLICE_MEAS_CFG_IB_EN
  let s1 := if x.dropV then s else s.takeWord n 0 v
  let s2 := if x.dropIa then s1 else s1.takeWord n 1 ia
  let s3 := if x.dropIb || !bOn then s2 else s2.takeWord n 2 ib
  let s4 := s3.modSl n (fun y => { y with dropV := false, dropIa := false, dropIb := false, awaits := false })

  let get := fun (k a r : Nat) => if s4.newWord n k && r != 15 then some (s4.rd (sB n + a)).toInt else none
  let ra := s4.pathRange n false
  let rb := if bOn then s4.pathRange n true else 15
  let solo := match x.rstep with
    | some st => st.solo
    | none => false
  let s5 := if s4.rawRows n && (s4.sl n).wThen.isNone then s4
    else s4.filterSample n
      { v := get 0 SLICE_MEAS_V 0, a := get 1 SLICE_MEAS_IA ra, b := get 2 SLICE_MEAS_IB rb, rv := s4.vrange n, ra := ra, rb := rb
        sv := s4.badWord n 0 || x.vhold.isSome, sa := ra != 15 && (s4.badWord n 1 || solo), sb := rb != 15 && (s4.badWord n 2 || solo) }
  s5.modSl n (fun y => { y with stationWas := none })

/-- The lane of slice `n` is busy with this sample until its background work ends, which begins at cycle `from_` or once the lane is
free (R187, R189): at most 36 cycles, how many is a free value, and 18 to switch the context of a shared lane. `law`: the cycle
at which the sample's law ends, where one runs. -/
def Dev.laneBusy (s : Dev) (n : SliceId) (law : Option Nat) (from_ : Nat) : Dev :=
  let l := s.laneOf n.val
  let k := (s.plates.lanes.filter (fun r => r.lane == l)).length
  let bg := (clampI 0 36 (Config.approx s.freeCtr [])).toNat
  (s.modLane (sid l) (fun x =>
    { lawEnd := law.getD x.lawEnd, workEnd := max x.workEnd from_ + bg + (if 2 ≤ k then 18 else 0) })).draw

/-- Background work of one sample on the owner of a loop (R187): fade, RELEASE, overlap, auto-range, trims. `at_` is the
cycle of the sampling instant. -/
def Dev.background (s : Dev) (n : SliceId) (at_ : Nat) : Dev :=
  let s1 := (s.fadeOn n).release n
  let late := match (s1.sl n).rstep with
    | some st => decide (at_ < st.endAt) && s1.phase n == 2
    | none => false
  let s2 := if late then s1 else s1.overlap n
  (s2.autoRange n).balance n

/-- The tick record of slice `n`, after its loop's work. -/
def Dev.recordTick (s : Dev) (n : SliceId) : Dev :=
  if s.rawRows n then s.tickRecord n (s.badWords n) (s.pairRows n) (s.sl (s.owner n)).err else s

/-- Correlators and the tick record of slice `n`, after its loop's work. -/
def Dev.observe (s : Dev) (n : SliceId) : Dev := (s.correlate n (s.sl (s.owner n)).err).recordTick n

/-- The sample is dropped (R189, R190): the taps repeat the previous sample, the words count as used. -/
def Dev.dropSample (s : Dev) (n : SliceId) : Dev :=
  let b := sB n
  let run := s.fld b SLICE_LOOP_OVR_RUN + 1
  let s1 := ((s.modSl n (fun x =>
    { x with tapsM := x.tapsM.again, tapsL := x.tapsL.again, tapsO := x.tapsO.again, stale := 0 })).useTags n).setFld b
    SLICE_FB_STATUS_STALE_RUN 0
  let s2 := ((s1.addFld b SLICE_LOOP_OVR_OVERRUNS 1).setFld b SLICE_LOOP_OVR_RUN (min 3 run)).raiseSlice n 2 1
  if run == 3 then
    let s3 := s2.raiseSlice n 2 2
    if s3.flag b SLICE_LOOP_CFG_OVR_NOPARK then s3 else s3.causePark n
  else s2

/-- An outer tick falls on the inner sample of slice `n` (R206). -/
def Dev.outerTick (s : Dev) (n : SliceId) : Bool :=
  let m := s.fld (sB n) SLICE_LOOP_OUTER_OUTER_M
  let g := s.low n
  m != 0 && (s.eng g).tickTime.toNat / s.period g.val % m == s.fld (sB n) SLICE_LOOP_OUTER_OUTER_PHASE

/-- SELECT commands complete when their loops have reclosed, with the TIME of the reclosing tick (R203, R204). -/
def Dev.reclosed (s : Dev) (n : SliceId) : Dev :=
  let t := (s.eng (s.low n)).tickTime
  let sel := fun (c : Sched) => (match c.cmd with
    | .coefSelect op _ => op == 0 && c.vmask.getLsbD n.val
    | _ => false)
  ({ s with sched := s.sched.map (fun c => if sel c then { c with vmask := c.vmask &&& ~~~bit32 n.val, time := t } else c) }).settle
    (fun c => (match c.cmd with
      | .coefSelect op _ => op == 0
      | _ => false) && c.mask == 0 && c.vmask == 0) (fun c => (OK, c.time))

/-- The law of a sample that is neither held nor dropped, from cycle `start`, then the background work. The lanes run in
parallel: time does not move with the law of one of them (R9, R13). -/
def Dev.lawAndWork (s : Dev) (n : SliceId) (outer : Bool) (at_ start : Nat) : Dev :=
  let was := (s.sl n).closing
  let r := s.newRuns n (s.fbFresh n)
  let s1 := (s.runLaw n outer start).keepRun n r
  let s2 := if was then s1.reclosed n else s1
  let stop := start + s2.fld (sB n) SLICE_LOOP_STATUS_LAST_CYCLES
  ((s2.laneBusy n (some stop) stop).background n at_).useTags n

/-- A sample on which slice `n` runs no law, for whatever reason, is over for its lane but for the background work (R184, R189);
`from_` is the cycle at which that may begin. -/
def Dev.noLaw (s : Dev) (n : SliceId) (from_ at_ : Nat) : Dev := ((s.useTags n).laneBusy n none from_).background n at_

/-- c of R210 on this sample of slice `n`. -/
def Dev.staleCount (s : Dev) (n : SliceId) : Nat := if s.fbFresh n then 0 else (s.sl n).stale + 1

/-- The sample of slice `n` runs its law, unless a word is found frozen on it: the loop is closed and held by no switch or restore,
and its words are fresh, or it is the first sample on which one is not (R184, R200, R210). -/
def Dev.lawRuns (s : Dev) (n : SliceId) : Bool :=
  let x := s.sl n
  s.loopState n != 0 && !s.direct n && !x.held && !x.restoring && !x.unrestored
    && (s.staleCount n == 0 || (s.staleCount n == 1 && !x.closing))

/-- The first word of slice `n` found frozen on this sample (R211): none on a sample without its law or with a word that has not
arrived (R215). -/
def Dev.frozenNow (s : Dev) (n : SliceId) : Option (SliceId × Nat) :=
  if s.lawRuns n && s.fbFresh n then s.frozenWord n (s.newRuns n true) else none

/-- The arriving sample of slice `n` is dropped (R189): its law would run, and the lane executes another's. -/
def Dev.overrun (s : Dev) (n : SliceId) (arrive : Nat) : Bool :=
  s.flag (sB n) SLICE_LOOP_CFG_OVERSUB && decide (arrive < (s.lanes.get (sid (s.laneOf n.val))).lawEnd)
    && s.lawRuns n && (s.frozenNow n).isNone

/-- A sample of slice `n` in loop hold (R184): a switch held on it recloses on the next one (R84, R204), unless the feedback is in
stale hold (R215). -/
def Dev.heldTurn (s : Dev) (n : SliceId) (c start at_ : Nat) : Dev :=
  let x := s.sl n
  let s1 := if x.held && decide (c ≤ 1) && !x.restoring && !x.unrestored then
      s.modSl n (fun y => { y with held := false, closing := true }) else s
  (s1.holdSample n).noLaw n start at_

/-- The turn of the loop of owner `n` once its words have arrived at cycle `arrive` (R184, R189, R210 to R212). -/
def Dev.loopTurn (s : Dev) (n : SliceId) (arrive : Nat) : Dev :=
  let b := sB n
  let at_ := arrive - 64
  if s.overrun n arrive then s.dropSample n
  else
    let start := if s.flag b SLICE_LOOP_CFG_OVERSUB then max arrive (s.lanes.get (sid (s.laneOf n.val))).workEnd else arrive
    if s.loopState n == 0 || s.direct n then
      ((if s.transferDue n then s.transfer n else s).resetRuns n).noLaw n start at_
    else
      let c := s.staleCount n
      let hold := decide (2 ≤ c) || (c == 1 && (s.sl n).closing)
      let s1 := ((s.modSl n (fun x => { x with stale := c })).setFld b SLICE_FB_STATUS_STALE_RUN (min 255 c)).setFlag b
        SLICE_FB_STATUS_STALE_HOLD hold
      if s.fld b SLICE_LOOP_CFG_HOLD_LIMIT + 2 ≤ c then ((s1.heldTurn n c start at_).raiseSlice n 1 1).causePark n
      else if !s.lawRuns n then s1.heldTurn n c start at_
      else
        match s.frozenNow n with
        | some w => (s1.onFrozen n w).noLaw n start at_
        | none =>
          let s2 := s1.setFld b SLICE_LOOP_STATUS_LATE (start - arrive)
          let s3 := if s2.transferDue n then s2.transfer n else s2
          if s3.outerTick n then s3.modSl n (fun y => { y with outerWait := some (at_, start) })
          else s3.lawAndWork n false at_ start

/-- LANE_COMPUTATION (R185): the words of slice `n` reach its lane 64 cycles after its sampling instant. The owner of a
loop computes it; on an outer tick the law waits for OUTER_TICK (DESIGN CHOICE, notes/assumptions/21.md). A dropped sample takes
no cycle of the lane, so its correlators take nothing from it (R187, R189; DEDUCED, notes/assumptions/57.md). -/
def Dev.laneComputation (s : Dev) (n : SliceId) (v ia ib : Code) : Dev :=
  if !s.domains || !(s.sl n).awaits then s
  else
    let arrive := (s.eng (s.low n)).tickAt + s.slotDelay n + 64
    let s1 := ((s.upTo arrive).each (s.gang n) Dev.land).words n v ia ib
    if s1.owner n == n then
      let s2 := s1.loopTurn n arrive
      if (s2.sl n).outerWait.isSome then s2 else if s1.overrun n arrive then s2.recordTick n else s2.observe n
    else s1.observe n

def execLaneComputation (n : SliceId) (v ia ib : Code) (s : State) : Host.Outcome State Fault Refusal :=
  s.onAwake (fun d => d.laneComputation n v ia ib)

/-! ## Outer loops (R206 to R209) -/

/-- The words behind PV_O, as tags. -/
def Dev.outerTags (s : Dev) (n : SliceId) : List Nat :=
  let r := s.route n
  let m := sid r.idx
  let tag := fun (k : SliceId) (a : Nat) => getBits (s.raw k a) 20 8
  match r.kind with
  | 1 => [tag m 0]
  | 2 => [tag m (adcOf (s.apath m))]
  | 3 => [tag m 0, tag m (adcOf (s.apath m))]
  | 6 => [(s.mons.get m).ticks]
  | _ => [tag n 0, tag n (adcOf (s.apath n))]

/-- A quotient as the lane forms it, with its saturation (R207): exact to a relative error below 2⁻²⁰, a free value. -/
def Dev.quotient (s : Dev) (v i : Int) : Int × Bool :=
  let q := v * 2147483648 / i
  let e := clampI 0 (2 * (if q < 0 then -q else q) / 1048576) (Config.approx s.freeCtr [v, i]) - (if q < 0 then -q else q) / 1048576
  if decide (-32768 < i) && decide (i < 32768) || decide (2147483648 ≤ q) || decide (q ≤ -2147483648) then
    let pos := decide (0 < v * i) || (v * i == 0 && decide (0 ≤ Config.approx s.freeCtr []))
    (if pos then 2147483647 else -2147483647, true)
  else (satS 32 (q + e), false)

/-- PV_O and whether it saturated (R207). -/
def Dev.outerPv (s : Dev) (n : SliceId) : Int × Bool :=
  let r := s.route n
  let m := sid r.idx
  match r.kind with
  | 1 => (s.mV m, false)
  | 2 => (s.mAct m, false)
  | 3 => s.quotient (s.mV m) (s.mAct m)
  | 4 => (satS 32 (openDiv (s.mV n * s.mAct n) 2147483648), false)
  | 5 => s.quotient (s.mV n) (s.mAct n)
  | _ => (signed 12 (s.fld (monBase m.val) MON_STATUS_VALUE) * 1048576, false)

/-- Bounds of the outer output (R208). -/
def Dev.outerLo (s : Dev) (n : SliceId) : Int := (s.pairUse (sB n + SLICE_OUTER_LO_V) (s.sl n).goodOlo).toInt
def Dev.outerHi (s : Dev) (n : SliceId) : Int := (s.pairUse (sB n + SLICE_OUTER_HI_V) (s.sl n).goodOhi).toInt

/-- The outer law on a fresh tick (R208). -/
def Dev.outerLaw (s : Dev) (n : SliceId) : Dev :=
  let b := sB n
  let x := s.sl n
  let s0 := if x.closing then (s.outerStart n).contourClose n else if x.reinit then s.outerStart n else s
  let pv := s0.outerPv n
  let add := s0.flag b SLICE_LOOP_CFG_OUTER_ADD
  let sp := if add then (s0.pairUse (b + SLICE_OUTER_SP_V) (s0.sl n).goodOsp).toInt
    else satS 32 ((s0.contourStep n (s0.baseSp n)).2.1 + s0.overlay n)
  let c := (s0.sl n).coefO.use
  let e := window (sp - pv.1) (cEwin c) false
  let y := (s0.sl n).tapsO.out c e (s0.outerLo n) (s0.outerHi n)
  let w := fun (k : Int) => BitVec.ofNat 32 (unsigned 32 k)
  let s1 := s0.modSl n (fun x => { x with tapsO := x.tapsO.push e y })
  let s2 := ((s1.wr (b + SLICE_OUTER_PV) (w pv.1)).wr (b + SLICE_OUTER_Y) (w y)).setFld b SLICE_OUTER_STATUS_E (unsigned 16 e)
  let s3 := (s2.setFlag b SLICE_OUTER_STATUS_STALE false).setFld b SLICE_OUTER_STATUS_STALE_RUN 0
  (if pv.2 then s3.setFlag b SLICE_OUTER_STATUS_PV_SAT true else s3).draw

/-- OUTER_TICK (R206 to R209): the outer law runs within the sample that waits for it, or is skipped when a word behind
PV_O has not changed since the previous outer tick; then the sample's own law. -/
def Dev.outerTickEvent (s : Dev) (n : SliceId) : Dev :=
  let b := sB n
  match (s.sl n).outerWait with
  | none => s
  | some (at_, start) =>
    let old := (s.sl n).outTags
    let new := s.outerTags n
    let s0 := s.modSl n (fun x => { x with outerWait := none, outTags := new })
    let stale := old.length == new.length && (old.zip new).any (fun p => p.1 == p.2)
    if stale then
      let run := min 255 (s0.fld b SLICE_OUTER_STATUS_STALE_RUN + 1)
      let s1 := (s0.setFlag b SLICE_OUTER_STATUS_STALE true).setFld b SLICE_OUTER_STATUS_STALE_RUN run
      if s1.fld b SLICE_LOOP_CFG_HOLD_LIMIT ≤ run then ((s1.causePark n).raiseSlice n 1 1).observe n
      else ((if (s1.sl n).closing || (s1.sl n).reinit then s1.outerStart n else s1).lawAndWork n true at_ start).observe n
    else ((s0.outerLaw n).lawAndWork n true at_ start).observe n

def execOuterTick (n : SliceId) (s : State) : Host.Outcome State Fault Refusal := s.onAwake (fun d => d.outerTickEvent n)

/-! ## Lane parity (R174) -/

/-- LANE_PARITY_ERROR: every slice the lane serves enters loop hold and raises its source; the restore is asked for, and
performed or refused when the collector dispatches the first of the messages. -/
def execLaneParityError (l : LaneId) (s : State) : Host.Outcome State Fault Refusal :=
  s.onAwake (fun d =>
    let ns := d.served l.val
    let d1 := d.each ns Dev.restoreHold
    let d2 := d1.modCol (fun c => { c with lanes := addNat l.val c.lanes })
    let d3 := d2.each ns (fun e n => e.presentMsg (msg (n.val * 8 + 7) 0 0 n.val))
    Dev.drain d3.col.queue.length d3)

/-- The restore of slice `n`: sets, limit set, setpoint and bounds from their checked sources, and delay lines from the
held code; the loop resumes at the slice's next tick. The bounds of the output are read from their registers at each use. -/
def Dev.restoreSlice (s : Dev) (n : SliceId) : Dev :=
  if (s.sl n).restoring then
    let s1 := (s.copySets n (s.fld (sB n) SLICE_LOOP_STATUS_COEF_SET)).readLimits n (s.fld (sB n) SLICE_LIM_STATUS_ACTIVE)
    (s1.modSl n (fun x => { x with reinit := true, sp := .of x.sp.use })).setFlag (sB n) SLICE_LOOP_STATUS_RESTORE false
  else s

/-- The restore of lane `l` ends: with it the block reset (R174, R344). -/
def Dev.laneRestored (s : Dev) (l : Nat) : Dev :=
  if s.resetting (target 0 l) then (s.each (s.served l) Dev.restoreSlice).endReset (target 0 l) else s

def execLaneRestoreDone (l : LaneId) (s : State) : Host.Outcome State Fault Refusal := s.onAwake (fun d => d.laneRestored l.val)

end Sys2Proof.Machine
end

