-- ==== Sys2Proof/Machine/Force.lean ====
section
/-! DEFINITION. The force path's own events (R5, R74 to R96): codes of direct mode, the FDAC's pending latch, the cycles of
park and UNPARK, inductive ramps, and the read-back supervision. -/

namespace Sys2Proof.Machine

/-! ## Codes of direct mode (R79, R80) -/

/-- In operation: not parked, parking, ramping or in the UNPARK sequence. -/
def Dev.running (s : Dev) (n : SliceId) : Bool :=
  match (s.sl n).phase with
  | .running => true
  | _ => false

/-- Slice `n`, in direct mode, takes a code at the tick of cycle `t` of group `r`: in a group of 1 or 2 the head of its queue,
read at cycle 1 and latched at cycle 2 (R79); in a larger one on the internal strobe its holding register, latched at cycle 2 +
STROBE_COMP (R80); on LOAD_IN nothing. -/
def Dev.takeCode (s : Dev) (r : GroupRec) (n : SliceId) (t : Nat) : Dev :=
  if !r.strobed then s.fly n (t + 1) .head
  else if r.strobe then s
  else s.fly n (t + 2 + s.fld (sliceBase r.first) SLICE_STROBE_CFG_STROBE_COMP) .holding

/-- The codes of group `r` move at its tick: queue heads in a group of 1 or 2, holding registers at the internal strobe in
a larger one (R77 to R80). -/
def Dev.takeCodes (s : Dev) (r : GroupRec) (t : Nat) : Dev :=
  s.each r.slices (fun d n => if d.direct n && d.running n then d.takeCode r n t else d)

/-- FDAC_LATCH: time runs to the cycle of the next thing due at the FDAC of slice `n`, a code on its way or one that waits for 20
cycles to pass since the previous latch, and it gets there; park and clamp hold let none latch (R74, R76). -/
def Dev.fdacLatch (s : Dev) (n : SliceId) : Dev :=
  match (s.sl n).flight, (s.sl n).pendCode with
  | [], none => s
  | [], some _ => (s.upTo (s.sl n).pendAt).land n
  | e :: _, none => (s.upTo e.1).land n
  | e :: _, some _ => (s.upTo (min e.1 (s.sl n).pendAt)).land n

def execFdacLatch (n : SliceId) (s : State) : Host.Outcome State Fault Refusal := s.onAwake (fun d => d.fdacLatch n)

/-- QUEUE_FLUSH: the queue is empty; the FDAC keeps its code (R79). -/
def Dev.flushQueue (s : Dev) (n : SliceId) : Dev :=
  ((s.land n).modSl n (fun x => { x with queue := [] })).setFld (sB n) SLICE_QUEUE_STATUS_DEPTH 0

def execQueueFlush (n : SliceId) (s : State) : Host.Outcome State Fault Refusal := s.onAwake (fun d => d.flushQueue n)

/-! ## Park (R85, R86) -/

/-- A mismatch that the park of slice `n` met at its start is presented once the park is under way: the value did not wait for it
(R315; DEDUCED, notes/assumptions/57.md). -/
def Dev.parkMismatch (s : Dev) (n : SliceId) : Dev :=
  if (s.sl n).parkMis then (s.modSl n (fun x => { x with parkMis := false })).raiseSlice n 3 1 else s

/-- PARK_RG_SAFE: cycle 2,000 of the table. -/
def execParkRgSafe (n : SliceId) (s : State) : Host.Outcome State Fault Refusal :=
  s.onAwake (fun d =>
    match (d.sl n).phase with
    | .parking start false =>
      (((d.upTo (start + 2000)).rgSafe n).modSl n (fun x => { x with phase := .parking start true })).parkMismatch n
    | _ => d)

/-- PARK_COMPLETE: cycle 9,995 of the table. -/
def execParkComplete (n : SliceId) (s : State) : Host.Outcome State Fault Refusal :=
  s.onAwake (fun d =>
    match (d.sl n).phase with
    | .parking start true => (d.upTo (start + 9995)).parkDone n
    | _ => d)

/-- The inductive ramp of slice `n`'s gang has reached its end: the generator rests at zero or at the park code. -/
def Dev.rampOver (s : Dev) (n : SliceId) : Bool :=
  let m := s.owner n
  match (s.sl m).phase with
  | .ramp code => (s.gen m).con.plan.isEmpty && (code || (s.gen m).con.p == 0)
  | _ => false

/-- INDUCTIVE_RAMP_END: the table of R85 begins; a CHIP_RESET that waited for the ramps goes on (R63). -/
def execInductiveRampEnd (n : SliceId) (s : State) : Host.Outcome State Fault Refusal :=
  s.onAwake (fun d => if d.rampOver n then (d.endRamp n).chipTry else d)

/-- A code ramp moves by one sample, on the generator of the gang's lowest slice; each slice's trim holds (R86). -/
def Dev.rampTick (s : Dev) (n : SliceId) : Dev :=
  match (s.sl n).phase with
  | .ramp true =>
    if s.owner n == n then
      let xp := (s.parkCode n).toInt * codeUnit
      let s1 := s.modCon n (fun k => k.move xp (s.period (s.low n).val))
      let c := clampI (-524288) 524287 (openDiv (s1.gen n).con.p codeUnit)
      (s1.each (s1.gang n) (fun d m =>
        let t := if d.ganged n then trimSteps (d.sl m).trim else 0
        d.presentAt m (BitVec.ofNat 20 (unsigned 20 (satS 20 (c + t)))) d.now)).modSl n (fun x => { x with gcode := c })
    else s
  | _ => s

/-! ## UNPARK (R89) -/

/-- The UNPARK in progress on group `g`, if one runs. -/
def Dev.unparkOf (s : Dev) (g : Nat) : Option Sched := s.sched.find? (fun x => isUnpark x.cmd && x.group == g)

/-- UNPARK_OUTEN_LOW: cycle 2,000 of the sequence on the slices still in it. On a group's first UNPARK R89 drives OUTEN_N low
here, before the completion that enables the group (R54, R56, R90): the model follows R89 (DESIGN CHOICE,
notes/assumptions/57.md). -/
def execUnparkOutenLow (g : GroupId) (s : State) : Host.Outcome State Fault Refusal :=
  s.onAwake (fun d =>
    d.each (d.members g.val) (fun e n =>
      match (e.sl n).phase with
      | .unparking start false =>
        ((e.upTo (start + 2000)).setFlag (sB n) SLICE_FORCE_STATUS_OUTEN true).modSl n (fun x => { x with phase := .unparking start true })
      | _ => e))

/-- Slice `n` closes at this tick: its loop bumplessly from the park code, or its direct codes begin. -/
def Dev.closeSlice (s : Dev) (n : SliceId) : Dev :=
  let s1 := s.modSl n (fun x => { x with phase := .running })
  if s1.direct n || s1.owner n != n then s1
  else (s1.setLoop n 1).modSl n (fun x => { x with closing := true })

/-- The closing tick of slice `n`'s gang has come. OUTEN_DELAY is that of the gang's lowest slice (DESIGN CHOICE,
notes/assumptions/57.md). -/
def Dev.closeDue (s : Dev) (n : SliceId) (t : Nat) : Bool :=
  match (s.sl n).phase with
  | .unparking start true => decide (start + 2000 + s.fld (sB (s.owner n)) SLICE_OUTEN_CFG_OUTEN_DELAY ≤ t)
  | _ => false

/-- UNPARK_CLOSE: the slices whose delay is over close at the group's latest tick; the command completes when none is
outstanding (R89), and a first OK enables the group (R56). -/
def execUnparkClose (g : GroupId) (s : State) : Host.Outcome State Fault Refusal :=
  s.onAwake (fun d =>
    match d.group g.val, d.unparkOf g.val with
    | some r, some u =>
      let e := d.eng g
      let ns := r.slices.filter (fun n => d.closeDue n e.tickAt)
      if ns.isEmpty || !d.domains then d
      else
        let d1 := d.each ns Dev.closeSlice
        let d2 := d1.each ns (fun x n => if x.direct n then x.takeCode r n e.tickAt else x)
        let m := maskOf ns
        let upd := fun (x : Sched) => if isUnpark x.cmd && x.group == g.val then
          { x with mask := x.mask &&& ~~~m, vmask := x.vmask ||| m, time := e.tickTime } else x
        let fin := u.mask &&& ~~~m == 0
        let d3 : Dev := { d2 with sched := d2.sched.map upd }
        let d4 := if fin && u.status == OK then
            d3.each r.slices (fun x n => if (x.sl n).enabled then x else (x.modSl n (fun y => { y with enabled := true })).driveNow n)
          else d3
        d4.settle (fun x => isUnpark x.cmd && x.group == g.val && x.mask == 0) (fun x => (x.status, x.time))
    | _, _ => d)

/-! ## Supervision and parity (R5, R95, R96) -/

/-- The code in the FDAC at cycle `t`. -/
def Slice.codeAt (x : Slice) (t : Nat) : Int :=
  match x.hist.find? (fun h => decide (h.1 ≤ t)) with
  | some h => h.2.toInt
  | none => 0

/-- The cycle of the next MADC slot of slice `n`: the octants' slots start every 1,000 core cycles and serve their eight slices
in turn (R11); which slot a cycle count starts with is open (DESIGN CHOICE, notes/assumptions/57.md). -/
def Dev.nextSlot (s : Dev) (n : SliceId) : Nat :=
  let c := match (s.sl n).monAt with
    | some a => max s.now (a + 1)
    | none => s.now
  c + (1000 * (n.val % 8) + 8000 - c % 8000) % 8000

/-- MONITOR_SLOT: the MADC reading of slice `n` in its next slot, in 31.25 µV steps, is checked against the code latched LAG
before; a run of COUNT failing checks raises its source once (R95, R96). -/
def execMonitorSlot (n : SliceId) (reading : BitVec 18) (s : State) : Host.Outcome State Fault Refusal :=
  s.onAwake (fun s =>
    if !s.domains then s
    else
      let d := ((s.upTo (s.nextSlot n)).land n).modSl n (fun x => { x with monAt := some (s.nextSlot n) })
      let b := sB n
      let x := d.sl n
      let c0 := x.codeAt (d.now - d.fld b SLICE_MON_CFG_LAG)
      let c1 := x.codeAt d.now
      let exp := satS 18 (openDiv (d.corrOf n 51 * (c0 - 4 * d.corrOf n 50)) 4294967296)
      let diff := reading.toInt - exp
      let win : Int := d.fld b SLICE_MON_CFG_WINDOW
      let fail := decide (4 * win + (if c1 < c0 then c0 - c1 else c1 - c0) < 4 * (if diff < 0 then -diff else diff))
      let old := d.fld b SLICE_MON_STATUS_FAIL_RUN
      let run := if fail then min 15 (old + 1) else 0
      let d0 := if fail then d else d.modSl n (fun y => { y with monRaised := false })
      let d1 := ((d0.setFld b SLICE_MON_READING_READING reading.toNat).setFld b SLICE_MON_EXPECT_EXPECT (unsigned 18 exp)).setFld b
        SLICE_MON_STATUS_FAIL_RUN run
      let d2 := (d1.setFlag b SLICE_MON_STATUS_LAST_FAIL fail).addFld b SLICE_MON_STATUS_CHECKS 1
      let cnt := d2.fld b SLICE_MON_CFG_COUNT
      if fail && decide (0 < cnt) && decide (cnt ≤ run) && !x.monRaised then
        (d2.modSl n (fun y => { y with monRaised := true })).raiseSlice n 0 0
      else d2)

/-- DIE_TO_DIE_PARITY_ERROR: the next word is discarded, and the slice's lane parity source is raised (R5). -/
def execDieToDieParityError (n : SliceId) (w : D2dWord) (s : State) : Host.Outcome State Fault Refusal :=
  s.onAwake (fun d =>
    ((d.land n).modSl n (fun x => match w with
      | .adcV => { x with dropV := true }
      | .adcIa => { x with dropIa := true }
      | .adcIb => { x with dropIb := true }
      | .fdacCode => { x with dropCode := true }
      | .rgPattern => { x with dropRg := true }
      | .comparatorEdge => { x with dropEdge := true }
      | .threshold => { x with dropThr := true }
      | .control => { x with dropCtl := true })).raiseSlice n 7 0)

/-- The source of the GUARD output (R91): 0 V, VS_P through its buffer, or the FORCE voltage. -/
inductive GuardSource where
  | zero | sense | force
  deriving DecidableEq, Repr

/-- What the GUARD output of slice `n` follows: 0 V until step 6 of R47 and while VDD_AP or VDD_AN is out of range, else the
source GUARD_SRC names, code 3 taken as 0 (R91, R97). -/
def Dev.guardSource (s : Dev) (n : SliceId) : GuardSource :=
  if s.boot.step < 6 || s.pins.brown.contains 4 || s.pins.brown.contains 5 then .zero
  else match s.fld (sB n) SLICE_FORCE_CFG_GUARD_SRC with
    | 1 => .sense
    | 2 => .force
    | _ => .zero

/-- FORCE_CFG_WRITE: a write that would change DIRECT while the slice is not parked is discarded whole, with a Note; any
other applies its fields (R77, R97). -/
def Dev.forceCfgWrite (s : Dev) (n : SliceId) (v : Word) : Dev :=
  if v.getLsbD 0 != s.direct n && !s.parked n then s.note n else s.store (sB n + SLICE_FORCE_CFG) v

def execForceCfgWrite (n : SliceId) (v : Word) (s : State) : Host.Outcome State Fault Refusal :=
  s.onAwake (fun d => d.forceCfgWrite n v)

end Sys2Proof.Machine
end

