-- ==== Sys2Proof/Machine/Wave.lean ====
section
/-! DEFINITION. Waveform generators (R227 to R230), and how a tick finishes: the samples of the waveforms and the codes of
direct mode are taken once everything that takes effect at the tick has done so. -/

namespace Sys2Proof.Machine

/-- The 32-bit LFSR after one shift: taps 32, 22, 2 and 1 (R229). -/
def lfsrShift (w : Word) : Word :=
  let b := (w.getLsbD 31 != w.getLsbD 21) != (w.getLsbD 1 != w.getLsbD 0)
  (w <<< 1) ||| BitVec.ofNat 32 b.toNat

/-- `k` shifts. -/
def lfsrRun : Nat → Word → Word
  | 0, w => w
  | k + 1, w => lfsrRun k (lfsrShift w)

/-- `k` draws: the register after them and their sum. -/
def draws : Nat → Word → Int → Word × Int
  | 0, w, t => (w, t)
  | k + 1, w, t => let w1 := lfsrRun 32 w; draws k w1 (t + w1.toInt)

/-- Shape s at phase θ in Q1.31 units, and whether a fetch met an uncorrectable error (R228). -/
def Dev.shape (s : Dev) (n : SliceId) (th : Nat) : Int × Bool :=
  let b := gB n
  match s.fld b GEN_MODE_SHAPE with
  | 1 =>
    let i := th / 68719476736
    let f : Int := getBits th 20 16
    let x := s.sine i
    let y := s.sine (i + 1)
    ((x + (y - x) * f / 65536) * 4096, s.uncorrectable (0x2000000 + 4 * i) 4 || s.uncorrectable (0x2000000 + 4 * ((i + 1) % 4096)) 4)
  | 2 =>
    let t : Int := getBits th 28 20
    ((if t < 524288 then 4 * t - 1048576 else 3145728 - 4 * t) * 2048, false)
  | 3 => ((2 * (getBits th 28 20 : Nat) - 1048576) * 2048, false)
  | 4 =>
    let len := s.fld b GEN_TABLE_LEN_LEN
    let base := (s.rd (b + GEN_TABLE_BASE)).toNat
    let i := th * len / 281474976710656
    let f : Int := th * len % 281474976710656 / 4294967296
    let j := (i + 1) % max len 1
    let x := (s.word (base + 4 * i)).toInt
    let y := (s.word (base + 4 * j)).toInt
    (x + (y - x) * f / 65536, s.uncorrectable (base + 4 * i) 4 || s.uncorrectable (base + 4 * j) 4)
  | _ => (0, false)

/-- BAR2 offsets of the two table entries fetched for phase θ (R228). -/
def Dev.fetched (s : Dev) (n : SliceId) (th : Nat) : List Nat :=
  match s.fld (gB n) GEN_MODE_SHAPE with
  | 1 => [0x2000000 + 4 * (th / 68719476736), 0x2000000 + 4 * ((th / 68719476736 + 1) % 4096)]
  | 4 =>
    let len := s.fld (gB n) GEN_TABLE_LEN_LEN
    let i := th * len / 281474976710656
    [(s.rd (gB n + GEN_TABLE_BASE)).toNat + 4 * i, (s.rd (gB n + GEN_TABLE_BASE)).toNat + 4 * ((i + 1) % max len 1)]
  | _ => []

/-- The waveform generator of slice `n` at its sampling instant (R227 to R230); the correlators see its wraps (R126). -/
def Dev.waveSample (s : Dev) (n : SliceId) : Dev :=
  let b := gB n
  let t := (s.sl n).instant.toNat
  let th := (s.rd48 (b + GEN_FREQ_LO) (b + GEN_FREQ_HI) * t + s.rd48 (b + GEN_PHASE0_LO) (b + GEN_PHASE0_HI)) % 281474976710656
  let wrap := decide (th < s.theta n)
  let k := match s.fld b GEN_MODE_NOISE with
    | 1 => 1
    | 2 => 4
    | _ => 0
  let d := draws k (s.gen n).lfsr 0
  let sh := s.shape n th
  let w := (s.rd (b + GEN_OFFSET)).toInt + roundDiv ((s.rd (b + GEN_AMPL)).toInt * sh.1) 2147483648
    + (if k == 0 then 0 else roundDiv ((s.rd (b + GEN_NOISE_AMPL)).toInt * d.2) (2147483648 * k))
  let out := if sh.2 then (s.gen n).w else satS 32 w
  let s1 := (s.modGen n (fun g => { g with lfsr := d.1, w := out })).wr48 (b + GEN_PHASE_LO) (b + GEN_PHASE_HI) th
  let s2 := s1.wr (b + GEN_VALUE) (BitVec.ofNat 32 (unsigned 32 out))
  let s3 := ((s.fetched n th).foldl (fun l a => addNat (a / 8) l) []).foldl (fun d a => d.eccRead (8 * a) 8 rdGen)
    (if sh.2 then s2.setFlag b GEN_STATUS_TABLE_ERR true
     else if satS 32 w == w then s2 else s2.setFlag b GEN_STATUS_SAT true)
  s3.modSl n (fun x => { x with corr :=
    { x.corr with wrapped := wrap, periods := if x.corr.st == 3 && wrap then x.corr.periods + 1 else x.corr.periods } })

/-- TIME and cycle at which what group `r` has waiting takes effect: its latest tick, or with LOAD_IN its latest strobe. -/
def Dev.effectAt (s : Dev) (r : GroupRec) : Nat × Word64 :=
  let e := s.eng (sid r.first)
  if r.strobed && r.strobe then (e.strobeAt, e.strobeTime) else (e.tickAt, e.tickTime)

def isGenSet : RingCmd → Bool
  | .genSet _ => true
  | _ => false

/-- A GEN_SET of group `r` is due. -/
def Dev.genDue (s : Dev) (r : GroupRec) : Bool :=
  let t := s.effectAt r
  s.sched.any (fun x => isGenSet x.cmd && x.group == r.first && x.due t.1 t.2)

/-- What falls on the latest tick of group `g` has taken effect: the waveforms take their sample, a direct-mode slice with
source 2 its code, and the codes move. The generator keeps one entry in the queue, its value for the latest tick: what another
source left there gives way (R78; DESIGN CHOICE, notes/assumptions/57.md). -/
def Dev.finishTick (s : Dev) (g : GroupId) : Dev :=
  match s.group g.val with
  | some r =>
    let e := s.eng g
    if !e.unfinished || e.due || (s.genDue r && !(r.strobed && r.strobe)) then s
    else
      let s1 := (s.modEng g (fun e => { e with unfinished := false })).each r.slices Dev.waveSample
      let s2 := s1.each r.slices (fun d n =>
        if d.direct n && d.directSrc n == 2 then
          (if r.strobed then d.modSl n (fun x => { x with holding := codeOf (d.gen n).w })
           else (d.modSl n (fun x => { x with queue := [codeOf (d.gen n).w] })).setFld (sB n) SLICE_QUEUE_STATUS_DEPTH 1)
        else d)
      s2.takeCodes r e.tickAt
  | none => s

end Sys2Proof.Machine
end

