-- ==== Sys2Proof/Machine/Traverse.lean ====
section
/-! DEFINITION. The Traverse engines (R241 to R260): paths through legs and marks, steps as they begin, wait, hold, are
skipped and take effect, prefetch and jump windows, and the commands and events that move them. -/

namespace Sys2Proof.Machine

/-! ## Paths (R246, R247) -/

/-- Slices in group `g`. -/
def Dev.size (s : Dev) (g : GroupId) : Nat :=
  match s.group g.val with
  | some r => r.size
  | none => 1

/-- Enter leg `k`: empty legs are skipped, 4,096 of them at most. With the place, the descriptors read. -/
def Dev.enterLeg (s : Dev) (g : GroupId) : Nat → Nat → Place × List Nat
  | 0, _ => (.bad 7, [])
  | f + 1, k =>
    if k == 0xFFFF then (.idle, [])
    else if !s.legOk g k (s.size g) then (.bad 5, [k])
    else
      let d := s.leg g k
      if decide (0 < d.count) && decide (0 < d.rep) then (.step ⟨k, d, 0, 0, 0⟩, [k])
      else
        let q := s.enterLeg g f d.succ
        (q.1, k :: q.2)

/-- Where leg `k` leads. -/
def Dev.enter (s : Dev) (g : GroupId) (k : Nat) : Place := (s.enterLeg g 4096 k).1

/-- As `Dev.enter`, with the descriptors read from the store (R303). -/
def Dev.enterRead (s : Dev) (g : GroupId) (k : Nat) : Dev × Place :=
  let q := s.enterLeg g 4096 k
  (s.each q.2 (fun d j => d.eccRead ((s.rd (tB g + TRAV_LEG_BASE)).toNat + 32 * j) 32 rdTrav), q.1)

/-- The step that follows in the same leg; none where its last pass ends. -/
def PathPos.next (p : PathPos) : Option PathPos :=
  if p.step + 1 < p.desc.count then some { p with step := p.step + 1 }
  else
    let pass := (p.pass + 1) % 4294967296
    if p.desc.rep != 0xFFFFFFFF && pass == p.desc.rep then none else some { p with step := 0, pass := pass }

/-- After this step a leg with EXIT_IRQ is left. -/
def PathPos.exits (p : PathPos) : Bool := p.next.isNone && bitOf p.desc.flags 3

/-- What follows a step. -/
def Dev.follow (s : Dev) (g : GroupId) (p : PathPos) : Dev × Place :=
  match p.next with
  | some q => (s, .step q)
  | none => s.enterRead g p.desc.succ

/-- Mark `j` of the table at `a`, none where the table is not usable (R247). -/
def Dev.markAt (s : Dev) (a j : Nat) : Option Word64 :=
  let n := s.num a 4
  if a == 0 || n == 0 || decide (65536 < n) || s.num (a + 4) 4 != 0 || !inSystem a (16 + 8 * n) || s.uncorrectable a 16
      || s.uncorrectable (a + 16 + 8 * (j % n)) 8 then none
  else some (s.word64 (a + 16 + 8 * (j % n)) + BitVec.ofNat 64 (j / n) * s.word64 (a + 8))

/-- The group's axis: its value, and whether it counts down (R264, R276). -/
def Dev.axisOf (s : Dev) (g : GroupId) : Word64 × Bool :=
  match s.group g.val with
  | some r =>
    if r.axis == 0 then (s.time, false)
    else (s.axisNow r.axis, s.axisDown r.axis)
  | none => (s.time, false)

/-- An axis at `v` has reached or passed a mark. -/
def reachedAt (v : Word64) (down : Bool) (m : Word64) : Bool := decide (0 ≤ (if down then m - v else v - m).toInt)

def Dev.reachedMark (s : Dev) (g : GroupId) (m : Word64) : Bool := reachedAt (s.axisOf g).1 (s.axisOf g).2 m

/-- The group's axis in the cycle before: where a count edge moved it in this one, short of where it stands now. -/
def Dev.axisBefore (s : Dev) (g : GroupId) : Word64 :=
  let a := match s.group g.val with
    | some r => r.axis
    | none => 0
  let d : Dev := { s with now := s.now - 1, time := s.time - 1 }
  if a != 0 && (s.axisSt a).at_ == s.now then (if (s.axisOf g).2 then (s.axisOf g).1 + 1 else (s.axisOf g).1 - 1) else (d.axisOf g).1

/-- The axis had reached a mark in the cycle before: its wait, met now, is late (R278). -/
def Dev.passedMark (s : Dev) (g : GroupId) (m : Word64) : Bool := reachedAt (s.axisBefore g) (s.axisOf g).2 m

/-- The next mark in `TRAV_MARK`: of the first step with one in the prefetch window, otherwise the next of the leg's table. -/
def Dev.showMark (s : Dev) (g : GroupId) (p : PathPos) : Dev :=
  let m := match (s.eng g).window.steps.find? (fun h => h.wait == 1) with
    | some h => (s.holding h).markAt h.pos.desc.markPtr h.pos.markJ
    | none => s.markAt p.desc.markPtr p.markJ
  match m with
  | some m => s.wr64 (tB g + TRAV_MARK_LO) (tB g + TRAV_MARK_HI) m
  | none => s

/-! ## Halting and holding -/

def Dev.stateIrq (s : Dev) (g : GroupId) : Dev := if s.flag (tB g) TRAV_CTRL_STATE_IRQ_EN then s.groupEvent g.val else s

/-- An event of R240: `TRAV_FAULT` and the engine's source. -/
def Dev.travFault (s : Dev) (g : GroupId) (kind i : Nat) : Dev :=
  ((s.setFld (tB g) TRAV_FAULT_KIND kind).setFld (tB g) TRAV_FAULT_INDEX i).raise (0x120 + g.val) kind i g.val

/-- The engine halts before the step at index `i`: a jump that led there is done, another command's first step never
takes effect (R260; DEDUCED, notes/assumptions/15.md). -/
def Dev.halt (s : Dev) (g : GroupId) (kind i : Nat) : Dev :=
  let js := (s.eng g).waiters.filter (fun c => c.opcode == 0x07)
  let s1 := s.modEng g (fun e => { e with waiters := e.waiters.filter (fun c => c.opcode != 0x07) })
  (((s1.each js (fun d c => d.complete c OK)).dropStarts g).leavePath g 4 |>.travFault g kind i).stateIrq g

/-- Index of the step in force. -/
def Dev.stepNow (s : Dev) (g : GroupId) : Nat := s.fld (tB g) TRAV_STEP_INDEX

/-! ## Windows (R248, R255) -/

/-- One read of a window: `n` bytes from BAR2 offset `a`, held as zeros where an error is uncorrectable. -/
def Dev.readCell (q : Dev × List (Nat × List Byte)) (a n reader : Nat) : Dev × List (Nat × List Byte) :=
  (q.1.eccRead a n reader, q.2 ++ [(a, if q.1.uncorrectable a n then List.replicate n 0 else q.1.bytes a n)])

/-- The sets and profiles the words of the step at index `i` name (R146, R204, R224, R231). -/
def Dev.setReads (s : Dev) (r : GroupRec) (i : Nat) : List (Nat × Nat) :=
  (List.range r.size).flatMap (fun k =>
    let n := sid (r.first + k)
    let st := s.station (i + k)
    let own := if r.gang == 0 || k == 0 then
        ([0, 1, 2] : List Nat).map (fun c => (s.coefAddr n c st.coefSet, 32)) ++ [((s.rd (sB n + SLICE_LIM_BASE)).toNat + 96 * st.limitSet, 96)]
          ++ (if st.contour == 15 then [] else [((s.rd (gB n + GEN_CONTOUR_BASE)).toNat + 32 * st.contour, 32)])
      else []
    own ++ (if st.gen == 0 then [] else [((s.rd (gB n + GEN_PROF_BASE)).toNat + 64 * (st.gen - 1), 64)]))

/-- The step at `p` is read: its segment is entered, its words, the mark it needs, and the sets and profiles it names
are held. -/
def Dev.fetchStep (s : Dev) (r : GroupRec) (p : PathPos) : Dev × HeldStep :=
  let i := p.index r.size
  let q0 := Dev.readCell (s.enterSeg (sid r.first) (segOf i), []) (16 * i) (16 * r.size) rdTrav
  let w := (s.station i).wait
  let a := p.desc.markPtr
  let q1 := if w != 1 || a == 0 then q0
    else
      let m := a + 16 + 8 * (p.markJ % max 1 (s.num a 4))
      let q := Dev.readCell q0 a 16 rdTrav
      if inSystem m 8 then
        (if s.uncorrectable m 8 then (q.1.eccRead m 8 rdTrav, q0.2 ++ [(a, List.replicate 16 0)]) else Dev.readCell q m 8 rdTrav)
      else q
  let q2 := (s.setReads r i).foldl (fun q c => Dev.readCell q c.1 c.2 rdSet) q1
  (q2.1, ⟨p, i, w, q2.2⟩)

/-- The place after a held step: a WAIT 1 step consumes its mark (R247). -/
def HeldStep.after (h : HeldStep) : PathPos := if h.wait == 1 then { h.pos with markJ := h.pos.markJ + 1 } else h.pos

/-- A window may go on into the segment of index `i`: READY or ACTIVE, and not owned by another group (R249, R251). -/
def Dev.mayEnter (s : Dev) (g : GroupId) (i : Nat) : Bool :=
  let own := s.plates.segOwner.getD (segOf i) 0xFF
  ((s.seg (segOf i)).1 == 1 || (s.seg (segOf i)).1 == 2) && (own == 0xFF || own == g.val)

/-- Read on from a place, `f` steps at most. -/
def Dev.fillFrom (r : GroupRec) : Nat → Dev × Place → List HeldStep → Dev × Window
  | 0, q, l => (q.1, ⟨l.reverse, some q.2⟩)
  | f + 1, q, l =>
    match q.2 with
    | .step p =>
      if q.1.mayEnter (sid r.first) (p.index r.size) then
        let x := q.1.fetchStep r p
        Dev.fillFrom r f (x.1.follow (sid r.first) x.2.after) (x.2 :: l)
      else (q.1, ⟨l.reverse, some q.2⟩)
    | _ => (q.1, ⟨l.reverse, some q.2⟩)

/-- Where a window leads. -/
def Window.place (w : Window) : Option Place :=
  match w.steps with
  | h :: _ => some (.step h.pos)
  | [] => w.last

/-- The prefetch window of engine `g` takes the next step of its path, 256 words in all at most, with a step that waits to take
effect among them; it stops at a segment it may not enter, and where the path ends. -/
def Dev.prefetch (s : Dev) (r : GroupRec) : Dev :=
  let g := sid r.first
  let e := s.eng g
  if 256 < (e.window.steps.length + 1 + e.next.isSome.toNat) * r.size then s
  else
    let q := match e.window.last with
      | some q => (s, q)
      | none => match e.window.steps.getLast? with
        | some h => s.follow g h.after
        | none => match (e.next.or e.pos) with
          | some p => s.follow g p
          | none => (s, .idle)
    match q.2 with
    | .step p =>
      if q.1.mayEnter g (p.index r.size) then
        let x := q.1.fetchStep r p
        x.1.modEng g (fun e => { e with window := ⟨e.window.steps ++ [x.2], none⟩ })
      else q.1.modEng g (fun e => { e with window := { e.window with last := some q.2 } })
    | _ => q.1.modEng g (fun e => { e with window := { e.window with last := some q.2 } })

/-! ## A step takes effect -/

/-- The step at place `p`, as the engine holds it, takes effect at this tick, or, with `strobe`, at a LOAD_IN edge (R239, R241). -/
def Dev.takeStep (s : Dev) (r : GroupRec) (p : PathPos) (strobe : Bool) : Dev :=
  let g := sid r.first
  let b := tB g
  let i := p.index r.size
  let h := (s.eng g).held.getD ⟨p, i, 0, []⟩
  let s0 := s.applyStep r h
  let ws := (s0.eng g).waiters
  let t := if strobe then s0.time else (s0.eng g).tickTime
  let s1 := s0.modEng g (fun e =>
    { e with pos := some p, next := none, metAt := none, late := false, applied := false, waitTicks := 0, waiters := []
             held := none, between := strobe && e.tickAt != s0.now })
  let s2 := (((s1.setFld b TRAV_STATUS_STATE 1).setFld b TRAV_STATUS_SEGMENT (segOf i)).setFld b TRAV_LEG_LEG p.leg).setFld b
    TRAV_STEP_INDEX i
  let s3 := ((s2.wr (b + TRAV_PASS) (BitVec.ofNat 32 p.pass)).setFld b TRAV_DWELL_LEFT ((s.holding h).station i).dwell).showMark g p
  (s3.each ws (fun d c => d.completeAt c OK 0xFF t)).sweep

/-- The condition of the awaited step is met in this cycle (R242). -/
def Dev.meet (s : Dev) (g : GroupId) (late : Bool) : Dev :=
  let s1 := s.modEng g (fun e => { e with metAt := some s.now })
  let s2 := if late then s1.bumpSat (tB g + TRAV_LATE) else s1
  if (s2.eng g).due then (s2.modEng g (fun e => { e with due := false })).finishTick g else s2

/-- Every engine of engine `g`'s barrier waits on a WAIT 9 step (R244). -/
def Dev.barrierMet (s : Dev) (g : GroupId) : Bool :=
  Dev.allSlices.all (fun k => !(s.rd (tB g + TRAV_BARRIER)).getLsbD k.val
    || (s.travState k == 2 && s.fld (tB k) TRAV_STATUS_WAIT == 9))

/-- Engines that wait on WAIT 9 and whose barrier is met are released together. -/
def Dev.releaseBarrier (s : Dev) : Dev :=
  let go := Dev.allSlices.filter (fun k => s.travState k == 2 && s.fld (tB k) TRAV_STATUS_WAIT == 9 && (s.eng k).metAt.isNone
    && s.barrierMet k)
  s.each go (fun d k => d.meet k false)

/-- The wait of the step `h` begins: a WAIT 1 step consumes its mark, which was counted already where a hold outlasted it (R242,
R247, R278). -/
def Dev.beginWait (s : Dev) (g : GroupId) (h : HeldStep) : Dev :=
  let b := tB g
  let p := h.pos
  let w := h.wait
  let wait := fun (d : Dev) (q : PathPos) =>
    ((d.modEng g (fun e => { e with next := some q, waitTicks := 0, metAt := none, late := false, applied := false })).setFld b
      TRAV_STATUS_STATE 2).setFld b TRAV_STATUS_WAIT w
  if w == 1 then
    match (s.holding h).markAt p.desc.markPtr p.markJ with
    | none => s.halt g 8 h.ix
    | some m =>
      let counted := (s.eng g).heldLate != 0
      let q := { p with markJ := p.markJ + 1 }
      let s1 := ((wait s q).modEng g (fun e => { e with heldLate := e.heldLate - 1 })).showMark g q
      if s1.reachedMark g m then s1.meet g (!counted && s1.passedMark g m) else s1
  else if w == 6 then
    let s1 := wait s p
    if s1.flag b TRAV_STATUS_DOORBELL_PENDING then (s1.setFlag b TRAV_STATUS_DOORBELL_PENDING false).meet g false else s1
  else if w == 9 then (wait s p).releaseBarrier
  else wait s p

/-- The step at `p` as the prefetch window holds it, else read now. -/
def Dev.takeHeld (s : Dev) (r : GroupRec) (p : PathPos) : Dev × HeldStep :=
  let g := sid r.first
  match (s.eng g).window.steps with
  | h :: l =>
    if h.pos = p then (s.modEng g (fun e => { e with window := { e.window with steps := l }, held := some h }), h)
    else
      let x := s.fetchStep r p
      (x.1.modEng g (fun e => { e with window := .none, held := some x.2 }), x.2)
  | [] =>
    let x := s.fetchStep r p
    (x.1.modEng g (fun e => { e with window := .none, held := some x.2 }), x.2)

/-- The step at `p` begins at this tick (R241): its segment is entered, or the engine halts or holds. -/
def Dev.toStep (s : Dev) (r : GroupRec) (p : PathPos) : Dev :=
  let g := sid r.first
  let i := p.index r.size
  let k := segOf i
  let own := s.plates.segOwner.getD k 0xFF
  if own != 0xFF && own != g.val then s.halt g 6 i
  else if (s.seg k).1 != 1 && (s.seg k).1 != 2 then
    let s1 := (s.modEng g (fun e => { e with next := some p, metAt := none, held := none, window := .none })).setFld
      (tB g) TRAV_STATUS_STATE 3
    ((((s1.setFld (tB g) TRAV_DWELL_LEFT 0).bumpSat (tB g + TRAV_UNDERRUN)).sweep).travFault g 3 i).stateIrq g
  else
    let x := s.takeHeld r p
    let s1 := x.1
    let v := s1.holding x.2
    if !(List.range r.size).all (fun j => v.stationOk (i + j)) then s1.halt g 1 i
    else if x.2.wait == 0 then
      if !v.stepFieldsOk r i then s1.halt g 2 i
      else
        let s2 := s1.setFld (tB g) TRAV_STATUS_WAIT 0
        if r.strobed && r.strobe then
          (s2.setFld (tB g) TRAV_STATUS_STATE 1).modEng g (fun e => { e with next := some p, applied := true })
        else s2.takeStep r p false
    else (s1.setFld (tB g) TRAV_DWELL_LEFT 0).beginWait g x.2

/-- Go to a place: a step, IDLE or a halt. -/
def Dev.goPlace (s : Dev) (r : GroupRec) (q : Place) : Dev :=
  let g := sid r.first
  match q with
  | .step p => s.toStep r p
  | .idle => (s.dropStarts g).leavePath g 0
  | .bad k => s.halt g k (s.stepNow g)

/-- A leg with EXIT_IRQ is left. -/
def Dev.legExit (s : Dev) (g : GroupId) (b : Bool) : Dev :=
  if b then (s.setFlag (tB g) TRAV_STATUS_LEG_EXIT true).groupEvent g.val else s

/-- The natural continuation of the path: as the prefetch window holds it, or, where it was not filled, as read now. -/
def Dev.goOn (s : Dev) (r : GroupRec) (p : PathPos) : Dev :=
  let g := sid r.first
  let s1 := s.legExit g p.exits
  match (s.eng g).window.place with
  | some q => s1.goPlace r q
  | none => let x := s1.follow g p; x.1.goPlace r x.2

/-! ## Jumps (R255, R256) -/

/-- Leg `k` and the first 256 words of its path, up to a segment it may not enter. -/
def Dev.jumpWindow (s : Dev) (r : GroupRec) (leg : Nat) : Dev × Window :=
  Dev.fillFrom r (256 / r.size) (s.enterRead (sid r.first) leg) []

/-- A jump window on leg `k` is filled: its segments are in use. -/
def Dev.fillWindow (s : Dev) (r : GroupRec) (leg : Nat) (cmd : Bool) : Dev :=
  let x := s.jumpWindow r leg
  (x.1.modEng (sid r.first) (fun e => if cmd then { e with command := some x.2 } else { e with armed := some x.2 })).sweep

/-- The first step of leg `k` lies in a segment that is not READY: its window counts as filled at once. -/
def Dev.nothingToFill (s : Dev) (g : GroupId) (leg : Nat) : Bool :=
  match s.enter g leg with
  | .step p => let k := (s.seg (segOf (p.index (s.size g)))).1; k != 1 && k != 2
  | _ => true

/-- A request arrives in the latch and replaces what is there, unless that arrived in the same cycle and goes first: a LEG_JUMP
before a trigger, a trigger before a comparator. A LEG_JUMP replaced completes BUSY. -/
def Dev.arrive (s : Dev) (g : GroupId) (j : JumpReq) : Dev :=
  let first := match (s.eng g).latch with
    | some o => decide (j.at_ < o.at_) || (o.at_ == j.at_ && decide (j.rank < o.rank))
    | none => false
  let old := match (s.eng g).latch with
    | some ⟨some c, _, _, _⟩ => [c]
    | _ => []
  if first then s.each j.ctx.toList (fun d c => d.complete c BUSY)
  else ((s.modEng g (fun e => { e with latch := some j })).setFlag (tB g) TRAV_STATUS_JUMP_PENDING true).each old (fun d c => d.complete c BUSY)

/-- An armed request of a rank, trigger or comparator, that arrives at cycle `c`. -/
def Dev.armedRequest (s : Dev) (r : GroupRec) (rank c : Nat) : Dev :=
  let g := sid r.first
  let leg := s.fld (tB g) TRAV_JUMP_CFG_TARGET
  if (s.eng g).armed.isSome then s.arrive g ⟨none, leg, c, rank⟩
  else if s.nothingToFill g leg then (s.fillWindow r leg false).arrive g ⟨none, leg, c, rank⟩
  else s.modEng g (fun e => { e with armWait := some rank })

/-- The request in the latch is taken at this tick: the jump window replaces the prefetch window (R256). -/
def Dev.takeJump (s : Dev) (r : GroupRec) (j : JumpReq) : Dev :=
  let g := sid r.first
  let e := s.eng g
  let q := match (if j.ctx.isSome then e.command else e.armed) with
    | some w => (s, w)
    | none => s.jumpWindow r j.leg
  let s1 := (q.1.dropStarts g).modEng g (fun e =>
    { e with latch := none, waiters := j.ctx.toList, metAt := none, applied := false, held := none, resume := none, heldLate := 0, window := q.2
             armed := if j.ctx.isSome then e.armed else none, command := if j.ctx.isSome then none else e.command })
  let s2 := s1.setFlag (tB g) TRAV_STATUS_JUMP_PENDING false
  match q.2.place with
  | some (.step p) => (s2.goPlace r (.step p)).sweep
  | some (.bad k) => (s2.goPlace r (.bad k)).sweep
  | _ => ((s2.each j.ctx.toList (fun d c => d.complete c OK)).modEng g (fun e => { e with waiters := [] })).leavePath g 0

/-- A request sampled at the latest tick: it was in the latch in the cycle before the edge (R256). -/
def Engine.sampled (e : Engine) : Option JumpReq :=
  match e.latch with
  | some j => if j.at_ < e.tickAt then some j else none
  | none => none

/-- The latch as sampled at a tick edge outside DWELL: an engine that waits or holds jumps, one at rest discards the
request. -/
def Dev.sampleJump (s : Dev) (r : GroupRec) : Dev :=
  let g := sid r.first
  match (s.eng g).sampled with
  | none => s
  | some j =>
    let st := s.travState g
    if st == 2 || st == 3 then s.takeJump r j
    else if st == 1 then s
    else
      ((s.modEng g (fun e => { e with latch := none })).setFlag (tB g) TRAV_STATUS_JUMP_PENDING false).each j.ctx.toList
        (fun d c => d.complete c PRECONDITION)

/-! ## Events -/

/-- An event of an engine whose group exists and whose clocks run. -/
def Dev.onEngine (s : Dev) (g : GroupId) (f : Dev → GroupRec → Dev) : Dev :=
  match s.group g.val with
  | some r => if s.domains then f s r else s
  | none => s

/-- The boundary of a station's dwell: a stop goes before a jump, a jump before the next step; then the group's codes move. -/
def Dev.dwellBoundary (s : Dev) (r : GroupRec) : Dev :=
  let g := sid r.first
  let e := s.eng g
  if s.travState g != 1 || !e.due || e.applied then s
  else
    let s0 := s.modEng g (fun e => { e with due := false })
    let s1 := if !e.stops.isEmpty then s0.leavePath g 0
      else match e.sampled, e.pos with
        | some j, _ => s0.takeJump r j
        | none, some p => s0.goOn r p
        | none, none => s0.leavePath g 0
    s1.finishTick g

/-- DWELL_BOUNDARY (R241). -/
def execDwellBoundary (g : GroupId) (s : State) : Host.Outcome State Fault Refusal :=
  s.onAwake (fun d => d.onEngine g (fun s r => s.dwellBoundary r))

/-- The WAIT 1 step with `k` others before it on the path from `p` on, as the store stands: the steps a hold keeps from being applied
(R253; DEDUCED, notes/assumptions/14.md). `f` bounds the steps. -/
def Dev.markStep (s : Dev) (g : GroupId) (n : Nat) : Nat → Nat → PathPos → Option PathPos
  | 0, _, _ => none
  | f + 1, k, p =>
    let on := (s.station (p.index n)).wait == 1
    if on && k == 0 then some p
    else
      let q := if on then { p with markJ := p.markJ + 1 } else p
      match (match q.next with
          | some x => Place.step x
          | none => s.enter g q.desc.succ) with
      | .step x => Dev.markStep s g n f (if on then k - 1 else k) x
      | _ => none

/-- The mark a wait is for, or the next one the axis reaches in a hold. -/
def Dev.wantedMark (s : Dev) (g : GroupId) : Option Word64 :=
  let e := s.eng g
  match e.next with
  | some p =>
    if s.travState g == 2 && s.fld (tB g) TRAV_STATUS_WAIT == 1 then
      (match e.held with
        | some h => (s.holding h).markAt p.desc.markPtr (p.markJ - 1)
        | none => s.markAt p.desc.markPtr (p.markJ - 1))
    else if s.travState g == 3 then
      (match s.markStep g (s.size g) 1048576 e.heldLate p with
        | some q => s.markAt q.desc.markPtr q.markJ
        | none => none)
    else none
  | none => none

/-- MARK_REACHED (R242, R253): on TIME the event is the cycle in which TIME reaches the mark; on an external axis the axis
must have reached it. A mark passed before is met now and counts late if something made it late (R278). -/
def execMarkReached (g : GroupId) (s : State) : Host.Outcome State Fault Refusal :=
  s.onAwake (fun d => d.onEngine g (fun s r =>
    match s.wantedMark g with
    | none => s
    | some m =>
      let s1 := if r.axis == 0 && !s.reachedMark g m then s.upTo (s.now + (m - s.time).toNat) else s
      if !s1.reachedMark g m then s1
      else if s1.travState g == 3 then (s1.bumpSat (tB g + TRAV_LATE)).modEng g (fun e => { e with heldLate := e.heldLate + 1 })
      else if (s1.eng g).metAt.isSome then s1
      else s1.meet g (s1.eng g).late))

/-- WAIT code an event answers, with what it needs. -/
def WaitEvent.code : WaitEvent → Nat
  | .trigger k => 2 + k.val
  | .doorbell => 6
  | .link => 7
  | .win => 8
  | .barrier => 9

/-- The engine waits on code `w` and its condition is not yet met. -/
def Dev.awaiting (s : Dev) (g : GroupId) (w : Nat) : Bool :=
  s.travState g == 2 && s.fld (tB g) TRAV_STATUS_WAIT == w && (s.eng g).metAt.isNone

/-- A wait condition with a wire or a message of its own is met, if the engine waits for it. -/
def Dev.waitEvent (s : Dev) (g : GroupId) (w : Nat) : Dev := if s.awaiting g w then s.meet g false else s

/-- TRIG_INk is enabled by the PINS plate. -/
def Dev.trigOn (s : Dev) (k : Nat) : Bool := bitOf (s.plates.trig.getD k 0) 0

/-- WAIT_CONDITION_MET: an event met the waiting step's condition (R242, R244). -/
def execWaitConditionMet (g : GroupId) (e : WaitEvent) (s : State) : Host.Outcome State Fault Refusal :=
  s.onAwake (fun d => d.onEngine g (fun s _ =>
    match e with
    | .trigger k => if s.trigOn k.val then s.waitEvent g (2 + k.val) else s
    | .doorbell =>
      if s.awaiting g 6 && s.flag (tB g) TRAV_STATUS_DOORBELL_PENDING then
        (s.setFlag (tB g) TRAV_STATUS_DOORBELL_PENDING false).meet g false
      else s
    | .link => s.waitEvent g 7
    | .win =>
      if (s.sl (Fin.ofNat 32 (g.val + s.fld (tB g) TRAV_WAIT_CFG_WIN_SLICE))).winOffer == some s.now then s.waitEvent g 8 else s
    | .barrier => if s.awaiting g 9 then s.releaseBarrier else s))

/-- Cycles from a condition to the apply cycle. -/
def waitLatency (w : Nat) : Nat := if 2 ≤ w && w ≤ 5 then 6 else 4

/-- STEP_APPLY: the fields of the step whose condition was met stand in the engine and take effect at the next tick or
strobe; a step that R29 refuses halts the engine (R240, R242). -/
def execStepApply (g : GroupId) (s : State) : Host.Outcome State Fault Refusal :=
  s.onAwake (fun d => d.onEngine g (fun s r =>
    let e := s.eng g
    match e.metAt, e.next with
    | some c, some p =>
      if s.travState g != 2 || e.applied then s
      else
        let s1 := s.upTo (c + waitLatency (s.fld (tB g) TRAV_STATUS_WAIT))
        if (s1.holding (e.held.getD ⟨p, 0, 0, []⟩)).stepFieldsOk r (p.index r.size) then s1.modEng g (fun e => { e with applied := true })
        else s1.halt g 2 (p.index r.size)
    | _, _ => s))

/-- TIMEOUT ticks after the wait began without its condition. -/
def Dev.waitTimeout (s : Dev) (r : GroupRec) : Dev :=
  let g := sid r.first
  let e := s.eng g
  match e.next with
  | some p =>
    if s.travState g != 2 || !e.due || e.metAt.isSome then s
    else
      let w := s.fld (tB g) TRAV_STATUS_WAIT
      let s1 := (s.modEng g (fun e => { e with due := false })).travFault g 4 (p.index r.size)
      let act := getBits p.desc.flags 1 2
      let s2 := if s1.travState g != 2 then s1
        else if act == 0 then
          let s3 := s1.modEng g (fun e => { e with metAt := some (s1.now + 4 - waitLatency w) })
          if w == 1 then s3.bumpSat (tB g + TRAV_LATE) else s3
        else if act == 1 then (s1.dropStarts g).leavePath g 0
        else
          let x := ((s1.modEng g (fun e => { e with window := .none, held := none })).legExit g (bitOf p.desc.flags 3)).enterRead g p.desc.succ
          (x.1.goPlace r x.2).sweep
      s2.finishTick g
  | none => s

/-- WAIT_TIMEOUT (R243). -/
def execWaitTimeout (g : GroupId) (s : State) : Host.Outcome State Fault Refusal :=
  s.onAwake (fun d => d.onEngine g (fun s r => s.waitTimeout r))

/-- DOORBELL: sticky until a WAIT 6 consumes it, at once where one waits (R242). -/
def Dev.doorbell (s : Dev) (g : GroupId) : Dev :=
  match s.group g.val with
  | none => s
  | some _ => if s.awaiting g 6 then s.meet g false else s.setFlag (tB g) TRAV_STATUS_DOORBELL_PENDING true

def execDoorbell (g : GroupId) (s : State) : Host.Outcome State Fault Refusal := s.onAwake (fun d => d.doorbell g)

/-- PREFETCH_READ (R248): the window of an engine on its path, or of one that is to start, takes its next step. -/
def execPrefetchRead (g : GroupId) (s : State) : Host.Outcome State Fault Refusal :=
  s.onAwake (fun d => d.onEngine g (fun s r =>
    let st := s.travState g
    if st == 1 || st == 2 || (s.eng g).start.isSome then s.prefetch r else s))

/-! ## Segments (R249, R252) -/

/-- SEGMENT_READY with its OP. -/
def Dev.segmentCmd (s : Dev) (c : Ctx) (seg op : Nat) : Dev :=
  let own := s.plates.segOwner.getD seg 0xFF
  if 63 < seg then s.completeAt c BAD_PARAM 0 s.time
  else if 2 < op then s.completeAt c BAD_PARAM 1 s.time
  else if own != 0xFF && own != c.hdr.group.toNat % 32 then s.completeAt c BAD_PARAM 0 s.time
  else if (s.seg seg).1 == 2 then s.complete c BUSY
  else if op == 2 then (s.setSeg seg (0, false)).complete c OK
  else (s.setSeg seg (1, op == 1)).complete c OK

def execSegmentReady (h : Hdr) (segment : Byte) (s : State) : Host.Outcome State Fault Refusal :=
  s.onAwake (fun d => d.ringCmd h 0x10 (.segmentReady 0 segment) (fun s c _ => s.segmentCmd c segment.toNat 0))

def execSegmentReadyKeep (h : Hdr) (segment : Byte) (s : State) : Host.Outcome State Fault Refusal :=
  s.onAwake (fun d => d.ringCmd h 0x10 (.segmentReady 1 segment) (fun s c _ => s.segmentCmd c segment.toNat 1))

def execSegmentFree (h : Hdr) (segment : Byte) (s : State) : Host.Outcome State Fault Refusal :=
  s.onAwake (fun d => d.ringCmd h 0x10 (.segmentReady 2 segment) (fun s c _ => s.segmentCmd c segment.toNat 2))

/-- Where a held path resumes under SKIP (R254): steps with a reached mark, and WAIT 0 steps after one, are skipped. The
answer is the place with what the window then holds, and whether the engine stays in HOLD there. -/
def Dev.skipOn (g : GroupId) (r : GroupRec) : Nat → Dev → PathPos → Bool → Dev × Window × Bool
  | 0, s, p, _ => (s, ⟨[], some (.step p)⟩, true)
  | f + 1, s, p, skipping =>
    let i := p.index r.size
    let own := s.plates.segOwner.getD (segOf i) 0xFF
    if own != 0xFF && own != g.val then (s, ⟨[], some (.step p)⟩, false)
    else if !s.mayEnter g i then (s, ⟨[], some (.step p)⟩, true)
    else
      let x := s.fetchStep r p
      let w := x.2.wait
      let reached := match (x.1.holding x.2).markAt p.desc.markPtr p.markJ with
        | some m => x.1.reachedMark g m
        | none => false
      if (w == 1 && reached) || (w == 0 && skipping) then
        let s1 := (x.1.bumpSat (tB g + TRAV_SKIPPED)).modEng g (fun e => { e with heldLate := if w == 1 then e.heldLate - 1 else e.heldLate })
        let q := (s1.legExit g x.2.after.exits).follow g x.2.after
        match q.2 with
        | .step n => Dev.skipOn g r f q.1 n true
        | y => (q.1, ⟨[], some y⟩, false)
      else (x.1, ⟨[x.2], none⟩, false)

/-- UNDERRUN_RESUME: the held step's segment is READY, and the engine reads it and decides where to resume; it does so at the first
tick after this (R254). -/
def execUnderrunResume (g : GroupId) (s : State) : Host.Outcome State Fault Refusal :=
  s.onAwake (fun d => d.onEngine g (fun s r =>
    match (s.eng g).next with
    | some p =>
      if s.travState g != 3 || (s.eng g).resume.isSome || !s.mayEnter g (p.index r.size) then s
      else
        let q := if bitOf p.desc.flags 0 then (let x := s.fetchStep r p; (x.1, (⟨[x.2], none⟩ : Window), false)) else Dev.skipOn g r 1048576 s p false
        let at_ := match q.2.1.place with
          | some (.step n) => n
          | _ => p
        (q.1.modEng g (fun e =>
          { e with next := some at_, window := if q.2.2 then .none else q.2.1, resume := if q.2.2 then none else q.2.1.place })).sweep
    | none => s))

/-! ## Jumps -/

/-- JUMP_REQUEST: a trigger or comparator jump, if `TRAV_JUMP_CFG` enables it. An edge at the ball arrives 2 cycles on; a comparator
jump is that of a WIN event SLICE_WIN_CFG.EDGE let through, which stands from its cycle 7 on (R160, R161, R255). -/
def execJumpRequest (g : GroupId) (src : JumpSource) (s : State) : Host.Outcome State Fault Refusal :=
  s.onAwake (fun d => d.onEngine g (fun s r =>
    let b := tB g
    match src with
    | .trigger k =>
      if s.flag b TRAV_JUMP_CFG_TRIG_EN && s.fld b TRAV_JUMP_CFG_TRIG_SEL == k.val && s.trigOn k.val then
        s.armedRequest r 1 (s.now + 2)
      else s
    | .comparator n =>
      if s.flag b TRAV_JUMP_CFG_CMP_EN && r.first + s.fld b TRAV_JUMP_CFG_CMP_SLICE == n.val && (s.sl n).winOffer.isSome then
        (s.modSl n (fun x => { x with winOffer := none })).armedRequest r 0 s.now
      else s))

/-- JUMP_WINDOW_FILLED: the command window, and with it a LEG_JUMP arrives, or the armed one (R255). -/
def execJumpWindowFilled (g : GroupId) (command : Bool) (s : State) : Host.Outcome State Fault Refusal :=
  s.onAwake (fun d => d.onEngine g (fun s r =>
    if command then
      match (s.eng g).filling with
      | some j => ((s.fillWindow r j.leg true).modEng g (fun e => { e with filling := none })).arrive g { j with at_ := s.now }
      | none => s
    else if (s.eng g).armed.isSome then s
    else
      let leg := s.fld (tB g) TRAV_JUMP_CFG_TARGET
      let s1 := s.fillWindow r leg false
      match (s1.eng g).armWait with
      | some k => (s1.modEng g (fun e => { e with armWait := none })).arrive g ⟨none, leg, s.now, k⟩
      | none => s1))

/-- JUMP_CFG_WRITE: a slice outside the group or a trigger the PINS plate does not enable is refused; otherwise an armed
request is discarded and the armed window refills (R260, R262). -/
def Dev.jumpCfgWrite (s : Dev) (g : GroupId) (v : Word) : Dev :=
  match s.group g.val with
  | none => s
  | some r =>
    let x := v.toNat
    if decide (r.size ≤ getBits x 4 5) || !s.trigOn (getBits x 1 2) then s
    else
      let armed := match (s.eng g).latch with
        | some j => j.ctx.isNone
        | none => false
      let s1 := (s.store (tB g + TRAV_JUMP_CFG) v).modEng g (fun e =>
        { e with armed := none, armWait := none, latch := if armed then none else e.latch })
      (if armed then s1.setFlag (tB g) TRAV_STATUS_JUMP_PENDING false else s1).sweep

def execJumpCfgWrite (g : GroupId) (v : Word) (s : State) : Host.Outcome State Fault Refusal :=
  s.onAwake (fun d => d.jumpCfgWrite g v)

/-- Status a leg command answers at once for its target: 0 where the descriptor can be used. -/
def Dev.legStatus (s : Dev) (g : GroupId) (leg n : Nat) : Nat :=
  if 4095 < leg then BAD_PARAM
  else if !(s.leg g leg).fieldsOk n || !s.legRsvOk g leg then BAD_PARAM
  else if !s.legCrcOk g leg then INTEGRITY
  else OK

/-- LEG_JUMP (R257). -/
def Dev.legJump (s : Dev) (c : Ctx) (r : GroupRec) (leg : Nat) : Dev :=
  let g := sid r.first
  let st := s.legStatus g leg r.size
  if st != OK then s.completeAt c st (if st == BAD_PARAM || st == INTEGRITY then 0 else 0xFF) s.time
  else
    let old := match (s.eng g).filling with
      | some ⟨some k, _, _, _⟩ => [k]
      | _ => []
    let j : JumpReq := ⟨some c, leg, s.now, 2⟩
    let s1 := (s.modEng g (fun e => { e with filling := some j, command := none })).each old (fun d k => d.complete k BUSY)
    if s1.nothingToFill g leg then ((s1.fillWindow r leg true).modEng g (fun e => { e with filling := none })).arrive g j else s1.sweep

def execLegJump (h : Hdr) (leg : BitVec 16) (s : State) : Host.Outcome State Fault Refusal :=
  s.onAwake (fun d => d.ringCmd h 0x07 (.legJump leg) (fun s c r => s.legJump c r leg.toNat))

/-! ## Start and stop (R258, R259) -/

/-- LEG_START. -/
def Dev.legStart (s : Dev) (c : Ctx) (r : GroupRec) (p : StartP) : Dev :=
  let g := sid r.first
  let st := s.legStatus g p.leg.toNat r.size
  if (s.travState g != 0 && s.travState g != 4) || (s.eng g).start.isSome then s.complete c BUSY
  else if st != OK then s.completeAt c st (if st == BAD_PARAM || st == INTEGRITY then 0 else 0xFF) s.time
  else if s.fld 0 DATUM_STATUS_BANK == 3 || !s.pins.interlockN || s.powerFailing then s.complete c PARKED
  else
    let x := s.enterRead g p.leg.toNat
    match x.2 with
    | .idle => (x.1.setFld (tB g) TRAV_STATUS_STATE 0).complete c OK
    | q => (x.1.modEng g (fun e => { e with start := some (c, p.leg.toNat, p.at_, s.now + 200), window := ⟨[], some q⟩ })).prefetch r

def execLegStart (h : Hdr) (p : StartP) (s : State) : Host.Outcome State Fault Refusal :=
  s.onAwake (fun d => d.ringCmd h 0x06 (.legStart p) (fun s c r => s.legStart c r p))

/-- A start is due at a tick at cycle `c` and TIME `t`. -/
def Engine.startDue (e : Engine) (c : Nat) (t : Word64) : Bool :=
  match e.start with
  | some (_, _, at_, after) => decide (after ≤ c) && decide (at_.toNat ≤ t.toNat)
  | none => false

/-- The first step of a start that is due begins: as the window holds it, or, where it was emptied since, as read now. -/
def Dev.firstStep (s : Dev) (r : GroupRec) : Dev :=
  let g := sid r.first
  let e := s.eng g
  match e.start with
  | some (c, leg, _, _) =>
    if !e.due || !e.startDue e.tickAt e.tickTime then s
    else
      let s1 := s.modEng g (fun e => { e with start := none, due := false, waiters := [c] })
      (match e.window.place with
        | some q => s1.goPlace r q
        | none => let x := s1.enterRead g leg; x.1.goPlace r x.2).finishTick g
  | none => s

/-- LEG_START_FIRST_STEP: the first step begins at the first tick at or after AT and 200 cycles (R258). -/
def execLegStartFirstStep (g : GroupId) (s : State) : Host.Outcome State Fault Refusal :=
  s.onAwake (fun d => d.onEngine g (fun s r => s.firstStep r))

/-- What is due on engine `g` at the latest tick happens. -/
def Dev.duties (s : Dev) (r : GroupRec) : Dev :=
  if !(s.eng (sid r.first)).due then s
  else match s.travState (sid r.first) with
    | 1 => s.dwellBoundary r
    | 2 => s.waitTimeout r
    | _ => s.firstStep r

/-- LEG_STOP. -/
def Dev.legStop (s : Dev) (c : Ctx) (r : GroupRec) (mode : Nat) : Dev :=
  let g := sid r.first
  if 1 < mode then s.completeAt c BAD_PARAM 0 s.time
  else if mode == 1 && s.travState g == 1 then s.modEng g (fun e => { e with stops := e.stops ++ [c] })
  else (s.stopEngine g).complete c OK

def execLegStopNow (h : Hdr) (s : State) : Host.Outcome State Fault Refusal :=
  s.onAwake (fun d => d.ringCmd h 0x08 (.legStop 0) (fun s c r => s.legStop c r 0))

def execLegStopAtBoundary (h : Hdr) (s : State) : Host.Outcome State Fault Refusal :=
  s.onAwake (fun d => d.ringCmd h 0x08 (.legStop 1) (fun s c r => s.legStop c r 1))

end Sys2Proof.Machine
end

