-- ==== Sys2Proof/Machine/Generators.lean ====
section
/-! DEFINITION. Commands and registers of the generators (R226, R231 to R236), and SET (R375). -/

namespace Sys2Proof.Machine

/-- CONTOUR_SET (R226). -/
def Dev.contourSet (s : Dev) (c : Ctx) (r : GroupRec) (p : ContourP) : Dev :=
  if 14 < p.set.toNat then s.completeAt c BAD_PARAM 0 s.time
  else if !r.maskOk p.mask then s.completeAt c BAD_PARAM 4 s.time
  else if p.vel == 0 then s.completeAt c BAD_PARAM 8 s.time
  else if p.acc == 0 then s.completeAt c BAD_PARAM 12 s.time
  else if p.jerk == 0 then s.completeAt c BAD_PARAM 16 s.time
  else if p.imageC != ~~~(p.jerk ++ p.acc ++ p.vel) then s.completeAt c INTEGRITY 0x14 s.time
  else
    let pair := fun (w : Word) => leBytes 4 w.toNat ++ leBytes 4 (~~~w).toNat
    let img := pair p.vel ++ pair p.acc ++ pair p.jerk ++ leBytes 8 0
    (s.each (r.masked p.mask) (fun d n => d.put ((d.rd (gB n + GEN_CONTOUR_BASE)).toNat + 32 * p.set.toNat) img)).complete c OK

def execContourSet (h : Hdr) (p : ContourP) (s : State) : Host.Outcome State Fault Refusal :=
  s.onAwake (fun d => d.ringCmd h 0x0B (.contourSet p) (fun s c r => s.contourSet c r p))

/-- GEN_SET (R232): it waits for its tick. -/
def Dev.genSet (s : Dev) (c : Ctx) (r : GroupRec) (p : GenP) : Dev :=
  if 15 < p.profile.toNat then s.completeAt c BAD_PARAM 0 s.time
  else if 1 < p.flags.toNat then s.completeAt c BAD_PARAM 1 s.time
  else if !r.maskOk p.mask then s.completeAt c BAD_PARAM 4 s.time
  else
    let ns := r.masked p.mask
    if ns.any (fun n => s.flag (gB n) GEN_STATUS_PENDING) then s.complete c BUSY
    else (s.each ns (fun d n => d.setFlag (gB n) GEN_STATUS_PENDING true)).schedule c (.genSet p) r.first (r.devMask p.mask)
      (s.now + 200) p.at_

def execGenSet (h : Hdr) (p : GenP) (s : State) : Host.Outcome State Fault Refusal :=
  s.onAwake (fun d => d.ringCmd h 0x0A (.genSet p) (fun s c r => s.genSet c r p))

/-- A due GEN_SET loads its profile on its slices and completes with the first status that is not OK. -/
def Dev.genEffect (s : Dev) (x : Sched) (p : GenP) (t : Word64) : Dev :=
  let go := fun (q : Dev × Nat) (n : SliceId) =>
    let l := (q.1.setFlag (gB n) GEN_STATUS_PENDING false).loadProfile n p.profile.toNat
    let d := if l.2 == OK && p.flags == 1 then l.1.modGen n (fun g => { g with lfsr := l.1.rd (gB n + GEN_NOISE_SEED) }) else l.1
    (d, if q.2 == OK then l.2 else q.2)
  let q := (sliceList x.mask).foldl go (s, OK)
  q.1.completeAt x.ctx q.2 (if q.2 == OK then 0xFF else 0) t

/-- GEN_SET_EFFECT: the commands of group `g` that are due at its latest tick or strobe (R232), after a station that takes effect at
the same tick (R233). -/
def execGenSetEffect (g : GroupId) (s : State) : Host.Outcome State Fault Refusal :=
  s.onAwake (fun d => d.onEngine g (fun s0 r =>
    let s := s0.duties r
    let t := s.effectAt r
    let sel := fun (x : Sched) => isGenSet x.cmd && x.group == g.val && x.due t.1 t.2
    let xs := s.sched.filter sel
    let s1 : Dev := { s with sched := s.sched.filter (fun x => !sel x) }
    (s1.each xs (fun d x => match x.cmd with
      | .genSet p => d.genEffect x p t.2
      | _ => d)).finishTick g))

/-! ## Generator registers (R234, R236) -/

def Dev.genRefuse (s : Dev) (n : SliceId) (contour : Bool) : Dev :=
  if contour then s.setFlag (gB n) GEN_CONTOUR_STATUS_REFUSED true else s.setFlag (gB n) GEN_STATUS_REFUSED true

/-- A user table of `len` entries at `base` lies in the table store above the sine table. -/
def tableFits (base len : Nat) : Bool := base % 4 == 0 && decide (0x2004000 ≤ base) && decide (base + 4 * max len 1 ≤ 0x2400000)

/-- GEN_REGISTER_WRITE at offset `o` of generator `n`'s block. -/
def Dev.genWrite (s : Dev) (n : SliceId) (o : Nat) (v : Word) : Dev :=
  let b := gB n
  let x := v.toNat
  if o == GEN_CONTOUR_BASE then (if x % 32 == 0 && inSystem x 480 then s.store (b + o) v else s.genRefuse n true)
  else if o == GEN_PROF_BASE then
    (if x % 64 == 0 && inSystem x 960 && !s.flag b GEN_STATUS_PENDING then s.store (b + o) v else s.genRefuse n false)
  else if o == GEN_TABLE_BASE then
    (if tableFits x (s.fld b GEN_TABLE_LEN_LEN) && s.fld b GEN_MODE_SHAPE != 4 then s.store (b + o) v else s.genRefuse n false)
  else if o == GEN_TABLE_LEN then
    let len := getBits x 0 17
    (if len != 1 && decide (len ≤ 65536) && tableFits (s.rd (b + GEN_TABLE_BASE)).toNat len && s.fld b GEN_MODE_SHAPE != 4 then
      s.store (b + o) v else s.genRefuse n false)
  else if o == GEN_NOISE_SEED then (if v == 0 then s.genRefuse n false else s.store (b + o) v)
  else s.store (b + o) v

def execGenRegisterWrite (n : SliceId) (offset : Nat) (v : Word) (s : State) : Host.Outcome State Fault Refusal :=
  s.onAwake (fun d => d.genWrite n offset v)

/-! ## SET -/

def isSet : RingCmd → Bool
  | .set _ => true
  | _ => false

/-- The value of a SET is within R29 on slice `n`. -/
def Dev.setValueOk (s : Dev) (n : SliceId) (p : SetP) : Bool :=
  let m := if p.mode == 3 then s.mode n else p.mode.toNat
  s.valueOk n m (s.fld (sB n) SLICE_RANGE_STATUS_TARGET) ((s.sl n).vWait.getD (s.vPins n)) p.value

/-- The limit set of a SET is within R29 on slice `n`. -/
def Dev.setLimitsOk (s : Dev) (n : SliceId) (p : SetP) : Bool :=
  let l := s.limAt ((s.rd (sB n + SLICE_LIM_BASE)).toNat + 96 * p.limitSet.toNat)
  p.limitSet == 0xFF || decide (15 < p.limitSet.toNat) || !l.ok || l.within (s.hard n)

/-- SET (R375): it waits for its tick. -/
def Dev.setCmd (s : Dev) (c : Ctx) (r : GroupRec) (p : SetP) : Dev :=
  if p.valueC != ~~~p.value then s.completeAt c INTEGRITY 8 s.time
  else if !(r.masked p.mask).all (fun n => s.setValueOk n p) then s.completeAt c LIMIT 4 s.time
  else if !(r.masked p.mask).all (fun n => s.setLimitsOk n p) then s.completeAt c LIMIT 0x0D s.time
  else if !r.maskOk p.mask then s.completeAt c BAD_PARAM 0 s.time
  else if 3 < p.mode.toNat then s.completeAt c BAD_PARAM 0x0C s.time
  else if p.limitSet != 0xFF && decide (15 < p.limitSet.toNat) then s.completeAt c BAD_PARAM 0x0D s.time
  else if 15 < p.contour.toNat then s.completeAt c BAD_PARAM 0x0E s.time
  else s.schedule c (.set p) r.first (r.devMask p.mask) (s.now + 200) p.at_

def execSet (h : Hdr) (p : SetP) (s : State) : Host.Outcome State Fault Refusal :=
  s.onAwake (fun d => d.ringCmd h 0x01 (.set p) (fun s c r => s.setCmd c r p))

/-- The values of a SET take effect on slice `n` as a station's would. -/
def Dev.setSlice (s : Dev) (n : SliceId) (p : SetP) : Dev :=
  let s1 := if s.direct n then
      (if p.mode == 3 then s else (s.setFld (sB n) SLICE_FORCE_STATUS_MODE p.mode.toNat).loadThrs n)
    else s.useMode n p.mode.toNat
  let s2 := s1.useSp n p.value
  let s3 := if p.limitSet == 0xFF then s2 else s2.useLimits n p.limitSet.toNat
  s3.useContour n p.value.toInt p.contour.toNat

/-- SET_EFFECT: the commands of group `g` that are due at its latest tick or strobe. -/
def execSetEffect (g : GroupId) (s : State) : Host.Outcome State Fault Refusal :=
  s.onAwake (fun d => d.onEngine g (fun s r =>
    let t := s.effectAt r
    let sel := fun (x : Sched) => isSet x.cmd && x.group == g.val && x.due t.1 t.2
    let xs := s.sched.filter sel
    let s1 : Dev := { s with sched := s.sched.filter (fun x => !sel x) }
    s1.each xs (fun d x => match x.cmd with
      | .set p => (d.each (sliceList x.mask) (fun e n => e.setSlice n p)).completeAt x.ctx OK 0xFF t.2
      | _ => d)))

end Sys2Proof.Machine
end

