-- ==== Sys2Proof/Machine/Tick.lean ====
section
/-! DEFINITION. The sample tick of a group (R25, R107, R241) and the LOAD_IN strobe (R80 to R82). -/

namespace Sys2Proof.Machine

/-- The first cycle from `c` on at which TIME is a multiple of `n` (R25). -/
def Dev.aligned (s : Dev) (c n : Nat) : Nat := c + (n - (s.time.toNat + (c - s.now)) % n) % n

/-- The cycle of the next tick of a group of period `n`: the first after its latest one at which TIME is a multiple of N; no
earlier than N cycles after the latest one across a step or a freeze (R25, R270). -/
def Dev.nextTick (s : Dev) (g : GroupId) (n : Nat) : Nat :=
  s.aligned (max s.now (max ((s.eng g).tickAt + 1) (s.eng g).tickMin)) n

/-- A DIVIDER that was accepted takes effect at the first edge after its write at which TIME is a multiple of the new N, where
that edge comes before the next tick of the old N or with it (R191, R192). -/
def Dev.newDivider (s : Dev) (g : GroupId) : Dev :=
  match (s.eng g).divOld with
  | none => s
  | some o =>
    if s.divider g.val == 0
        || decide (s.aligned (max s.now (max (o.2 + 1) (max ((s.eng g).tickAt + 1) (s.eng g).tickMin))) (s.divider g.val) ≤ s.nextTick g o.1) then
      s.modEng g (fun e => { e with divOld := none, tickMin := max e.tickMin (o.2 + 1) })
    else s

/-- What a tick does on slice `n` itself: a conversion starts at its sampling instant (R107), holds count and end
(R142, R149, R174), a code ramp moves (R86). -/
def Dev.sliceTick (s : Dev) (n : SliceId) : Dev :=
  let b := sB n
  let t := s.time + BitVec.ofNat 64 (s.slotDelay n)
  let s1 := s.modSl n (fun x =>
    { x with tag := (x.tag + 1) % 256, tagB := if s.flag b SLICE_MEAS_CFG_IB_EN then (x.tagB + 1) % 256 else x.tagB, awaits := true, instant := t, instantAt := s.now + s.slotDelay n, mains := (s.pass (s.slotDelay n)).axisNow 3, vhold := x.vhold.map (· + 1)
             restoring := x.restoring && s.flag b SLICE_LOOP_STATUS_RESTORE, prgTick := x.prgTick + 1 })
  let x := s1.sl n
  let s2 := match x.vhold, x.vWait with
    | none, some v => if s1.owner n == n then s1.goVolt n v else s1
    | _, _ => s1
  let s3 := match (s2.sl n).vhold with
    | none =>
      let s4 := s2.modSl n (fun y => { y with vWait := none })
      (match x.vWait, (s4.sl n).spWait with
        | some _, some w => if s4.mode n == 0 then s4.takeSp n w else s4
        | _, _ => s4)
    | some _ => s2
  let s4 := if x.holdEnds then
      ((s3.modSl n (fun y => { y with holdEnds := false, reinit := true, clampN := false })).setFlag b SLICE_FORCE_STATUS_CLAMP_HOLD false).setFlag b
        SLICE_CLAMP_STATUS_HOLD false
    else s3
  s4.rampTick n

/-- What the group's engine does at a tick: jumps are sampled, an applied step takes effect, a hold resumes, dwell and
timeouts count; a boundary, a timeout or a start due at this tick is an event of its own. -/
def Dev.engineTick (s : Dev) (r : GroupRec) : Dev :=
  let g := sid r.first
  let st := s.travState g
  let s0 := s.modEng g (fun e => { e with due := false })
  let s1 := s0.sampleJump r
  let e := s1.eng g
  let same := s1.travState g == st
  let s2 := match e.next with
    | some p =>
      if st == 2 && same && e.applied && !(r.strobed && r.strobe) then s1.takeStep r p false
      else if st == 3 && same then
        (match e.resume with
          | some q => (s1.modEng g (fun x => { x with resume := none })).goPlace r q
          | none => s1)
      else if st == 2 && same && e.metAt.isNone && !e.applied && (s.eng g).sampled.isNone then
        (let k := e.waitTicks + 1
         s1.modEng g (fun x => { x with waitTicks := k, due := p.desc.timeout != 0 && decide (p.desc.timeout ≤ k) }))
      else s1
    | none =>
      if st == 1 && same && e.between then s1.modEng g (fun x => { x with between := false })
      else if st == 1 && same then
        (let l := s1.fld (tB g) TRAV_DWELL_LEFT
         if l == 0 then s1.modEng g (fun x => { x with due := true }) else s1.setFld (tB g) TRAV_DWELL_LEFT (l - 1))
      else s1
  if (st == 0 || st == 4) && (s2.eng g).startDue (s2.eng g).tickAt (s2.eng g).tickTime then s2.modEng g (fun x => { x with due := true })
  else s2

/-- The voltage parts of RANGE commands of group `r` that are due at its latest tick or strobe take effect (R151). -/
def Dev.voltDue (s : Dev) (r : GroupRec) : Dev :=
  let t := s.effectAt r
  let due := fun (c : Sched) => isRange c.cmd && c.group == r.first && c.after != 0 && c.wmask != 0 && decide (c.after ≤ t.1)
  s.each (s.sched.filter due) (fun d x =>
    let d1 : Dev := { d with sched := d.sched.map (fun c => if c.ctx = x.ctx && due c then { c with after := 0 } else c) }
    match x.cmd with
    | .range p => d1.each (sliceList x.wmask) (fun e n => e.goVolt n p.vrange.toNat)
    | _ => d1)

/-- The group that drives LOAD_OUT (R81). -/
def Dev.loadOutGroup (s : Dev) : Option GroupRec := s.plates.groups.find? (fun r => r.strobed && !r.strobe)

/-- SAMPLE_TICK. -/
def Dev.sampleTick (s : Dev) (g : GroupId) : Dev :=
  s.onEngine g (fun d0 r =>
    let d := d0.newDivider g
    let n := d.period g.val
    if n == 0 then d
    else
      let d1 := (d.upTo (d.nextTick g n)).each r.slices Dev.land
      let d2 := d1.modEng g (fun e => { e with tickTime := d1.time, tickAt := d1.now, unfinished := true })
      let d3 := if bitOf d2.plates.loadCfg 1 && d2.loadOutGroup == some r then
          { d2 with pins := { d2.pins with loadOut := d2.now + 21 } } else d2
      let d4 := d3.each r.slices Dev.sliceTick
      (((if r.strobed && r.strobe then d4 else d4.voltDue r).engineTick r).finishTick g))

def execSampleTick (g : GroupId) (s : State) : Host.Outcome State Fault Refusal := s.onAwake (fun d => d.sampleTick g)

/-- LOAD_IN_EDGE: every group on the external strobe latches its holding registers, and what waits for the strobe takes
effect (R10, R80). -/
def execLoadInEdge (s : State) : Host.Outcome State Fault Refusal :=
  s.onAwake (fun d =>
    if !d.domains || !bitOf d.plates.loadCfg 0 then d
    else d.each (d.plates.groups.filter (fun r => r.strobed && r.strobe)) (fun x r =>
      let g := sid r.first
      let x1 := (x.modEng g (fun e => { e with strobeAt := x.now, strobeTime := x.time })).voltDue r
      let e := x1.eng g
      let x2 := match e.next with
        | some p => if e.applied then x1.takeStep r p true else x1
        | none => x1
      x2.each r.slices (fun y n => if y.direct n && y.running n then (y.land n).fly n (y.now + 4) .holding else y)))

/-- LOAD_IN_TIMEOUT (R82). -/
def execLoadInTimeout (g : GroupId) (s : State) : Host.Outcome State Fault Refusal :=
  s.onAwake (fun d => d.onEngine g (fun s r =>
    let b := sliceBase r.first
    let us := s.fld b SLICE_STROBE_CFG_TIMEOUT_US
    if us == 0 || !(r.strobed && r.strobe) || !(s.sl (sid r.first)).enabled || !r.slices.any (fun n => s.direct n) then s
    else ((s.upTo ((s.eng g).strobeAt + 1000 * us)).setFlag b SLICE_STROBE_CFG_STROBE_LATE true).groupEvent g.val))

end Sys2Proof.Machine
end

