-- ==== Sys2Proof/Machine/Loop.lean ====
section
/-! DEFINITION. Commands of the loops: LOOP_OPEN and LOOP_CLOSE (R198 to R201), COEF_SELECT (R202 to R205), and the writes of
the divider and of the outer rate (R191). -/

namespace Sys2Proof.Machine

/-! ## LOOP_OPEN and LOOP_CLOSE -/

def isLoopOpen : RingCmd → Bool
  | .loopOpen _ => true
  | _ => false
def isLoopClose : RingCmd → Bool
  | .loopClose _ => true
  | _ => false
def isSelect : RingCmd → Bool
  | .coefSelect op _ => op == 0
  | _ => false

/-- LOOP_OPEN: from the first tick after this cycle (R199). -/
def Dev.loopOpenCmd (s : Dev) (c : Ctx) (r : GroupRec) (mask : Word) : Dev :=
  if !r.maskOk mask then s.completeAt c BAD_PARAM 0 s.time
  else
    let m := maskOf ((r.masked mask).filter (fun n => s.loopState n != 0))
    if m == 0 then s.complete c OK else s.schedule c (.loopOpen mask) r.first m (s.now + 1) 0

def execLoopOpen (h : Hdr) (mask : Word) (s : State) : Host.Outcome State Fault Refusal :=
  s.onAwake (fun d => d.ringCmd h 0x03 (.loopOpen mask) (fun s c r => s.loopOpenCmd c r mask))

/-- LOOP_CLOSE: at the first tick at least 200 cycles on (R198, R200). -/
def Dev.loopCloseCmd (s : Dev) (c : Ctx) (r : GroupRec) (mask : Word) : Dev :=
  let ns := r.masked mask
  if !r.maskOk mask || ns.any s.direct then s.completeAt c BAD_PARAM 0 s.time
  else if !s.pins.interlockN || ns.any (fun n => !s.running n) then s.complete c PARKED
  else if !ns.all s.coefBaseOk then s.completeAt c BAD_PARAM 0xFF s.time
  else
    let m := maskOf (ns.filter (fun n => s.loopState n == 0))
    if m == 0 then s.complete c OK else s.schedule c (.loopClose mask) r.first m (s.now + 200) 0

def execLoopClose (h : Hdr) (mask : Word) (s : State) : Host.Outcome State Fault Refusal :=
  s.onAwake (fun d => d.ringCmd h 0x04 (.loopClose mask) (fun s c r => s.loopCloseCmd c r mask))

/-- The scheduled commands of group `r` that `sel` picks and that are due leave the schedule. -/
def Dev.takeDue (s : Dev) (r : GroupRec) (sel : RingCmd → Bool) : Dev × List Sched :=
  let t := s.effectAt r
  let p := fun (x : Sched) => sel x.cmd && x.group == r.first && x.due t.1 t.2
  ({ s with sched := s.sched.filter (fun x => !p x) }, s.sched.filter p)

/-- The loop of slice `n` opens at this tick; a setpoint ramp goes on as a code ramp (R86). -/
def Dev.openAt (s : Dev) (n : SliceId) : Dev :=
  match (s.sl n).phase with
  | .ramp false => s.each (s.gang n) Dev.codeRamp
  | .ramp true => s
  | _ => s.each (s.gang n) Dev.openLoop

/-- LOOP_OPEN_EFFECT. -/
def execLoopOpenEffect (g : GroupId) (s : State) : Host.Outcome State Fault Refusal :=
  s.onAwake (fun d => d.onEngine g (fun s r =>
    let q := s.takeDue r isLoopOpen
    let t := (s.effectAt r).2
    q.1.each q.2 (fun e x => (e.each (sliceList x.mask) Dev.openAt).completeAt x.ctx OK 0xFF t)))

/-- The loop of slice `n` closes at this tick: sets and limits in force are copied and checked (R200). -/
def Dev.closeAt (s : Dev) (n : SliceId) : Dev :=
  let s1 := ((s.endAgile n).copySets n (s.fld (sB n) SLICE_LOOP_STATUS_COEF_SET)).readLimits n (s.fld (sB n) SLICE_LIM_STATUS_ACTIVE)
  (s1.setLoop n 1).modSl n (fun x => { x with closing := true, held := false })

/-- LOOP_CLOSE_EFFECT: slices that still run and are open close; one that has been parked since answers PARKED. -/
def execLoopCloseEffect (g : GroupId) (s : State) : Host.Outcome State Fault Refusal :=
  s.onAwake (fun d => d.onEngine g (fun s r =>
    let q := s.takeDue r isLoopClose
    let t := (s.effectAt r).2
    q.1.each q.2 (fun e x =>
      let ns := sliceList x.mask
      let bad := ns.any (fun n => !e.running n)
      (e.each ns (fun f n => if f.running n && f.loopState n == 0 && !f.direct n then f.closeAt n else f)).completeAt x.ctx
        (if bad then PARKED else OK) 0xFF t)))

/-! ## COEF_SELECT -/

/-- A check of IMAGE_C. -/
def coefImageOk (p : CoefP) : Bool := p.imageC == ~~~p.image

/-- Payload offset of the first field outside its encoding, none where all are good (R203). -/
def coefFault (p : CoefP) (op : Nat) (r : GroupRec) : Option Nat :=
  if 3 < p.set.toNat then some 1
  else if (op == 0 && p.comp != 0) || decide (2 < p.comp.toNat) then some 2
  else if (op != 2 && p.field != 0) || decide (7 < p.field.toNat) then some 3
  else if !r.maskOk p.mask then some 4
  else if (op == 0 && p.image != 0) || (op == 2 && decide (65535 < p.image.toNat)) then some 8
  else none

/-- SELECT (R203): an open or parked slice has the set in force at once, a closed loop switches at a tick. -/
def Dev.coefSelect (s : Dev) (c : Ctx) (r : GroupRec) (p : CoefP) : Dev :=
  match coefFault p 0 r with
  | some o => s.completeAt c BAD_PARAM o s.time
  | none =>
    if !coefImageOk p then s.completeAt c INTEGRITY 0x18 s.time
    else
      let j := p.set.toNat
      let ns := (r.masked p.mask).filter (fun n => s.fld (sB n) SLICE_LOOP_STATUS_COEF_SET != j)
      let later := ns.filter (fun n => s.loopState n != 0)
      let s1 := s.each (ns.filter (fun n => s.loopState n == 0)) (fun d n => d.useSet n j)
      let s2 := s1.each later (fun d n =>
        ((d.endAgile n).setFld (sB n) SLICE_COEF_WSTATUS_PENDING_SET j).setFlag (sB n) SLICE_COEF_WSTATUS_PENDING true)
      if later.isEmpty then s2.complete c OK
      else s2.schedule c (.coefSelect 0 p) r.first (maskOf later) (s.now + 200) 0

def execCoefSelectSelect (h : Hdr) (p : CoefP) (s : State) : Host.Outcome State Fault Refusal :=
  s.onAwake (fun d => d.ringCmd h 0x05 (.coefSelect 0 p) (fun s c r => s.coefSelect c r p))

/-- WRITE (op 1) and WRITE_ONE (op 2) (R202, R203, R205). -/
def Dev.coefWrite (s : Dev) (c : Ctx) (r : GroupRec) (op : Nat) (p : CoefP) : Dev :=
  match coefFault p op r with
  | some o => s.completeAt c BAD_PARAM o s.time
  | none =>
    let ctrl := if op == 1 then getBits p.image.toNat 120 8 else if p.field == 7 then getBits p.image.toNat 8 8 else 0
    if !coefImageOk p then s.completeAt c INTEGRITY 0x18 s.time
    else if ctrl != 0 then s.completeAt c INTEGRITY 8 s.time
    else
      let k := p.comp.toNat
      let f := p.field.toNat
      let ns := r.masked p.mask
      let inForce := fun (n : SliceId) => s.loopState n != 0 && s.fld (sB n) SLICE_LOOP_STATUS_COEF_SET == p.set.toNat
      let bad := ns.filter (fun n => inForce n && !s.flag (sB n) SLICE_LOOP_CFG_AGILE)
      if !bad.isEmpty then
        (s.each bad (fun d n => (d.setFlag (sB n) SLICE_COEF_WSTATUS_REFUSED_WR true).note n)).complete c LOOP_CLOSED
      else if ns.any (fun n => s.flag (sB n) SLICE_COEF_WSTATUS_AGILE_BUSY) then s.complete c BUSY
      else
        let w := p.image.toNat % 65536
        let s1 := s.each ns (fun d n =>
          let a := d.coefAddr n k p.set.toNat
          if op == 1 then d.put a (leBytes 16 p.image.toNat ++ leBytes 16 p.imageC.toNat)
          else (d.put (a + 2 * f) (leBytes 2 w)).put (a + 16 + 2 * f) (leBytes 2 (65535 - w)))
        let live := ns.filter inForce
        if live.isEmpty then s1.complete c OK
        else
          let s2 := if op == 1 then s1.each live (fun d n =>
              ((d.modSl n (fun x => { x with agile := some ⟨k, 0, p.image⟩ })).setFlag (sB n) SLICE_COEF_WSTATUS_AGILE_BUSY true).setFld
                (sB n) SLICE_COEF_WSTATUS_AGILE_NEXT 0)
            else s1
          s2.schedule c (.coefSelect (BitVec.ofNat 8 op) p) r.first (maskOf live) (s.now + 4) 0

def execCoefSelectWrite (h : Hdr) (p : CoefP) (s : State) : Host.Outcome State Fault Refusal :=
  s.onAwake (fun d => d.ringCmd h 0x05 (.coefSelect 1 p) (fun s c r => s.coefWrite c r 1 p))

def execCoefSelectWriteOne (h : Hdr) (p : CoefP) (s : State) : Host.Outcome State Fault Refusal :=
  s.onAwake (fun d => d.ringCmd h 0x05 (.coefSelect 2 p) (fun s c r => s.coefWrite c r 2 p))

/-- A due SELECT switches slice `n`: a closed loop holds one sample (R204), one opened since has the set in force at
once. -/
def Dev.switchSlice (s : Dev) (n : SliceId) (x : Sched) (j : Nat) : Dev :=
  let hold := s.loopState n != 0 && s.fld (sB n) SLICE_LOOP_STATUS_COEF_SET != j
  let b := bit32 n.val
  let upd := fun (y : Sched) =>
    if y = x then { y with mask := y.mask &&& ~~~b, vmask := if hold then y.vmask ||| b else y.vmask } else y
  ({ s with sched := s.sched.map upd }).useSet n j

/-- COEF_SWITCH on slice `n` at its group's latest tick or strobe. -/
def execCoefSwitch (n : SliceId) (s : State) : Host.Outcome State Fault Refusal :=
  s.onAwake (fun d => d.onEngine (d.low n) (fun s r =>
    let t := s.effectAt r
    let xs := s.sched.filter (fun x => isSelect x.cmd && x.mask.getLsbD n.val && x.due t.1 t.2)
    if xs.isEmpty then s
    else
      let s1 := s.each xs (fun d x => match x.cmd with
        | .coefSelect _ p => d.switchSlice n x p.set.toNat
        | _ => d)
      let more := s1.sched.any (fun x => isSelect x.cmd && x.mask.getLsbD n.val)
      ((s1.setFlag (sB n) SLICE_COEF_WSTATUS_PENDING more).settle
        (fun x => isSelect x.cmd && x.mask == 0 && x.vmask == 0) (fun _ => (OK, t.2)))))

/-! ## Divider and outer rate (R26, R191) -/

def Dev.loopRefuse (s : Dev) (n : SliceId) : Dev := s.setFlag (sB n) SLICE_LOOP_STATUS_REFUSED true

/-- R26 for one lane, with the records of the slices it serves and the divider of each slice. -/
def lanePlanOk (rs : List (Nat × LaneRec)) (div : Nat → Nat) : Bool :=
  let k := rs.length
  match rs with
  | [] => true
  | r :: _ =>
    let n := div r.1
    decide (k ≤ 4) && (List.range k).all (fun j => rs.any (fun x => x.2.slot == j)) && decide (100 ≤ n)
      && rs.all (fun x => x.2.oversub == r.2.oversub)
      && (if k == 1 then !r.2.oversub
          else rs.all (fun x => div x.1 == n) && decide (400 ≤ n) && decide ((if r.2.oversub then 100 else 112) ≤ n / k))

/-- Every slice of group `r` is parked or has its loop open. -/
def Dev.groupOpen (s : Dev) (r : GroupRec) : Bool := r.slices.all (fun n => s.parked n || s.loopState n == 0)

/-- LOOP_DIV_WRITE of group `g`'s lowest slice. -/
def Dev.loopDivWrite (s : Dev) (g : GroupId) (v : Word) : Dev :=
  match s.group g.val with
  | none => s
  | some r =>
    let n := getBits v.toNat 0 16
    let div := fun (k : Nat) => match s.groupOf k with
      | some q => if q.first == r.first then n else s.divider q.first
      | none => 0
    let idx := (List.range 32).zip s.plates.lanes
    let ls := (r.slices.map (fun k => s.laneOf k.val)).eraseDups
    if s.groupOpen r && decide (100 ≤ n) && ls.all (fun l => lanePlanOk (idx.filter (fun x => x.2.lane == l)) div) then
      (s.store (sliceBase g.val + SLICE_LOOP_DIV) v).modEng g (fun e =>
        { e with divOld := some ((match e.divOld with
          | some o => o.1
          | none => s.divider g.val), s.now) })
    else s.loopRefuse g

def execLoopDivWrite (g : GroupId) (v : Word) (s : State) : Host.Outcome State Fault Refusal :=
  s.onAwake (fun d => d.loopDivWrite g v)

/-- LOOP_OUTER_WRITE. -/
def Dev.loopOuterWrite (s : Dev) (n : SliceId) (v : Word) : Dev :=
  let m := getBits v.toNat 0 13
  let ok := (match s.groupOf n.val with
    | some r => s.groupOpen r
    | none => true) && decide (2 ≤ m) && decide (m ≤ 4096) && decide (getBits v.toNat 16 12 < m) && (s.route n).kind != 0
  if ok then s.store (sB n + SLICE_LOOP_OUTER) v else s.loopRefuse n

def execLoopOuterWrite (n : SliceId) (v : Word) (s : State) : Host.Outcome State Fault Refusal :=
  s.onAwake (fun d => d.loopOuterWrite n v)

end Sys2Proof.Machine
end

