-- ==== Sys2Proof/Machine/Capture.lean ====
section
/-! DEFINITION. Records, rows and the capture store (R110 to R122), CAPTURE_ARM (R119), and the correlator windows
(R125, R126). -/

namespace Sys2Proof.Machine

/-! ## Records and rows -/

/-- A record from its fields (R116). -/
def recOf (v vr i ir : Nat) (t : Word64) (station : Nat) : Rec :=
  BitVec.ofNat 128 (v % 268435456 + 268435456 * (vr % 16) + 4294967296 * (i % 268435456) + 1152921504606846976 * (ir % 16)
    + 18446744073709551616 * (t.toNat % 17592186044416) + 324518553658426726783156020576256 * (station % 1048576))

/-- The record of a closed window: a suspect one shows its range plus 4. -/
def WinRes.record (w : WinRes) : Rec :=
  recOf (unsigned 28 w.v) (w.vrange + (if w.suspect then 4 else 0)) (unsigned 28 w.i) w.irange w.time w.station

/-- A gap marker (R116, R122). -/
def Gap.record (g : Gap) : Rec := recOf (min g.lost 0xFFFFFFF) 0xF g.slice 0xF g.time g.station

/-- The 16 bytes of a record. -/
def recBytes (r : Rec) : List Byte := leBytes 16 r.toNat

/-- The active CAPTURE_ARM counts a row that closes at TIME `t`; the last one completes the command (R119). -/
def Dev.armRow (s : Dev) (g : GroupId) (t : Word64) : Dev :=
  let b := sliceBase g.val
  match (s.eng g).arm with
  | none => s
  | some c =>
    if t.toNat < (s.eng g).armStart.toNat then s
    else
      let k := (s.rd (b + SLICE_REC_ARM_LEFT)).toNat - 1
      let s1 := s.wr (b + SLICE_REC_ARM_LEFT) (BitVec.ofNat 32 k)
      if k == 0 then
        ((s1.modEng g (fun e => { e with arm := none })).setFlag b SLICE_REC_CTRL_ARMED false).completeAt c OK 0xFF t
      else s1

/-- A row of group `r` has closed at TIME `t` under REC bit `bit`: it waits for the write path if R118 says so, otherwise it is
discarded. -/
def Dev.closeRow (s : Dev) (r : GroupRec) (row : List Rec) (bit : Bool) (t : Word64) : Dev :=
  let g := sid r.first
  let b := sliceBase r.first
  let armed := (s.eng g).arm.isSome && decide ((s.eng g).armStart.toNat ≤ t.toNat)
  let s1 := if s.flag b SLICE_REC_CTRL_ENABLE || bit || armed then s.modEng g (fun e => { e with rows := e.rows ++ [row] }) else s
  s1.armRow g t

/-- The slice of a list whose window closed last. -/
def Dev.lastClosed (s : Dev) (l : List SliceId) (n : SliceId) : SliceId :=
  l.foldl (fun a m => if (s.sl a).recTime.toNat < (s.sl m).recTime.toNat then m else a) n

/-- The oldest closed window of slice `n` gives its record; with all slices' the row is complete, closed with the one that closed
last (R117 to R119). -/
def Dev.recordClose (s : Dev) (n : SliceId) : Dev :=
  match s.groupOf n.val, (s.sl n).wDone with
  | some r, w :: l =>
    if (s.sl n).recDone.isSome then s
    else
      let s1 := s.modSl n (fun x => { x with wDone := l, recDone := some w.record, recTime := w.shut, recBit := w.rec_ })
      let rs := r.slices.filterMap (fun m => (s1.sl m).recDone)
      if rs.length == r.size then
        let z := s1.sl (s1.lastClosed r.slices n)
        (s1.each r.slices (fun d m => d.modSl m (fun x => { x with recDone := none }))).closeRow r rs z.recBit z.recTime
      else s1
  | _, _ => s

def execRecordWindowClose (n : SliceId) (s : State) : Host.Outcome State Fault Refusal := s.onAwake (fun d => d.recordClose n)

/-! ## The capture store (R120 to R122) -/

def Dev.capSize (s : Dev) (g : GroupId) : Nat := (s.rd (sliceBase g.val + SLICE_CAP_SIZE)).toNat
def Dev.capWr (s : Dev) (g : GroupId) : Nat := (s.rd (sliceBase g.val + SLICE_CAP_WR)).toNat
def Dev.capRd (s : Dev) (g : GroupId) : Nat := (s.rd (sliceBase g.val + SLICE_CAP_RD)).toNat
/-- Bytes of the region in use. -/
def Dev.capUsed (s : Dev) (g : GroupId) : Nat := (s.capWr g + s.capSize g - s.capRd g) % s.capSize g

/-- A row fits, with a pending gap marker before it and 16 bytes to spare. -/
def Dev.rowFits (s : Dev) (g : GroupId) : Bool :=
  let gap := if (s.eng g).gap.isSome then 16 else 0
  decide (s.capUsed g + gap + 16 * s.size g + 16 ≤ s.capSize g)

def Dev.showFull (s : Dev) (g : GroupId) : Dev :=
  s.setFlag (sliceBase g.val) SLICE_CAP_STATUS_FULL (s.capSize g != 0 && !s.rowFits g)

/-- One record at the write offset. -/
def Dev.capPut (s : Dev) (g : GroupId) (r : Rec) : Dev :=
  let a := 0x1000000 + (s.rd (sliceBase g.val + SLICE_CAP_BASE)).toNat + s.capWr g
  (s.put a (recBytes r)).wr (sliceBase g.val + SLICE_CAP_WR) (BitVec.ofNat 32 ((s.capWr g + 16) % s.capSize g))

/-- A row that does not fit is lost whole and counted; the first loss of a gap raises its source. -/
def Dev.loseRow (s : Dev) (g : GroupId) (row : List Rec) : Dev :=
  let b := sliceBase g.val
  let n := row.length
  let old := (s.rd (b + SLICE_CAP_LOST)).toNat
  let first := (row.headD 0).toNat
  let gap := match (s.eng g).gap with
    | some q => { q with lost := q.lost + n }
    | none => ⟨n, g.val, BitVec.ofNat 64 (getBits first 64 44), getBits first 108 20⟩
  let s1 := (s.wr (b + SLICE_CAP_LOST) (BitVec.ofNat 32 (min 0xFFFFFFFF (old + n)))).modEng g (fun e => { e with gap := some gap })
  let s2 := s1.setFlag b SLICE_CAP_STATUS_GAP_PENDING true
  if (s.eng g).gap.isNone then s2.raise (0x100 + g.val) 0 0 g.val else s2

/-- The write path serves group `g`. -/
def Dev.writeRow (s : Dev) (g : GroupId) : Dev :=
  match (s.eng g).rows with
  | [] => s
  | row :: l =>
    let s1 : Dev := { s.modEng g (fun e => { e with rows := l }) with rowLast := g.val }
    if s1.capSize g == 0 then s1
    else if s1.rowFits g then
      let s2 := match (s1.eng g).gap with
        | some q => ((s1.capPut g q.record).modEng g (fun e => { e with gap := none })).setFlag (sliceBase g.val) SLICE_CAP_STATUS_GAP_PENDING false
        | none => s1
      (s2.each row (fun d r => d.capPut g r)).showFull g
    else (s1.loseRow g row).showFull g

/-- The group the write path serves next: round robin from the one served last (R121). -/
def Dev.nextRowGroup (s : Dev) : Option GroupId :=
  ((List.range 32).map (fun i => sid (s.rowLast + 1 + i))).find? (fun g => !(s.eng g).rows.isEmpty)

/-- BAR2 offset of record `i` of the region of group `g`, from RD on. -/
def Dev.capAddr (s : Dev) (g : GroupId) (i : Nat) : Nat :=
  0x1000000 + (s.rd (sliceBase g.val + SLICE_CAP_BASE)).toNat + (s.capRd g + 16 * i) % s.capSize g

/-- That record as it leaves the store: with an uncorrectable error in either half it shows VRANGE 0xE (R123). -/
def Dev.capRec (s : Dev) (g : GroupId) (i : Nat) : Rec :=
  let a := s.capAddr g i
  BitVec.ofNat 128 (if s.uncorrectable a 16 then putBits (s.num a 16) 28 4 0xE else s.num a 16)

/-- RD advances by `k` records. -/
def Dev.capTake (s : Dev) (g : GroupId) (k : Nat) : Dev :=
  (s.wr (sliceBase g.val + SLICE_CAP_RD) (BitVec.ofNat 32 ((s.capRd g + 16 * k) % s.capSize g))).showFull g

/-- Records of group `g` sent so far in RECORD frames (R395). -/
def Dev.recsSent (s : Dev) (g : GroupId) : Nat :=
  match s.link.sentRecs.find? (fun x => x.1 == g.val) with
  | some x => x.2
  | none => 0

/-- A remote sends the records of group `g` in RECORD frames of at most 15, while the bulk channel takes them (R124). -/
def Dev.sendRecords : Nat → Dev → GroupId → Dev
  | 0, s, _ => s
  | f + 1, s, g =>
    let v := (s.port s.upPort).vcs.get 2
    let k := min 15 (s.capUsed g / 16)
    if s.isRemote && s.released && s.canSend s.upPort && decide (0 < s.capSize g) && decide (0 < k) && v.waiting.isEmpty && decide (0 < v.credits)
        && decide (v.unacked.length < 64) then
      let recs := (List.range k).map (s.capRec g)
      let n := s.recsSent g
      let s1 := (s.each (List.range k) (fun d i => d.eccRead (d.capAddr g i) 16 rdCap)).capTake g k
      let s2 : Dev := { s1 with link := { s1.link with
        sentRecs := (s1.link.sentRecs.filter (fun x => x.1 != g.val)) ++ [(g.val, n + k)] } }
      Dev.sendRecords f (s2.sendHub 2 (.records g.val n recs)) g
    else s

/-- Every group of a remote sends what it can. -/
def Dev.sendAllRecords (s : Dev) : Dev := if s.isRemote then s.each s.plates.groups (fun d r => Dev.sendRecords 64 d (sid r.first)) else s

def execRowWrite (s : State) : Host.Outcome State Fault Refusal :=
  s.onAwake (fun d => match d.nextRowGroup with
    | some g => Dev.sendRecords 64 (d.writeRow g) g
    | none => d)

/-! ## Commands and registers -/

def Dev.capRefuse (s : Dev) (g : GroupId) : Dev := s.setFlag (sliceBase g.val) SLICE_CAP_STATUS_REFUSED true

/-- A capture channel that drains group `g` runs (R380). -/
def Dev.dmaRuns (s : Dev) (g : GroupId) : Bool :=
  ((List.range 32).map sid).any (fun c => s.flag (cB c) HOST_CAP_STATUS_RUNNING && s.fld (rB c) HOST_RING_CFG_NODE == 0
    && s.fld (rB c) HOST_RING_CFG_GROUP == g.val)

/-- The station of group `g` is in force on its path, not RAW. -/
def Dev.stationRuns (s : Dev) (g : GroupId) : Bool :=
  let st := s.travState g
  decide (1 ≤ st) && decide (st ≤ 3) && (match (s.sl g).capture with
    | some c => !c.getLsbD 3
    | none => false)

/-- REC_CFG_WRITE (R110, R114): the group's open windows close as suspect, and the new filter starts with the next
sample. -/
def Dev.recCfgWrite (s : Dev) (g : GroupId) (v : Word) : Dev :=
  let kind := getBits v.toNat 0 2
  let d := getBits v.toNat 8 24
  if s.group g.val = none then s
  else if (kind == 0 && d == 0) || (kind == 1 && (decide (d < 2) || decide (4096 < d))) then s.capRefuse g
  else
    let ns := s.members g.val
    let s1 := if ns.any (fun n => (s.sl n).wOpen) then s.each ns (fun x n => x.closeWindow n true s.time) else s
    (s1.store (sliceBase g.val + SLICE_REC_CFG) v).each ns (fun x n =>
      x.modSl n (fun y =>
        { y with fV := .zero, fA := .zero, fB := .zero, fillRec := 0, wOpen := false, wCount := 0, wThen := none,
                 wNext := decide (kind = 3) && s.stationRuns g }))

def execRecCfgWrite (g : GroupId) (v : Word) (s : State) : Host.Outcome State Fault Refusal :=
  s.onAwake (fun d => d.recCfgWrite g v)

/-- CAPTURE_ARM (R119). -/
def Dev.captureArm (s : Dev) (c : Ctx) (r : GroupRec) (p : ArmP) : Dev :=
  let g := sid r.first
  if p.length == 0 then s.complete c OK
  else if (s.eng g).arm.isSome then s.complete c BUSY
  else
    ((s.modEng g (fun e => { e with arm := some c, armStart := p.start })).setFlag (sliceBase r.first) SLICE_REC_CTRL_ARMED true).wr
      (sliceBase r.first + SLICE_REC_ARM_LEFT) p.length

def execCaptureArm (h : Hdr) (p : ArmP) (s : State) : Host.Outcome State Fault Refusal :=
  s.onAwake (fun d => d.ringCmd h 0x09 (.captureArm p) (fun s c r => s.captureArm c r p))

/-- A region of `n` bytes at `a` fits the capture store and overlaps no other group's. -/
def Dev.regionOk (s : Dev) (g : GroupId) (a n : Nat) : Bool :=
  a % 4096 == 0 && n % 4096 == 0 && decide (a + n ≤ 0x1000000)
    && (n == 0 || s.plates.groups.all (fun r =>
      let b := (s.rd (sliceBase r.first + SLICE_CAP_BASE)).toNat
      let m := (s.rd (sliceBase r.first + SLICE_CAP_SIZE)).toNat
      r.first == g.val || m == 0 || decide (a + n ≤ b) || decide (b + m ≤ a)))

/-- CAP_REGION_WRITE of BASE, or SIZE with `size` (R120). -/
def Dev.capRegionWrite (s : Dev) (g : GroupId) (size : Bool) (v : Word) : Dev :=
  let b := sliceBase g.val
  if s.group g.val = none then s
  else
    let ok := if size then s.regionOk g (s.rd (b + SLICE_CAP_BASE)).toNat v.toNat else s.regionOk g v.toNat (s.capSize g)
    if ok && !s.flag b SLICE_REC_CTRL_ENABLE && (s.eng g).arm.isNone && !s.dmaRuns g then
      (((s.wr (b + if size then SLICE_CAP_SIZE else SLICE_CAP_BASE) v).wr (b + SLICE_CAP_WR) 0).wr (b + SLICE_CAP_RD) 0).showFull g
    else s.capRefuse g

def execCapRegionWrite (g : GroupId) (size : Bool) (v : Word) (s : State) : Host.Outcome State Fault Refusal :=
  s.onAwake (fun d => d.capRegionWrite g size v)

/-- CAP_RD_WRITE (R129): RD moves forward, up to WR. -/
def Dev.capRdWrite (s : Dev) (g : GroupId) (v : Word) : Dev :=
  if s.group g.val = none then s
  else
    let n := s.capSize g
    let x := v.toNat
    if x % 16 == 0 && decide (x < n) && decide ((x + n - s.capRd g) % n ≤ s.capUsed g) && !s.dmaRuns g then
      (s.wr (sliceBase g.val + SLICE_CAP_RD) v).showFull g
    else s.capRefuse g

def execCapRdWrite (g : GroupId) (v : Word) (s : State) : Host.Outcome State Fault Refusal :=
  s.onAwake (fun d => d.capRdWrite g v)

/-- MEAS_CFG_WRITE (R128): IB_EN changes only while parked. -/
def Dev.measCfgWrite (s : Dev) (n : SliceId) (v : Word) : Dev :=
  if v.getLsbD 0 != s.flag (sB n) SLICE_MEAS_CFG_IB_EN && !s.parked n then s.setFlag (sB n) SLICE_MEAS_STATUS_REFUSED true
  else (s.store (sB n + SLICE_MEAS_CFG) v).driveNow n

def execMeasCfgWrite (n : SliceId) (v : Word) (s : State) : Host.Outcome State Fault Refusal :=
  s.onAwake (fun d => d.measCfgWrite n v)

/-! ## Correlators (R125, R126) -/

/-- The window of slice `n` is over: results are latched. -/
def Dev.corrDone (s : Dev) (n : SliceId) : Dev :=
  let b := sB n
  let c := (s.sl n).corr
  let w := fun (i : Int) => BitVec.ofNat 64 (unsigned 64 i)
  let s1 := (((s.wr64 (b + SLICE_CORR0_I_LO) (b + SLICE_CORR0_I_HI) (w c.i0)).wr64 (b + SLICE_CORR0_Q_LO) (b + SLICE_CORR0_Q_HI) (w c.q0)).wr64
    (b + SLICE_CORR1_I_LO) (b + SLICE_CORR1_I_HI) (w c.i1)).wr64 (b + SLICE_CORR1_Q_LO) (b + SLICE_CORR1_Q_HI) (w c.q1)
  let s2 := ((s1.wr (b + SLICE_CORR_NSAMP) (BitVec.ofNat 32 c.n)).setFld b SLICE_CORR_STATUS_PERIODS_DONE c.periods).setFlag b
    SLICE_CORR_STATUS_OVERLONG (decide (16777216 ≤ c.n) && decide (c.periods < s.fld b SLICE_CORR_CTRL_PERIODS))
  let s3 := ((s2.setFlag b SLICE_CORR_STATUS_DONE true).setFlag b SLICE_CORR_STATUS_BUSY false).modSl n (fun x => { x with corr := .idle })
  if s3.flag b SLICE_CORR_CTRL_IRQ_EN then s3.sliceEvent n else s3

/-- The mark of START 1 has been reached on the group's axis. -/
def Dev.corrMark (s : Dev) (n : SliceId) : Bool :=
  s.reachedMark (s.low n) (s.rd64 (sB n + SLICE_CORR_MARK_LO) (sB n + SLICE_CORR_MARK_HI))

/-- CAPTURE bit [110] of the station in force on slice `n`. -/
def Dev.corrGate (s : Dev) (n : SliceId) : Bool :=
  match (s.sl n).capture with
  | some c => c.getLsbD 2
  | none => false

/-- A write of `SLICE_CORR_CTRL`: its fields, and with ARM a window. -/
def Dev.corrWrite (s : Dev) (n : SliceId) (v : Word) : Dev :=
  let b := sB n
  let s1 := s.store (b + SLICE_CORR_CTRL) v
  let start := s1.fld b SLICE_CORR_CTRL_START
  if !v.getLsbD 0 || start == 3 || decide (6 ≤ s1.fld b SLICE_CORR_CTRL_SRC0) || decide (6 ≤ s1.fld b SLICE_CORR_CTRL_SRC1) then s1
  else if s1.fld b SLICE_CORR_CTRL_PERIODS == 0 then (s1.modSl n (fun x => { x with corr := .idle })).corrDone n
  else
    let passed := start == 1 && s1.corrMark n
    let st := if start == 0 || passed then 2 else 1
    ((s1.modSl n (fun x => { x with corr := { Corr.idle with st := st } })).setFlag b SLICE_CORR_STATUS_BUSY true).setFlag b
      SLICE_CORR_STATUS_MARK_PASSED passed

def execCorrArm (n : SliceId) (v : Word) (s : State) : Host.Outcome State Fault Refusal := s.onAwake (fun d => d.corrWrite n v)

/-- CORR_WINDOW_OPEN: θ has wrapped at the latest sampling instant and the start condition holds; that sample is the first
of the window. -/
def execCorrWindowOpen (n : SliceId) (s : State) : Host.Outcome State Fault Refusal :=
  s.onAwake (fun d =>
    let c := (d.sl n).corr
    let ready := c.st == 2 || (c.st == 1 && (if d.fld (sB n) SLICE_CORR_CTRL_START == 1 then d.corrMark n else d.corrGate n))
    if ready && c.wrapped then d.modSl n (fun x => { x with corr := { Corr.idle with st := 3 } }) else d)

/-- CORR_WINDOW_CLOSE: PERIODS wraps are complete, the gating station has gone by a wrap, or the sample limit is reached. -/
def execCorrWindowClose (n : SliceId) (s : State) : Host.Outcome State Fault Refusal :=
  s.onAwake (fun d =>
    let c := (d.sl n).corr
    let gated := d.fld (sB n) SLICE_CORR_CTRL_START == 2 && c.wrapped && !d.corrGate n
    if c.st == 3 && (decide (d.fld (sB n) SLICE_CORR_CTRL_PERIODS ≤ c.periods) || decide (16777216 ≤ c.n) || gated) then d.corrDone n
    else d)

end Sys2Proof.Machine
end

