-- ==== Sys2Proof/Machine/Ranges.lean ====
section
/-! DEFINITION. RANGE (R151), the handover's timed phases (R135, R139, R141), the end of a voltage hold (R142), the ladder
patterns (R134, R154) and the reload of the limit set in force (R146). -/

namespace Sys2Proof.Machine

/-! ## RANGE -/

/-- Voltage part: range `v` is due on slice `n`, unless it names the range in force with no hold running. -/
def Dev.voltNamed (s : Dev) (n : SliceId) (v : Nat) : Bool :=
  v != 15 && (s.vrange n != v || (s.sl n).vhold.isSome || (s.sl n).vWait.isSome)

/-- Current part: range `k` is asked of slice `n` at execution; a named range resets the auto-range counter (R143). -/
def Dev.askRange (s : Dev) (n : SliceId) (k : Nat) : Dev :=
  if k == 15 then s else (s.goRange n k false).modSl n (fun x => { x with downRun := 0 })

/-- AUTO of RANGE. -/
def Dev.setAuto (s : Dev) (n : SliceId) (auto : Nat) : Dev :=
  if auto == 0 then s else s.setFlag (sB n) SLICE_RANGE_CFG_AUTO_EN (auto == 1)

/-- RANGE (R151): the current part starts or redirects a chain now, the voltage part waits 200 cycles for its tick; in park both
take effect at once (R132). -/
def Dev.rangeCmd (s : Dev) (c : Ctx) (r : GroupRec) (p : RangeP) : Dev :=
  let k := p.irange.toNat
  let v := p.vrange.toNat
  let ns := r.masked p.mask
  if 15 < k then s.completeAt c BAD_PARAM 0 s.time
  else if 15 < v then s.completeAt c BAD_PARAM 1 s.time
  else if 2 < p.auto.toNat then s.completeAt c BAD_PARAM 2 s.time
  else if !r.maskOk p.mask then s.completeAt c BAD_PARAM 4 s.time
  else if ns.any (fun n => k != 15 && decide (s.irMax n < k)) then s.completeAt c LIMIT 0 s.time
  else if ns.any (fun n => v != 15 && decide (s.vrMax n < v)) then s.completeAt c LIMIT 1 s.time
  else
    let cur := ns.filter (fun n => k != 15 && s.irange n != k && !s.inPark n)
    let volt := ns.filter (fun n => s.voltNamed n v && !s.inPark n)
    let s1 := s.each ns (fun d n =>
      let d1 := (d.setAuto n p.auto.toNat).askRange n k
      if v != 15 && d.inPark n then d1.goVolt n v else d1)
    if cur.isEmpty && volt.isEmpty then s1.complete c OK
    else { s1 with sched := s1.sched ++ [{ ctx := c, cmd := .range p, group := r.first, mask := maskOf cur, after := s1.now + 200
                                           at_ := 0, status := OK, vmask := maskOf volt, wmask := maskOf volt, time := 0 }] }

def execRange (h : Hdr) (p : RangeP) (s : State) : Host.Outcome State Fault Refusal :=
  s.onAwake (fun d => d.ringCmd h 0x02 (.range p) (fun s c r => s.rangeCmd c r p))

/-! ## Steps (R135, R139, R141) -/

/-- The step of slice `n`'s gang in progress, if any. -/
def Dev.stepOf (s : Dev) (n : SliceId) : Option RStep := (s.sl (s.owner n)).rstep

/-- HANDOVER_PREPARE_END: OVERLAP begins with the first sampling instant from now on; in an upward step the clamps move to the
incoming path (R135, R147). -/
def execHandoverPrepareEnd (n : SliceId) (s : State) : Host.Outcome State Fault Refusal :=
  s.onAwake (fun d =>
    match d.stepOf n with
    | some st =>
      if st.solo || d.phase (d.owner n) != 1 then d
      else (d.upTo st.endAt).each (d.gang n) (fun e m => (e.setFld (sB m) SLICE_RANGE_STATUS_PHASE 2).loadThr m)
    | none => d)

/-- A step has ended on all slices that act with `o`: the chain goes on to the newest target, or is over; a force-I setpoint that
still waits, of a chain redirected to end here, takes effect (R138). -/
def Dev.stepOver (s : Dev) (o : SliceId) : Dev :=
  let s1 := s.each (s.gang o) (fun d m =>
    ((((d.modSl m (fun x => { x with rstep := none, downRun := 0 })).setFld (sB m) SLICE_RANGE_STATUS_PHASE 0).driveNow m)).loadThr m)
  let s2 := s1.addFld (sB o) SLICE_RANGE_COUNT_STEPS 1
  let t := s2.fld (sB o) SLICE_RANGE_STATUS_TARGET
  if t == s2.irange o then
    (match (s2.sl o).spWait with
      | some w => if s2.mode o == 1 then s2.takeSp o w else s2
      | none => s2).endRangePart o OK
  else (s2.upTo (s2.now + 1)).each (s2.gang o) (fun d m => d.beginStep m t false)

/-- HANDOVER_END: SW_TIME after the RELEASE pattern, and no earlier than the last fade sample. -/
def execHandoverEnd (n : SliceId) (s : State) : Host.Outcome State Fault Refusal :=
  s.onAwake (fun d =>
    let o := d.owner n
    match (d.sl o).rstep with
    | some st => if st.solo || d.phase o != 4 || decide (st.fade ≤ st.len) then d else (d.upTo st.endAt).stepOver o
    | none => d)

/-- SOLO_SWITCH_END: at the first sampling instant of slice `n` at or after the switch the range is in force, and a force-I
setpoint that waits for the chain with it (R138, R141). -/
def execSoloSwitchEnd (n : SliceId) (s : State) : Host.Outcome State Fault Refusal :=
  s.onAwake (fun d =>
    let o := d.owner n
    match (d.sl o).rstep with
    | some st =>
      if !st.solo || decide ((d.eng (d.low o)).tickAt + d.slotDelay o < st.endAt) then d
      else
        let d1 := d.each (d.gang o) (fun e m => e.rescaleI m st.into)
        let d2 := match (d1.sl o).spWait with
          | some w => if d1.mode o == 1 && d1.fld (sB o) SLICE_RANGE_STATUS_TARGET == d1.irange o then d1.takeSp o w else d1
          | none => d1
        d2.stepOver o
    | none => d)

/-! ## Voltage hold (R142) -/

/-- VRANGE_HOLD_END: tick VHOLD. A force-V setpoint that waits takes effect, unless another hold waits. -/
def execVrangeHoldEnd (n : SliceId) (s : State) : Host.Outcome State Fault Refusal :=
  s.onAwake (fun d =>
    let o := d.owner n
    match (d.sl o).vhold with
    | some k =>
      if k < d.fld (sB o) SLICE_RANGE_CFG_VHOLD then d
      else
        let v := (d.sl o).vNew
        let d1 := d.each (d.gang o) (fun e m => (e.rescaleV m v).driveNow m)
        let d2 := match (d1.sl o).spWait with
          | some w => if d1.mode o == 0 && (d1.sl o).vWait.isNone then d1.takeSp o w else d1
          | none => d1
        d2.endVoltPart o
    | none => d)

/-! ## Registers -/

def Dev.rangeRefuse (s : Dev) (n : SliceId) : Dev := s.setFlag (sB n) SLICE_RANGE_STATUS_REFUSED true

/-- RG_PATTERN_WRITE at offset `o` of slice `n`'s block: patterns, VPAT and VMASK change only while parked (R134, R154). -/
def Dev.rgWrite (s : Dev) (n : SliceId) (o : Nat) (v : Word) : Dev :=
  if s.parked n then s.store (sB n + o) v else s.rangeRefuse n

def execRgPatternWrite (n : SliceId) (offset : Nat) (v : Word) (s : State) : Host.Outcome State Fault Refusal :=
  s.onAwake (fun d => d.rgWrite n offset v)

/-- LIM_RELOAD: the limit set in force is read again. -/
def execLimReload (n : SliceId) (s : State) : Host.Outcome State Fault Refusal :=
  s.onAwake (fun d => d.readLimits n (d.fld (sB n) SLICE_LIM_STATUS_ACTIVE))

/-- A write of `SLICE_RANGE_CFG`, `_TIMING` or `_THR` (R143, R152). -/
def Dev.rangeWrite (s : Dev) (n : SliceId) (o : Nat) (v : Word) : Dev :=
  let x := v.toNat
  let ok :=
    if o == SLICE_RANGE_CFG then getBits x 12 2 != 0 && decide (2 ≤ getBits x 16 8)
    else if o == SLICE_RANGE_TIMING then decide (getBits x 0 16 ≤ 20000) && getBits x 16 16 != 0
    else if o == SLICE_RANGE_THR then decide (10 * getBits x 16 16 < getBits x 0 16)
    else true
  if ok then s.store (sB n + o) v else s.rangeRefuse n

end Sys2Proof.Machine
end

