-- ==== Sys2Proof/Machine/Compare.lean ====
section
/-! DEFINITION. Comparators (R147, R149, R156 to R163): clamps and their holds, WIN, the sampled monitors, and the writes of
their registers. -/

namespace Sys2Proof.Machine

/-! ## Outputs and flags -/

/-- Comparator `i` of slice `n`, 0 HI, 1 LO, 2 PRG, 3 WIN: its output goes to a side, and the sticky flag of the edge is set
(R160), unless a parity error has hit the word that carries the edge (R5). -/
def Dev.cmpEdge (s : Dev) (n : SliceId) (i : Nat) (above : Bool) : Dev :=
  let s1 := s.setFlag (sB n) ⟨SLICE_CMP_STATUS, i, 1⟩ above
  if (s.sl n).dropEdge then s1.modSl n (fun x => { x with dropEdge := false })
  else s1.setFlag (sB n) ⟨SLICE_CMP_FLAGS, 2 * i + (if above then 0 else 1), 1⟩ true

def Dev.cmpLevel (s : Dev) (n : SliceId) (i : Nat) : Bool := bitOf (s.rd (sB n + SLICE_CMP_STATUS)).toNat i

/-- BAND_UNDECIDED of a clamp. -/
def undecFld (high : Bool) : Fld := if high then SLICE_CMP_STATUS_UNDEC_HI else SLICE_CMP_STATUS_UNDEC_LO

/-- A clamp of slice `n` is armed with its input on a side of its hysteresis band (R158). -/
def Dev.armClamp (s : Dev) (n : SliceId) (high : Bool) (side : Side) : Dev :=
  let i := if high then 0 else 1
  let safe := bitOf (s.plates.cmpSafe.getD n.val 0) i
  let f : Fld := ⟨SLICE_CMP_STATUS, i, 1⟩
  match side with
  | .above => (s.setFlag (sB n) f true).setFlag (sB n) (undecFld high) false
  | .below => (s.setFlag (sB n) f false).setFlag (sB n) (undecFld high) false
  | .inside => (s.setFlag (sB n) f safe).setFlag (sB n) (undecFld high) true

/-- The clamps are armed: from step 6 of R47 on. -/
def Dev.clampsArmed (s : Dev) : Bool := decide (8 ≤ s.boot.step)

/-! ## Clamp holds (R76, R94, R149) -/

/-- Clamp hold and CLAMP_N on every slice of the gang of slice `n`. -/
def Dev.clampHold (s : Dev) (n : SliceId) : Dev :=
  s.each (s.gang n) (fun d m =>
    let d1 := d.modSl m (fun x => { x with clampN := true, holdEnds := false })
    if d.inPark m then d1
    else (d1.setFlag (sB m) SLICE_FORCE_STATUS_CLAMP_HOLD true).setFlag (sB m) SLICE_CLAMP_STATUS_HOLD true)

/-- What a trip on slice `n` does: the hold, the source, and in MODE 2 park 2 cycles later. -/
def Dev.clampHit (s : Dev) (n : SliceId) : Dev :=
  let parked := s.inPark n
  let s1 := (s.clampHold n).raiseSlice n 4 0
  if s.fld (sB n) SLICE_CLAMP_CFG_MODE == 2 && !parked then (s1.upTo (s1.now + 2)).parkBegin n else s1

/-- A clamp of slice `n` crosses its threshold: 6 cycles later its output is active, the FDACs of the gang hold what they have
latched by then, and the trip acts (R13, R160); an undecided output is decided. -/
def Dev.clampTrip (s : Dev) (n : SliceId) (high : Bool) : Dev :=
  let s1 := ((s.upTo (s.now + 6)).each (s.gang n) Dev.land).setFlag (sB n) (undecFld high) false
  if s.clampOn n high then s1 else (s1.cmpEdge n (if high then 0 else 1) high).clampHit n

/-- CLAMP_TRIP. In freeze the output moves and the path that needs no clock acts: the hold begins and CLAMP_N falls (R11, R14); the
edge and the source follow at thaw (R160). -/
def execClampTrip (n : SliceId) (high : Bool) (s : State) : Host.Outcome State Fault Refusal :=
  s.on (fun d =>
    if !d.pins.resetN || !d.clampsArmed then d
    else if d.frz.frozen then
      (let d1 := (d.setFlag (sB n) ⟨SLICE_CMP_STATUS, if high then 0 else 1, 1⟩ high).setFlag (sB n) (undecFld high) false
       if d.clampOn n high then d1 else (d1.clampHold n).modSl n (fun x => { x with tripped := true }))
    else d.clampTrip n high)

/-- Both clamp outputs of the gang of slice `n` are inactive from this cycle on: the quiet time begins, and CLAMP_N rises on
a slice whose park has ended its hold. -/
def Dev.clampQuiet (s : Dev) (n : SliceId) : Dev :=
  if s.clampActive n then s
  else s.each (s.gang n) (fun d m => d.modSl m (fun x =>
    { x with quietAt := d.now, clampN := x.clampN && !d.inPark m }))

/-- A clamp's input crosses back past its band: 6 cycles later the output is inactive. -/
def Dev.clampReturn (s : Dev) (n : SliceId) (high : Bool) : Dev :=
  let s1 := (s.upTo (s.now + 6)).setFlag (sB n) (undecFld high) false
  if s.clampOn n high then (s1.cmpEdge n (if high then 0 else 1) (!high)).clampQuiet n else s1

/-- CLAMP_INPUT_RETURN. -/
def execClampInputReturn (n : SliceId) (high : Bool) (s : State) : Host.Outcome State Fault Refusal :=
  s.on (fun d =>
    if !d.pins.resetN || !d.clampsArmed then d
    else if d.frz.frozen then
      (d.setFlag (sB n) ⟨SLICE_CMP_STATUS, if high then 0 else 1, 1⟩ (!high)).setFlag (sB n) (undecFld high) false
    else d.clampReturn n high)

/-- The hold of slice `n`'s gang ends at the next tick. -/
def Dev.endHold (s : Dev) (n : SliceId) : Dev := s.each (s.gang n) (fun d m => d.modSl m (fun x => { x with holdEnds := true }))

/-- CLAMP_AUTO_RELEASE: in MODE 0, RELEASE_NS after the clamps went quiet. -/
def execClampAutoRelease (n : SliceId) (s : State) : Host.Outcome State Fault Refusal :=
  s.onAwake (fun d =>
    let b := sB n
    if d.flag b SLICE_FORCE_STATUS_CLAMP_HOLD && d.fld b SLICE_CLAMP_CFG_MODE == 0 && !d.clampActive n then
      (d.upTo ((d.sl n).quietAt + d.fld b SLICE_CLAMP_CFG_RELEASE_NS)).endHold n
    else d)

/-- A write of one to `SLICE_CLAMP_CTRL.CLEAR`. -/
def Dev.clampClear (s : Dev) (n : SliceId) : Dev :=
  if s.clampActive n then s.setFlag (sB n) SLICE_CLAMP_STATUS_REFUSED true
  else if s.flag (sB n) SLICE_FORCE_STATUS_CLAMP_HOLD && s.fld (sB n) SLICE_CLAMP_CFG_MODE % 2 == 1 then s.endHold n
  else s

def execClampClear (n : SliceId) (s : State) : Host.Outcome State Fault Refusal := s.onAwake (fun d => d.clampClear n)

/-! ## WIN (R161) -/

/-- An edge of WIN on slice `n`: its event, if EDGE names it, goes to the group's vector, to a WAIT 8 of its engine, and stands for
a comparator jump (R161, R255). -/
def Dev.winEvent (s : Dev) (n : SliceId) (rise : Bool) : Dev :=
  let g := s.low n
  let e := s.fld (sB n) SLICE_WIN_CFG_EDGE
  if bitOf e (if rise then 0 else 1) then
    let s0 := s.modSl n (fun x => { x with winOffer := some s.now })
    let s1 := if s0.flag (sB n) SLICE_WIN_CFG_IRQ_EN then s0.groupEvent g.val else s0
    if g.val + s.fld (tB g) TRAV_WAIT_CFG_WIN_SLICE == n.val then s1.waitEvent g 8 else s1
  else s

/-- WIN_CROSSING in continuous mode: the output moves, or an undecided one is decided, 6 cycles after the crossing; the event is
offered in the next (R160). -/
def Dev.winCross (s : Dev) (n : SliceId) (above : Bool) : Dev :=
  let s1 := (s.upTo (s.now + 6)).setFlag (sB n) SLICE_CMP_STATUS_UNDEC_WIN false
  if s.cmpLevel n 3 == above then s1
  else
    let s2 := (s1.cmpEdge n 3 above).upTo (s1.now + 1)
    if (s.sl n).dropEdge then s2 else s2.winEvent n above

def execWinCrossing (n : SliceId) (above : Bool) (s : State) : Host.Outcome State Fault Refusal :=
  s.on (fun d =>
    if !d.pins.resetN || !d.flag (sB n) SLICE_WIN_CFG_ENABLE || d.flag (sB n) SLICE_WIN_CFG_MODE then d
    else if d.frz.frozen then
      (d.setFlag (sB n) ⟨SLICE_CMP_STATUS, 3, 1⟩ above).setFlag (sB n) SLICE_CMP_STATUS_UNDEC_WIN false
    else d.winCross n above)

/-- The code of a threshold moved by `h` mV of hysteresis, in units of 0.5 mV from code 0. -/
def halfMv (code : Nat) : Int := 5 * code

/-- State of a window after a conversion `v` (0 inside, 1 below, 2 above) from state `st`, thresholds `lo` and `hi`, hysteresis
`h`, all in one unit (R157, R161, R162). -/
def windowState (st : Nat) (v lo hi h : Int) : Nat :=
  if hi < v || (st == 2 && decide (hi - h ≤ v)) then 2
  else if v < lo || (st == 1 && decide (v ≤ lo + h)) then 1
  else 0

/-- Rank of a state: below, inside, above. -/
def stateRank (st : Nat) : Nat := if st == 1 then 0 else if st == 0 then 1 else 2

/-- WIN is armed with its input's code (R158): inside a hysteresis band its output is forced to the side CMP_SAFE names. -/
def Dev.winArm (s : Dev) (n : SliceId) (input : Nat) : Dev :=
  let b := sB n
  let safe := bitOf (s.plates.cmpSafe.getD n.val 0) 3
  let v := halfMv input
  let hi := halfMv (s.fld b SLICE_WIN_THR_THR_HI)
  let lo := halfMv (s.fld b SLICE_WIN_THR_THR_LO)
  let h : Int := 2 * s.fld b SLICE_CMP_HYST_HYST_WIN
  let inHi := decide (hi - h ≤ v) && decide (v ≤ hi)
  let inLo := s.flag b SLICE_WIN_CFG_MODE && decide (lo ≤ v) && decide (v ≤ lo + h)
  let st := if inHi then (if safe then 2 else 0) else if inLo then (if safe then 0 else 1) else windowState 0 v lo hi h
  let s1 := (s.setFlag b SLICE_CMP_STATUS_UNDEC_WIN (inHi || inLo)).modSl n (fun x => { x with winUndecHi := inHi })
  if s.flag b SLICE_WIN_CFG_MODE then (s1.setFld b SLICE_CMP_STATUS_WIN_STATE st).setFlag b ⟨SLICE_CMP_STATUS, 3, 1⟩ (st == 2)
  else s1.setFlag b ⟨SLICE_CMP_STATUS, 3, 1⟩ (if inHi then safe else decide (hi < v))

/-- A write of `SLICE_WIN_CFG`: INPUT 3 and TICK_US 0 or above 1,000 are refused; a write that enables WIN or changes its
MODE arms it with its input. -/
def Dev.winCfgWrite (s : Dev) (n : SliceId) (v : Word) (input : BitVec 12) : Dev :=
  let b := sB n
  let x := v.toNat
  if getBits x 2 2 == 3 || getBits x 16 10 == 0 || decide (1000 < getBits x 16 10) then s.setFlag b SLICE_CMP_STATUS_REFUSED true
  else
    let arm := bitOf x 0 && (!s.flag b SLICE_WIN_CFG_ENABLE || bitOf x 1 != s.flag b SLICE_WIN_CFG_MODE)
    let s1 := s.store (b + SLICE_WIN_CFG) v
    if arm then s1.winArm n input.toNat else s1

def execWinCfgWrite (n : SliceId) (v : Word) (input : BitVec 12) (s : State) : Host.Outcome State Fault Refusal :=
  s.onAwake (fun d => d.winCfgWrite n v input)

/-- The cycle of the next tick of a converter whose latest was at cycle `last`: the first after it at which TIME is a multiple of
`k`, and no more than the 202 cycles of a tick ago, as another converter's tick may have begun in the same cycle (R162). -/
def Dev.convTick (s : Dev) (last k : Nat) : Nat :=
  let c := max (last + 1) (s.now - 202)
  c + (k - (s.time.toNat + c - s.now) % k) % k

/-- A move of WIN in sampled mode, and its flags: RISE once for a move up, FALL once for a move down. -/
def Dev.winMove (s : Dev) (n : SliceId) (st : Nat) : Dev :=
  let old := s.fld (sB n) SLICE_CMP_STATUS_WIN_STATE
  let s1 := (s.setFld (sB n) SLICE_CMP_STATUS_WIN_STATE st).setFlag (sB n) ⟨SLICE_CMP_STATUS, 3, 1⟩ (st == 2)
  if stateRank old < stateRank st then (s1.setFlag (sB n) SLICE_CMP_FLAGS_WIN_RISE true).winEvent n true
  else if stateRank st < stateRank old then (s1.setFlag (sB n) SLICE_CMP_FLAGS_WIN_FALL true).winEvent n false
  else s1

/-- WIN_SAMPLED_TICK: a conversion at a multiple of TICK_US, and the window decision 202 cycles later. An undecided output
stays until the conversion leaves the band it was armed in. -/
def execWinSampledTick (n : SliceId) (value : BitVec 12) (s : State) : Host.Outcome State Fault Refusal :=
  s.onAwake (fun d =>
    let b := sB n
    if !d.domains || !d.flag b SLICE_WIN_CFG_ENABLE || !d.flag b SLICE_WIN_CFG_MODE then d
    else
      let t := d.convTick (d.sl n).winTick (1000 * d.fld b SLICE_WIN_CFG_TICK_US)
      let d1 := ((d.upTo (t + 202)).setFld b SLICE_WIN_VALUE_VALUE value.toNat).modSl n (fun x => { x with winTick := t })
      let v := halfMv value.toNat
      let hi := halfMv (d.fld b SLICE_WIN_THR_THR_HI)
      let lo := halfMv (d.fld b SLICE_WIN_THR_THR_LO)
      let h : Int := 2 * d.fld b SLICE_CMP_HYST_HYST_WIN
      let band := if (d.sl n).winUndecHi then decide (hi - h ≤ v) && decide (v ≤ hi) else decide (lo ≤ v) && decide (v ≤ lo + h)
      if d.flag b SLICE_CMP_STATUS_UNDEC_WIN && band then d1
      else (d1.setFlag b SLICE_CMP_STATUS_UNDEC_WIN false).winMove n (windowState (d.fld b SLICE_CMP_STATUS_WIN_STATE) v lo hi h))

/-! ## Monitors (R162, R163) -/

/-- Monitor `m` is enabled by the PINS plate. -/
def Dev.monOn (s : Dev) (m : Nat) : Bool := bitOf (s.plates.smon.getD m 0) 0
/-- Action of monitor `m`. -/
def Dev.monAction (s : Dev) (m : Nat) : Nat := getBits (s.plates.smon.getD m 0) 2 2
def Dev.monState (s : Dev) (m : Nat) : Nat := s.fld (monBase m) MON_STATUS_STATE

/-- MSI-X vector of monitor `m`. -/
def monVector (m : SliceId) : Fin 40 := ⟨36 + m.val / 8, by omega⟩

/-- Monitor `m` enters state `st`: flags, vector, and SMON_OUTSIDE on entering BELOW or ABOVE. -/
def Dev.monMove (s : Dev) (m : SliceId) (st : Nat) : Dev :=
  let b := monBase m.val
  let old := s.monState m.val
  let s1 := s.setFld b MON_STATUS_STATE st
  if old == st then s1
  else
    let s2 := s1.setFlag b (if stateRank old < stateRank st then MON_STATUS_RISE else MON_STATUS_FALL) true
    let s3 := if s2.flag b MON_CFG_IRQ_EN then s2.vector (monVector m) else s2
    if st == 0 then s3 else s3.raise (0x340 + m.val) 0 0 m.val

/-- SMON_TICK. -/
def execSmonTick (m : SliceId) (value : BitVec 12) (s : State) : Host.Outcome State Fault Refusal :=
  s.onAwake (fun d =>
    let b := monBase m.val
    if !d.domains || !d.monOn m.val then d
    else
      let t := d.convTick (d.mons.get m).at_ (1000 * d.fld b MON_CFG_TICK_US)
      let d1 := (d.upTo (t + 202)).setFld b MON_STATUS_VALUE value.toNat
      let d2 := d1.modMon m (fun x => { x with ticks := (x.ticks + 1) % 256, at_ := t })
      let keep := d2.flag b MON_STATUS_UNDECIDED && d2.monIn m.val (d2.mons.get m).undecHi value.toInt
      let st := windowState (d2.monState m.val) (2 * value.toInt) (2 * signed 12 (d2.fld b MON_THR_LO)) (2 * signed 12 (d2.fld b MON_THR_HI))
        (d2.fld b MON_CFG_HYST)
      let d3 := if keep then d2 else (d2.setFlag b MON_STATUS_UNDECIDED false).monMove m st
      let d4 := if value == 0x800 || value == 0x7FF then d3.raise (0x360 + m.val) 0 0 m.val else d3
      if d4.monAction m.val == 2 && d4.monState m.val != 0 && !d4.parked m then
        ((d4.upTo (t + 204)).modSl m (fun x => { x with monPark := true })).parkBegin m
      else d4)

/-! ## Writes (R156, R162, R170, R172) -/

/-- A write of `SLICE_CMP_HYST`: a field above 50 mV keeps its value, the others are stored (R156). -/
def Dev.hystWrite (s : Dev) (n : SliceId) (v : Word) : Dev :=
  s.each [SLICE_CMP_HYST_HYST_HI, SLICE_CMP_HYST_HYST_LO, SLICE_CMP_HYST_HYST_WIN] (fun d f =>
    let x := getBits v.toNat f.lo f.w
    if 50 < x then d.setFlag (sB n) SLICE_CMP_STATUS_REFUSED true else d.setFld (sB n) f x)

/-- A write of `SLICE_WIN_THR`: THR_LO at or above THR_HI is refused. -/
def Dev.winThrWrite (s : Dev) (n : SliceId) (v : Word) : Dev :=
  if getBits v.toNat 0 12 ≤ getBits v.toNat 16 12 then s.setFlag (sB n) SLICE_CMP_STATUS_REFUSED true
  else s.store (sB n + SLICE_WIN_THR) v

/-- A write of a monitor's CFG, THR or STATUS; a monitor that is not enabled ignores it. -/
def Dev.monWrite (s : Dev) (m o : Nat) (v : Word) : Dev :=
  let b := monBase m
  let x := v.toNat
  let bad := if o == MON_CFG then getBits x 0 10 == 0 || decide (1000 < getBits x 0 10) || decide (50 < getBits x 10 6)
    else if o == MON_THR then decide (signed 12 (getBits x 16 12) ≤ signed 12 (getBits x 0 12)) else false
  if !s.monOn m then s
  else if bad then s.setFlag b MON_STATUS_REFUSED true
  else s.store (b + o) v

/-- A write of `SLICE_CMP_HYST` or `SLICE_WIN_THR` of a slice, or of a monitor's registers, by BAR0 offset. -/
def Dev.comparatorWrite (s : Dev) (a : Nat) (v : Word) : Dev :=
  if 0x90000 ≤ a && a < 0x90200 then s.monWrite ((a - 0x90000) / 16) (a % 16) v
  else if 0x100000 ≤ a && a < 0x300000 then
    let n := sid ((a - 0x100000) / 0x10000)
    if a % 0x10000 == SLICE_CMP_HYST then s.hystWrite n v
    else if a % 0x10000 == SLICE_WIN_THR then s.winThrWrite n v
    else s
  else s

def execComparatorWrite (offset : Nat) (v : Word) (s : State) : Host.Outcome State Fault Refusal :=
  s.onAwake (fun d => d.comparatorWrite offset v)

end Sys2Proof.Machine
end

