-- ==== Sys2Proof/Machine/PreReg.lean ====
section
/-! DEFINITION. The pre-regulators (R164 to R168, R171) and UNPARK (R89, R376), which starts them. -/

namespace Sys2Proof.Machine

/-! ## Start -/

/-- The pre-regulator of slice `n` starts if it is enabled: u = 0, soft start in force (R167). -/
def Dev.prgStart (s : Dev) (n : SliceId) : Dev :=
  let b := sB n
  if s.flag b SLICE_PRG_CFG_EN then
    (((s.modSl n (fun x => { x with prgU := 0, prgE := 0, prgOc := 0, prgLow := 0, prgStop := false, prgTick := 0 })).setFld b
      SLICE_PRG_STATUS_CTRL 0).setFlag b SLICE_PRG_STATUS_RUNNING true).setFlag b SLICE_PRG_STATUS_SOFT true
  else s

/-! ## A period (R164, R165, R168) -/

/-- The cycle of the next period start of slice `n`, of period `k`: the first from now on, after its latest one, at which TIME mod K
is ⌊n × K / 32⌋. -/
def Dev.nextPhase (s : Dev) (n : SliceId) (k : Nat) : Nat :=
  let c := max s.now ((s.sl n).prgAt + 1)
  c + (k + n.val * k / 32 - (s.time.toNat + (c - s.now)) % k) % k

/-- V(PRG_CS) in µV in cycle `t` of a period: the points name the cycle from which each value stands. -/
def csAt (cs : List (Nat × Int)) (t : Nat) : Int :=
  (cs.foldl (fun (best : Nat × Int) p => if best.1 ≤ p.1 && p.1 ≤ t then p else best) (0, 0)).2

/-- The first cycle of a period outside blanking in which PRG is active (R164, R165): V_CTRL in mV, SLOPE in 4 mV/µs. -/
def prgActive (cs : List (Nat × Int)) (ctrl slope k : Nat) : Option Nat :=
  (List.range k).find? (fun t => decide (31 ≤ t) && decide ((1000 * ctrl : Nat) - (4 * slope * t : Nat) ≤ csAt cs t))

/-- Level of PRG_PWM of slice `n`: in freeze a clockless gate holds it low (R167). -/
def Dev.prgPin (s : Dev) (n : SliceId) : Bool :=
  !s.frz.frozen && (match (s.sl n).prgPwm with
    | some p => decide (p.1 ≤ s.now) && decide (s.now < p.2)
    | none => false)

/-- OVERCURRENT on slice `n`: switching stops until the slice has been parked and unparked. -/
def Dev.overcurrent (s : Dev) (n : SliceId) : Dev :=
  let b := sB n
  (((s.modSl n (fun x => { x with prgStop := true, prgPwm := none, prgOc := 0 })).setFlag b SLICE_PRG_STATUS_RUNNING false).setFlag b
    SLICE_PRG_STATUS_OVERCURRENT true).raiseSlice n 6 0

/-- PRG_PERIOD_START: one period, its pulse included. `cs` is V(PRG_CS) over the period, in µV from the cycles it names on, `vs` the
PRG_VS conversion taken for the period. With control code 0 the period is skipped. -/
def execPrgPeriodStart (n : SliceId) (cs : List (Nat × Int)) (vs : BitVec 12) (s : State) : Host.Outcome State Fault Refusal :=
  s.onAwake (fun d =>
    let b := sB n
    let k := d.fld b SLICE_PRG_CFG_PERIOD
    if !d.domains || !d.flag b SLICE_PRG_STATUS_RUNNING then d
    else
      let at_ := d.nextPhase n k
      let d1 := ((d.upTo at_).setFld b SLICE_PRG_RAIL_CODE vs.toNat).modSl n (fun x => { x with prgAt := at_ })
      let ctrl := d1.fld b SLICE_PRG_STATUS_CTRL
      if ctrl == 0 then d1.modSl n (fun x => { x with prgOc := 0 })
      else
        let act := prgActive cs ctrl (d.fld b SLICE_PRG_CFG_SLOPE) k
        let d2 := if act.isSome then (d1.cmpEdge n 2 true).cmpEdge n 2 false else d1
        let most := 1 + 9 * k / 10
        let long := match act with
          | some t => decide (10 + 9 * k < 10 * max (t + 5) 41)
          | none => true
        let stop := match act with
          | some t => if long then most else max (t + 5) 41
          | none => most
        let d3 := if long then d2.setFlag b SLICE_PRG_STATUS_MAXDUTY true else d2
        let run := if act = some 31 then (d.sl n).prgOc + 1 else 0
        let d4 := d3.modSl n (fun x => { x with prgOc := run, prgPwm := some (at_ + 1, at_ + stop) })
        let cnt := d.fld b SLICE_PRG_CFG_FAULT_COUNT
        if cnt != 0 && decide (cnt ≤ run) then d4.overcurrent n else d4)

/-! ## The headroom loop (R166, R168) -/

/-- `head` in 2⁻¹² mV: rail less the load of this slice. -/
def Dev.head (s : Dev) (n : SliceId) : Int :=
  let b := sB n
  let ab := fun (x : Int) => if x < 0 then -x else x
  let rail : Int := s.fld b SLICE_PRG_RAIL_CODE * s.fld b SLICE_PRG_RATE_RAIL_DIV * 8
  let v := openDiv (ab (s.mV n) * s.vfs n (s.vrange n) * 4096) 2147483648000000
  let i := openDiv (ab (s.mAct n) * s.ifs n (s.irange n) * (s.fld b SLICE_PRG_RCOMP_R_COMP : Nat) * 4096) 2147483648000000000000000
  rail - v - i

/-- HEAD_SP and HEAD_MIN in use. -/
def Dev.headPair (s : Dev) (n : SliceId) : Word := s.pairUse (sB n + SLICE_PRG_HEAD_V) (s.sl n).goodHead

/-- The law of one headroom tick. -/
def Dev.headLaw (s : Dev) (n : SliceId) : Dev :=
  let b := sB n
  let x := s.sl n
  let w := (s.headPair n).toNat
  let sp : Int := getBits w 0 16 * 4096
  let mn : Int := getBits w 16 16 * 4096
  let head := s.head n
  let e := sp - head
  let soft := s.flag b SLICE_PRG_STATUS_SOFT
  let u0 := x.prgU + (s.fld b SLICE_PRG_LOOP_KP : Int) * (e - x.prgE) + (s.fld b SLICE_PRG_LOOP_KI : Int) * e
  let u1 := if soft then min u0 (x.prgU + (s.fld b SLICE_PRG_LIMIT_SOFT_STEP : Int) * 16777216) else u0
  let u := clampI 0 ((s.fld b SLICE_PRG_LIMIT_CTRL_MAX : Int) * 16777216) u1
  let low := if !soft && decide (head < mn) then min 16 (x.prgLow + 1) else 0
  let s1 := s.modSl n (fun y => { y with prgU := u, prgE := e, prgLow := low, goodHead := BitVec.ofNat 32 w })
  let s2 := ((s1.setFld b SLICE_PRG_STATUS_CTRL (roundDiv u 16777216).toNat).setFld b SLICE_PRG_STATUS_HEADROOM
    (unsigned 16 (satS 16 (openDiv head 4096)))).setFlag b SLICE_PRG_STATUS_SOFT (soft && decide (head < sp))
  if low == 16 && decide (x.prgLow < 16) then (s2.setFlag b SLICE_PRG_STATUS_HEADROOM_LOW true).raiseSlice n 6 0 else s2

/-- HEADROOM_TICK: M_H inner samples have passed; u and e_prev hold in a voltage hold, in loop hold and on stale feedback. -/
def execHeadroomTick (n : SliceId) (s : State) : Host.Outcome State Fault Refusal :=
  s.onAwake (fun d =>
    let b := sB n
    let m := d.fld b SLICE_PRG_RATE_M_H
    let on := d.flag b SLICE_PRG_STATUS_RUNNING || (d.sl n).prgStop
    let o := d.owner n
    if !d.domains || !on || decide ((d.sl n).prgTick < (if m == 0 then 4096 else m)) then d
    else
      let d1 := d.modSl n (fun x => { x with prgTick := 0 })
      if (d.sl o).vhold.isSome || d.loopState o == 2 || decide (0 < d.fld (sB o) SLICE_FB_STATUS_STALE_RUN) then d1
      else
        let w := d1.rd (b + SLICE_PRG_HEAD_V)
        (if d1.rd (b + SLICE_PRG_HEAD_C) == ~~~w then d1 else d1.mismatch n).headLaw n)

/-! ## Registers (R164, R167, R171) -/

def Dev.prgRefuse (s : Dev) (n : SliceId) : Dev := s.setFlag (sB n) SLICE_PRG_STATUS_REFUSED true

/-- A write of a pre-regulator register: EN changes only while parked; values outside their span are refused. A CTRL_MAX below the
control code lowers it at once (R165). -/
def Dev.prgWrite (s : Dev) (n : SliceId) (o : Nat) (v : Word) : Dev :=
  let x := v.toNat
  let bad :=
    if o == SLICE_PRG_CFG then
      decide (getBits x 8 12 < 500) || decide (4000 < getBits x 8 12)
        || (bitOf x 0 != s.flag (sB n) SLICE_PRG_CFG_EN && !s.parked n)
    else if o == SLICE_PRG_LIMIT then getBits x 16 10 == 0
    else if o == SLICE_PRG_RATE then getBits x 0 12 == 1 || decide (getBits x 16 16 < 256)
    else false
  if bad then s.prgRefuse n
  else
    let s1 := s.store (sB n + o) v
    s1.setFld (sB n) SLICE_PRG_STATUS_CTRL (min (s1.fld (sB n) SLICE_PRG_STATUS_CTRL) (s1.fld (sB n) SLICE_PRG_LIMIT_CTRL_MAX))

def execPrgCfgWrite (n : SliceId) (v : Word) (s : State) : Host.Outcome State Fault Refusal :=
  s.onAwake (fun d => d.prgWrite n SLICE_PRG_CFG v)

/-! ## UNPARK (R89, R376) -/

/-- A monitor's park is in force on a slice of group `r` while the monitor reports BELOW or ABOVE (R163). -/
def Dev.monParked (s : Dev) (r : GroupRec) : Bool := r.slices.any (fun n => (s.sl n).monPark && s.monState n.val != 0)

/-- A clamp of a slice of group `r` is undecided on its active side (R159). -/
def Dev.undecidedActive (s : Dev) (r : GroupRec) : Bool :=
  r.slices.any (fun n => (s.flag (sB n) SLICE_CMP_STATUS_UNDEC_HI && s.clampOn n true)
    || (s.flag (sB n) SLICE_CMP_STATUS_UNDEC_LO && s.clampOn n false))

/-- Slice `n` is under calibration. -/
def Dev.calibrating (s : Dev) (n : SliceId) : Bool :=
  match s.datum.cal with
  | some c => c.mask.getLsbD n.val
  | none => false

/-- The status of the first row of R376 whose condition holds; none where the sequence starts. -/
def Dev.unparkStatus (s : Dev) (r : GroupRec) : Option Nat :=
  if (s.unparkOf r.first).isSome then some BUSY
  else if !s.pins.interlockN || s.flag 0 GLOBAL_STATUS_GRAVE_LATCH || s.monParked r || (s.rd (FAULT_REAL + 4 * 31)).getLsbD 0
      || s.powerFailing then some PARKED
  else if r.slices.any s.parkBusy then some BUSY
  else if !r.slices.any s.parked then some OK
  else if s.undecidedActive r then some PRECONDITION
  else if s.fld 0 DATUM_STATUS_BANK == 3 && getBits (s.rd DATUM_STATUS).toNat 2 3 == 0 then some INTEGRITY
  else if !r.slices.all (fun n => s.coefBaseOk n && s.limBaseOk n) then some BAD_PARAM
  else if r.slices.any s.calibrating || s.flag 0 ATLAS_STATUS_PARTIAL_BUSY then some BUSY
  else none

/-- Cycle 0 of R89 on slice `n`. The clockless default gives way (R56); both paths return to use (R144); the sets in force
are copied and checked (R146, R180); the Datum's full scales come into force (R327). -/
def Dev.unparkSlice (s : Dev) (n : SliceId) : Dev :=
  let b := sB n
  let s1 := s.modSl n (fun x => { x with phase := .unparking s.now false, dflt := false, gate := false, monPark := false
                                         trim := 0, fs := x.fsNext, runs := [], errRun := 0, codes := [] })
  let s2 := ((((s1.setFlag b SLICE_FORCE_STATUS_PARKED false).setFlag b SLICE_RANGE_STATUS_PATH_LOST false).setFlag b
    SLICE_FB_STATUS_REDUNDANT false).setFld b SLICE_BAL_TRIM_TRIM 0)
  let s3 := (s2.copySets n (s2.fld b SLICE_LOOP_STATUS_COEF_SET)).readLimits n (s2.fld b SLICE_LIM_STATUS_ACTIVE)
  (((s3.convertLimits n).loadThr n).prgStart n).driveNow n

/-- UNPARK: its checks, then R89 on every slice of the group; a clamp that is active starts its hold again (R149). -/
def Dev.unparkCmd (s : Dev) (c : Ctx) (r : GroupRec) : Dev :=
  match s.unparkStatus r with
  | some st => s.complete c st
  | none =>
    let ns := r.slices
    let s1 := (s.each ns Dev.unparkSlice).schedule c .unpark r.first (maskOf ns) s.now 0
    let hits := ns.filter (fun n => s1.clampOn n true || s1.clampOn n false)
    s1.each hits Dev.clampHit

def execUnpark (h : Hdr) (s : State) : Host.Outcome State Fault Refusal :=
  s.onAwake (fun d => d.ringCmd h 0x0D .unpark (fun s c r => s.unparkCmd c r))

/-- PARK begins park on every slice of the group at execution (R376). -/
def Dev.parkCmd (s : Dev) (c : Ctx) (r : GroupRec) : Dev :=
  let s1 := r.slices.foldl Dev.parkBegin s
  if r.slices.all s1.parked then s1.complete c OK else s1.schedule c .park r.first (maskOf r.slices) s1.now 0

def execPark (h : Hdr) (s : State) : Host.Outcome State Fault Refusal :=
  s.onAwake (fun d => d.ringCmd h 0x0C .park (fun s c r => s.parkCmd c r))

end Sys2Proof.Machine
end

