-- ==== Sys2Proof/Machine/Pairs.lean ====
section
/-! DEFINITION. Paired registers (R314): staging, the comparison, and what a pair does when it takes effect. -/

namespace Sys2Proof.Machine

/-- The offsets of the _V words in a slice's block. -/
def pairOffsets : List Nat :=
  [SLICE_PARK_CODE_V, SLICE_FDAC_WRITE_V, SLICE_PRG_HEAD_V, SLICE_LOOP_OUTMIN_V, SLICE_LOOP_OUTMAX_V, SLICE_LOOP_XMARGIN_V,
   SLICE_OUTER_SP_V, SLICE_OUTER_LO_V, SLICE_OUTER_HI_V]

/-- The slice and the offset of a pair's _V word, from the BAR0 offset of the _V word. -/
def pairAt (a : Nat) : Option (SliceId × Nat) :=
  if 0x100000 ≤ a && a < 0x300000 && pairOffsets.contains (a % 0x10000) then some (sid ((a - 0x100000) / 0x10000), a % 0x10000)
  else none

/-- Bits of a _V word that are not reserved. -/
def pairMask (o : Nat) : Word :=
  if o == SLICE_PARK_CODE_V || o == SLICE_FDAC_WRITE_V || o == SLICE_LOOP_OUTMIN_V || o == SLICE_LOOP_OUTMAX_V
      || o == SLICE_LOOP_XMARGIN_V then 0xFFFFF
  else 0xFFFFFFFF

/-- BAR0 blocks the host reaches (R52, R360): all of them after release; GLOBAL and ATLAS while the push window is open
and while a pushed image is checked and applied; none in D3hot, and none of a remote (R15). -/
def Dev.hostReach0 (s : Dev) (a : Nat) : Bool :=
  !s.cfg.d3 && !s.isRemote && (s.released || (decide (a < 0x20000)
    && (s.flag 0 GLOBAL_STATUS_PUSH_OPEN || s.boot.push || (s.flag 0 ATLAS_STATUS_LOADED && s.fld 0 ATLAS_STATUS_SOURCE == 2))))

/-- A host write outside the blocks it reaches, or to a slice, Traverse or generator block that a partial reload is
replacing, is discarded (R41, R52). -/
def Dev.reloadBars (s : Dev) (rq : Requester) (a : Nat) : Bool :=
  let u := if 0x100000 ≤ a && a < 0x300000 then some ((a - 0x100000) / 0x10000)
    else if 0x400000 ≤ a && a < 0x420000 then some ((a - 0x400000) / 0x1000)
    else if 0x500000 ≤ a && a < 0x520000 then some ((a - 0x500000) / 0x1000)
    else none
  decide (rq = .host) && (!s.hostReach0 a || (match u with
    | some k => s.reloading k
    | none => false))

/-- The value latched for a pair and a requester. -/
def Dev.stagedAt (s : Dev) (rq : Requester) (a : Nat) : Option Word :=
  (s.staged.find? (fun x => decide (x.1 = rq) && x.2.1 == a)).map (fun x => x.2.2)

def Dev.unstage (s : Dev) (rq : Requester) (a : Nat) : Dev :=
  { s with staged := s.staged.filter (fun x => !(decide (x.1 = rq) && x.2.1 == a)) }

/-- A value passes the pair's own checks (R78, R99, R171, R196, R217). -/
def Dev.pairOk (s : Dev) (n : SliceId) (o : Nat) (v : Word) : Bool :=
  let b := sB n
  let c := (BitVec.ofNat 20 v.toNat).toInt
  let code := fun (f : Nat) => (BitVec.ofNat 20 (s.rd (b + f)).toNat).toInt
  if o == SLICE_PARK_CODE_V then !s.parkBusy n && s.codeInLimits n c
  else if o == SLICE_FDAC_WRITE_V then s.direct n && s.directSrc n == 0
  else if o == SLICE_PRG_HEAD_V then
    decide (100 ≤ getBits v.toNat 0 16) && decide (getBits v.toNat 0 16 ≤ 20000) && decide (getBits v.toNat 16 16 ≤ getBits v.toNat 0 16)
  else if o == SLICE_LOOP_OUTMIN_V then decide (c < code SLICE_LOOP_OUTMAX_V) && s.codeInLimits n c
  else if o == SLICE_LOOP_OUTMAX_V then decide (code SLICE_LOOP_OUTMIN_V < c) && s.codeInLimits n c
  else if o == SLICE_LOOP_XMARGIN_V then decide (0 ≤ c)
  else if o == SLICE_OUTER_LO_V then decide (v.toInt < (s.rd (b + SLICE_OUTER_HI_V)).toInt)
  else if o == SLICE_OUTER_HI_V then decide ((s.rd (b + SLICE_OUTER_LO_V)).toInt < v.toInt)
  else true

/-- A pair takes effect: its words, and for a code the queue or holding register (R78), or the FDAC of a slice that has never
run its UNPARK sequence (R54; DEDUCED, notes/assumptions/25.md). -/
def Dev.pairEffect (s : Dev) (n : SliceId) (o : Nat) (v : Word) : Dev :=
  let w := v &&& pairMask o
  let s1 := (s.wr (sB n + o) w).wr (sB n + o + 4) (~~~w)
  let c : Code := BitVec.ofNat 20 w.toNat
  if o == SLICE_FDAC_WRITE_V then (s1.land n).pushCode n c
  else if o == SLICE_PARK_CODE_V && (s1.sl n).dflt then (s1.latch n c).modSl n (fun x => { x with holding := c, gcode := c.toInt })
  else s1

/-- A write of a _V word: the value is staged; a narrow one is a mismatch. -/
def Dev.stageWrite (s : Dev) (rq : Requester) (a : Nat) (v : Word) (full : Bool) : Dev :=
  match pairAt a with
  | none => s
  | some p =>
    if s.reloadBars rq a then s
    else if full then { s.unstage rq a with staged := (rq, a, v) :: (s.unstage rq a).staged }
    else s.pairNote p.1

def execPairedValueWrite (rq : Requester) (offset : Nat) (v : Word) (full : Bool) (s : State) : Host.Outcome State Fault Refusal :=
  s.onAwake (fun d => d.stageWrite rq offset v full)

/-- A write of a _C word, whose _V word is at `a`: the exact complement of the staged value that passes the checks makes the
pair take effect in the next cycle; anything else is a mismatch. The latch is emptied. -/
def Dev.complWrite (s : Dev) (rq : Requester) (a : Nat) (v : Word) (full : Bool) : Dev :=
  match pairAt a with
  | none => s
  | some p =>
    if s.reloadBars rq a then s
    else
      let s1 := s.unstage rq a
      if !full then s1.pairNote p.1
      else match s.stagedAt rq a with
      | none => s1.pairNote p.1
      | some x => if v == ~~~x && s.pairOk p.1 p.2 (x &&& pairMask p.2) then (s1.upTo (s1.now + 1)).pairEffect p.1 p.2 x else s1.pairNote p.1

/-- PAIRED_COMPLEMENT_WRITE at the offset of a _C word. -/
def execPairedComplementWrite (rq : Requester) (offset : Nat) (v : Word) (full : Bool) (s : State) : Host.Outcome State Fault Refusal :=
  s.onAwake (fun d => d.complWrite rq (offset - 4) v full)

end Sys2Proof.Machine
end

