-- ==== Sys2Proof/Machine/Meridian.lean ====
section
/-! DEFINITION. The Meridian (R264 to R287): sets and steps of TIME, discipline by PPS_IN, the slew, the external axes and
Precision Time Measurement. -/

namespace Sys2Proof.Machine

def Dev.modMer (s : Dev) (f : Mer → Mer) : Dev := { s with mer := f s.mer }

/-! ## Sets and steps (R266, R270) -/

/-- Marks that a change of an axis passed over are met at once and counted late; one that the axis stands on exactly is on
time (R278, R282), but on an axis that counted on before the change. `on` picks the axes, `past` those. -/
def Dev.passMarks (s : Dev) (on past : Nat → Bool) : Dev :=
  s.each s.plates.groups (fun d r =>
    let g := sid r.first
    match d.wantedMark g with
    | some m => if on r.axis && d.awaiting g 1 && d.reachedMark g m then d.meet g ((d.eng g).late || past r.axis || (d.axisOf g).1 != m) else d
    | none => d)

/-- A slew ends without having reached zero, or at zero. -/
def Dev.endSlew (s : Dev) : Dev :=
  let s1 := s.wr MER_SLEW_LEFT 0
  if s.flag 0 MER_TIME_STATUS_SLEWING then (s1.setFlag 0 MER_TIME_STATUS_SLEWING false).merEvent 1 else s1

/-- TIME becomes `t` in this cycle, as a step: no sample period is shortened, a hub sends the step on, a slew is cancelled. -/
def Dev.stepTime (s : Dev) (t : Word64) : Dev :=
  let d := t - s.time
  let s1 : Dev := { s with time := t }
  let s2 := (s1.wr64 MER_STEP_AT_LO MER_STEP_AT_HI t).wr64 MER_STEP_SIZE_LO MER_STEP_SIZE_HI d
  let s3 := s2.each s.plates.groups (fun x r => x.modEng (sid r.first) (fun e => { e with tickMin := e.tickAt + x.period r.first }))
  let s4 := (((s3.modMer (fun m => { m with stepPending := false })).endSlew).setFlag 0 MER_TIME_STATUS_STEPPED true).merEvent 0
  let s5 := if s4.isRemote then s4 else s4.sendDown 1 (.timeStep t d)
  (s5.passMarks (fun a => a == 0) (fun _ => false)).raiseGlobal 0x2A2 0

/-- TIME comes from the link (R271). -/
def Dev.timeFromLink (s : Dev) : Bool := s.fld 0 MER_TIME_STATUS_SRC == 2

def Dev.merRefuse (s : Dev) : Dev := s.setFlag 0 MER_TIME_STATUS_REFUSED true

def Dev.epoch (s : Dev) : Word64 := s.rd64 MER_EPOCH_LO MER_EPOCH_HI

/-- TIME := EPOCH (R266). -/
def Dev.setTime (s : Dev) : Dev :=
  ((s.stepTime s.epoch).setFlag 0 MER_TIME_STATUS_TIME_SET true).setFlag 0 MER_TIME_STATUS_SET_PENDING false

/-- A write of `MER_TIME_CTRL` (R266): a refused write leaves a pending request in place. -/
def Dev.timeCtrl (s : Dev) (now pps cancel : Bool) : Dev :=
  let bad := (now && pps) || ((now || pps) && s.timeFromLink)
    || (pps && (s.epoch.toNat % 1000000000 != 0 || s.plates.ppsEdge == 0))
  if bad then s.merRefuse
  else
    let s1 := if cancel then s.setFlag 0 MER_TIME_STATUS_SET_PENDING false else s
    if now then (s1.upTo (s1.now + 1)).setTime
    else if pps then s1.setFlag 0 MER_TIME_STATUS_SET_PENDING true
    else s1

def execTimeSetPps (cancel : Bool) (s : State) : Host.Outcome State Fault Refusal := s.onAwake (fun d => d.timeCtrl false true cancel)
def execTimeCancel (s : State) : Host.Outcome State Fault Refusal := s.onAwake (fun d => d.timeCtrl false false true)

/-! ## PPS_IN (R267, R268) -/

/-- An interval of 1 s ± 1 µs. -/
def oneSecond (a b : Nat) : Bool := decide (999999000 ≤ b - a) && decide (b - a ≤ 1000001000)

/-- Offset of an instant from the nearest multiple of 1,000,000,000. -/
def offsetOfTime (t : Int) : Int :=
  let r := t % 1000000000
  if r < 500000000 then r else r - 1000000000

/-- PPS_OK becomes `b`. -/
def Dev.setPpsOk (s : Dev) (b : Bool) : Dev :=
  if s.flag 0 MER_TIME_STATUS_PPS_OK == b then s else (s.setFlag 0 MER_TIME_STATUS_PPS_OK b).merEvent 2

/-- A slew of −`o` starts, or its remainder is measured again (R268, R269). -/
def Dev.slew (s : Dev) (o : Int) : Dev :=
  let s1 := s.wr MER_SLEW_LEFT (BitVec.ofNat 32 (unsigned 32 (satS 32 (-o))))
  if s.flag 0 MER_TIME_STATUS_SLEWING then (if o == 0 then s1.endSlew else s1)
  else
    (((s1.modMer (fun m => { m with slewAt := s.now })).setFlag 0 MER_TIME_STATUS_SLEWING true).merEvent 1).raiseGlobal 0x2A3 0

def Dev.modClk (s : Dev) (f : Clk → Clk) : Dev := { s with clk := f s.clk }

/-- What is left of the phase trim, which runs at ±1 ppm: 1 ps in 1,000 cycles (R290; DESIGN CHOICE: the most it may,
notes/assumptions/25.md). -/
def Dev.runTrim (s : Dev) : Dev :=
  let k : Int := ((s.now - s.clk.trimAt) / 1000 : Nat)
  s.modClk (fun c => { c with trim := if 0 ≤ c.trim then max 0 (c.trim - k) else min 0 (c.trim + k), trimAt := s.now })

/-- A new trim of `t` ps replaces one in progress (R290). -/
def Dev.newTrim (s : Dev) (t : Int) : Dev := s.modClk (fun c => { c with trim := t, trimAt := s.now })

def Dev.showOffset (s : Dev) (o : Int) : Dev := s.wr MER_OFFSET (BitVec.ofNat 32 (unsigned 32 (satS 32 o)))

/-- An accepted edge, or a TIME frame, of offset `o` (R268, R271). -/
def Dev.discipline (s : Dev) (o : Int) : Dev :=
  let s1 := s.showOffset o
  let big := decide (2 < o) || decide (o < -2)
  if !s1.flag 0 MER_TIME_STATUS_TIME_SET then s1
  else if s1.mer.stepPending then s1.stepTime (s1.time - BitVec.ofInt 64 o)
  else if s1.flag 0 MER_TIME_STATUS_SLEWING then s1.slew o
  else if !big then s1.newTrim (-1000 * o)
  else if s1.flag 0 MER_PPS_CFG_JUMP_POLICY then s1.modMer (fun m => { m with stepPending := true })
  else s1.slew o

/-- An edge of the CLOCK plate's polarity at this cycle; its offset is discarded where SET_NOW is written in the same cycle
(R282), and is shown where the edge performs SET_PPS (R283). -/
def Dev.ppsEdge (s : Dev) (setNow : Bool) : Dev :=
  let m := s.mer
  let ok := m.firstEdge || (match m.ppsAt with
      | some a => oneSecond a s.now
      | none => true)
    || (match m.outliers with
      | a :: b :: _ => oneSecond a s.now && oneSecond b a
      | _ => false)
  if ok then
    let s1 := (s.modMer (fun x => { x with ppsAt := some s.now, firstEdge := false, outliers := [] })).setPpsOk true
    let o := offsetOfTime (s1.time.toNat - signed 16 (s1.fld 0 MER_PPS_CFG_DELAY_NS))
    if setNow then s1
    else if s1.flag 0 MER_TIME_STATUS_SET_PENDING then (s1.showOffset o).setTime
    else s1.discipline o
  else
    (((s.modMer (fun x => { x with outliers := (s.now :: x.outliers).take 2 })).setFlag 0 MER_TIME_STATUS_OUTLIER true).merEvent
      2).raiseGlobal 0x2A1 0

/-- PPS_IN is looked at: the device runs, its CLOCK plate names an edge, and TIME does not come from the link. -/
def Dev.watchesPps (s : Dev) : Bool := s.released && s.plates.ppsEdge != 0 && !s.timeFromLink && s.domains

def execPpsEdge (s : State) : Host.Outcome State Fault Refusal :=
  s.onAwake (fun d => if d.watchesPps then d.ppsEdge false else d)

/-- TIME_SET_NOW: an edge of PPS_IN in the same cycle is judged, and the write has its effect then (R266, R282). -/
def execTimeSetNow (w : SetNow) (s : State) : Host.Outcome State Fault Refusal :=
  s.onAwake (fun d => (if w.ppsEdge && d.watchesPps then d.ppsEdge true else d).timeCtrl true false w.cancel)

/-- PPS_LOST: 2.5 s without an accepted edge. -/
def execPpsLost (s : State) : Host.Outcome State Fault Refusal :=
  s.onAwake (fun d =>
    match d.mer.ppsAt with
    | none => d
    | some a =>
      if d.plates.ppsEdge == 0 || d.timeFromLink || !d.domains then d
      else
      let d1 := (d.upTo (a + 2500000000)).modMer (fun m => { m with ppsAt := none, firstEdge := true, outliers := [] })
      (d1.setPpsOk false).raiseGlobal 0x2A0 0)

/-- Parts per 10⁹ of the slew in progress. -/
def Dev.slewRate (s : Dev) : Nat :=
  if s.timeFromLink && s.mer.linkRate != 0 then s.mer.linkRate else s.fld 0 MER_PPS_CFG_SLEW_RATE

/-- SLEW_DECREMENT (R269). -/
def execSlewDecrement (s : State) : Host.Outcome State Fault Refusal :=
  s.onAwake (fun d =>
    let left := (d.rd MER_SLEW_LEFT).toInt
    if left == 0 || d.slewRate == 0 then d
    else
      let d1 := d.upTo (d.mer.slewAt + 1000000000 / d.slewRate)
      let d2 := d1.modMer (fun m => { m with slewAt := d1.now })
      let l := if 0 < left then left - 1 else left + 1
      if l == 0 then d2.endSlew else d2.wr MER_SLEW_LEFT (BitVec.ofNat 32 (unsigned 32 l)))

/-! ## Encoders (R272, R273) -/

/-- Axis number of encoder `e`. -/
def encAxis (e : Fin 2) : Nat := e.val + 1

/-- An error of an axis: ERROR, ERRORS, the AXIS event and the source. -/
def Dev.axisError (s : Dev) (a x k : Nat) : Dev :=
  (((s.setFlag (axBase a) MER_AX_STATUS_ERROR true).addFld (axBase a) MER_AX_STATUS_ERRORS 1).merEvent 3).raiseGlobal x k

/-- Signed axis units in 65,536 ns, as used for interpolation. -/
def Dev.setRate (s : Dev) (a : Nat) (units ns : Int) : Dev :=
  s.wr (axBase a + MER_AX_RATE) (BitVec.ofNat 32 (unsigned 32 (satS 32 (if ns == 0 then 0 else openDiv (units * 65536) ns))))

/-- A quadrature edge moves the count (R272). After a reversal, the reversing edge is the first of the two in the new
direction that end INTERP_HELD (DEDUCED, notes/assumptions/26.md). -/
def AxisSt.edge (x : AxisSt) (up : Bool) (ball now : Nat) : AxisSt :=
  let turn := x.seen && x.dirUp != up
  { x with value := if up then x.value + 256 else x.value - 256, at_ := now, dirUp := up, seen := true, edgeAt := some ball
           period := match x.edgeAt with
             | some t => if turn then 0 else ball - t
             | none => 0
           held := if turn then 1 else x.held - 1 }

/-- An edge at the balls in cycle `ball` moves the axis 4 cycles on (R277). -/
def Dev.quadEdge (s0 : Dev) (a : Nat) (up : Bool) : Dev :=
  let s := s0.upTo (s0.now + 4)
  let s1 := s.modAxis a (fun x => x.edge up s0.now s.now)
  let x := s1.axisSt a
  (s1.setFlag (axBase a) MER_AX_STATUS_INTERP_HELD (x.held != 0)).setRate a (if up then 256 else -256)
    (if x.held == 0 then x.period else 0)

/-- Place of two levels in the quadrature cycle: A leads where the axis counts up (PRESUMED, notes/assumptions/26.md). -/
def quadPlace : Bool × Bool → Nat
  | (false, false) => 0
  | (true, false) => 1
  | (true, true) => 2
  | (false, true) => 3

/-- ENCn_A and ENCn_B stand at new levels: decoded at full 4× resolution, in freeze too (R272, R279). A change of both is an error
and counts nothing, and so, but for the count, is an edge too close to the one before; the count goes on from the levels as they
stand. -/
def Dev.encLevels (s : Dev) (e : Fin 2) (l : Bool × Bool) (tooFast : Bool) : Dev :=
  let a := encAxis e
  let r := s.axisRec a
  let k := (quadPlace l + 4 - quadPlace (s.pins.encoder.getD e.val (false, false))) % 4
  let s1 : Dev := { s with pins := { s.pins with encoder := s.pins.encoder.set e.val l } }
  if !s.pins.resetN || !r.en || r.kind != 0 || k == 0 then s1
  else
    let s2 := if k == 2 then s1 else s1.quadEdge a (k == 1)
    if (tooFast || k == 2) && s.awake then s2.axisError a (0x2A4 + e.val) 0 else s2

def execEncoderEdge (e : Fin 2) (ab : Bool × Bool) (tooFast : Bool) (s : State) : Host.Outcome State Fault Refusal :=
  s.on (fun d => d.encLevels e ab tooFast)

/-- ENCODER_Z_PULSE: the first one defines position 0, a later one checks it; with a count edge in the same cycle, after the
count (R282). -/
def execEncoderZPulse (z : ZPulse) (s : State) : Host.Outcome State Fault Refusal :=
  s.onAwake (fun d0 =>
    let e := z.enc
    let d := match z.edge with
      | some l => d0.encLevels e l false
      | none => d0
    let a := encAxis e
    let r := d.axisRec a
    if !r.en || r.kind != 0 || !d.flag (axBase a) MER_AX_CFG_Z_EN then d
    else if d.flag (axBase a) MER_AX_STATUS_ZSEEN then
      let p := d.axisPos a
      if decide (256 < p) && decide (p + 256 < d.revolution a) then d.axisError a (0x2A4 + e.val) 0 else d
    else (d.modAxis a (fun x => { x with zero := d.axisNow a })).setFlag (axBase a) MER_AX_STATUS_ZSEEN true)

/-- A write of `MER_AX_CFG.PRESET` on an encoder axis: the unwrapped value, and marks passed as by a step (R272, R282). -/
def Dev.preset (s : Dev) (a : Nat) : Dev :=
  let v := s.rd64 (axBase a + MER_AX_SET_LO) (axBase a + MER_AX_SET_HI)
  let s1 := s.modAxis a (fun x => { x with value := v, zero := v, at_ := s.now, period := 0, frames := x.frames.take 1 |>.map (fun f => (f.1, v)) })
  ((s1.setFlag (axBase a) MER_AX_STATUS_ZSEEN false).setRate a 0 0).passMarks (fun k => k == a) (fun _ => false)

def execEncoderPreset (e : Fin 2) (s : State) : Host.Outcome State Fault Refusal :=
  s.onAwake (fun d => if (d.axisRec (encAxis e)).en then d.preset (encAxis e) else d)

/-- The change of position from `old` to `new`, less than half of a revolution of `n` counts. -/
def shortWay (old new n : Nat) : Int :=
  let d : Int := ((new : Int) - old) % n
  if 2 * d < n then d else d - n

/-- A serial frame whose position was sampled at cycle `t` reaches the axis. -/
def Dev.serialFrame (s : Dev) (a pos t : Nat) : Dev :=
  let n := (s.axisRec a).a
  let x := s.axisSt a
  let v0 := s.axisNow a
  let base := match x.frames with
    | (_, p) :: _ => p
    | [] => x.value
  let p := base + BitVec.ofInt 64 (256 * (if x.seen then shortWay x.raw pos n else 0))
  let old := if x.held == 0 then x.frames.take 1 else []
  let s1 := s.modAxis a (fun y => { y with value := v0, raw := pos, seen := true, at_ := s.now, held := 0, frames := (t, p) :: old })
  match (s1.axisSt a).frames with
  | (t1, p1) :: (t2, p2) :: _ => s1.setRate a (p1 - p2).toInt ((t1 : Int) - t2)
  | _ => s1

/-- SERIAL_POLL: one frame every POLL_US, and at thaw at once; a line stuck for a whole frame is an error and moves
nothing. -/
def execSerialPoll (e : Fin 2) (frame : BitVec 48) (stuck : Bool) (s : State) : Host.Outcome State Fault Refusal :=
  s.onAwake (fun d =>
    let a := encAxis e
    let r := d.axisRec a
    if !d.domains || !r.en || r.kind != 1 then d
    else
      let bits := getBits r.b 0 8
      let clk := getBits r.b 8 16
      let t := match (d.axisSt a).pollAt with
        | some c => max d.now (c + 1000 * d.fld (axBase a) MER_AX_CFG_POLL_US)
        | none => d.now
      let d1 := (d.upTo (t + bits * clk + 2)).modAxis a (fun x => { x with pollAt := some t })
      if stuck then d1.axisError a (0x2A4 + e.val) 0
      else d1.serialFrame a (getBits frame.toNat 0 bits / 2 ^ d.fld (axBase a) MER_AX_CFG_POS_SHIFT % max r.a 1) t)

/-! ## Mains (R274) -/

/-- Nominal mains period, ns. -/
def Dev.mainsNominal (s : Dev) : Nat := 1000000000 / max (s.axisRec 3).a 1

/-- LOST of an axis changes. -/
def Dev.setLost (s : Dev) (a : Nat) (b : Bool) : Dev :=
  if s.flag (axBase a) MER_AX_STATUS_LOST == b then s else (s.setFlag (axBase a) MER_AX_STATUS_LOST b).merEvent 3

/-- MAINS_CROSSING at this cycle: the axis shows it 24 cycles later, its fraction counting from the crossing. -/
def execMainsCrossing (s : State) : Host.Outcome State Fault Refusal :=
  s.onAwake (fun d =>
    if !d.domains || !(d.axisRec 3).en then d
    else
      let x := d.axisSt 3
      let nom := d.mainsNominal
      let t := d.now
      let dt := t - x.at_
      let per := if x.period == 0 then nom else x.period
      let lost := d.flag (axBase 3) MER_AX_STATUS_LOST
      let whole : Nat := (2 * dt + per) / (2 * per)
      let off := if dt < whole * per then whole * per - dt else dt - whole * per
      let take := fun (n p : Nat) => ((d.upTo (t + 24)).modAxis 3 (fun y =>
        { y with value := BitVec.ofNat 64 ((y.value.toNat / 4294967296 + n) * 4294967296), at_ := t, period := p, seen := true })).setRate
          3 4294967296 p
      if !x.seen then take 1 nom
      else if lost then (if 10 * off ≤ 3 * per then (take whole per).setLost 3 false else d)
      else if decide (7 * nom ≤ 10 * dt) && decide (10 * dt ≤ 14 * nom) then take 1 dt
      else d)

/-- MAINS_LOST: 2 nominal periods without a crossing; the axis runs free. -/
def execMainsLost (s : State) : Host.Outcome State Fault Refusal :=
  s.onAwake (fun d =>
    if !d.domains || !(d.axisRec 3).en || d.flag (axBase 3) MER_AX_STATUS_LOST then d
    else
      let x := d.axisSt 3
      let d1 := (d.upTo (x.at_ + 2 * d.mainsNominal)).modAxis 3 (fun y =>
        { y with seen := true, period := if y.period == 0 then d.mainsNominal else y.period })
      (d1.setLost 3 true).raiseGlobal 0x2A6 0)

/-! ## The link axis (R275) -/

/-- LINK_AXIS_LOST: 8 µs of extrapolation have passed; the axis holds. -/
def execLinkAxisLost (s : State) : Host.Outcome State Fault Refusal :=
  s.onAwake (fun d =>
    match (d.axisSt 4).samples with
    | (t, _) :: _ =>
      if !d.domains || !(d.axisRec 4).en || d.flag (axBase 4) MER_AX_STATUS_LOST then d
      else
        let left := ((t + 8000) - d.linkTime).toInt
        ((d.upTo (d.now + left.toNat)).setLost 4 true).raiseGlobal 0x2A7 2
    | [] => d)

/-! ## Precision Time Measurement (R280) -/

/-- A dialogue begins; a remote runs none. -/
def Dev.ptmBegin (s : Dev) : Dev :=
  if s.isRemote || !s.cfg.ptm || !s.cfg.link || s.mer.ptmOpen.isSome then s
  else s.modMer (fun m => { m with ptmOpen := some s.time, ptmAt := s.now })

/-- The INTERVAL_MS timer starts a dialogue (R280). -/
def Dev.ptmTick (s : Dev) : Dev :=
  let s1 := s.upTo (s.mer.ptmTimer + 1000000 * s.fld 0 MER_PTM_CTRL_INTERVAL_MS)
  (s1.modMer (fun m => { m with ptmTimer := s1.now })).ptmBegin

/-- PTM_REQUEST: the dialogue of the INTERVAL_MS timer where it runs, else that of a write of REQUEST, which `Dev.merWrite` shares
(DESIGN CHOICE, notes/assumptions/62.md). -/
def execPtmRequest (s : State) : Host.Outcome State Fault Refusal :=
  s.onAwake (fun d => if d.fld 0 MER_PTM_CTRL_INTERVAL_MS == 0 then d.ptmBegin else d.ptmTick)

/-- PTM_RESPONSE: the pair, SEQ and NEW update together. -/
def execPtmResponse (master : Word64) (propagation : Word) (s : State) : Host.Outcome State Fault Refusal :=
  s.onAwake (fun d =>
    match d.mer.ptmOpen with
    | none => d
    | some t =>
      let d1 := (d.modMer (fun m => { m with ptmOpen := none })).wr64 MER_PTM_TIME_LO MER_PTM_TIME_HI (t + propagation.setWidth 64)
      let d2 := (d1.wr64 MER_PTM_HOST_LO MER_PTM_HOST_HI master).addFld 0 MER_PTM_STATUS_SEQ 1
      ((d2.setFlag 0 MER_PTM_STATUS_VALID true).setFlag 0 MER_PTM_STATUS_NEW true).merEvent 5)

/-- PTM_TIMEOUT: 100 µs without a response. -/
def execPtmTimeout (s : State) : Host.Outcome State Fault Refusal :=
  s.onAwake (fun d =>
    match d.mer.ptmOpen with
    | none => d
    | some _ =>
      (((d.upTo (d.mer.ptmAt + 100000)).modMer (fun m => { m with ptmOpen := none })).setFlag 0 MER_PTM_STATUS_FAILED true).merEvent 5)

/-! ## Registers (R283 to R287) -/

/-- A write of a MERIDIAN register other than `MER_TIME_CTRL` and the axes' own. -/
def Dev.merWrite (s : Dev) (a : Nat) (v : Word) : Dev :=
  let x := v.toNat
  let bad :=
    if a == MER_PPS_CFG then getBits x 16 8 == 0 || decide (100 < getBits x 16 8)
    else if a == MER_PTM_CTRL then decide (1000 < getBits x 16 10)
    else if a == MER_LINK_CFG then
      let k := getBits x 0 2
      s.isRemote || (k != 0 && !(s.axisRec k).en)
    else false
  if bad then s.merRefuse
  else
    let s1 := s.store a v
    let s2 := if a == MER_PTM_CTRL && s1.fld 0 MER_PTM_CTRL_INTERVAL_MS != s.fld 0 MER_PTM_CTRL_INTERVAL_MS then
        s1.modMer (fun m => { m with ptmTimer := s.now }) else s1
    if a == MER_PTM_CTRL && bitOf x 0 then s2.ptmBegin else s2

/-- Fields of `MER_AX_CFG` that apply to axis `a` (R286), as a mask. -/
def Dev.axCfgMask (s : Dev) (a : Nat) : Word :=
  if a == 3 then 0
  else if a == 4 then 0xFF01
  else if (s.axisRec a).kind == 1 then 0x3FF00FD
  else 0x7

/-- A write of a register of axis `a` at offset `o` of its 64 bytes: a disabled axis ignores it; a write that sets a field of
another kind, or a value outside its span, is refused. -/
def Dev.axWrite (s : Dev) (a o : Nat) (v : Word) : Dev :=
  let b := axBase a
  let r := s.axisRec a
  let x := v.toNat
  let refuse := s.setFlag b MER_AX_STATUS_REFUSED true
  if !r.en then s
  else if o == MER_AX_CFG then
    let m := s.axCfgMask a
    let poll := getBits x 16 10
    let bits := getBits r.b 0 8 * getBits r.b 8 16
    if v &&& ~~~m &&& 0x3FFFFFF != 0 || (a == 4 && decide (getBits x 8 8 < 2))
        || (r.kind == 1 && a ≤ 2 && (poll == 0 || decide (1000 < poll) || decide (1000 * poll < bits + 1000))) then refuse
    else
      let keep := s.rd (b + o) &&& ~~~m
      let s1 := s.wr (b + o) (keep ||| (v &&& m &&& ~~~4#32))
      if v.getLsbD 2 then s1.preset a else s1
  else if o == MER_AX_SET_LO || o == MER_AX_SET_HI then (if a ≤ 2 then s.store (b + o) v else refuse)
  else s.store (b + o) v

end Sys2Proof.Machine
end

