-- ==== Sys2Proof/Machine/Clocking.lean ====
section
/-! DEFINITION. The clocking system (R288 to R300): the reference cleaner, its coasting and its jumps, the two multiplying
PLLs and their switchover, double loss, runaway, loss of XIN and the move to the fallback clock. -/

namespace Sys2Proof.Machine

/-- A change of the clocking system, with the interrupt its status bits ask for (R299). -/
def Dev.clkDo (s : Dev) (f : Dev → Dev) : Dev := (f s).clkEvent s

/-- A message of the clocking system: in freeze it waits for the collector, which has stopped (R355). -/
def Dev.raiseClk (s : Dev) (x : Nat) : Dev := if s.frz.frozen then s.enqueue (msg x 0 0 0xFF) else s.raiseGlobal x 0

def Dev.putInt (s : Dev) (a : Nat) (i : Int) : Dev := s.wr a (BitVec.ofNat 32 (unsigned 32 (satS 32 i)))

/-! ## The cleaner (R289 to R292) -/

/-- A phase error of at most 2 ns. -/
def smallPhase (p : Int) : Bool := decide (-2000 ≤ p) && decide (p ≤ 2000)

/-- A jump: a trim up to 2 ns, otherwise the phase is rebuilt (R292). -/
def Dev.jump (s : Dev) (j : Int) : Dev :=
  if smallPhase j then (s.newTrim (-j)).modClk (fun c => { c with last := some 0 })
  else (((s.newTrim 0).modClk (fun c => { c with last := some 0 })).setFlag 0 CLK_STATUS_REBUILT true).raiseClk 0x287

/-- Largest change of CORR at one comparison, in 2⁻⁴⁴: 2 ppm a second over the 1,000 comparisons a second of REFIN or of the SYNC
frames, or the one of PPS_IN (R289, R290, R407). -/
def Dev.corrStep (s : Dev) : Int := if s.fld 0 CLK_STATUS_CLEANER_SRC == 2 then 35184372 else 35184

/-- CLEANER_UPDATE: the phase error and the frequency of the source as measured. What the filter makes of them is a free
value within the rate of R290 and the ±100 ppm of R289 (DESIGN CHOICE, notes/assumptions/4.md). -/
def Dev.cleanerUpdate (s : Dev) (phase freq : Int) : Dev :=
  let src := s.fld 0 CLK_STATUS_CLEANER_SRC
  let st := s.corrStep
  let corr := clampI (-1759218604) 1759218604 ((s.rd CLK_CORR).toInt + clampI (-st) st (Config.approx s.freeCtr [phase, freq]))
  let locked := s.flag 0 CLK_STATUS_REF_LOCKED
  let jumped := locked && (match s.clk.last with
    | some p => !smallPhase (phase - p)
    | none => false)
  let s1 := (s.draw.putInt CLK_CORR corr).putInt CLK_REF_OFFSET freq
  let s2 := if jumped then s1.jump (phase - s.clk.last.getD 0)
    else (if smallPhase phase then s1.newTrim (-phase) else s1.runTrim).modClk (fun c => { c with last := some phase })
  let s3 := s2.putInt CLK_PHASE_ERR (if jumped then 0 else phase)
  let run := if jumped || smallPhase phase then s.clk.okRun + 1 else 0
  let need := if src == 1 then 1000 else 10
  (s3.modClk (fun c => { c with okRun := min run 1000 })).setFlag 0 CLK_STATUS_REF_LOCKED (decide (need ≤ run))

def execCleanerUpdate (phase freq : Int) (s : State) : Host.Outcome State Fault Refusal :=
  s.onAwake (fun d =>
    if d.boot.step < 8 || d.fld 0 CLK_STATUS_CLEANER_SRC == 0 || d.flag 0 CLK_STATUS_COASTING then d
    else d.clkDo (fun x => x.cleanerUpdate phase freq))

/-- The device coasts: CORR freezes and the trim ends (R291). -/
def Dev.coast (s : Dev) : Dev :=
  (((s.newTrim 0).modClk (fun c => { c with okRun := 0 })).setFlag 0 CLK_STATUS_COASTING true).setFlag 0 CLK_STATUS_REF_LOCKED false

/-- REFIN_LOST: the edge-count rule, which a REFIN absent from the start breaks too, or with `range` a CORR that would pass
±100 ppm. -/
def execRefinLost (range : Bool) (s : State) : Host.Outcome State Fault Refusal :=
  s.onAwake (fun d =>
    if d.boot.step < 8 || d.fld 0 CLK_CFG_REFIN_FREQ == 0 || d.clk.refLost then d
    else d.clkDo (fun x =>
      let x1 := ((x.coast.modClk (fun c => { c with refLost := true, lostAt := x.now })).setFlag 0 CLK_STATUS_REF_QUALIFIED false).setFld 0 CLK_STATUS_CLEANER_SRC 0
      (if range then x1 else x1.setFlag 0 CLK_STATUS_REF_PRESENT false).raiseClk (if range then 0x286 else 0x285)))

/-- A write of `CLK_CTRL.FORCE_COAST`. Once it is cleared the cleaner resumes, unless REFIN itself has still to requalify. -/
def Dev.forceCoast (s : Dev) (on : Bool) : Dev :=
  let was := s.flag 0 CLK_CTRL_FORCE_COAST
  let s1 := s.setFlag 0 CLK_CTRL_FORCE_COAST on
  if on then s1.coast
  else if was && (s.fld 0 CLK_CFG_REFIN_FREQ == 0 || s.flag 0 CLK_STATUS_REF_QUALIFIED) then s1.setFlag 0 CLK_STATUS_COASTING false
  else s1

def execForceCoast (on : Bool) (s : State) : Host.Outcome State Fault Refusal :=
  s.onAwake (fun d => d.clkDo (fun x => x.forceCoast on))

/-- A jump reduced modulo the REFIN period to within half of it (R292). -/
def Dev.reduceJump (s : Dev) (j : Int) : Int :=
  let p : Int := if s.fld 0 CLK_CFG_REFIN_FREQ == 1 then 100000 else 10000
  let r := j % p
  if 2 * r ≤ p then r else r - p

/-- REFIN_REQUALIFIED, QUAL_MS after the loss at the earliest: `j` is the jump against the prediction; the first qualification since
boot has none. -/
def execRefinRequalified (j : Int) (s : State) : Host.Outcome State Fault Refusal :=
  s.onAwake (fun d =>
    if d.boot.step < 8 || d.fld 0 CLK_CFG_REFIN_FREQ == 0 || d.flag 0 CLK_STATUS_REF_QUALIFIED then d
    else (d.upTo (d.clk.lostAt + 1000000 * d.fld 0 CLK_QUAL_QUAL_MS)).clkDo (fun x0 =>
      let x := x0.modClk (fun c => { c with refLost := false, refSeen := true })
      let x1 := ((x.setFlag 0 CLK_STATUS_REF_PRESENT true).setFlag 0 CLK_STATUS_REF_QUALIFIED true).setFld 0 CLK_STATUS_CLEANER_SRC 1
      if x.flag 0 CLK_CTRL_FORCE_COAST then x1
      else
        let x2 := x1.setFlag 0 CLK_STATUS_COASTING false
        if x0.clk.refSeen then x2.jump (x.reduceJump j) else x2))

/-! ## The PLLs (R293 to R295) -/

/-- LOCKED of PLL b. -/
def Dev.pllIsLocked (s : Dev) (b : Bool) : Bool := s.flag 0 (if b then CLK_PLL_B_LOCKED else CLK_PLL_A_LOCKED)

def Dev.active (s : Dev) : Bool := s.flag 0 CLK_STATUS_ACTIVE

/-- A lock loss of PLL b: counted after release, and a new search; the cause of its source persists while it is unlocked
(R349). -/
def Dev.pllLost (s : Dev) (b : Bool) : Dev :=
  ((if s.released then s.addFld 0 (if b then CLK_PLL_B_LOSSES else CLK_PLL_A_LOSSES) 1 else s).pllSearch b).cause (0x280 + b.toNat) true

/-- PLL_LOCKED: PLL b ends its search and locks, in band 32; with the other one locked the standby is aligned and ready. -/
def Dev.pllLock (s : Dev) (b : Bool) : Dev :=
  let s0 := s.cause (0x280 + b.toNat) false
  let s1 := if b then (((s0.setFld 0 CLK_PLL_B_BAND 32).setFlag 0 CLK_PLL_B_SEARCHING false).setFlag 0 CLK_PLL_B_LOCKED true).setFlag 0
      CLK_STATUS_B_LOCKED true
    else (((s0.setFld 0 CLK_PLL_A_BAND 32).setFlag 0 CLK_PLL_A_SEARCHING false).setFlag 0 CLK_PLL_A_LOCKED true).setFlag 0
      CLK_STATUS_A_LOCKED true
  if s1.pllIsLocked (!b) then s1.setFlag 0 CLK_STATUS_STANDBY_READY true else s1

/-- PLLs search from step 3 of R47 on and need XIN; the search runs in freeze too (R298). A block reset of the PLL ends. -/
def execPllLocked (b : Bool) (s : State) : Host.Outcome State Fault Refusal :=
  s.on (fun d =>
    if !d.pins.resetN || d.boot.step < 4 || !d.flag 0 CLK_STATUS_XIN_OK then d
    else
      let d1 := d.clkDo (fun x => x.pllLock b)
      if d1.awake then d1.endReset (target 3 b.toNat) else d1)

/-- STANDBY_LOCK_LOST: the standby searches again; the domains are not touched. -/
def execStandbyLockLost (s : State) : Host.Outcome State Fault Refusal :=
  s.on (fun d =>
    let b := !d.active
    if !d.pins.resetN || !d.pllIsLocked b then d
    else d.clkDo (fun x => (x.pllLost b).raiseClk (0x280 + b.toNat)))

/-- The core domains move to the fallback clock at cycle 8 of a Grave clock source asserted at cycle `t`: an inductive slice parks
without a ramp (R296, R297). -/
def Dev.fallbackMove (s : Dev) (t : Nat) : Dev :=
  let s1 := (s.upTo (t + 8)).setFlag 0 CLK_STATUS_FALLBACK true
  let s2 := s1.each Dev.allSlices (fun d n => match (d.sl n).phase with
    | .ramp _ => d.parkSlice n
    | _ => d)
  ((((s2.pllSearch false).pllSearch true).cause 0x280 true).cause 0x281 true).chipTry

/-- A Grave clock source; in freeze it is met at thaw (R298, R355). -/
def Dev.graveClock (s : Dev) (x : Nat) : Dev :=
  if s.frz.frozen then { s with frz := { s.frz with wires := addNat x s.frz.wires } }
  else (s.raiseGlobal x 0).fallbackMove s.now

/-- The active PLL loses lock without a standby to take over. -/
def Dev.bothLost (s : Dev) : Dev :=
  let b := s.active
  let s1 := (if s.pllIsLocked (!b) && s.flag 0 CLK_STATUS_STANDBY_READY then s.pllLost (!b) else s).pllLost b
  if s1.frz.frozen then s1.modClk (fun c => { c with lateLoss := true }) else s1.graveClock 0x282

/-- The active PLL loses lock: with a ready standby its source is raised in the next cycle and the domains are on the other 3
cycles later, otherwise it is the double loss.
On the fallback clock no domain runs on a PLL, and the PLL only searches again. -/
def Dev.activeLost (s : Dev) (step : Nat) : Dev :=
  let b := s.active
  if s.fallback then (s.pllLost b).raiseClk (0x280 + b.toNat)
  else if s.flag 0 CLK_STATUS_STANDBY_READY then
    let s1 := (if s.frz.frozen then s else s.pass 1).raiseClk (0x280 + b.toNat)
    ((s1.upTo (s.now + 3)).pllSwitch (min step 50)).pllLost b
  else s.bothLost

def execActivePllLockLost (step : BitVec 16) (s : State) : Host.Outcome State Fault Refusal :=
  s.on (fun d =>
    if !d.pins.resetN || !d.pllIsLocked d.active then d else d.clkDo (fun x => x.activeLost step.toNat))

/-- A write of one to `CLK_CTRL.SWITCH` (R295). -/
def Dev.clockSwitch (s : Dev) (step : Nat) : Dev :=
  if !s.flag 0 CLK_STATUS_STANDBY_READY || s.fallback then s.setFlag 0 CLK_STATUS_REFUSED true
  else ((s.upTo (s.now + 3)).pllSwitch (min step 50)).setFlag 0 CLK_STATUS_STANDBY_READY false

def execClockSwitch (step : BitVec 16) (s : State) : Host.Outcome State Fault Refusal :=
  s.onAwake (fun d => d.clkDo (fun x => x.clockSwitch step.toNat))

/-! ## Double loss, runaway, loss of XIN (R296, R297) -/

def execPllBothLost (s : State) : Host.Outcome State Fault Refusal :=
  s.on (fun d =>
    if !d.pins.resetN || !d.pllIsLocked d.active || d.fallback then d else d.clkDo Dev.bothLost)

/-- RUNAWAY: the count over 100 µs against XIN differs by `ppb`. -/
def execRunaway (ppb : Int) (s : State) : Host.Outcome State Fault Refusal :=
  s.onAwake (fun d =>
    if d.boot.step < 4 || d.fallback then d
    else
      let d1 := d.putInt CLK_CORE_ERR ppb
      if decide (200000 < ppb) || decide (ppb < -200000) then d1.clkDo (fun x => x.graveClock 0x283) else d1)

/-- XIN_LOST: the fallback clock is the on-die oscillator. -/
def execXinLost (s : State) : Host.Outcome State Fault Refusal :=
  s.on (fun d =>
    let d : Dev := { d with pins := { d.pins with xin := false } }
    if !d.pins.resetN || !d.flag 0 CLK_STATUS_XIN_OK then d
    else d.clkDo (fun x =>
      ((x.modClk (fun c => { c with osc := true })).setFlag 0 CLK_STATUS_XIN_OK false).graveClock 0x284))

/-- XIN_RETURN: the PLLs can search and lock again. -/
def execXinReturn (s : State) : Host.Outcome State Fault Refusal :=
  s.on (fun d =>
    let d : Dev := { d with pins := { d.pins with xin := true } }
    if !d.pins.resetN then d
    else d.clkDo (fun x => (x.modClk (fun c => { c with osc := false })).setFlag 0 CLK_STATUS_XIN_OK true))

/-! ## Registers (R299) -/

/-- A write of `CLK_CTRL`; the phase step of a switch made so is a free value of at most 50 ps. -/
def Dev.clkCtrlWrite (s : Dev) (v : Word) : Dev :=
  let s1 := s.setFlag 0 CLK_CTRL_IRQ_EN (v.getLsbD 2)
  let s2 := if v.getLsbD 1 == s1.flag 0 CLK_CTRL_FORCE_COAST then s1 else s1.forceCoast (v.getLsbD 1)
  if v.getLsbD 0 then s2.draw.clockSwitch (clampI 0 50 (Config.approx s2.freeCtr [])).toNat else s2

/-- A write of a CLOCK register. -/
def Dev.clkWrite (s : Dev) (a : Nat) (v : Word) : Dev :=
  let x := v.toNat
  let bad := (a == CLK_CFG && (decide (getBits x 16 14 < 10) || decide (10000 < getBits x 16 14)))
    || (a == CLK_QUAL && (decide (getBits x 0 14 < 10) || decide (10000 < getBits x 0 14)))
  s.clkDo (fun d => if a == CLK_CTRL then d.clkCtrlWrite v else if bad then d.setFlag 0 CLK_STATUS_REFUSED true else d.store a v)

end Sys2Proof.Machine
end

