-- ==== Sys2Proof/Machine/Datum.lean ====
section
/-! DEFINITION. Datum calibration (R319 to R337): the images and which of them is in force, interpolation over temperature and
its gradual application, CALIBRATE and DATUM_COMMIT. -/

namespace Sys2Proof.Machine

def Dev.modDatum (s : Dev) (f : DatumSt → DatumSt) : Dev := { s with datum := f s.datum }

/-! ## Images (R319 to R324) -/

/-- A little-endian number of `n` bytes at offset `o` of an image. -/
def imgNum (g : Nat → Byte) (o n : Nat) : Nat := leNat ((List.range n).map (fun i => g (o + i)))

def imgBytes (g : Nat → Byte) (o n : Nat) : List Byte := (List.range n).map (fun i => g (o + i))

/-- SET_TEMP of the sets, as stored. -/
def setTempBytes : List Byte := [0xD8, 0xEC, 0x00, 0x14, 0x28, 0x3C, 0x50, 0x5F]

/-- CHECK of an image. -/
def imgCheck (g : Nat → Byte) : Word := crc32 (imgBytes g 0 0xFC ++ imgBytes g 0x100 0x100F00)

/-- The rules of R320 that a staged image meets too. -/
def imgHeaderOk (g : Nat → Byte) : Bool :=
  imgNum g 0 4 == 0x4D544144 && imgNum g 4 2 == 1 && g 7 == 0 && imgNum g 0x0C 4 == 0x101000
    && imgNum g 0x10 8 == Config.uid.toNat && imgBytes g 0x20 8 == setTempBytes && (imgBytes g 0x28 212).all (fun b => b == 0)

/-- The record at offset `o` of an image matches its SLICE_CRC. -/
def imgRecOk (g : Nat → Byte) (o : Nat) : Bool := crc32 (imgBytes g o 0xFFC) == BitVec.ofNat 32 (imgNum g (o + 0xFFC) 4)

/-- valid(b) of R324 for the image that `g` reads. -/
def imgValid (g : Nat → Byte) (b : Nat) : Bool :=
  imgHeaderOk g && g 6 == BitVec.ofNat 8 b && imgNum g 8 4 != 0 && BitVec.ofNat 32 (imgNum g 0xFC 4) == imgCheck g
    && (List.range 8).all (fun t => (List.range 32).all (fun n => imgRecOk g (recOff t n)))

/-- Bank `b` of the die. -/
def Dev.bankByte (s : Dev) (b i : Nat) : Byte := s.nvByte (bankBase b + i)
/-- The working copy. -/
def Dev.workByte (s : Dev) (i : Nat) : Byte := s.byte (s.workBase + i)

/-- First byte of copy `c` of the counter record. -/
abbrev counterCopy (c : Nat) : Nat := 0x350000 + 0x1000 * c

def Dev.counterValid (s : Dev) (c : Nat) : Bool :=
  s.nvNum (counterCopy c) 4 == 0x52434E54 && crc32 (s.nvBytes (counterCopy c) 20) == BitVec.ofNat 32 (s.nvNum (counterCopy c + 20) 4)

/-- The valid copy with the higher SEQUENCE. -/
def Dev.counterActive (s : Dev) : Option Nat :=
  let q := fun (c : Nat) => s.nvNum (counterCopy c + 4) 4
  match s.counterValid 0, s.counterValid 1 with
  | true, true => some (if q 0 < q 1 then 1 else 0)
  | true, false => some 0
  | false, true => some 1
  | false, false => none

/-- Valid flag of bank `b`. -/
def validFld (b : Nat) : Fld := ⟨DATUM_STATUS, 2 + b, 1⟩

/-- The per-slice registers read the bank in force (R337). -/
def Dev.loadCalRegs (s : Dev) : Dev :=
  let b := s.fld 0 DATUM_STATUS_BANK
  s.each (List.range 32) (fun d n =>
    let o := 0x100 + 32 * n
    let g := fun (i w : Nat) => if b == 3 then 0 else imgNum (d.bankByte b) (o + i) w
    (d.wr (calBase n + DATUM_CAL_COUNT) (BitVec.ofNat 32 (g 0 4))).wr64 (calBase n + DATUM_CAL_TIME_LO) (calBase n + DATUM_CAL_TIME_HI)
      (BitVec.ofNat 64 (g 8 8)))

/-- The record every slice has in every set when no bank is valid: no offsets, unity gains, empty tables, full scales of
R324 (R325). -/
def emptyRecord : List Byte :=
  let b := (fsDefault.flatMap (fun x => leBytes 8 x.toNat)) ++ (List.replicate 26 (leBytes 4 0 ++ leBytes 4 0x40000000)).flatten
    ++ List.replicate (0xFFC - 0x140) 0
  b ++ leBytes 4 (crc32 b).toNat

/-- The header the device writes. -/
def imgHeader (bank seq : Nat) (t : Word64) (check : Word) : List Byte :=
  leBytes 4 0x4D544144 ++ leBytes 2 1 ++ leBytes 2 bank ++ leBytes 4 seq ++ leBytes 4 0x101000 ++ leBytes 8 Config.uid.toNat
    ++ leBytes 8 t.toNat ++ setTempBytes ++ List.replicate 212 0 ++ leBytes 4 check.toNat

/-- With no valid bank the working copy is filled by rule (R325). -/
def Dev.fillWork (s : Dev) : Dev :=
  let s1 := (s.put s.workBase (imgHeader 0 0 0 0)).put (s.workBase + 0x100) (List.replicate 0xF00 0)
  s1.each (List.range 8) (fun d t => d.each (List.range 32) (fun e n => e.put (e.workBase + recOff t n) emptyRecord))

/-- Step 7 of R47: validity, the bank in force, the counters, the working copy. -/
def Dev.selectBank (s : Dev) : Dev :=
  let v := fun (b : Nat) => imgValid (s.bankByte b) b
  let q := fun (b : Nat) => imgNum (s.bankByte b) 8 4
  let use := if v 1 && v 2 then (if q 1 < q 2 then 2 else 1) else if v 1 then 1 else if v 2 then 2 else if v 0 then 0 else 3
  let s1 := s.each [0, 1, 2] (fun d b => d.setFlag 0 (validFld b) (v b))
  let s2 := (s1.setFld 0 DATUM_STATUS_BANK use).wr DATUM_SEQ (BitVec.ofNat 32 (if use == 3 then 0 else q use))
  let s3 := match s2.counterActive with
    | some c => s2.each [0, 1, 2] (fun d b => d.wr (DATUM_CYCLES_F + 4 * b) (BitVec.ofNat 32 (d.nvNum (counterCopy c + 8 + 4 * b) 4)))
    | none => s2
  let s4 := (if use == 3 then s3.fillWork else s3.put s3.workBase (imgBytes (s3.bankByte use) 0 0x101000)).loadCalRegs
  let bad := fun (b : Nat) => !v b && (imgBytes (s.bankByte b) 0 256).any (fun x => x != 0xFF)
  let s5 := s4.each [1, 2] (fun d b => if bad b then d.raiseGlobal 0x381 0 else d)
  if use == 3 then s5.raiseGlobal 0x380 0 else s5

/-! ## Interpolation (R326) -/

/-- SET_TEMP of set `i` in 0.0625 °C. -/
def setTemp (i : Nat) : Int := ([-640, -320, 0, 320, 640, 960, 1280, 1520] : List Int).getD i 0

/-- Set s of a temperature, and the weight of set s + 1 in 1/65,536; none where set s stands alone. -/
def pickSet (t : Int) : Nat × Option Int :=
  if t < -640 then (0, none)
  else if 1520 ≤ t then (7, none)
  else
    let i := ((List.range 8).filter (fun k => decide (setTemp k ≤ t))).length - 1
    (i, some ((t - setTemp i) * 65536 / (setTemp (i + 1) - setTemp i)))

/-- Byte offset in a record of correction `i` of `Dev.corrOf`, its width and whether it is unsigned (R322). -/
def corrField (i : Nat) : Nat × Nat × Bool :=
  if i < 52 then (0x70 + 4 * i, 4, i % 2 == 1)
  else if i < 820 then (0x200 + 2 * (i - 52), 2, false)
  else (0x800 + 2 * (i - 820), 2, false)

/-- Corrections of one slice: gains and offsets, three linearity tables, the FDAC trims. -/
abbrev corrCount : Nat := 1332

def Dev.storedCorr (s : Dev) (n t i : Nat) : Int :=
  let f := corrField i
  let v := s.num (s.workBase + recOff t n + f.1) f.2.1
  if f.2.2 then v else signed (8 * f.2.1) v

/-- Targets of slice `n` at a temperature. -/
def Dev.corrTargets (s : Dev) (n : Nat) (t : Int) : List Int :=
  match pickSet t with
  | (i, none) => (List.range corrCount).map (s.storedCorr n i)
  | (i, some w) => (List.range corrCount).map (fun k =>
      s.storedCorr n i k + roundDiv ((s.storedCorr n (i + 1) k - s.storedCorr n i k) * w) 65536)

/-- IFS and VFS as set 3 of the working copy holds them (R323). -/
def Dev.storedFs (s : Dev) (n : Nat) : List Int :=
  (List.range 14).map (fun i => signed 64 (s.num (s.workBase + recOff 3 n + 8 * i) 8))

/-- Steps of a ramp (R327). -/
def Dev.rampSteps (s : Dev) : Nat := min 1024 (1000 * s.fld 0 DATUM_CFG_RAMP_MS)

/-- New targets of slice `n`: the ramp restarts from the present values where they differ from the targets it has
(DEDUCED, notes/assumptions/27.md); the first ones apply without a ramp. -/
def Dev.setTargets (s : Dev) (n : SliceId) (ts : List Int) (ramp : Bool) : Dev :=
  if ramp && (s.sl n).cT == ts then s
  else
    let c0 := (List.range corrCount).map (s.corrOf n)
    s.modSl n (fun x => { x with c0 := if ramp then c0 else ts, cT := ts, cK := 0, cS := if ramp then s.rampSteps else 0
                                 cAt := s.now, cLen := 1000000 * s.fld 0 DATUM_CFG_RAMP_MS })

def Dev.showRamp (s : Dev) : Dev := s.setFlag 0 DATUM_STATUS_RAMP_ACTIVE (Dev.allSlices.any (fun n => (s.sl n).cS != 0))

/-- The service on slice `n` at temperature `t`: its records are checked before use. -/
def Dev.serviceSlice (s : Dev) (n : SliceId) (t : Int) (ramp : Bool) : Dev :=
  let p := pickSet t
  let sets := match p.2 with
    | some _ => [p.1, p.1 + 1]
    | none => [p.1]
  if sets.all (fun k => imgRecOk s.workByte (recOff k n.val)) then
    let s1 := s.setTargets n (s.corrTargets n.val t) ramp
    let fs := s1.storedFs n.val
    s1.modSl n (fun x => { x with fsNext := fs, fs := if ramp then x.fs else fs })
  else
    (s.modDatum (fun d => { d with restore := addNat n.val d.restore })).raise 0x385 0 0 n.val

/-- A run of the Datum service. -/
def Dev.datumService (s : Dev) (temps : List (Option Int)) (ramp : Bool) : Dev :=
  let s0 := (s.each s.datum.restore Dev.reloadRecords).modDatum (fun d => { d with restore := [], serviceAt := s.now })
  (s0.each (List.range 4) (fun d o =>
    match temps.getD o none with
    | some t =>
      if t < -880 || 2080 < t then d.raiseGlobal 0x386 0
      else
        let a := DATUM_TEMP + 4 * o
        let d1 := (d.setFld 0 ⟨a, 0, 16⟩ (unsigned 16 t)).setFld 0 ⟨a, 16, 3⟩ (pickSet t).1
        d1.each ((List.range 8).map (fun i => sid (8 * o + i))) (fun e n => e.serviceSlice n t ramp)
    | none => d.raiseGlobal 0x386 0)).showRamp

/-- DATUM_SERVICE_RUN: every 10 ms from the first interpolation on. -/
def execDatumServiceRun (temps : List (Option Int)) (s : State) : Host.Outcome State Fault Refusal :=
  s.onAwake (fun d => if d.boot.step < 8 then d else (d.upTo (d.datum.serviceAt + 10000000)).datumService temps true)

/-- Cycle at which the next step of a slice's ramp is due: steps are RAMP ÷ S apart (R327). -/
def Slice.rampDue (x : Slice) : Nat := x.cAt + ((x.cK + 1) * x.cLen + x.cS - 1) / x.cS

/-- The ramp of a slice, if one runs and its next step is due at cycle `t`, moves one step; the last gives the target. -/
def Slice.rampStep (x : Slice) (t : Nat) : Slice :=
  if x.cS == 0 || decide (t < x.rampDue) then x
  else if x.cK + 1 < x.cS then { x with cK := x.cK + 1 }
  else { x with c0 := x.cT, cK := 0, cS := 0 }

/-- The next cycle at which a ramp moves. -/
def Dev.rampNext (s : Dev) : Nat :=
  (((Dev.allSlices.map s.sl).filter (fun x => x.cS != 0)).map Slice.rampDue).min?.getD s.now

/-- DATUM_RAMP_STEP: the ramps whose next step comes first move one step. -/
def execDatumRampStep (s : State) : Host.Outcome State Fault Refusal :=
  s.onAwake (fun d =>
    let d0 := d.upTo d.rampNext
    (d0.each Dev.allSlices (fun e n => e.modSl n (fun x => x.rampStep d0.now))).showRamp)

/-! ## Committing (R333 to R335) -/

/-- A CALIBRATE shows its status in `DATUM_LAST`. -/
def Dev.datumDone (s : Dev) (c : Ctx) (st off : Nat) : Dev :=
  (if c.opcode == 0x0E then s.setFld 0 DATUM_LAST_STATUS st else s).completeAt c st off s.time

/-- Bank a USER commit targets. -/
def Dev.userTarget (s : Dev) : Nat := if s.fld 0 DATUM_STATUS_BANK == 1 then 2 else 1

/-- Set records equal between an image and the bank in force. -/
def Dev.sameSets (s : Dev) (g : Nat → Byte) : Bool :=
  let b := s.fld 0 DATUM_STATUS_BANK
  b != 3 && (List.range 0x100000).all (fun i => g (0x1000 + i) == s.bankByte b (0x1000 + i))

/-- The lifecycle state allows writes to bank F (R57). -/
def Dev.factoryOk (s : Dev) : Bool :=
  let st := s.fld 0 GLOBAL_STATUS_STATE
  st == 1 || (st == 3 && !s.flag 0 GLOBAL_STATUS_SERVICE_FUSED)

/-- The source of a commit. -/
def Dev.commitSrc (s : Dev) (staged : Option Nat) : Nat → Byte :=
  match staged with
  | some a => fun i => s.byte (a + i)
  | none => s.workByte

/-- The target's header is erased and the counter record committed with one more program cycle. -/
def Dev.commitBegin (s : Dev) (b : Nat) : Dev :=
  let s1 := (s.setNv (bankBase b) (List.replicate 256 0xFF)).setFlag 0 (validFld b) false
  let cyc := (s1.rd (DATUM_CYCLES_F + 4 * b)).toNat + 1
  let s2 := s1.wr (DATUM_CYCLES_F + 4 * b) (BitVec.ofNat 32 cyc)
  let act := s2.counterActive
  let seq := match act with
    | some c => s2.nvNum (counterCopy c + 4) 4 + 1
    | none => 1
  let cp := match act with
    | some 0 => 1
    | _ => 0
  let body := leBytes 4 0x52434E54 ++ leBytes 4 seq ++ ([0, 1, 2] : List Nat).flatMap (fun k => leBytes 4 (s2.rd (DATUM_CYCLES_F + 4 * k)).toNat)
  let s3 := s2.setNv (counterCopy cp) (body ++ leBytes 4 (crc32 body).toNat)
  let s4 := s3.modDatum (fun d => { d with commit := d.commit.map (fun c => { c with begun := true }) })
  if cyc == 90000 then s4.raiseGlobal 0x383 0 else s4

/-- A commit asked for by a command: the rows of R334 in their order, then its start, behind a repair-list commit. -/
def Dev.beginCommit (s : Dev) (c : Ctx) (factory : Bool) (staged : Option Nat) : Dev :=
  let g := s.commitSrc staged
  let b := if factory then 0 else s.userTarget
  if !factory && s.sameSets g then s.datumDone c OK 0xFF
  else if staged.isSome && !imgHeaderOk g then s.datumDone c INTEGRITY 4
  else if 100000 ≤ (s.rd (DATUM_CYCLES_F + 4 * b)).toNat then s.datumDone c LIMIT 0
  else if s.datum.commit.isSome || s.datum.cal.isSome then s.datumDone c BUSY 0xFF
  else if s.noCommit || (factory && !s.factoryOk) then s.datumDone c PRECONDITION 0xFF
  else
    let s1 := (s.modDatum (fun d => { d with commit := some ⟨c, b, staged, s.now, s.time, false⟩ })).setFlag 0 DATUM_STATUS_COMMIT_BUSY true
    if s1.memst.commit.isSome then s1 else s1.commitBegin b

/-- Slice record of slice `n` in the image committed: from the bank in force, advanced where a set record differs. -/
def Dev.sliceRecord (s : Dev) (g : Nat → Byte) (run : CommitRun) (n : SliceId) : List Byte :=
  let b := s.fld 0 DATUM_STATUS_BANK
  let o := 0x100 + 32 * n.val
  let old := fun (i w : Nat) => if b == 3 then 0 else imgNum (s.bankByte b) (o + i) w
  let differs := b == 3 || (List.range 8).any (fun t =>
    imgBytes g (recOff t n.val) 4096 != imgBytes (s.bankByte b) (recOff t n.val) 4096)
  let kind : Nat := if differs then (if run.staged.isSome then 0xFF else (s.sl n).lastKind.toNat) else old 4 1
  leBytes 4 (old 0 4 + differs.toNat) ++ leBytes 4 kind ++ leBytes 8 (if differs then run.time.toNat else old 8 8) ++ List.replicate 16 0

/-- DATUM_COMMIT_DONE: body, read-back, header and the end of the command; `ok` is the read-back. A FACTORY commit while bank F is in
force leaves DIRTY as R336 defines it. -/
def Dev.commitDone (s : Dev) (run : CommitRun) (ok : Bool) : Dev :=
  let s0 := (if run.begun then s else s.commitBegin run.bank).upTo (run.start + 393000)
  let b := run.bank
  let g := s0.commitSrc run.staged
  let q := fun (k : Nat) => if s0.flag 0 (validFld k) then imgNum (s0.bankByte k) 8 4 else 0
  let seq := max (q 1) (q 2) + 1
  let body := Dev.allSlices.flatMap (s0.sliceRecord g run) ++ List.replicate 0xB00 0 ++ imgBytes g 0x1000 0x100000
  let head := imgHeader b seq run.time 0
  let check := crc32 (head.take 0xFC ++ body)
  let s1 := (s0.setNv (bankBase b + 0x100) body).setFlag 0 DATUM_STATUS_COMMIT_BUSY false
  let s2 := s1.modDatum (fun d => { d with commit := none })
  if !ok then (s2.raiseGlobal 0x382 0).datumDone run.ctx INTEGRITY 0xFF |>.nextCommit
  else
    let s3 := (s2.setNv (bankBase b) (imgHeader b seq run.time check)).setFlag 0 (validFld b) true
    let s4 := if b == 0 then s3
      else ((s3.setFld 0 DATUM_STATUS_BANK b).setFlag 0 DATUM_STATUS_DIRTY false)
    let s5 := if s4.fld 0 DATUM_STATUS_BANK == b then (s4.wr DATUM_SEQ (BitVec.ofNat 32 seq)).loadCalRegs else s4
    let s6 := if b != 0 && run.staged.isSome then s5.put s5.workBase (imgHeader b seq run.time check ++ body)
      else if b == 0 && s5.fld 0 DATUM_STATUS_BANK == 0 then s5.setFlag 0 DATUM_STATUS_DIRTY (!s5.sameSets s5.workByte)
      else s5
    (s6.datumDone run.ctx OK 0xFF).nextCommit

/-- The die is free for a Datum commit once no repair-list commit runs (R316). -/
def execDatumCommitDone (readBackOk : Bool) (s : State) : Host.Outcome State Fault Refusal :=
  s.onAwake (fun d =>
    match d.datum.commit with
    | some run => if d.memst.commit.isSome then d else d.commitDone run readBackOk
    | none => d)

/-- A staged image lies 256-byte aligned in the capture or the table store. -/
def stagedOk (a : Nat) : Bool := a % 256 == 0 && decide (0x1000000 ≤ a) && decide (a + 0x101000 ≤ 0x2400000)

/-- DATUM_COMMIT (R333). -/
def Dev.commitCmd (s : Dev) (c : Ctx) (target : Nat) (p : CommitP) : Dev :=
  if 1 < target then s.completeAt c BAD_PARAM 0 s.time
  else if 1 < p.source.toNat then s.completeAt c BAD_PARAM 1 s.time
  else if p.source == 1 && !stagedOk p.addr.toNat then s.completeAt c BAD_PARAM 4 s.time
  else s.beginCommit c (target == 1) (if p.source == 1 then some p.addr.toNat else none)

def execDatumCommitUser (h : Hdr) (p : CommitP) (s : State) : Host.Outcome State Fault Refusal :=
  s.onAwake (fun d => d.ringCmd h 0x0F (.datumCommit 0 p) (fun s c _ => s.commitCmd c 0 p))
def execDatumCommitFactory (h : Hdr) (p : CommitP) (s : State) : Host.Outcome State Fault Refusal :=
  s.onAwake (fun d => d.ringCmd h 0x0F (.datumCommit 1 p) (fun s c _ => s.commitCmd c 1 p))

/-! ## Calibrating (R328 to R332) -/

/-- Temperature of the octant of slice `n`, and the set nearest to it. -/
def Dev.octantTemp (s : Dev) (n : SliceId) : Int := signed 16 (s.fld 0 ⟨DATUM_TEMP + 4 * (n.val / 8), 0, 16⟩)

def absDiff (a b : Int) : Int := if a < b then b - a else a - b

def nearestSet (t : Int) : Nat :=
  (List.range 8).foldl (fun b k => if absDiff t (setTemp k) < absDiff t (setTemp b) then k else b) 0

/-- Payload offset of the first field outside R328, none where all are good. -/
def Dev.calFault (s : Dev) (r : GroupRec) (kind : Nat) (p : CalP) : Option Nat :=
  let pt := p.point.toNat
  let span := kind == 2 && bitOf pt 0
  let cur := bitOf pt 1
  let k := p.range.toNat
  let std := p.standard.toInt
  let spanOk := decide ((if cur then 9 else 3) < k) || (r.masked p.mask).all (fun n =>
    let fs := if cur then s.ifs n k else s.vfs n k
    decide (fs ≤ 2 * std) && decide (std ≤ fs))
  if 2 < kind then some 0
  else if 1 < p.scope.toNat then some 1
  else if 1 < p.flags.toNat then some 2
  else if (if kind == 2 then decide (3 < pt) else pt != 0) then some 3
  else if !r.maskOk p.mask then some 4
  else if (if kind == 0 then decide (31 < p.items.toNat) else p.items != 0) then some 8
  else if kind == 1 then (if decide (1000000000 ≤ std) && decide (std ≤ 4000000000) then none else some 0x10)
  else if span then (if spanOk then none else some 0x10)
  else if p.standard != 0 then some 0x10
  else none

/-- Preconditions 1 to 4 of R330: the first that fails, with its slice. -/
def Dev.calPrecond (s : Dev) (c : CalRun) : Option (Nat × Nat) :=
  let ns := sliceList c.mask
  match ns.find? (fun n => !s.parked n) with
  | some n => some (1, n.val)
  | none =>
    if !s.pins.interlockN || s.powerFailing || c.broken then some (2, (ns.headD 0).val)
    else
      match ns.find? (fun n => decide (8 < absDiff (s.octantTemp n) (c.temps.getD (n.val / 8) 0))) with
      | some n => some (3, n.val)
      | none =>
        if c.p.scope == 0 then
          (ns.find? (fun n => decide (80 < absDiff (s.octantTemp n) (setTemp (nearestSet (s.octantTemp n)))))).map (fun n => (4, n.val))
        else none

/-- The RG pins of an EXT_RANGE run on current: SOLO(RANGE, 0), then SOLO(RANGE, 1), `some` of the path, and RG_SAFE after it. -/
def Dev.calPins (s : Dev) (c : CalRun) (path : Option Bool) : Dev :=
  if c.kind == 2 && bitOf c.p.point.toNat 1 then
    s.each (sliceList c.mask) (fun d n => match path with
      | some b => d.driveRg n (d.rgWith n (d.soloPat n c.p.range.toNat b) (d.vPins n))
      | none => d.rgSafe n)
  else s

/-- The run ends without a result: PRECONDITION, code and slice. -/
def Dev.calAbort (s : Dev) (c : Ctx) (code n : Nat) : Dev :=
  (((s.setFld 0 DATUM_LAST_PRECOND code).setFld 0 DATUM_LAST_SLICE n).raiseGlobal 0x384 0).datumDone c PRECONDITION 0xFF

/-- CALIBRATE (R331): the rows of its table in their order, then the checks before the first point. -/
def Dev.calibrateCmd (s0 : Dev) (c : Ctx) (r : GroupRec) (kind : Nat) (p : CalP) : Dev :=
  let s := (s0.setFld 0 DATUM_LAST_PRECOND 0).setFld 0 DATUM_LAST_SLICE 0
  let cur := bitOf p.point.toNat 1
  match s.calFault r kind p with
  | some o => s.datumDone c BAD_PARAM o
  | none =>
    if kind == 2 && (r.masked p.mask).any (fun n => decide ((if cur then s.irMax n else s.vrMax n) < p.range.toNat)) then
      s.datumDone c LIMIT 0x0A
    else if s.datum.cal.isSome || s.datum.commit.isSome then s.datumDone c BUSY 0xFF
    else if s.fld 0 DATUM_STATUS_BANK == 3 && p.scope == 1 then s.datumDone c PRECONDITION 0xFF
    else
      let run : CalRun := ⟨c, kind, p, r.first, r.devMask p.mask, s.now, false, (List.range 4).map (fun o => s.octantTemp (sid (8 * o)))⟩
      match s.calPrecond run with
      | some q => s.calAbort c q.1 q.2
      | none => ((s.modDatum (fun d => { d with cal := some run })).setFlag 0 DATUM_STATUS_CAL_BUSY true).calPins run (some false)

def execCalibrateSelf (h : Hdr) (p : CalP) (s : State) : Host.Outcome State Fault Refusal :=
  s.onAwake (fun d => d.ringCmd h 0x0E (.calibrate 0 p) (fun s c r => s.calibrateCmd c r 0 p))
def execCalibrateExtRef (h : Hdr) (p : CalP) (s : State) : Host.Outcome State Fault Refusal :=
  s.onAwake (fun d => d.ringCmd h 0x0E (.calibrate 1 p) (fun s c r => s.calibrateCmd c r 1 p))
def execCalibrateExtRange (h : Hdr) (p : CalP) (s : State) : Host.Outcome State Fault Refusal :=
  s.onAwake (fun d => d.ringCmd h 0x0E (.calibrate 2 p) (fun s c r => s.calibrateCmd c r 2 p))

/-- Points of a run (R329). -/
def CalRun.points (c : CalRun) : Nat :=
  let it := c.p.items.toNat
  if c.kind == 0 then
    (if bitOf it 0 then 9 else 0) + (if bitOf it 1 then 256 else 0) + (if bitOf it 2 then 3 else 0) + (if bitOf it 3 then 512 else 0)
      + (if bitOf it 4 then 2 else 0)
  else if c.kind == 1 then 6
  else if bitOf c.p.point.toNat 1 then 2 else 1

/-- Does the run update the field at byte offset `o` of a record (R329)? -/
def CalRun.updates (c : CalRun) (o : Nat) : Bool :=
  let it := c.p.items.toNat
  let adc := decide (0x70 ≤ o) && decide (o < 0x130) && o % 4 == 0
  let pt := c.p.point.toNat
  let g := if bitOf pt 0 then 4 else 0
  let k := c.p.range.toNat
  if c.kind == 0 then
    (bitOf it 0 && adc) || (bitOf it 1 && decide (0x200 ≤ o) && decide (o < 0x800) && o % 2 == 0)
      || (bitOf it 2 && (o == 0x130 || o == 0x134)) || (bitOf it 3 && decide (0x800 ≤ o) && decide (o < 0xC00) && o % 2 == 0)
      || (bitOf it 4 && (o == 0x138 || o == 0x13C))
  else if c.kind == 1 then adc
  else if bitOf pt 1 then o == 0x70 + 16 * k + g || o == 0x78 + 16 * k + g
  else o == 0x110 + 8 * k + g

/-- A field of `w` bytes at offset `o` of the record of slice `n` in set `t`. -/
def Dev.calField (s : Dev) (n t o w : Nat) (gain : Bool) : Int :=
  let x := s.num (s.workBase + recOff t n + o) w
  if gain then x else signed (8 * w) x

/-- The same field interpolated at temperature `t` (R326). -/
def Dev.calAt (s : Dev) (n : Nat) (t : Int) (o w : Nat) (gain : Bool) : Int :=
  match pickSet t with
  | (i, none) => s.calField n i o w gain
  | (i, some k) => s.calField n i o w gain + roundDiv ((s.calField n (i + 1) o w gain - s.calField n i o w gain) * k) 65536

/-- Apply one change to one record of the working copy; none where the result lies outside the field's encoding. A change is one
against the value interpolated at T: with SCOPE 0 (`all` not set) the set gains that changed value, with SCOPE 1 its own value is
changed (R332). `s0` is the device before any result was written. -/
def Dev.calChange (s0 s : Dev) (n t : Nat) (all : Bool) (ch : Nat × Nat × Int) : Option Dev :=
  let o := ch.1
  let a := s.workBase + recOff t n + o
  let w := if o < 0x200 then 4 else 2
  let gain := decide (o < 0x200) && o % 8 == 4
  let v : Int := if all then s.calField n t o w gain else s0.calAt n (s0.octantTemp (sid n)) o w gain
  let x := if gain then openDiv (v * ch.2.2) (max ch.2.1 1) else v + ch.2.2
  let fits := if gain then decide (0 ≤ x) && decide (x < 4294967296) else x == satS (8 * w) x
  if fits then some (s.put a (leBytes w (unsigned (8 * w) x))) else none

/-- SLICE_CRC of the record of slice `n` in set `t` is computed anew. -/
def Dev.calCrc (s : Dev) (n t : Nat) : Dev :=
  let a := s.workBase + recOff t n
  s.put (a + 0xFFC) (leBytes 4 (crc32 (s.bytes a 0xFFC)).toNat)

/-- Sets SCOPE writes on slice `n`. -/
def Dev.calSets (s : Dev) (c : CalRun) (n : SliceId) : List Nat :=
  if c.p.scope == 1 then List.range 8 else [nearestSet (s.octantTemp n)]

/-- All results of a run are written, or none where one of them cannot be encoded. -/
def Dev.calWrite (s : Dev) (c : CalRun) (r : CalResult) : Option Dev :=
  let chs := r.changes.filter (fun (q : SliceId × Nat × Nat × Int) => c.mask.getLsbD q.1.val && c.updates q.2.1)
  let d := chs.foldl (fun (d : Option Dev) (q : SliceId × Nat × Nat × Int) => (s.calSets c q.1).foldl (fun (e : Option Dev) t =>
    match e with
    | some x => s.calChange x q.1.val t (c.p.scope == 1) q.2
    | none => none) d) (some s)
  match d with
  | some x => some (x.each (sliceList c.mask) (fun y n => y.each (s.calSets c n) (fun z t => z.calCrc n.val t)))
  | none => none

/-- CALIBRATION_DONE: the checks after the last point, the results, and the commit that FLAGS asks for. -/
def Dev.calibrationDone (s : Dev) (c : CalRun) (r : CalResult) : Dev :=
  let point := s.fld 0 DATUM_CFG_POINT_MS * 1000000
  let s0 := ((s.upTo (c.start + point)).calPins c (some true)).upTo (c.start + c.points * point)
  let s1 := ((s0.modDatum (fun d => { d with cal := none })).setFlag 0 DATUM_STATUS_CAL_BUSY false).calPins c none
  let pre := match s0.calPrecond c with
    | some q => some q
    | none => match r.precond with
      | some q => if q.1 == 0 then none else some (q.1.val, q.2.val)
      | none => none
  match pre with
  | some q => s1.calAbort c.ctx q.1 q.2
  | none =>
    match s1.calWrite c r with
    | none => s1.datumDone c.ctx LIMIT 0xFF
    | some d =>
      let d1 := (d.setFlag 0 DATUM_STATUS_DIRTY true).each (sliceList c.mask) (fun e n => e.modSl n (fun x =>
        { x with lastKind := BitVec.ofNat 8 c.kind }))
      if c.p.flags == 1 then d1.beginCommit c.ctx false none else d1.datumDone c.ctx OK 0xFF

def execCalibrationDone (r : CalResult) (s : State) : Host.Outcome State Fault Refusal :=
  s.onAwake (fun d =>
    match d.datum.cal with
    | some c => if d.domains then d.calibrationDone c r else d
    | none => d)

/-! ## Registers (R336) -/

/-- A write of a DATUM register. -/
def Dev.datumWrite (s : Dev) (a : Nat) (v : Word) : Dev :=
  let x := v.toNat
  let refuse := s.setFlag 0 DATUM_STATUS_REFUSED true
  if a == DATUM_CFG then
    (if getBits x 0 14 == 0 || decide (10000 < getBits x 0 14) || getBits x 16 7 == 0 || decide (100 < getBits x 16 7) then refuse
     else s.store a v)
  else if a == DATUM_WORK_BASE then
    (if !s.released && x % 4096 == 0 && inSystem x 0x101000 then s.store a v else refuse)
  else s.store a v

end Sys2Proof.Machine
end

