-- ==== Sys2Proof/Machine/Collector.lean ====
section
/-! DEFINITION. Commands and events of the fault collector (R345 to R359): messages and grave wires from outside, clearing,
injection, the watchdog, the temperature sources. -/

namespace Sys2Proof.Machine

/-- FAULT_MESSAGE: a block presents a message; INJECTED is never its own. A message whose wire has acted adds no second
park (R355). -/
def execFaultMessage (m : Msg) (s : State) : Host.Outcome State Fault Refusal :=
  s.onAwake (fun d =>
    let k := { m with injected := false }
    if d.col.wired.contains k.source.toNat then d.raiseWired k else d.raiseMsg k)

/-- A wire is loaded for the sources whose messages are Grave (R346); in freeze it acts at thaw (R355). -/
def Dev.wire (s : Dev) (x : Nat) : Dev :=
  if s.srcClass x != 3 then s
  else if s.frz.frozen then { s with frz := { s.frz with wires := addNat x s.frz.wires } }
  else s.graveAct x

def execGraveWire (source : BitVec 10) (s : State) : Host.Outcome State Fault Refusal :=
  s.on (fun d => if d.pins.resetN then d.wire source.toNat else d)

/-- OVERFLOW_SLOT_TAKE (R347). -/
def execOverflowSlotTake (s : State) : Host.Outcome State Fault Refusal := s.onAwake Dev.takeSlot

/-- BLOCK_RESET_END: the reset of a target ends; that of a lane with its restore (R174, R344). -/
def execBlockResetEnd (target : BitVec 22) (s : State) : Host.Outcome State Fault Refusal :=
  s.onAwake (fun d =>
    let t := target.toNat
    if !d.resetting t then d
    else if t / 262144 == 0 then d.laneRestored t
    else d.endReset t)

/-! ## Clearing (R349) -/

/-- A source whose sticky bit in a bank may not be cleared. -/
def Dev.clearRefused (s : Dev) (inj : Bool) (x : Nat) : Bool :=
  !inj && ((s.rd (FAULT_CAUSE + 4 * (x / 32))).getLsbD (x % 32) || (s.inService && s.col.grave.contains x))

/-- One sticky bit clears; with a REAL bit its SEEN class is forgotten. -/
def Dev.clearSticky (s : Dev) (inj : Bool) (x : Nat) : Dev :=
  let s1 := s.setBit (bankWord inj x) (x % 32) false
  if inj then s1.modCol (fun c => { c with errInj := c.errInj.filter (fun y => y != x) })
  else (s1.setFld (srcBase x) FAULT_SRC_SEEN 0).modCol (fun c =>
    { c with errReal := c.errReal.filter (fun y => y != x), grave := c.grave.filter (fun y => y != x) })

/-- A write of ones to word `w` of a bank; ERR_N follows 2 cycles after the last bit that holds it (R348). -/
def Dev.faultClear (s : Dev) (inj : Bool) (w : Nat) (v : Word) : Dev :=
  let t := s.refreshLock.each (maskList v) (fun d i =>
    let x := 32 * w + i
    if !d.sticky inj x then d
    else if d.clearRefused inj x then d.setFlag 0 FAULT_STATUS_CLEAR_REFUSED true
    else d.clearSticky inj x)
  if !s.errSources.isEmpty && t.errSources.isEmpty then t.modCol (fun c => { c with errUntil := max c.errUntil (t.now + 2) }) else t

def execFaultClear (injBank : Bool) (w : Fin 32) (v : Word) (s : State) : Host.Outcome State Fault Refusal :=
  s.onAwake (fun d => d.faultClear injBank w.val v)

/-! ## Injection (R352, R353) -/

/-- A write of `FAULT_INJECT_HI`: the message enters in the next cycle. A real message that reaches classification in that
cycle goes first, and preempts one of its own source. -/
def Dev.faultInject (s : Dev) (v : Word) : Dev :=
  if 2 ^ 25 ≤ v.toNat then s.setFlag 0 FAULT_STATUS_CLEAR_REFUSED true
  else
    let m := msgOf (s.rd FAULT_INJECT_LO) v
    let s1 := s.upTo (s.now + 1)
    match s1.col.queue with
    | [] => s1.dispatch m
    | q :: _ => if q.source == m.source then s1.collect.setFlag 0 FAULT_STATUS_INJ_PREEMPTED true else s1.collect.dispatch m

def execFaultInject (v : Word) (s : State) : Host.Outcome State Fault Refusal := s.onAwake (fun d => d.faultInject v)

/-- Does the REAL bit of source `x` carry IRQ: by its mask, or by the class a floor raised it to (R341)? -/
def Dev.irqSource (s : Dev) (x : Nat) : Bool :=
  s.sticky false x && (s.flag (srcBase x) FAULT_SRC_IRQ || decide (s.srcClass x < s.fld (srcBase x) FAULT_SRC_SEEN))

/-- IRQ_REARM (R342). -/
def Dev.rearm (s : Dev) : Dev :=
  let s1 := s.setFlag 0 FAULT_STATUS_IRQ_ARMED true
  if (List.range 1024).any s1.irqSource then s1.irq else s1

def execIrqRearm (s : State) : Host.Outcome State Fault Refusal := s.onAwake Dev.rearm

/-! ## Surveyor and temperature -/

/-- WATCHDOG_KICK: the Surveyor restarts the period (R356). -/
def Dev.kick (s : Dev) : Dev := s.modCol (fun c => { c with kickAt := s.now })

def execWatchdogKick (s : State) : Host.Outcome State Fault Refusal := s.onAwake Dev.kick

/-- SURVEYOR_WATCHDOG: PERIOD_US has passed since the last kick. -/
def execSurveyorWatchdog (s : State) : Host.Outcome State Fault Refusal :=
  s.onAwake (fun d =>
    let us := d.fld 0 FAULT_WDOG_PERIOD_US
    if us == 0 || !d.col.surveyor then d
    else ((d.upTo (d.col.kickAt + 1000 * us)).kick).raiseGlobal 0x3C1 0)

def execSurveyorException (s : State) : Host.Outcome State Fault Refusal :=
  s.onAwake (fun d => if d.col.surveyor then d.raiseGlobal 0x3C0 0 else d)

def execTempHigh (s : State) : Host.Outcome State Fault Refusal := s.onAwake (fun d => d.raiseGlobal 0x3E7 0)

/-- TEMP_CRITICAL is Grave; in freeze its wire acts at thaw. -/
def execTempCritical (s : State) : Host.Outcome State Fault Refusal :=
  s.on (fun d =>
    if !d.pins.resetN then d
    else if d.frz.frozen then { d with frz := { d.frz with wires := addNat 0x3E9 d.frz.wires } }
    else d.raiseGlobal 0x3E9 0)

/-! ## Registers (R356, R357) -/

/-- A write of a FAULT register. A watchdog that was off starts its period with the write (DEDUCED, notes/assumptions/62.md). -/
def Dev.faultWrite (s : Dev) (rq : Requester) (a : Nat) (v : Word) : Dev :=
  if a == FAULT_CTRL then
    let live := v.getLsbD 0
    let s1 := if live && s.fld 0 GLOBAL_STATUS_STATE != 1 then s.setFlag 0 FAULT_STATUS_LIVE_REFUSED true
      else s.setFlag 0 FAULT_CTRL_LIVE live
    if v.getLsbD 1 then s1.rearm else s1
  else if a == FAULT_WDOG then
    (match rq with
      | .host => s
      | .surveyor =>
        let s1 := s.setFld 0 FAULT_WDOG_PERIOD_US (getBits v.toNat 0 16)
        if v.getLsbD 16 || s.fld 0 FAULT_WDOG_PERIOD_US == 0 then s1.kick else s1)
  else if a == FAULT_MERGED || a == FAULT_CONSEQ then (if v == 0 then s else s.wr a 0)
  else if a == FAULT_INJECT_LO then s.wr a v
  else if a == FAULT_INJECT_HI then s.faultInject v
  else if FAULT_REAL ≤ a ∧ a < FAULT_REAL + 128 then s.faultClear false ((a - FAULT_REAL) / 4) v
  else if FAULT_INJ ≤ a ∧ a < FAULT_INJ + 128 then s.faultClear true ((a - FAULT_INJ) / 4) v
  else s.store a v

end Sys2Proof.Machine
end

