-- ==== Sys2Proof/Machine/Host.lean ====
section
/-! DEFINITION. The host interface (R360 to R388): rings, the commands that hold a ring, capture DMA, MSI-X, the endpoint's
link and power states, and accesses to the stores of BAR2. -/

namespace Sys2Proof.Machine

def Dev.hostRefuse (s : Dev) : Dev := s.setFlag 0 HOST_STATUS_REFUSED true

/-- The endpoint can master the bus: the link is up and the function is in D0. -/
def Dev.hostUp (s : Dev) : Bool := s.cfg.link && !s.cfg.d3

/-! ## Rings (R367 to R370, R385) -/

def Dev.ringFld (s : Dev) (r : RingId) (f : Fld) : Nat := s.fld (rB r) f

/-- Distance from pointer `a` on to pointer `b`, modulo the wrap bit. -/
def ringDist (a b : Nat) : Nat := (b + 256 - a) % 256

/-- A ring stops with an error (R379). -/
def Dev.ringError (s : Dev) (r : RingId) (e : Nat) : Dev :=
  ((s.modRing r (fun q => { q with stopped := true })).setFld (rB r) HOST_RING_STATUS_ERR e).raise 0x302 0 r.val 0xFF

/-- CMD_TAIL_WRITE. -/
def Dev.cmdTailWrite (s : Dev) (r : RingId) (v : Word) : Dev :=
  let head := s.ringFld r HOST_CMD_HEAD_HEAD
  let t := v.toNat % 256
  let n := ringDist head t
  if decide (128 < n) || decide (n < ringDist head (s.ringFld r HOST_CMD_TAIL_TAIL)) then s.hostRefuse.ringError r 3
  else s.setFld (rB r) HOST_CMD_TAIL_TAIL t

def execCmdTailWrite (r : RingId) (v : Word) (s : State) : Host.Outcome State Fault Refusal := s.onAwake (fun d => d.cmdTailWrite r v)

/-- Commands in flight on all rings. -/
def Dev.inFlight (s : Dev) : Nat := ((List.range 32).map (fun i => s.ringFld (sid i) HOST_RING_STATUS_IN_FLIGHT)).sum

/-- Entries one request of ring `r` may fetch: what waits, 64 at most, with a completion entry reserved for each. -/
def Dev.fetchRoom (s : Dev) (r : RingId) : Nat :=
  let wait := ringDist (s.ringFld r HOST_CMD_HEAD_HEAD) (s.ringFld r HOST_CMD_TAIL_TAIL)
  let used := ringDist (s.ringFld r HOST_CPL_HEAD_HEAD) (s.ringFld r HOST_CPL_TAIL_TAIL) + s.ringFld r HOST_RING_STATUS_IN_FLIGHT
  min (min wait 64) (min (128 - used) (4096 - s.inFlight))

/-- COMMAND_FETCH: `res` is what the read of host memory gave. -/
def Dev.commandFetch (s : Dev) (r : RingId) (res : FetchResult) : Dev :=
  let room := s.fetchRoom r
  if !s.released || !s.hostUp || !s.flag (rB r) HOST_RING_CFG_ENABLE || (s.ring r).stopped || room == 0 then s
  else
    match res with
    | .error => s.ringError r 1
    | .ok n =>
      let k := min n room
      ((s.modRing r (fun q => { q with fetched := q.fetched + k })).setFld (rB r) HOST_CMD_HEAD_HEAD
        (s.ringFld r HOST_CMD_HEAD_HEAD + k)).setFld (rB r) HOST_RING_STATUS_IN_FLIGHT (s.ringFld r HOST_RING_STATUS_IN_FLIGHT + k)

def execCommandFetch (r : RingId) (res : FetchResult) (s : State) : Host.Outcome State Fault Refusal :=
  s.onAwake (fun d => d.commandFetch r res)

/-- RESERVED_OPCODE: 0x00, and 0x13 to 0xFF. -/
def execReservedOpcode (h : Hdr) (opcode : Byte) (s : State) : Host.Outcome State Fault Refusal :=
  s.onAwake (fun d => if opcode == 0 || decide (0x13 ≤ opcode.toNat) then
    d.ringCmd h opcode (.reserved opcode) (fun s c _ => s.complete c BAD_PARAM) else d)

/-! ## BARRIER and FENCE (R377, R378) -/

/-- A command that holds its ring executes on the hub, whatever node the ring is bound to: entry rules, the node, the
group, a partial reload, then `body`. -/
def Dev.ringHold (s : Dev) (h : Hdr) (opcode : Byte) (body : Dev → Ctx → Dev) : Dev :=
  let q := s.ring h.ring
  if !s.released || q.fetched == 0 || q.held.isSome then s
  else
    let c : Ctx := { hdr := h, opcode := opcode, drop := !q.bound.isEmpty, remote := false, index := 0 }
    let s1 := (s.paced h.ring).modRing h.ring (fun x => { x with fetched := x.fetched - 1, bound := x.bound.tail })
    let k := (s.binding h.ring).1
    if decide (1 < h.flags.toNat) || h.group.toNat != (s.binding h.ring).2 then s1.complete c BAD_PARAM
    else
      match h.rsv with
      | some o => s1.completeAt c BAD_PARAM o.toNat s1.time
      | none =>
        if k == 0 then
          (match s1.group (h.group.toNat % 32) with
            | none => s1.complete c ABSENT
            | some r => if s1.reloading r.first then s1.complete c BUSY else body s1 c)
        else if decide (s.plates.link.count < k) || s.fld (nodeBase k) LINK_NODE_STATUS_STATE == 0
            || s.fld (nodeBase k) LINK_NODE_STATUS_STATE == 3 then s1.complete c ABSENT
        else body s1 c

/-- Rings held at a BARRIER among those a mask names. -/
def Dev.atBarrier (s : Dev) (r : RingId) : Bool :=
  match (s.ring r).held with
  | some (c, _, _) => c.opcode == 0x11
  | none => false

/-- Every ring the mask names is held at a BARRIER: all resume in this cycle. -/
def Dev.barrierMeet (s : Dev) (mask : Word) : Dev :=
  let rs := (maskList mask).map sid
  if rs.all s.atBarrier then
    s.each rs (fun d r => match (d.ring r).held with
      | some (c, _, _) => (d.unhold r).complete c OK
      | none => d)
  else s

/-- BARRIER. -/
def Dev.barrierCmd (s : Dev) (c : Ctx) (p : BarrierP) : Dev :=
  let r := c.hdr.ring
  if !p.ringMask.getLsbD r.val || (maskList p.ringMask).any (fun i => !s.flag (rB (sid i)) HOST_RING_CFG_ENABLE) then
    s.completeAt c BAD_PARAM 0 s.time
  else if 10000000 < p.timeoutUs.toNat then s.completeAt c BAD_PARAM 4 s.time
  else
    let t := if p.timeoutUs == 0 then none else some (s.now + 1000 * p.timeoutUs.toNat)
    ((s.modRing r (fun q => { q with held := some (c, p.ringMask, t) })).setFlag (rB r) HOST_RING_STATUS_BARRIER_WAIT true).barrierMeet
      p.ringMask

def execBarrier (h : Hdr) (p : BarrierP) (s : State) : Host.Outcome State Fault Refusal :=
  s.onAwake (fun d => d.ringHold h 0x11 (fun x c => x.barrierCmd c p))

/-- BARRIER_TIMEOUT: its ring resumes, the others keep waiting. -/
def execBarrierTimeout (r : RingId) (s : State) : Host.Outcome State Fault Refusal :=
  s.onAwake (fun d =>
    match (d.ring r).held with
    | some (c, _, some t) => ((d.upTo t).unhold r).complete c TIMEOUT
    | _ => d)

/-- FENCE: it holds its ring until it is the ring's only open command. -/
def Dev.fenceCmd (s : Dev) (c : Ctx) : Dev :=
  let r := c.hdr.ring
  ((s.modRing r (fun q => { q with held := some (c, 0, none) })).setFlag (rB r) HOST_RING_STATUS_FENCE_WAIT true).fencePass r

def execFence (h : Hdr) (s : State) : Host.Outcome State Fault Refusal :=
  s.onAwake (fun d => d.ringHold h 0x12 (fun x c => if c.drop then x else x.fenceCmd c))

/-! ## Ring registers -/

/-- RING_CFG_WRITE (R385, R387). A base counts as written once it is not zero (DEDUCED, notes/assumptions/29.md). -/
def Dev.ringCfgWrite (s : Dev) (r : RingId) (v : Word) : Dev :=
  let b := rB r
  let x := v.toNat
  let on := bitOf x 0
  let node := getBits x 1 4
  let group := getBits x 6 5
  let was := s.flag b HOST_RING_CFG_ENABLE
  let moved := node != s.ringFld r HOST_RING_CFG_NODE || group != s.ringFld r HOST_RING_CFG_GROUP
  let bases := s.rd64 (b + HOST_CMD_BASE_LO) (b + HOST_CMD_BASE_HI) != 0 && s.rd64 (b + HOST_CPL_BASE_LO) (b + HOST_CPL_BASE_HI) != 0
  let taken := ((List.range 32).map sid).any (fun q => q != r && s.flag (rB q) HOST_RING_CFG_ENABLE
    && s.ringFld q HOST_RING_CFG_NODE == node && s.ringFld q HOST_RING_CFG_GROUP == group)
  if (moved && s.flag b HOST_RING_STATUS_RUNNING) || decide (8 < node) || (on && !bases) || taken then s.hostRefuse
  else
    let s1 := s.store (b + HOST_RING_CFG) v
    let s2 := s1.setFlag b HOST_RING_STATUS_RUNNING (on || s1.ringFld r HOST_RING_STATUS_IN_FLIGHT != 0)
    if on && !was then s2.modRing r (fun q => { q with stopped := false, phase := true }) else s2

def execRingCfgWrite (r : RingId) (v : Word) (s : State) : Host.Outcome State Fault Refusal := s.onAwake (fun d => d.ringCfgWrite r v)

/-- CPL_HEAD_WRITE: entries up to the new head are free. -/
def Dev.cplHeadWrite (s : Dev) (r : RingId) (v : Word) : Dev :=
  let head := s.ringFld r HOST_CPL_HEAD_HEAD
  let n := ringDist head (v.toNat % 256)
  if ringDist head (s.ringFld r HOST_CPL_TAIL_TAIL) < n then s.hostRefuse
  else (s.setFld (rB r) HOST_CPL_HEAD_HEAD (v.toNat % 256)).modRing r (fun q => { q with cpl := q.cpl.drop n })

def execCplHeadWrite (r : RingId) (v : Word) (s : State) : Host.Outcome State Fault Refusal := s.onAwake (fun d => d.cplHeadWrite r v)

/-! ## Capture DMA (R380 to R383) -/

/-- WRITTEN and CONSUMED, and whether the host buffer is full. -/
def Dev.showChan (s : Dev) (c : RingId) : Dev :=
  let k := s.chan c
  (s.wr64 (cB c + HOST_CAP_WRITTEN_LO) (cB c + HOST_CAP_WRITTEN_HI) (BitVec.ofNat 64 k.written)).setFlag (cB c) HOST_CAP_STATUS_FULL
    (s.flag (cB c) HOST_CAP_STATUS_RUNNING && decide (k.size < k.written - k.consumed + 16))

/-- Credits withheld from remote records are returned while their channel takes them (R381). -/
def Dev.returnCredits (s : Dev) : Dev :=
  s.each ([0, 1] : List PortId) (fun d p => d.modPort p (fun x =>
    let v := x.vcs.get 2
    { x with vcs := x.vcs.set 2 { v with owed := v.owed + v.withheld, withheld := 0 } }))

/-- The scatter list as read (R380). -/
def sglOk (l : List SglEntry) : Bool :=
  l.all (fun e => e.addr.toNat % 64 == 0 && e.len.toNat % 64 == 0 && decide (64 ≤ e.len.toNat) && decide (e.len.toNat ≤ 2147483584) && e.rsvOk)
    && decide ((l.map (fun e => e.len.toNat)).sum ≤ 2 ^ 40)

def Dev.capError (s : Dev) (c : RingId) (e : Nat) : Dev := (s.setFld (cB c) HOST_CAP_STATUS_ERR_CAUSE e).raise 0x303 0 0 0xFF

/-- CAPTURE_START: `list` is what the read of the scatter list gave, none for a fetch error. -/
def Dev.captureStart (s : Dev) (c : RingId) (list : Option (List SglEntry)) : Dev :=
  let n := s.fld (cB c) HOST_SGL_COUNT_COUNT
  if s.flag (cB c) HOST_CAP_STATUS_RUNNING then s
  else if n == 0 || decide (4096 < n) then s.capError c 1
  else
    match list with
    | none => s.capError c 2
    | some l0 =>
      let l := l0.take n
      if l.length < n then s.capError c 2
      else if !sglOk l then s.capError c 1
      else
        let s1 := s.modChan c (fun k => { k with sgl := l.map (fun e => (e.addr.toNat, e.len.toNat)), size := (l.map (fun e => e.len.toNat)).sum
                                                 backed := 0, written := 0, consumed := 0 })
        let s2 := (s1.setFlag (cB c) HOST_CAP_STATUS_RUNNING true).wr64 (cB c + HOST_CAP_CONSUMED_LO) (cB c + HOST_CAP_CONSUMED_HI) 0
        (s2.showChan c).returnCredits

def execCaptureStart (c : RingId) (list : Option (List SglEntry)) (s : State) : Host.Outcome State Fault Refusal :=
  s.onAwake (fun d => d.captureStart c list)

/-- WRITTEN goes to WB_ADDR, unless that is 0 (R382). -/
def Dev.writeBack (s : Dev) (c : RingId) : Dev :=
  if s.rd64 (cB c + HOST_CAP_WB_LO) (cB c + HOST_CAP_WB_HI) == 0 then s else s.modChan c (fun k => { k with backed := k.written })

/-- STOP: WRITTEN is written back and RUNNING clears. -/
def Dev.captureStop (s : Dev) (c : RingId) : Dev :=
  if s.flag (cB c) HOST_CAP_STATUS_RUNNING then
    ((s.writeBack c).setFlag (cB c) HOST_CAP_STATUS_RUNNING false).showChan c
  else s

def execCaptureStop (c : RingId) (s : State) : Host.Outcome State Fault Refusal := s.onAwake (fun d => d.captureStop c)

/-- CONSUMED_WRITE of the low word, with the high word last written. -/
def Dev.consumedWrite (s : Dev) (c : RingId) (v : Word) : Dev :=
  let x := ((s.rd (cB c + HOST_CAP_CONSUMED_HI)) ++ v).toNat
  let k := s.chan c
  if decide (k.written < x) || decide (x < k.consumed) || x % 16 != 0 then s.hostRefuse
  else
    let s1 := ((s.wr (cB c + HOST_CAP_CONSUMED_LO) v).modChan c (fun q => { q with consumed := x })).showChan c
    if s1.flag (cB c) HOST_CAP_STATUS_RUNNING && !s1.flag (cB c) HOST_CAP_STATUS_FULL then s1.returnCredits else s1

def execConsumedWrite (c : RingId) (v : Word) (s : State) : Host.Outcome State Fault Refusal := s.onAwake (fun d => d.consumedWrite c v)

/-- Record `r` is written to the host buffer; a multiple of IRQ_BYTES passed is a cause. -/
def Dev.countRecord (s : Dev) (c : RingId) (r : Rec) : Dev :=
  let w := (s.chan c).written
  let n := (s.rd (cB c + HOST_CAP_IRQ_BYTES)).toNat
  let s1 := (s.modChan c (fun k => { k with written := w + 16, out := some r })).showChan c
  if n != 0 && w / n != (w + 16) / n then (s1.setFlag (rB c) HOST_RING_CAUSE_CAPTURE true).vector (ringVector c) else s1

/-- CAPTURE_RECORD_WRITE: the oldest record of the channel's group goes to the host buffer, if there is room. -/
def Dev.captureRecordWrite (s : Dev) (c : RingId) : Dev :=
  let k := s.chan c
  if !s.hostUp || !s.flag (cB c) HOST_CAP_STATUS_RUNNING || decide (k.size < k.written - k.consumed + 16) then s
  else if s.ringFld c HOST_RING_CFG_NODE == 0 then
    let g := sid (s.ringFld c HOST_RING_CFG_GROUP)
    if s.capSize g == 0 || s.capUsed g == 0 then s
    else
      ((s.eccRead (s.capAddr g 0) 16 rdCap).capTake g 1).countRecord c (s.capRec g 0)
  else
    match k.queue with
    | [] => s
    | r :: l => (s.modChan c (fun q => { q with queue := l })).countRecord c r

def execCaptureRecordWrite (c : RingId) (s : State) : Host.Outcome State Fault Refusal := s.onAwake (fun d => d.captureRecordWrite c)

/-- CAPTURE_WRITEBACK: WRITTEN goes to WB_ADDR. -/
def execCaptureWriteback (c : RingId) (s : State) : Host.Outcome State Fault Refusal :=
  s.onAwake (fun d =>
    if d.hostUp && d.flag (cB c) HOST_CAP_STATUS_RUNNING then d.writeBack c else d)

/-! ## MSI-X (R365) -/

/-- MSI_X_SEND: a send that is due goes out at the end of the hold-off, or its pending bit is set while it is masked. -/
def Dev.msixSend (s : Dev) (v : Fin 40) : Dev :=
  let x := s.vects.get v
  if !x.due || !s.hostUp then s
  else if x.masked || s.cfg.fmask || !s.cfg.msix then s.modVect v (fun y => { y with due := false, pending := true })
  else
    let s1 := s.upTo x.free
    s1.modVect v (fun y => { y with due := false, sent := y.sent + 1, free := s1.now + s1.fld 0 HOST_IRQ_HOLDOFF_NS })

def execMsiXSend (v : Fin 40) (s : State) : Host.Outcome State Fault Refusal := s.onAwake (fun d => d.msixSend v)

/-- Pending vectors that nothing masks any more are due. -/
def Dev.releaseVectors (s : Dev) : Dev :=
  if s.cfg.msix && !s.cfg.fmask then
    { s with vects := s.vects.map (fun x => if x.pending && !x.masked then { x with pending := false, due := true } else x) }
  else s

/-- MSI_X_UNMASK: of one vector, or of the function. -/
def Dev.msixUnmask (s : Dev) (v : Option (Fin 40)) : Dev :=
  match v with
  | some k => (s.modVect k (fun x => { x with masked := false })).releaseVectors
  | none => { s with cfg := { s.cfg with fmask := false } }.releaseVectors

def execMsiXUnmask (v : Option (Fin 40)) (s : State) : Host.Outcome State Fault Refusal := s.onAwake (fun d => d.msixUnmask v)

/-! ## Resets, link and power states (R52, R64, R360, R384) -/

/-- A host reset and its source, after release. -/
def Dev.hostResetRaise (s : Dev) (link : Bool) (x : Nat) : Dev :=
  let s1 := s.hostReset link
  if s1.released then s1.raiseGlobal x 0 else s1

/-- PERST: in freeze the endpoint's clock stands, and only the ball's level and the lost link count. A remote's endpoint is held in
reset anyway (R15). -/
def execPerst (s : State) : Host.Outcome State Fault Refusal :=
  s.on (fun d =>
    let d1 : Dev := { d with pins := { d.pins with perstN := false } }
    if d1.isRemote then d1
    else if d1.awake then d1.hostResetRaise true 0x300 else { d1 with cfg := { d1.cfg with link := false } })

def execFunctionLevelReset (s : State) : Host.Outcome State Fault Refusal :=
  s.onAwake (fun d => if d.cfg.link then d.hostResetRaise false 0x300 else d)

def execPerstDeassert (s : State) : Host.Outcome State Fault Refusal :=
  s.on (fun d => { d with pins := { d.pins with perstN := true } })

/-- PCIE_LINK_UP: a hub's endpoint only; a remote holds it in reset (R15). -/
def execPcieLinkUp (speed : BitVec 3) (width : BitVec 5) (s : State) : Host.Outcome State Fault Refusal :=
  s.onAwake (fun d =>
    if !d.pins.perstN || d.isRemote || d.fld 0 GLOBAL_STATUS_BOOTSEL == 2 || speed == 0 || decide (5 < speed.toNat)
        || !([1, 2, 4, 8] : List Nat).contains width.toNat then d
    else
      let d1 : Dev := { d with cfg := { d.cfg with link := true } }
      (d1.setFld 0 HOST_LINK_SPEED speed.toNat).setFld 0 HOST_LINK_WIDTH width.toNat)

/-- PCIE_LINK_DOWN: after release it resets the host interface as PERST# does, and raises 0x306 in place of 0x300; in freeze
it acts at thaw (R429). -/
def execPcieLinkDown (s : State) : Host.Outcome State Fault Refusal :=
  s.on (fun d =>
    if !d.cfg.link then d
    else if !d.awake then { d with cfg := { d.cfg with link := false } }
    else if d.released then d.hostResetRaise true 0x306
    else { d with cfg := { d.cfg with link := false } })

/-- D3HOT_ENTRY: rings stop fetching, and channels stop as on STOP. -/
def Dev.d3Enter (s : Dev) : Dev :=
  let s1 := s.each ((List.range 32).map sid) Dev.captureStop
  { s1 with cfg := { s1.cfg with d3 := true } }

def execD3hotEntry (s : State) : Host.Outcome State Fault Refusal :=
  s.onAwake (fun d => if d.cfg.link && !d.cfg.d3 then d.d3Enter else d)

/-- Configuration requests are answered with Retry Status: a boot from flash that has not released and waits for no push
(R52). After a host reset they are completed normally (R64). -/
def Dev.cfgRetry (s : Dev) : Bool :=
  !s.released && s.fld 0 GLOBAL_STATUS_BOOTSEL == 0 && !s.hostReach0 0

/-- CONFIGURATION_REQUEST: a read answers the identity word of R360; a write acts on the capability it names. -/
def Dev.configRequest (s : Dev) (q : CfgReq) : Dev :=
  if !s.cfg.link then s
  else if s.cfgRetry then { s with answer := ⟨0, false, true⟩ }
  else
    match q with
    | .read => { s with answer := ⟨0x32001F3E, false, false⟩ }
    | .ptmEnable on => { s with cfg := { s.cfg with ptm := on } }
    | .msixControl en mask => { s with cfg := { s.cfg with msix := en, fmask := mask } }.releaseVectors
    | .powerState d3 =>
      if d3 then (if s.cfg.d3 then s else s.d3Enter)
      else if s.cfg.d3 then s.hostClear else s
    | .otherWrite => s

def execConfigurationRequest (q : CfgReq) (s : State) : Host.Outcome State Fault Refusal := s.onAwake (fun d => d.configRequest q)

/-! ## BAR2 (R250, R302 to R305, R325) -/

/-- BAR2 ranges the host reaches (R52): none of a remote (R15). -/
def Dev.hostReach2 (s : Dev) (a : Nat) : Bool :=
  !s.cfg.d3 && !s.isRemote && (s.released || (s.flag 0 GLOBAL_STATUS_PUSH_OPEN && decide (0x1000000 ≤ a) && decide (a < 0x2000000)))

def Dev.reach2 (s : Dev) (rq : Requester) (a : Nat) : Bool :=
  match rq with
  | .host => s.hostReach2 a
  | .surveyor => true

/-- A range no writer changes: the sine table (R228) and the working copy (R325). -/
def Dev.readOnly2 (s : Dev) (a : Nat) : Bool :=
  (decide (0x2000000 ≤ a) && decide (a < 0x2004000)) || (decide (6 < s.boot.step) && decide (s.workBase ≤ a) && decide (a < s.workBase + 0x101000))

/-- Slices whose coefficient set in force a write of `len` bytes at `a` touches, their loops closed or in hold and not agile
(R202). -/
def Dev.setsHit (s : Dev) (a len : Nat) : List SliceId :=
  Dev.allSlices.filter (fun n =>
    s.loopState n != 0 && s.owner n == n && !s.flag (sB n) SLICE_LOOP_CFG_AGILE
      && [0, 1, 2].any (fun k =>
        let c := s.coefAddr n k (s.fld (sB n) SLICE_LOOP_STATUS_COEF_SET)
        decide (a < c + 32) && decide (c < a + len)))

/-- A write of one access to a store, whatever its writer: into an ACTIVE segment or a coefficient set in force it is dropped whole;
one narrower than a bank word meets that word's errors, and is discarded where it is uncorrectable. -/
def Dev.storeWrite (s : Dev) (a : Nat) (l : List Byte) (reader : Nat) : Dev :=
  if !backed a || s.readOnly2 a then s
  else if !(s.setsHit a l.length).isEmpty then
    s.each (s.setsHit a l.length) (fun d n => (d.setFlag (sB n) SLICE_COEF_WSTATUS_REFUSED_WR true).note n)
  else if a < 0x1000000 && (s.segs.toList.getD (a / 262144) (0, false)).1 == 2 then s.raise 0x301 0 a 0xFF
  else if l.length == 8 then s.put a l
  else
    let s1 := s.eccRead (a / 8 * 8) 8 reader
    if s.uncorrectable a l.length then s1 else s1.put a l

def readerOf : Requester → Nat
  | .host => rdHost
  | .surveyor => rdSurveyor

/-- An access of 4 or 8 bytes at its natural alignment. -/
def accessOk (a n : Nat) : Bool := (n == 4 || n == 8) && a % n == 0

def otherRequester : Requester → Requester
  | .host => .surveyor
  | .surveyor => .host

/-- Two writes of one mailbox word carry a byte in common with different values. -/
def bytesClash (a : Nat) (l : List Byte) (b : Nat) (m : List Byte) : Bool :=
  (List.range 8).any (fun i =>
    let o := a / 8 * 8 + i
    decide (a ≤ o) && decide (b ≤ o) && (match l[o - a]?, m[o - b]? with
      | some x, some y => x != y
      | _, _ => false))

/-- The host's and the Surveyor's writes of one mailbox word in one cycle: both take effect, unless they clash (R305). -/
def Dev.mailboxBoth (s : Dev) (h : Nat × List Byte) (v : Nat × List Byte) : Dev :=
  let s1 := s.storeWrite h.1 h.2 rdHost
  if bytesClash h.1 h.2 v.1 v.2 then (s1.addFld 0 MEM_MBX_STATUS_COLLISIONS 1).raise (0x140 + 319) 5 h.1 0xFF else s1.storeWrite v.1 v.2 rdSurveyor

/-- BAR2_WRITE; `other` is what the other port writes to the same mailbox word in the same cycle: the place of its first byte in
the word, and its bytes (R305). -/
def Dev.bar2Write (s : Dev) (rq : Requester) (a : Nat) (l : List Byte) (poisoned : Bool) (other : Option (Nat × List Byte)) : Dev :=
  if !accessOk a l.length || (poisoned && decide (rq = .host)) || !s.reach2 rq a then s
  else
    match other with
    | some m =>
      let b := a / 8 * 8 + m.1
      if decide (0x2800000 ≤ a) && decide (a < 0x2820000) && accessOk b m.2.length && s.reach2 (otherRequester rq) b then
        (match rq with
        | .host => s.mailboxBoth (a, l) (b, m.2)
        | .surveyor => s.mailboxBoth (b, m.2) (a, l))
      else s.storeWrite a l (readerOf rq)
    | none => s.storeWrite a l (readerOf rq)

def execBar2Write (rq : Requester) (offset : Nat) (data : List Byte) (poisoned : Bool) (other : Option (Nat × List Byte)) (s : State) :
    Host.Outcome State Fault Refusal := s.onAwake (fun d => d.bar2Write rq offset data poisoned other)

/-- Bytes as a host read of the capture store delivers them: a record with an uncorrectable half shows VRANGE 0xE
(R123). -/
def Dev.capData (s : Dev) (a v : Nat) : Nat :=
  if s.uncorrectable (a / 16 * 16) 16 && a % 16 < 4 then putBits v 28 4 0xE else v

/-- BAR2_READ of 4 or 8 bytes: an unbacked offset reads zero. -/
def Dev.bar2Read (s : Dev) (rq : Requester) (a : Nat) (wide : Bool) : Dev :=
  let n := if wide then 8 else 4
  if !accessOk a n then s
  else if !backed a || !s.reach2 rq a then { s with answer := ⟨0, false, false⟩ }
  else
    let v := s.num a n
    let cap := decide (0x1000000 ≤ a) && decide (a < 0x2000000)
    let bad := s.uncorrectable a n && decide (rq = .host) && !cap
    let w := if cap && decide (rq = .host) then s.capData a v else v
    { s with answer := ⟨BitVec.ofNat 64 w, bad, false⟩ }.eccRead a n (readerOf rq)

def execBar2Read (rq : Requester) (offset : Nat) (wide : Bool) (s : State) : Host.Outcome State Fault Refusal :=
  s.onAwake (fun d => d.bar2Read rq offset wide)

/-! ## Registers (R386 to R388) -/

/-- A write of a HOST register of a ring pair or channel, or of the general ones. A START so written reads a list that is a free
value; with STOP in the same write it comes first (DESIGN CHOICE, notes/assumptions/62.md). -/
def Dev.hostWrite (s : Dev) (a : Nat) (v : Word) : Dev :=
  let x := v.toNat
  if 0x70100 ≤ a ∧ a < 0x70900 then
    let r := sid ((a - 0x70100) / 0x40)
    let o := (a - 0x70100) % 0x40
    let run := s.flag (rB r) HOST_RING_STATUS_RUNNING
    if o == HOST_RING_CFG then s.ringCfgWrite r v
    else if o == HOST_CMD_TAIL then s.cmdTailWrite r v
    else if o == HOST_CPL_HEAD then s.cplHeadWrite r v
    else if o == HOST_CMD_BASE_LO then (if run || x % 8192 != 0 then s.hostRefuse else s.store a v)
    else if o == HOST_CPL_BASE_LO then (if run || x % 2048 != 0 then s.hostRefuse else s.store a v)
    else if o == HOST_CMD_BASE_HI || o == HOST_CPL_BASE_HI then (if run then s.hostRefuse else s.store a v)
    else s.store a v
  else if 0x71000 ≤ a ∧ a < 0x71800 then
    let c := sid ((a - 0x71000) / 0x40)
    let o := (a - 0x71000) % 0x40
    let run := s.flag (cB c) HOST_CAP_STATUS_RUNNING
    if o == HOST_SGL_BASE_LO then (if run || x % 16 != 0 then s.hostRefuse else s.store a v)
    else if o == HOST_SGL_BASE_HI then (if run then s.hostRefuse else s.store a v)
    else if o == HOST_SGL_COUNT then (if 4096 < getBits x 0 13 then s.hostRefuse else s.store a v)
    else if o == HOST_CAP_IRQ_BYTES then (if x % 16 != 0 then s.hostRefuse else s.store a v)
    else if o == HOST_CAP_WB_LO then (if x % 8 != 0 then s.hostRefuse else s.store a v)
    else if o == HOST_CAP_CONSUMED_LO then s.consumedWrite c v
    else if o == HOST_CAP_CTRL then
      let s1 := if bitOf x 0 then s.draw.captureStart c (Config.scatterList s.freeCtr) else s
      if bitOf x 1 then s1.captureStop c else s1
    else s.store a v
  else s.store a v

end Sys2Proof.Machine
end

