-- ==== Sys2Proof/Machine/RegRead.lean ====
section
/-! DEFINITION. What a read of a BAR0 word shows, without its side effects (R3, R4, R265, R363): the words the device computes
when they are read, the words that read as zero, and the register file. -/

namespace Sys2Proof.Machine

/-- Bit `i` set for each element of a predicate over 32. -/
def bits32 (f : Nat → Bool) : Word := maskOf (Dev.allSlices.filter (fun i => f i.val))

/-- `FAULT_STATUS` with the fields that mirror the collector (R356). -/
def Dev.faultStatus (s : Dev) : Word :=
  let w := (s.rd FAULT_STATUS).toNat
  BitVec.ofNat 32 (putBits (putBits (putBits w 0 7 s.col.queue.length) 8 1 s.errLow.toNat) 13 1 (!s.col.grave.isEmpty).toNat)

/-- `FAULT_ERR_SRC` (R357). -/
def Dev.errSrc (s : Dev) : Word :=
  match s.errSources with
  | x :: _ => BitVec.ofNat 32 (x + 2147483648)
  | [] => 0

/-- Registers of a slice's block marked "lowest slice", which read as zero in the other slices of a group; in a gang the
range registers too (R97 to R106, R129, R145, R195; DEDUCED, notes/assumptions/31.md). -/
def Dev.lowOnly (s : Dev) (n : SliceId) (o : Nat) : Bool :=
  o == SLICE_STROBE_CFG || o == SLICE_BAL_CFG || (decide (SLICE_REC_CFG ≤ o) && decide (o ≤ SLICE_CAP_LOST)) || o == SLICE_LOOP_DIV
    || (s.ganged n && decide (SLICE_RANGE_CFG ≤ o) && decide (o ≤ SLICE_RANGE_COUNT))

/-- A word of slice `n`. -/
def Dev.sliceWord (s : Dev) (n : SliceId) (o : Nat) : Word :=
  let w := s.rd (sB n + o)
  if s.low n = n then w
  else if s.lowOnly n o then 0
  else if o == SLICE_TUNE_CFG then w &&& 0xFFFFFFFE
  else w

/-- A word of engine `g`: segment states are the same in every block (R263). -/
def Dev.travWord (s : Dev) (g : Nat) (o : Nat) : Word :=
  if s.group g = none then 0
  else if 0x80 ≤ o ∧ o < 0x90 then
    BitVec.ofNat 32 (((List.range 16).map (fun i => (s.seg (4 * (o - 0x80) + i)).1 * 4 ^ i)).sum)
  else if o == 0x90 || o == 0x94 then bits32 (fun i => (s.seg (8 * (o - 0x90) + i)).2)
  else s.rd (travBase g + o)

/-- A word of axis `a` (R286). -/
def Dev.axWord (s : Dev) (a o : Nat) : Word :=
  if !(s.axisRec a).en then 0
  else if o == MER_AX_LO then (s.axisNow a).extractLsb' 0 32
  else if o == MER_AX_HI then (s.axisNow a).extractLsb' 32 32
  else if o == MER_AX_POS then BitVec.ofNat 32 (s.axisPos a)
  else if o == MER_AX_STATUS && decide (a ≤ 2) && (s.axisRec a).kind == 1 then
    BitVec.ofNat 32 (putBits (s.rd (axBase a + o)).toNat 4 1 (s.serialHeld a).toNat)
  else if o == MER_AX_CFG then s.rd (axBase a + o) &&& s.axCfgMask a
  else if (o == MER_AX_SET_LO || o == MER_AX_SET_HI) && decide (2 < a) then 0
  else s.rd (axBase a + o)

/-- The word at BAR0 offset `a` as a read shows it; `uid` is the fused identity. -/
def Dev.view (s : Dev) (uid : Word64) (a : Nat) : Word :=
  match regRow a with
  | none => 0
  | some r =>
    let w :=
      if a == GLOBAL_UID_LO then uid.extractLsb' 0 32
      else if a == GLOBAL_UID_HI then uid.extractLsb' 32 32
      else if a == GLOBAL_ROLE then BitVec.ofNat 32 (s.plates.link.remote.toNat + 2 * s.plates.link.node)
      else if a == MER_TIME_LO then s.time.extractLsb' 0 32
      else if a == MER_TIME_HI then s.time.extractLsb' 32 32
      else if a == FAULT_STATUS then s.faultStatus
      else if a == FAULT_ERR_SRC then s.errSrc
      else if a == FAULT_SUMMARY_REAL then bits32 (fun i => s.rd (FAULT_REAL + 4 * i) != 0)
      else if a == FAULT_SUMMARY_INJ then bits32 (fun i => s.rd (FAULT_INJ + 4 * i) != 0)
      else if a == FAULT_CAUSE + 124 then s.refreshLock.rd a
      else if 0x30100 ≤ a ∧ a < 0x30200 then s.axWord ((a - 0x30100) / 0x40 + 1) ((a - 0x30100) % 0x40)
      else if 0x90000 ≤ a ∧ a < 0x90200 then (if s.monOn ((a - 0x90000) / 16) then s.rd a else 0)
      else if 0x100000 ≤ a ∧ a < 0x300000 then s.sliceWord (sid ((a - 0x100000) / 0x10000)) (a % 0x10000)
      else if 0x400000 ≤ a ∧ a < 0x420000 then s.travWord ((a - 0x400000) / 0x1000) (a % 0x1000)
      else s.rd a
    w &&& ~~~BitVec.ofNat 32 r.wo

end Sys2Proof.Machine
end

