-- ==== Sys2Proof/Machine/Freeze.lean ====
section
/-! DEFINITION. Freeze, thaw and readout (R421 to R430): entry, what a thaw resynchronises, and the instructions of the test
port. -/

namespace Sys2Proof.Machine

def Dev.modFrz (s : Dev) (f : Frz → Frz) : Dev := { s with frz := f s.frz }

/-! ## Entry (R421 to R423) -/

/-- Ports that are up. -/
def Dev.portsUp (s : Dev) : List PortId := ([0, 1] : List PortId).filter (fun p => s.flag (pB p) LINK_PORT_STATUS_UP)

/-- The 48 random bytes of a challenge. -/
def Dev.drawRandom (s : Dev) : BitVec 384 := (Config.random s.freeCtr) ++ (Config.random (s.freeCtr + 1)).extractLsb' 0 128

/-- A freeze begins in this cycle, of the cause given: 4 cycles later every clock has stopped. A propagating hub has queued its
FREEZE frames before. -/
def Dev.freeze (s : Dev) (cause : Nat) : Dev :=
  if !s.pins.resetN || s.frz.frozen || s.powerFailing then s
  else
    let s1 := s.upTo (s.now + 4)
    let s2 := if !s1.isRemote && s1.plates.link.freeze then s1.each s1.portsUp (fun d p => d.send p 1 15 (.freeze d.node)) else s1
    let s3 := s2.breakCal.each Dev.allSlices (fun d n => d.modSl n (fun x =>
      { x with levelAtFreeze := d.fld (sB n) SLICE_CMP_STATUS_LEVEL, tripped := false, prgPwm := none }))
    let rnd := s3.drawRandom
    s3.draw.draw.modFrz (fun f =>
      { f with frozen := true, cause := cause, unlocked := false, lockedOut := false, refused := false, busy := false, verify := none
               count := (f.count + 1) % 65536, fails := 0, rnd := rnd, shifts := 0, span := 0, linkUp := s3.cfg.link, wires := []
               lock := false })

/-- FREEZE_N_FALL. -/
def execFreezeNFall (s : State) : Host.Outcome State Fault Refusal :=
  s.on (fun d => { d with pins := { d.pins with freezeN := false } }.freeze 1)

/-! ## Interlock (R65, R66) -/

/-- The clocked path of INTERLOCK_N: park on every slice, engines stopped, and the source with its cause. -/
def Dev.interlockAct (s : Dev) : Dev := ((s.parkAll.stopEngines).cause 0x3E8 true).raiseGlobal 0x3E8 0

/-- The clockless gate: OUTEN_N is forced high, or released, on every slice not marked inductive. -/
def Dev.interlockGate (s : Dev) (low : Bool) : Dev :=
  s.each Dev.allSlices (fun d n =>
    if d.induct n then d
    else if low then (if d.flag (sB n) SLICE_FORCE_STATUS_OUTEN then
      (d.setFlag (sB n) SLICE_FORCE_STATUS_OUTEN false).modSl n (fun x => { x with gate := true }) else d)
    else if (d.sl n).gate then (d.setFlag (sB n) SLICE_FORCE_STATUS_OUTEN true).modSl n (fun x => { x with gate := false })
    else d)

/-! ## Thaw (R279, R429) -/

/-- An axis in the first cycle after a freeze of `span` cycles (R279). -/
def Dev.thawAxis (s : Dev) (a span : Nat) : Dev :=
  let r := s.axisRec a
  if !r.en then s
  else if a == 3 then
    let s1 := s.modAxis 3 (fun x =>
      let el := s.now - x.at_ + span
      if x.period == 0 || !x.seen then x
      else { x with value := x.value + BitVec.ofNat 64 (4294967296 * (el / x.period)), at_ := s.now - el % x.period })
    s1.setLost 3 true
  else if a == 4 then s
  else if r.kind == 1 then s.modAxis a (fun x => { x with value := s.axisNow a, frames := x.frames.take 1, held := 1, pollAt := none })
  else (s.modAxis a (fun x => { x with period := 0, at_ := s.now })).setRate a 0 0

/-- TIME counts the stopped cycles, ticks keep their whole periods, and marks passed meanwhile are met. -/
def Dev.thawMeridian (s : Dev) (span : Nat) : Dev :=
  let k := BitVec.ofNat 64 (if decide (4 ≤ s.boot.step) then (if s.fallback then 10 * span else span) else 0)
  let s1 := { s with time := s.time + k }.wr64 MER_THAW_SKIP_LO MER_THAW_SKIP_HI k
  let s2 := s1.each s.plates.groups (fun x r => x.modEng (sid r.first) (fun e => { e with tickMin := e.tickAt + x.period r.first }))
  let s3 := s2.each [1, 2, 3, 4] (fun x a => x.thawAxis a span)
  let s4 := s3.modMer (fun m => { m with ppsAt := m.ppsAt.map (fun _ => s3.now), firstEdge := true, outliers := [] })
  ((s4.passMarks (fun _ => true) (fun a => decide (1 ≤ a) && decide (a ≤ 2))).merEvent 6).raiseGlobal 0x2A8 0

/-- The net change of a comparator's output over the freeze is one edge (R160). A clamp that tripped in it has begun its hold
then; what of the trip needs a clock follows now (R11, R14, R149). -/
def Dev.thawLevels (s : Dev) (n : SliceId) : Dev :=
  let x := s.sl n
  let new := s.fld (sB n) SLICE_CMP_STATUS_LEVEL
  let edge := fun (d : Dev) (i : Nat) => if bitOf new i == bitOf x.levelAtFreeze i then d else d.cmpEdge n i (bitOf new i)
  let s1 := (edge (edge s 0) 1).modSl n (fun y => { y with tripped := false })
  let s2 := if x.tripped || bitOf new 0 != bitOf x.levelAtFreeze 0 || bitOf new 1 != bitOf x.levelAtFreeze 1 then s1.clampQuiet n else s1
  let s3 := if x.tripped then s2.clampHit n else s2
  if bitOf new 3 == bitOf x.levelAtFreeze 3 then s3 else (s3.cmpEdge n 3 (bitOf new 3)).winEvent n (bitOf new 3)

/-- The wire of a Grave source that was asserted in freeze acts (R298, R355). -/
def Dev.thawWire (s : Dev) (x : Nat) : Dev := if 0x282 ≤ x ∧ x ≤ 0x284 then s.graveClock x else s.raiseGlobal x 0

/-- Clocks run again: cycles 4 and 5 of R429. -/
def Dev.thaw (s : Dev) : Dev :=
  let s0 := s.pass 4
  let f := s0.frz
  let s1 := s0.modFrz (fun x => { x with frozen := false, cause := 0, unlocked := false, lockedOut := false, busy := false, verify := none
                                         shifts := 0, wires := [], lock := false })
  let s2 := (s1.each Dev.allSlices (fun d n => d.modSl n (fun x => { x with thawed := true }))).thawMeridian f.span
  let s3 := s2.each Dev.allSlices Dev.thawLevels
  let s4 := s3.each Dev.allSlices (fun d n => d.modSl n (fun x => { x with gate := false }))
  let s5 := if f.lock || !s4.pins.interlockN then s4.interlockAct else s4
  let s6 := s5.each f.wires Dev.thawWire
  let s7 := if s6.clk.lateLoss then (s6.modClk (fun c => { c with lateLoss := false })).graveClock 0x282 else s6
  let s8 := (s7.raiseGlobal 0x3EA 0).each s7.portsUp Dev.portDown
  if f.linkUp && !s8.cfg.link then s8.hostResetRaise true 0x306 else s8

/-! ## The test port (R424, R425) -/

/-- An instruction that reaches the port ends EXTEST's drive of the balls; `f` gives its effect and its data register. -/
def Dev.jtag (s : Dev) (w x : Nat) : Dev := s.modFrz (fun f => { f with extest := false, dr := (w, x) })

/-- Readout is open (R57), or unlocked for this freeze. -/
def Dev.readOpen (s : Dev) : Bool :=
  let st := s.fld 0 GLOBAL_STATUS_STATE
  s.frz.unlocked || decide (st ≤ 1) || (st == 3 && !s.flag 0 GLOBAL_STATUS_SERVICE_FUSED)

/-- Readout instructions are usable. -/
def Dev.readable (s : Dev) : Bool := s.frz.frozen && s.readOpen

/-- FREEZE. -/
def execJtagFreeze (s : State) : Host.Outcome State Fault Refusal :=
  s.on (fun d =>
    let d1 := (d.jtag 1 0).modFrz (fun f => { f with refused := false })
    d1.freeze 2)

/-- THAW: refused with FREEZE_N low, a chain away from home or a response under check. -/
def execJtagThaw (freezeN : Bool) (s : State) : Host.Outcome State Fault Refusal :=
  s.on (fun d =>
    let d1 : Dev := { d.jtag 1 0 with pins := { d.pins with freezeN := freezeN } }
    if !d1.frz.frozen then d1
    else if !freezeN || d1.frz.shifts != 0 || d1.frz.busy then d1.modFrz (fun f => { f with refused := true })
    else (d1.modFrz (fun f => { f with refused := false })).thaw)

/-- `FRZ_STATUS` (R425). -/
def Dev.frzStatus (s : Dev) : Nat :=
  let f := s.frz
  f.frozen.toNat + 2 * f.cause + 8 * f.unlocked.toNat + 16 * f.lockedOut.toNat + 32 * (f.shifts == 0).toNat + 64 * f.refused.toNat
    + 128 * s.pins.freezeN.toNat + 256 * f.busy.toNat + 65536 * f.count

def execJtagStatus (freezeN : Bool) (s : State) : Host.Outcome State Fault Refusal :=
  s.on (fun d =>
    let d1 : Dev := { d with pins := { d.pins with freezeN := freezeN } }
    d1.jtag 32 d1.frzStatus)

/-! ## Scan chains (R426) -/

/-- First BAR0 offset and number of architectural words of a chain; none for a chain without registers. -/
def chainWords (c : Nat) : Nat × Nat :=
  if c < 10 then (0x10000 * c, 16384)
  else if 16 ≤ c ∧ c < 48 then (sliceBase (c - 16), 16384)
  else if 48 ≤ c ∧ c < 80 then (travBase (c - 48), 1024)
  else if 80 ≤ c ∧ c < 112 then (genBase (c - 80), 1024)
  else (0, 0)

/-- Implementation bits of a chain; an absent chain has none. -/
def chainImpl (c : Nat) : Nat :=
  if c < 10 || (16 ≤ c && c < 148) then (Config.implBits c).toNat else 0

/-- Shifts that bring a chain home. -/
def chainLength (c : Nat) : Nat := 64 + 32 * (chainWords c).2 + chainImpl c

/-- Bit `i` of chain `c` counted from home. -/
def Dev.chainBit (s : Dev) (uid : Word64) (c i : Nat) : Bool :=
  let w := chainWords c
  if i < 64 then bitOf (c + 256 * w.2 + 16777216 * chainImpl c + 0xA500000000000000) i
  else if i < 64 + 32 * w.2 then bitOf (s.view uid (w.1 + 4 * ((i - 64) / 32))).toNat ((i - 64) % 32)
  else Config.implBit s.frz.count c (i - 64 - 32 * w.2)

/-- SCAN_SELECT: refused while the chain selected is away from home. -/
def execScanSelect (chain : Byte) (s : State) : Host.Outcome State Fault Refusal :=
  s.on (fun d =>
    if !d.readable then d.jtag 8 0
    else
      let d1 := d.jtag 8 d.frz.scanSel
      if d1.frz.shifts == 0 then d1.modFrz (fun f => { f with scanSel := chain.toNat }) else d1)

/-- SCAN_READ: one bit of the selected chain leaves at TDO and returns at its far end. -/
def Dev.scanRead (s : Dev) (uid : Word64) : Dev :=
  if !s.readable then s.jtag 1 0
  else
    let c := s.frz.scanSel
    (s.jtag 1 (s.chainBit uid c s.frz.shifts).toNat).modFrz (fun f => { f with shifts := (f.shifts + 1) % chainLength c })

def execScanRead (s : State) : Host.Outcome State Fault Refusal := s.on (fun d => d.scanRead s.fuses.uid)

/-! ## Memory test ports (R427) -/

/-- MEM_SELECT: the reserved bits stay zero. -/
def execMemSelect (addr : Word) (s : State) : Host.Outcome State Fault Refusal :=
  s.on (fun d =>
    if !d.readable then d.jtag 32 0
    else (d.jtag 32 d.frz.memAddr.toNat).modFrz (fun f => { f with memAddr := addr &&& 0x0FFFFFFF }))

/-- Words of a tile, context memory or queue that WORD counts. -/
def memWords (target : Nat) : Nat := if target < 321 then 32 else if target < 353 then 256 else if target == 353 then 64 else 256

/-- BAR2 offset of the 64-bit word a physical tile holds, none where the model keeps no content for it: a tile replaced by a
spare, a spare not in use, or a tile under test. -/
def Dev.physWord (s : Dev) (bank tile word : Nat) : Option Nat :=
  let p := bank * 520 + tile
  let testing := match s.memst.test with
    | some t => t.tile == p
    | none => false
  if testing || 520 ≤ tile || 32 ≤ word then none
  else if tile < 512 then (if s.memst.remap.any (fun r => r.1 == p) then none else some (tileOffset p + 8 * word))
  else if s.memst.inUse p then some (s.servedOffset p + 8 * word)
  else none

/-- A free 80-bit reading whose high bits are as given: check bits, parity and unknown content have no value in the manual
(DESIGN CHOICE, notes/assumptions/4.md). -/
def Dev.freeWord (s : Dev) : Nat := (Config.corruptWord s.freeCtr).toNat + 4294967296 * (Config.corruptWord (s.freeCtr + 1)).toNat

/-- Data and flags of the word `FRZ_MEM_ADDR` names. An erroneous word reads uncorrected, with its flag. -/
def Dev.memWord (s : Dev) : Nat :=
  let a := s.frz.memAddr.toNat
  let t := getBits a 0 10
  let w := getBits a 20 8
  let check := (Config.corruptWord (s.freeCtr + 2)).toNat % 256 * 2 ^ 64
  let offset := if t < 320 then s.physWord t (getBits a 10 10) w
    else if t == 320 then (match s.memst.test with
      | some x => some (s.servedOffset x.tile + 8 * (w % 32))
      | none => none)
    else none
  if t < 321 then
    match offset with
    | some o =>
      match s.memst.bad.find? (fun b => b.1 == o / 8) with
      | some b => s.freeWord + check + (if b.2 then 2 ^ 73 else 2 ^ 72)
      | none => s.num o 8 + check
    | none => s.freeWord + check
  else
    let parity := check % 2 ^ 65
    if t == 353 then
      match s.col.queue[w]? with
      | some m => (msgLo m).toNat + 4294967296 * (msgHi m).toNat + parity
      | none => s.freeWord + parity
    else s.freeWord + parity

/-- The address after a read: WORD advances, carrying into TILE. -/
def memNext (a : Nat) : Nat :=
  let w := getBits a 20 8 + 1
  if w < memWords (getBits a 0 10) then putBits a 20 8 w else putBits (putBits a 20 8 0) 10 10 (getBits a 10 10 + 1)

/-- MEM_READ. -/
def execMemRead (s : State) : Host.Outcome State Fault Refusal :=
  s.on (fun d =>
    if !d.readable then d.jtag 80 0
    else
      let x := d.memWord
      ((d.jtag 80 x).draw.draw.draw).modFrz (fun f =>
        { f with memData := BitVec.ofNat 80 x, memAddr := BitVec.ofNat 32 (memNext f.memAddr.toNat) }))

/-! ## Unlock (R428) -/

/-- The challenge as a little-endian number: UID, COUNT, random bytes. -/
def Dev.challenge (s : Dev) (uid : Word64) : Nat := uid.toNat + 2 ^ 64 * s.frz.count + 2 ^ 128 * s.frz.rnd.toNat

def execUnlockChallenge (s : State) : Host.Outcome State Fault Refusal :=
  s.on (fun d => d.jtag 512 (if d.frz.frozen then d.challenge s.fuses.uid else 0))

/-- UNLOCK_RESPONSE: its check starts; ignored once locked out, or while another response is being checked. -/
def execUnlockResponse (keyIndex : Word) (r : Response) (s : State) : Host.Outcome State Fault Refusal :=
  s.on (fun d =>
    let d1 := d.jtag 1568 0
    if !d1.frz.frozen || d1.frz.lockedOut || d1.frz.busy then d1
    else d1.modFrz (fun f => { f with busy := true, verify := some (keyIndex, r.publicKey, r.signature) }))

/-- The first three conditions of R19, on KEY_INDEX and the PUBLIC_KEY bytes. A hash without its valid bit counts as zero (R61). -/
def Fuses.keyOk (f : Fuses) (k : Nat) (publicKey : List Byte) : Bool :=
  let h := if k == 0 then (if f.valid0 then f.hash0 else 0) else (if f.valid1 then f.hash1 else 0)
  decide (k < 2) && !f.revoked.getLsbD k && h != 0 && Config.sha384 publicKey == h

/-- The fourth condition: SIGNATURE verifies under PUBLIC_KEY over the SHA-384 digest of the signed bytes. -/
def signatureOk (publicKey signature signed : List Byte) : Bool := Config.ecdsaOk publicKey (Config.sha384 signed) signature

/-- UNLOCK_VERIFY_DONE. -/
def Dev.verifyDone (s : Dev) (fu : Fuses) : Dev :=
  match s.frz.verify with
  | none => s
  | some v =>
    if fu.keyOk v.1.toNat v.2.1 && signatureOk v.2.1 v.2.2 (leBytes 64 (s.challenge fu.uid)) then s.modFrz (fun f => { f with busy := false, verify := none, unlocked := true })
    else s.modFrz (fun f => { f with busy := false, verify := none, fails := f.fails + 1, lockedOut := decide (3 ≤ f.fails + 1) })

def execUnlockVerifyDone (s : State) : Host.Outcome State Fault Refusal := s.on (fun d => d.verifyDone s.fuses)

/-! ## Boundary scan and bypass -/

/-- The balls as the boundary cells capture them: their levels are the board's, a free value. -/
def Dev.captureCells (s : Dev) (n : Nat) : Nat := (Config.approx s.freeCtr [n]).toNat % 2 ^ n

/-- EXTEST: usable only while RESET_N is low; the cells drive the balls. -/
def execExtest (cells : List Bool) (s : State) : Host.Outcome State Fault Refusal :=
  s.on (fun d =>
    if d.pins.resetN then d.jtag cells.length 0
    else ((d.jtag cells.length (d.captureCells cells.length)).draw).modFrz (fun f => { f with cells := cells, extest := true }))

def execSamplePreload (cells : List Bool) (s : State) : Host.Outcome State Fault Refusal :=
  s.on (fun d => ((d.jtag cells.length (d.captureCells cells.length)).draw).modFrz (fun f => { f with cells := cells }))

/-- BYPASS: TDO shows the bit held, and the register takes TDI (DESIGN CHOICE, notes/assumptions/32.md). -/
def execBypass (tdi : Bool) (s : State) : Host.Outcome State Fault Refusal :=
  s.on (fun d => (d.jtag 1 d.frz.bypass.toNat).modFrz (fun f => { f with bypass := tdi }))

end Sys2Proof.Machine
end

