-- ==== Sys2Proof/Machine/Link.lean ====
section
/-! DEFINITION. The Kortor link: receiving (R391 to R397, R402 to R404), heartbeats and calibration (R399), absence and turned
paths (R400, R401), ports and lanes (R398), keys (R405, R406). What each frame carries is acted on in Machine/Frames.lean. -/

namespace Sys2Proof.Machine

def Dev.modLink (s : Dev) (f : LinkSt → LinkSt) : Dev := { s with link := f s.link }
def Dev.modVc (s : Dev) (p : PortId) (k : Fin 3) (f : Vc → Vc) : Dev :=
  s.modPort p (fun x => { x with vcs := x.vcs.set k.val (f (x.vcs.get k)) k.isLt })

def Dev.linkRefuse (s : Dev) : Dev := s.setFlag 0 LINK_STATUS_REFUSED true

def vcList : List (Fin 3) := [0, 1, 2]

/-! ## Ports and lanes (R398, R404) -/

/-- A remote that waits in BOOT for its image listens on both ports (R53). -/
def Dev.bootListen (s : Dev) : Bool := s.fld 0 GLOBAL_STATUS_BOOTSEL == 2 && decide (4 ≤ s.boot.step) && decide (s.boot.step < 8)

/-- A port that may train and receive. -/
def Dev.portUsed (s : Dev) (p : PortId) : Bool := s.portEnabled p || s.bootListen

/-- A port that receives. -/
def Dev.receiving (s : Dev) (p : PortId) : Bool :=
  s.awake && !s.fallback && s.portUsed p && s.flag (pB p) LINK_PORT_STATUS_UP && !s.flag (pB p) LINK_PORT_STATUS_QUARANTINED

/-- Quarantine begins (R404). -/
def Dev.quarantine (s : Dev) (p : PortId) : Dev :=
  let s1 := (s.setFlag (pB p) LINK_PORT_STATUS_QUARANTINED true).modPort p (fun x => { x with quarAt := s.now, failAt := [] })
  ((s1.cause (0x2C6 + p.val) true).raiseGlobal (0x2C6 + p.val) 0).linkEvent

/-- Quarantine ends, and the port retrains. -/
def Dev.endQuarantine (s : Dev) (p : PortId) : Dev :=
  if s.flag (pB p) LINK_PORT_STATUS_QUARANTINED then
    (((s.setFlag (pB p) LINK_PORT_STATUS_QUARANTINED false).cause (0x2C6 + p.val) false).portDown p).linkEvent
  else s

/-- QUARANTINE_END: 100 ms after it began. -/
def execQuarantineEnd (p : PortId) (s : State) : Host.Outcome State Fault Refusal :=
  s.onAwake (fun d =>
    if d.flag (pB p) LINK_PORT_STATUS_QUARANTINED then (d.upTo ((d.port p).quarAt + 100000000)).endQuarantine p else d)

/-- PORT_RELEASE. -/
def execPortRelease (p : PortId) (s : State) : Host.Outcome State Fault Refusal := s.onAwake (fun d => d.endQuarantine p)

/-- A write of `LINK_PORT_CTRL.RETRAIN`. -/
def Dev.retrain (s : Dev) (p : PortId) : Dev :=
  if s.portUsed p && !s.flag (pB p) LINK_PORT_STATUS_QUARANTINED then (s.portDown p).linkEvent else s

def execPortRetrain (p : PortId) (s : State) : Host.Outcome State Fault Refusal := s.onAwake (fun d => d.retrain p)

/-- PORT_TRAINED: both lanes are up, under a new session value. Calibration is remade after more than 1 ms down. -/
def Dev.portTrained (s : Dev) (p : PortId) (session : Word64) : Dev :=
  let b := pB p
  let long := match (s.port p).downAt with
    | some t => decide (t + 1000000 < s.now)
    | none => false
  let s1 := ((s.setFlag b LINK_PORT_STATUS_UP true).setFld b LINK_PORT_STATUS_LANES 3).setFlag b LINK_PORT_STATUS_CALIBRATED
    (s.flag b LINK_PORT_STATUS_CALIBRATED && !long)
  let s2 := s1.modPort p (fun x =>
    { x with session := session, peer := none, downAt := none, delays := if long then [] else x.delays, echo := none
             heardAt := if x.heardAt == 0 then s.now else x.heardAt })
  (((s2.cause (0x2C0 + p.val) false).cause (0x2C2 + p.val) false).endReset (target 4 p.val)).linkEvent

def execPortTrained (p : PortId) (session : Word64) (s : State) : Host.Outcome State Fault Refusal :=
  s.onAwake (fun d =>
    if d.fallback || d.boot.step < 4 || !d.portUsed p || d.flag (pB p) LINK_PORT_STATUS_UP
        || d.flag (pB p) LINK_PORT_STATUS_QUARANTINED then d
    else d.portTrained p session)

/-- In a ring, a remote whose upstream port goes down turns its other port upstream, and reports it (R401). -/
def Dev.turnPath (s : Dev) : Dev :=
  let up := otherPort s.upPort
  let s1 := (s.setFld 0 LINK_STATUS_UPSTREAM up.val).setFlag 0 LINK_STATUS_TURNED (up.val != s.plates.link.upstream)
  let m := msg 0x2CA 0 0 0xFF
  let s2 := s1.raiseMsg m
  if s1.reactions m &&& 0x44 != 0 then s2 else s2.sendHub 0 (.fault m 0 (s2.fld 0 GLOBAL_STATUS_STATE))

/-- Port `p` has lost both lanes. -/
def Dev.portLost (s : Dev) (p : PortId) : Dev :=
  let s1 := ((s.portDown p).cause (0x2C2 + p.val) true).raiseGlobal (0x2C2 + p.val) 0
  if s1.isRemote && s1.plates.link.ring && p == s1.upPort && s1.flag (pB (otherPort p)) LINK_PORT_STATUS_UP then s1.turnPath else s1

/-- Every unacknowledged frame of virtual channel `k` is sent again; a SYNC is restamped (R393, R397). -/
def Dev.resend (s : Dev) (p : PortId) (k : Fin 3) : Dev :=
  let v := (s.port p).vcs.get k
  if v.unacked.isEmpty || !s.canSend p then s
  else
    let stamp := fun (f : TxFrame) => match f.body with
      | .timeSync r sec _ => { f with body := .timeSync r sec s.time }
      | _ => f
    (s.modVc p k (fun x => { x with unacked := x.unacked.map stamp })).addWord (pB p + LINK_PORT_RETX) v.unacked.length

/-- LANE_FAILURE: the port goes on over the other lane and resends what is unacknowledged, or is down. -/
def execLaneFailure (p : PortId) (lane : Fin 2) (s : State) : Host.Outcome State Fault Refusal :=
  s.onAwake (fun d =>
    let f : Fld := ⟨LINK_PORT_STATUS, lane.val, 1⟩
    if d.fallback || !d.flag (pB p) f then d
    else
      let d1 := ((d.setFlag (pB p) f false).cause (0x2C0 + p.val) true).raiseGlobal (0x2C0 + p.val) (lane.val + 1)
      (if d1.fld (pB p) LINK_PORT_STATUS_LANES == 0 then d1.portLost p
       else vcList.foldl (fun e k => e.resend p k) d1).linkEvent)

/-- LANE_REJOIN: the failed lane joins again. -/
def execLaneRejoin (p : PortId) (lane : Fin 2) (s : State) : Host.Outcome State Fault Refusal :=
  s.onAwake (fun d =>
    if d.fallback || !d.flag (pB p) LINK_PORT_STATUS_UP then d
    else
      let d1 := d.setFlag (pB p) ⟨LINK_PORT_STATUS, lane.val, 1⟩ true
      (if d1.fld (pB p) LINK_PORT_STATUS_LANES == 3 then d1.cause (0x2C0 + p.val) false else d1).linkEvent)

/-! ## Nodes, as the hub sees them (R400, R420) -/

/-- Node at the other end of port `p`, by its position in the chain or ring. -/
def Dev.neighbour (s : Dev) (p : PortId) : Nat :=
  if !s.isRemote then (if s.plates.link.ring && p == 1 then s.plates.link.count else 1)
  else if p == s.upPort then (if s.flag 0 LINK_STATUS_TURNED then s.node + 1 else s.node - 1)
  else if s.flag 0 LINK_STATUS_TURNED then s.node - 1 else s.node + 1

/-- A frame from node `k` came in by port `p`: the node is there, in BOOT or up (DEDUCED, notes/assumptions/30.md). -/
def Dev.nodeHeard (s : Dev) (k : Nat) (p : PortId) (boot : Bool) : Dev :=
  if s.isRemote || k == 0 || decide (s.plates.link.count < k) then s
  else
    let b := nodeBase k
    let st := if boot then 1 else 2
    let hops := if s.plates.link.ring && p == 1 then s.plates.link.count + 1 - k else k
    let s1 := ((s.setFld b LINK_NODE_STATUS_PORT p.val).setFld b LINK_NODE_STATUS_HOPS hops).cause (0x2D0 + k) false
    if s.fld b LINK_NODE_STATUS_STATE == st then s1 else (s1.setFld b LINK_NODE_STATUS_STATE st).linkEvent

/-- A relayed command ends: its entry is written to the ring, and a FENCE lets its ring go on. -/
def Dev.endRelayed (s : Dev) (r : RingId) (c : Ctx) (e : Cpl) : Dev :=
  let s1 := if c.drop then s else s.postCpl r e (c.hdr.flags.getLsbD 0)
  (if c.opcode == 0x12 then s1.unhold r else s1).fencePass r

/-- The rings bound to node `k`. -/
def Dev.ringsOf (s : Dev) (k : Nat) : List RingId := ((List.range 32).map sid).filter (fun r => s.fld (rB r) HOST_RING_CFG_NODE == k)

/-- A frame of station data to node `k`. -/
def TxFrame.stationTo (f : TxFrame) (k : Nat) : Bool :=
  f.dst == k && (match f.body with
    | .station _ _ _ _ => true
    | _ => false)

/-- The transfer engine ends (R411). -/
def Dev.xferEnd (s : Dev) (err : Nat) : Dev :=
  let s1 := (s.setFlag 0 LINK_XFER_STATUS_BUSY false).setFlag 0 LINK_XFER_STATUS_DONE true
  (if err == 0 then s1 else (s1.setFld 0 LINK_XFER_STATUS_ERR err).raiseGlobal 0x2CB 0).linkEvent

/-- Frames of the running transfer wait for a credit or the window (R396, R397). -/
def Dev.xferWaits (s : Dev) : Bool :=
  ([0, 1] : List PortId).any (fun p => ((s.port p).vcs.get 2).waiting.any (fun f => f.stationTo s.link.xferNode))

/-- The transfer ends when its last frame has been sent. -/
def Dev.xferCheck (s : Dev) : Dev := if s.flag 0 LINK_XFER_STATUS_BUSY && !s.xferWaits then s.xferEnd 0 else s

/-- What a transfer to node `k` has still to send is dropped, and the transfer ends with an error. -/
def Dev.xferDrop (s : Dev) (k err : Nat) : Dev :=
  if s.flag 0 LINK_XFER_STATUS_BUSY && s.link.xferNode == k then
    (s.each ([0, 1] : List PortId) (fun d p => d.modVc p 2 (fun v =>
      { v with waiting := v.waiting.filter (fun f => !f.stationTo k) }))).xferEnd err
  else s

/-- Node `k` is absent: its source is raised, a key load and a transfer to it end, and its relayed commands complete ABSENT,
and with them a BARRIER or FENCE that holds a ring of it (R372, R385, R411). -/
def Dev.nodeAbsent (s : Dev) (k : Nat) : Dev :=
  let st := s.fld (nodeBase k) LINK_NODE_STATUS_STATE
  if st == 0 || st == 3 then s
  else
    let s1 := (((s.setFld (nodeBase k) LINK_NODE_STATUS_STATE 3).cause (0x2D0 + k) true).raise (0x2D0 + k) 0 0 k).linkEvent
    let s2 := if s1.flag 0 LINK_RKEY_STATUS_BUSY && s1.fld 0 LINK_RKEY_CTRL_NODE == k then
        ((s1.setFlag 0 LINK_RKEY_STATUS_BUSY false).setFld 0 LINK_RKEY_STATUS_RESULT 2).linkEvent
      else s1
    (s2.xferDrop k 1).each (s2.ringsOf k) (fun d r =>
      let l := (d.ring r).relayed
      let d1 := ((d.modRing r (fun q => { q with relayed := [] })).unhold r).each l (fun e x =>
        let c := x.2.2.1
        e.endRelayed r c { tag := c.hdr.tag, status := ABSENT, phase := false, relayed := false, opcode := c.opcode
                           group := c.hdr.group.toNat % 32, node := k, faultOff := 0xFF, time := e.time })
      match (d.ring r).held with
      | some (c, _, _) => if l.any (fun x => x.2.2.1.opcode == 0x12) then d1 else d1.complete c ABSENT
      | none => d1)

def Dev.nodes (s : Dev) : List Nat := (List.range s.plates.link.count).map (· + 1)

/-- The hub's other port still reaches the nodes of a ring. -/
def Dev.otherPath (s : Dev) (p : PortId) : Bool :=
  s.plates.link.ring && s.flag (pB (otherPort p)) LINK_PORT_STATUS_UP && !s.flag (pB (otherPort p)) LINK_PORT_STATUS_PARTNER_ABSENT

/-- The partner of the hub's port `p` is absent, and with it what no other path reaches. -/
def Dev.portAbsent (s : Dev) (p : PortId) : Dev :=
  if s.otherPath p then s
  else s.each s.nodes (fun d k => if d.fld (nodeBase k) LINK_NODE_STATUS_PORT == p.val then d.nodeAbsent k else d)

/-- Node `k` has lost its downstream partner: the nodes behind it are absent. -/
def Dev.behindAbsent (s : Dev) (k : Nat) : Dev :=
  let p := s.fld (nodeBase k) LINK_NODE_STATUS_PORT
  if s.otherPath (portOf (p == 1)) then s
  else
    let back := s.plates.link.ring && p == 1
    s.each s.nodes (fun d j => if (if back then decide (j < k) else decide (k < j)) && d.fld (nodeBase j) LINK_NODE_STATUS_PORT == p then d.nodeAbsent j else d)

/-- The orphan policy of a group (R400). -/
def Dev.orphanGroup (s : Dev) (r : GroupRec) : Dev :=
  let g := sid r.first
  let s1 := s.modEng g (fun e => { e with orphaned := true })
  match r.orphan with
  | 0 => s1.stopEngine g
  | 1 => (s1.parkGroup r.first).stopEngine g
  | _ => s1

/-- A remote has lost the hub where its upstream partner is absent, in a ring with the other path lost too: every group applies
its orphan policy in the cycle in which that comes about (R400). -/
def Dev.hubLost (s : Dev) : Dev :=
  if !s.flag (pB s.upPort) LINK_PORT_STATUS_PARTNER_ABSENT || s.otherPath s.upPort || (s.rd (FAULT_CAUSE + 4 * 22)).getLsbD 16 then s
  else ((s.cause 0x2D0 true).raiseGlobal 0x2D0 0).each s.plates.groups Dev.orphanGroup

/-- PARTNER_ABSENT: 30 µs without a HEARTBEAT. -/
def Dev.partnerAbsent (s : Dev) (p : PortId) : Dev :=
  let s1 := ((s.upTo ((s.port p).heardAt + 30000)).setFlag (pB p) LINK_PORT_STATUS_PARTNER_ABSENT true).linkEvent
  if !s1.isRemote then s1.portAbsent p
  else if p == s1.upPort then s1.hubLost
  else (s1.sendHub 0 (.fault (msg (0x2C2 + p.val) 0 0 0xFF) 0 (s1.fld 0 GLOBAL_STATUS_STATE))).hubLost

def execPartnerAbsent (p : PortId) (s : State) : Host.Outcome State Fault Refusal :=
  s.onAwake (fun d =>
    if d.fallback || !d.portEnabled p || (d.port p).heardAt == 0 || d.flag (pB p) LINK_PORT_STATUS_PARTNER_ABSENT then d
    else d.partnerAbsent p)

/-! ## Receiving (R391 to R397, R402, R403) -/

/-- A frame fails authentication (R402): counted, its source raised; the sixteenth within 1 ms is a quarantine. -/
def Dev.authFail (s : Dev) (p : PortId) (kind : Nat) : Dev :=
  let l := s.now :: (s.port p).failAt.filter (fun t => decide (s.now < t + 1000000))
  let s1 := ((s.addWord (pB p + LINK_PORT_AUTHFAIL) 1).modPort p (fun x => { x with failAt := l })).raiseGlobal (0x2C4 + p.val) kind
  if 16 ≤ l.length then s1.quarantine p else s1

/-- A receiver owes its partner a NAK. -/
def Dev.owesNak (s : Dev) (p : PortId) : Dev := s.modPort p (fun x => { x with nakDue := true })

/-- Frames before SEQ `a` are acknowledged. -/
def Vc.acked (v : Vc) (a : Nat) : Vc := { v with unacked := v.unacked.filter (fun f => decide (128 ≤ (a + 255 - f.seq) % 256)) }

/-- An ACK and credits for virtual channel `k` of port `p`; the first ACK ends the announcement of a restart. -/
def Dev.ackCredit (s : Dev) (p : PortId) (k : Fin 3) (ack credit : Nat) : Dev :=
  let v := (s.port p).vcs.get k
  let w := v.acked ack
  let s1 := s.modVc p k (fun _ => { w with credits := min 32 (w.credits + credit) })
  if w.unacked.length < v.unacked.length then s1.modPort p (fun x => { x with restart := none }) else s1

/-- Some key slot is loaded. -/
def Dev.keyed (s : Dev) : Bool := s.link.keys.toList.any Option.isSome

/-- Frames accepted without a tag: `boot` on a remote in BOOT, `bare` on a remote without a key (R53, R402). -/
def Dev.untagged (s : Dev) (boot bare : Bool) : Bool := (s.bootListen && boot) || (s.isRemote && !s.keyed && bare)

/-- Kind of an authentication failure, 0 for none: `last` is the counter last accepted. -/
def Dev.authKind (s : Dev) (rx : Rx) (last : Nat) : Nat :=
  if !rx.auth then (if s.flag 0 LINK_STATUS_AUTH_REQUIRED then 4 else if rx.counter.toNat ≤ last then 2 else 0)
  else if (s.link.keys.get rx.key).isNone then 3
  else if !rx.tagOk then 1
  else if rx.counter.toNat ≤ last then 2
  else 0

/-- A frame of virtual channel `k`: false where it is dropped. `exempt` frees it from the tag, and `form` is false where its
direction does not suit this node. A frame the channel has accepted returns its credit, acknowledges others, and shows its
sender present. -/
def Dev.accept (s : Dev) (rx : Rx) (k : Fin 3) (exempt form : Bool) : Dev × Bool :=
  let p := rx.port
  let v := (s.port p).vcs.get k
  if !s.receiving p || (s.bootListen && !exempt) then (s, false)
  else if !rx.crcOk then ((s.addWord (pB p + LINK_PORT_CRCERR) 1).owesNak p, false)
  else if rx.seq.toNat != v.rxSeq then (if (rx.seq.toNat + 256 - v.rxSeq) % 256 < 128 then s.owesNak p else s, false)
  else
    let kind := if exempt then 0 else s.authKind rx v.rxCount
    if kind != 0 then (s.authFail p kind, false)
    else
      let s1 := s.modVc p k (fun x => { x with rxSeq := (x.rxSeq + 1) % 256, rxCount := max x.rxCount rx.counter.toNat, owed := x.owed + 1 })
      let s2 := ((s1.ackCredit p k rx.ack.toNat rx.credit.toNat).nodeHeard rx.src.toNat p false).pumpPort p
      if rx.formOk && form then (s2.sendAllRecords.xferCheck, rx.src.toNat != s.node || s.bootListen)
      else ((s2.addWord (pB p + LINK_PORT_MALFORMED) 1).raiseGlobal (0x2C8 + p.val) 0, false)

/-- A frame is for this node. -/
def Dev.isFor (s : Dev) (rx : Rx) : Bool := rx.dst.toNat == 15 || rx.dst.toNat == s.node || s.bootListen

/-- A remote after release relays a frame for other nodes out of its other port; the last of a chain has none to relay to all
(R391). -/
def Dev.relayFrame (s : Dev) (rx : Rx) (k : Fin 3) (b : Body) : Dev :=
  let out := otherPort rx.port
  let last := !s.plates.link.ring && s.node == s.plates.link.count && rx.dst.toNat == 15
  if s.isRemote && s.fld 0 GLOBAL_STATUS_STATE != 0 && s.portEnabled out && rx.dst.toNat != s.node && !last then s.sendFrom out k rx.src.toNat rx.dst.toNat b
  else s

/-- A frame of the hub's own to all nodes has come round its ring: it is not acted on (R391). -/
def Dev.cameRound (s : Dev) (rx : Rx) : Bool := s.plates.link.ring && !s.isRemote && rx.src.toNat == 0 && rx.dst.toNat == 15

/-- A frame of virtual channel `k` is received, relayed as `b`, and acted on by `f` if it is for this node. `down` tells the
frames only a remote receives from those only a hub does (R394). -/
def Dev.frame (s : Dev) (rx : Rx) (k : Fin 3) (exempt down : Bool) (b : Body) (f : Dev → Dev) : Dev :=
  let form := if down then s.isRemote || s.bootListen || s.cameRound rx else !s.isRemote || rx.dst.toNat != s.node
  let r := s.accept rx k exempt form
  if r.2 then
    let s1 := r.1.relayFrame rx k b
    if s1.isFor rx then f s1 else s1
  else r.1

/-! ## Heartbeats (R399, R403) -/

/-- The partner has restarted: counters and SEQs start afresh, and unacknowledged frames are undelivered. -/
def Dev.partnerRestart (s : Dev) (p : PortId) (session : Word64) : Dev :=
  s.modPort p (fun x => { x with vcs := x.vcs.map (fun v => { v with rxCount := 0, rxSeq := 0, txSeq := 0, unacked := [], credits := 32, owed := 0 })
                                 beatRx := 0, restartOf := some session })

/-- The one-way delay a heartbeat measures, and the calibration of the hop. -/
def Dev.calibrateHop (s : Dev) (p : PortId) (b : Beat) : Dev :=
  if b.echoTx == 0 && b.echoRx == 0 then s
  else
    let d := ((b.rxTime - b.echoTx) - (b.tTx - b.echoRx)).toInt
    let l := (d :: (s.port p).delays).take 16
    let s1 := s.modPort p (fun x => { x with delays := l })
    if l.length < 16 then s1
    else
      let sum := sumOf l
      let ok := l.all (fun x => decide (absDiff (16 * x) sum ≤ 32))
      (s1.setFld (pB p) LINK_PORT_HOP_D_PS (clampI 0 65535 (openDiv (sum * 5) 16)).toNat).setFlag (pB p) LINK_PORT_STATUS_CALIBRATED ok

/-- What an accepted heartbeat does: the session, acks and credits, a NAK, the delay, and the partner's presence. -/
def Dev.heartbeat (s : Dev) (p : PortId) (b : Beat) : Dev :=
  let s1 := s.modPort p (fun x => { x with heardAt := s.now, peer := some b.session, echo := some (b.tTx, b.rxTime) })
  let s2 := vcList.foldl (fun d k => d.ackCredit p k (b.ack.getD k.val 0).toNat (b.credit.getD k.val 0).toNat) s1
  let s3 := if b.nak then vcList.foldl (fun d k => d.resend p k) s2 else s2
  let was := s3.flag (pB p) LINK_PORT_STATUS_PARTNER_ABSENT || s3.flag (pB p) LINK_PORT_STATUS_PARTNER_BOOT != b.boot
  let s4 := (s3.setFlag (pB p) LINK_PORT_STATUS_PARTNER_ABSENT false).setFlag (pB p) LINK_PORT_STATUS_PARTNER_BOOT b.boot
  let s5 := if was then s4.linkEvent else s4
  let s6 := if s5.isRemote then (if p == s5.upPort then s5.cause 0x2D0 false else s5)
    else s5.nodeHeard (if b.boot then s5.neighbour p else b.node.toNat) p b.boot
  (((s6.calibrateHop p b).pumpPort p).sendAllRecords).xferCheck

/-- HEARTBEAT_FRAME, in virtual channel 3. -/
def execHeartbeatFrame (rx : Rx) (b : Beat) (s : State) : Host.Outcome State Fault Refusal :=
  s.onAwake (fun d =>
    let p := rx.port
    let exempt := d.untagged true true
    if !d.receiving p then d
    else if !rx.crcOk then (d.addWord (pB p + LINK_PORT_CRCERR) 1).owesNak p
    else
      let fresh := b.restarted && (d.port p).restartOf != some b.session
      let kind := if exempt then 0 else d.authKind rx (if fresh then 0 else (d.port p).beatRx)
      if kind != 0 then d.authFail p kind
      else
        let d1 := if fresh then d.partnerRestart p b.session else d
        let d2 := d1.modPort p (fun x => { x with beatRx := max x.beatRx rx.counter.toNat })
        if rx.formOk then d2.heartbeat p b else (d2.addWord (pB p + LINK_PORT_MALFORMED) 1).raiseGlobal (0x2C8 + p.val) 0)

/-- The port announces a restart until the first ACK, or for 1 ms if it has no frame to send. -/
def Dev.announces (s : Dev) (p : PortId) : Bool :=
  let x := s.port p
  match x.restart with
  | some t => decide (s.now ≤ t + 1000000) || x.vcs.toList.any (fun v => !v.unacked.isEmpty || !v.waiting.isEmpty)
  | none => false

/-- HEARTBEAT_SEND: owed acks, credits and a NAK go with it. -/
def Dev.sendBeat (s : Dev) (p : PortId) : Dev :=
  let x := s.port p
  let boot := s.fld 0 GLOBAL_STATUS_STATE == 0
  let vs := x.vcs.toList
  let e := x.echo.getD (0, 0)
  let b : Beat :=
    { session := x.session, tTx := s.time, echoTx := e.1, echoRx := e.2, ack := vs.map (fun v => BitVec.ofNat 8 v.rxSeq)
      credit := vs.map (fun v => BitVec.ofNat 8 (min 32 v.owed)), boot := boot, nak := x.nakDue
      lanes := BitVec.ofNat 2 (s.fld (pB p) LINK_PORT_STATUS_LANES), restarted := s.announces p
      node := if boot then 14 else BitVec.ofNat 4 s.node, rxTime := 0 }
  let f : TxFrame := { dst := 15, src := b.node.toNat, seq := 0, counter := x.beatTx, body := .heartbeat b }
  s.modPort p (fun y =>
    { y with vcs := y.vcs.map (fun v => { v with owed := v.owed - 32 }), nakDue := false, beatTx := y.beatTx + 1, sent := some f
             restart := if s.announces p then y.restart else none })

def execHeartbeatSend (p : PortId) (s : State) : Host.Outcome State Fault Refusal :=
  s.onAwake (fun d => if d.receiving p then d.sendBeat p else d)

/-- RETRANSMIT_TIMEOUT. -/
def execRetransmitTimeout (p : PortId) (vc : Fin 3) (s : State) : Host.Outcome State Fault Refusal :=
  s.onAwake (fun d => d.resend p vc)

/-! ## Keys (R405, R406) -/

/-- A slot may be loaded (R405). -/
def Dev.slotFree (s : Dev) (k : Fin 8) : Bool :=
  decide (k.val < s.plates.link.slots) && ((s.link.keys.get k).isNone
    || (s.plates.link.rotate && ([0, 1] : List PortId).all (fun p => !s.portEnabled p || s.fld (pB p) LINK_PORT_CFG_TX_KEY != k.val)))

/-- A key takes its slot. -/
def Dev.setKey (s : Dev) (k : Fin 8) (key : BitVec 256) : Dev :=
  (s.modLink (fun l => { l with keys := l.keys.set k.val (some key) k.isLt })).setFlag 0 ⟨LINK_KEY_STATUS, k.val, 1⟩ true

/-- KEY_LOAD: a write of `LINK_KEY_CTRL.LOAD` on a hub. The data words are cleared whatever becomes of it. -/
def Dev.keyLoad (s : Dev) (k : Fin 8) : Dev :=
  let key := BitVec.ofNat 256 (leNat ((List.range 8).flatMap (fun i => leBytes 4 (s.rd (LINK_KEY_DATA + 4 * i)).toNat)))
  let s1 := s.each (List.range 8) (fun d i => d.wr (LINK_KEY_DATA + 4 * i) 0)
  if !s1.isRemote && s1.slotFree k then (s1.setKey k key).linkEvent
  else ((s1.setFlag 0 LINK_KEY_STATUS_REFUSED true).raiseGlobal 0x2CC 0).linkEvent

def execKeyLoad (slot : Fin 8) (s : State) : Host.Outcome State Fault Refusal :=
  s.onAwake (fun d => (d.setFld 0 LINK_KEY_CTRL_SLOT slot.val).keyLoad slot)

/-- REMOTE_KEY_SEND: a write of `LINK_RKEY_CTRL.SEND`. -/
def Dev.remoteKey (s : Dev) (k : Nat) : Dev :=
  if s.isRemote || s.flag 0 LINK_RKEY_STATUS_BUSY then s.linkRefuse
  else if decide (s.plates.link.count < k) || s.fld (nodeBase k) LINK_NODE_STATUS_STATE == 0 || s.fld (nodeBase k) LINK_NODE_STATUS_STATE == 3 then
    (s.setFld 0 LINK_RKEY_STATUS_RESULT 2).linkEvent
  else (s.setFlag 0 LINK_RKEY_STATUS_BUSY true).sendNode k 0 (.keyLoad ((List.range 12).map (fun i => s.rd (LINK_RKEY_DATA + 4 * i))))

/-- A write of `LINK_RKEY_CTRL`: NODE is 1 to 8. -/
def Dev.rkeyWrite (s : Dev) (k : Nat) (send : Bool) : Dev :=
  if k == 0 || decide (8 < k) then s.linkRefuse
  else
    let s1 := s.setFld 0 LINK_RKEY_CTRL_NODE k
    if send then s1.remoteKey k else s1

def execRemoteKeySend (node : BitVec 4) (s : State) : Host.Outcome State Fault Refusal :=
  s.onAwake (fun d => d.rkeyWrite node.toNat true)

/-- A wrapped key on a remote (R406): `ok` is its integrity check. The remote transmits with the new slot from its next frame,
and answers with a COMPLETION whose RING is 0xFF. -/
def Dev.takeKey (s : Dev) (blk : List Byte) (ok : Bool) (h : Hdr) : Dev :=
  let slot := (blk.getD 32 0).toNat
  let seq := leNat ((blk.drop 36).take 4)
  let k : Fin 8 := Fin.ofNat 8 slot
  let form := decide (slot < 8) && ((blk.drop 33).take 3).all (fun x => x == 0) && blk.length == 40
  let good := ok && form && decide (s.link.loadSeq < seq) && s.slotFree k
  let e : Cpl := { tag := h.tag, status := if good then OK else INTEGRITY, phase := false, relayed := true, opcode := 0
                   group := 0, node := s.node, faultOff := 0xFF, time := s.time }
  let s1 := if good then
      ((s.setKey k (BitVec.ofNat 256 (leNat (blk.take 32)))).modLink (fun l => { l with loadSeq := seq })).each ([0, 1] : List PortId)
        (fun d p => d.setFld (pB p) LINK_PORT_CFG_TX_KEY slot)
    else (s.setFlag 0 LINK_KEY_STATUS_REFUSED true).raiseGlobal 0x2CC 0
  s1.sendHub 0 (.completion 0xFF e)

end Sys2Proof.Machine
end

