-- ==== Sys2Proof/Machine/Frames.lean ====
section
/-! DEFINITION. What the frames of the Kortor link carry (R395, R401, R407 to R413): relayed commands and their completions,
records, station data, time, triggers, freezes and faults; the frames a node sends of itself; and the LINK registers. -/

namespace Sys2Proof.Machine

/-! ## Relayed commands on a remote (R372, R401, R412) -/

/-- Opcode of a command (R373). -/
def RingCmd.opcode : RingCmd → Byte
  | .set _ => 0x01
  | .range _ => 0x02
  | .loopOpen _ => 0x03
  | .loopClose _ => 0x04
  | .coefSelect _ _ => 0x05
  | .legStart _ => 0x06
  | .legJump _ => 0x07
  | .legStop _ => 0x08
  | .captureArm _ => 0x09
  | .genSet _ => 0x0A
  | .contourSet _ => 0x0B
  | .park => 0x0C
  | .unpark => 0x0D
  | .calibrate _ _ => 0x0E
  | .datumCommit _ _ => 0x0F
  | .segmentReady _ _ => 0x10
  | .barrier _ => 0x11
  | .fence => 0x12
  | .reserved k => k

/-- What a command does once its entry and group have passed. A selector beyond its opcode's is BAD_PARAM; a FENCE that has
come here has nothing before it left open; a BARRIER acts on the hub's rings only and is never relayed. -/
def RingCmd.body (cmd : RingCmd) (s : Dev) (c : Ctx) (r : GroupRec) : Dev :=
  match cmd with
  | .set p => s.setCmd c r p
  | .range p => s.rangeCmd c r p
  | .loopOpen m => s.loopOpenCmd c r m
  | .loopClose m => s.loopCloseCmd c r m
  | .coefSelect op p =>
    if op == 0 then s.coefSelect c r p
    else if op == 1 || op == 2 then s.coefWrite c r op.toNat p
    else s.completeAt c BAD_PARAM 0 s.time
  | .legStart p => s.legStart c r p
  | .legJump l => s.legJump c r l.toNat
  | .legStop m => if 1 < m.toNat then s.completeAt c BAD_PARAM 0 s.time else s.legStop c r m.toNat
  | .captureArm p => s.captureArm c r p
  | .genSet p => s.genSet c r p
  | .contourSet p => s.contourSet c r p
  | .park => s.parkCmd c r
  | .unpark => s.unparkCmd c r
  | .calibrate k p => s.calibrateCmd c r k.toNat p
  | .datumCommit t p => s.commitCmd c t.toNat p
  | .segmentReady op k => if 2 < op.toNat then s.completeAt c BAD_PARAM 1 s.time else s.segmentCmd c k.toNat op.toNat
  | .barrier _ => s.complete c BAD_PARAM
  | .fence => s.complete c OK
  | .reserved _ => s.complete c BAD_PARAM

/-- Completions kept: the last 128 of each ring. -/
def keepDone (l : List (Nat × Nat × Cpl)) (ring : Nat) : List (Nat × Nat × Cpl) :=
  (l.filter (fun d => d.1 == ring)).take 128 ++ l.filter (fun d => d.1 != ring)

/-- A relayed command executes on this remote. -/
def Dev.runRelayed (s : Dev) (x : XferWait) : Dev :=
  let c : Ctx := { hdr := { x.hdr with ring := sid x.ring }, opcode := RingCmd.opcode x.cmd, drop := false, remote := true, index := x.index }
  let e : Cpl := { tag := x.hdr.tag, status := 255, phase := false, relayed := true, opcode := c.opcode
                   group := x.hdr.group.toNat % 32, node := s.node, faultOff := 0xFF, time := s.time }
  let s1 := s.modLink (fun l => { l with done := keepDone ((x.ring, x.index, e) :: l.done) x.ring })
  let s2 := s1.paced (sid x.ring)
  if 1 < x.hdr.flags.toNat then s2.complete c BAD_PARAM else s2.perform c (RingCmd.body x.cmd)

/-- Every STATION_DATA frame a command counts has been written. -/
def Dev.xferMet (s : Dev) (x : XferWait) : Bool := decide ((s.link.written + 4294967296 - x.xfer) % 4294967296 < 2147483648)

/-- Commands of ring `r` that wait run in ring order while their counts are met. -/
def Dev.runWaiting : Nat → Dev → Nat → Dev
  | 0, s, _ => s
  | n + 1, s, r =>
    match s.link.xferWait.find? (fun x => x.ring == r) with
    | none => s
    | some x =>
      if s.xferMet x then
        Dev.runWaiting n ((s.modLink (fun l => { l with xferWait := l.xferWait.filter (fun y => y != x) })).runRelayed x) r
      else s

def Dev.runAllWaiting (s : Dev) : Dev := s.each (List.range 32) (fun d r => Dev.runWaiting d.link.xferWait.length d r)

/-- A COMMAND frame of ring `r` for this remote: one it has executed gets its completion again; one it holds or runs is
ignored; a new one runs in ring order. -/
def Dev.takeCommand (s : Dev) (x : XferWait) : Dev :=
  match s.link.done.find? (fun d => d.1 == x.ring && d.2.1 == x.index) with
  | some d => if d.2.2.status == 255 then s else s.sendHub 0 (.completion x.ring d.2.2)
  | none =>
    if s.link.xferWait.any (fun y => y.ring == x.ring && y.index == x.index) then s
    else
      let s1 := s.modLink (fun l => { l with xferWait := l.xferWait ++ [x] })
      Dev.runWaiting s1.link.xferWait.length s1 x.ring

/-- COMMAND_FRAME: a command of a ring, or with RING 0xFF a wrapped key, whose unwrapped block and integrity check are
`keyBlock`. -/
def execCommandFrame (rx : Rx) (ring index : Byte) (xfer : Word) (h : Hdr) (cmd : RingCmd) (keyBlock : Option (List Byte × Bool)) (s : State) :
    Host.Outcome State Fault Refusal :=
  s.onAwake (fun d =>
    let key := ring == 0xFF
    let b : Body := if key then .keyLoad ((keyBlock.getD ([], false)).1.map (fun x => x.setWidth 32)) else .command ring.toNat index.toNat xfer h cmd
    d.frame rx 0 (d.untagged false key) true b (fun e =>
      if key then (match keyBlock with
        | some k => e.takeKey k.1 k.2 h
        | none => e.takeKey [] false h)
      else if !e.released || decide (32 ≤ ring.toNat) then e
      else e.takeCommand ⟨ring.toNat, index.toNat, xfer.toNat, h, cmd, e.now⟩))

/-- XFER_COUNT_TIMEOUT: 1 ms without the frames a command counts; it completes INTEGRITY without executing. -/
def execXferCountTimeout (r : RingId) (s : State) : Host.Outcome State Fault Refusal :=
  s.onAwake (fun d =>
    match d.link.xferWait.find? (fun x => x.ring == r.val) with
    | none => d
    | some x =>
      let d1 := (d.upTo (x.since + 1000000)).modLink (fun l => { l with xferWait := l.xferWait.filter (fun y => y != x) })
      let e : Cpl := { tag := x.hdr.tag, status := INTEGRITY, phase := false, relayed := true, opcode := RingCmd.opcode x.cmd
                       group := x.hdr.group.toNat % 32, node := d.node, faultOff := 0xFF, time := d1.time }
      let d2 := (d1.modLink (fun l => { l with done := keepDone ((x.ring, x.index, e) :: l.done) x.ring })).sendHub 0 (.completion x.ring e)
      Dev.runWaiting d2.link.xferWait.length d2 x.ring)

/-! ## At the hub (R372, R401, R411, R413) -/

/-- COMPLETION_FRAME: the entry goes to the ring, or is late; RING 0xFF answers a key load. -/
def Dev.takeCompletion (s : Dev) (ring : Nat) (src : Nat) (c : Cpl) : Dev :=
  if ring == 255 then
    (if s.flag 0 LINK_RKEY_STATUS_BUSY && s.fld 0 LINK_RKEY_CTRL_NODE == src then
      ((s.setFlag 0 LINK_RKEY_STATUS_BUSY false).setFld 0 LINK_RKEY_STATUS_RESULT (if c.status == OK then 0 else 1)).linkEvent
     else s)
  else
    let r := sid ring
    match (s.ring r).relayed.find? (fun x => x.2.2.1.hdr.tag == c.tag && x.2.2.1.opcode == c.opcode) with
    | some x =>
      (s.modRing r (fun q => { q with relayed := q.relayed.erase x })).endRelayed r x.2.2.1 { c with relayed := true }
    | none => s.addFld 0 HOST_STATUS_LATE_CPL 1

def execCompletionFrame (rx : Rx) (ring : Byte) (c : Cpl) (s : State) : Host.Outcome State Fault Refusal :=
  s.onAwake (fun d => d.frame rx 0 false false (.completion ring.toNat c) (fun e =>
    if ring == 0xFF || decide (ring.toNat < 32) then e.takeCompletion ring.toNat rx.src.toNat c else e))

/-- The gap marker for records lost on the way: how many is known from FIRST, what they were is not (DESIGN CHOICE, notes/assumptions/4.md). -/
def Dev.linkGap (s : Dev) (lost : Nat) : Rec :=
  recOf (min lost 0xFFFFFFF) 0xF ((Config.approx s.freeCtr [0]).toNat % 32) 0xF (BitVec.ofNat 64 (Config.approx s.freeCtr [1]).toNat)
    (Config.approx s.freeCtr [2]).toNat

/-- Records of a node's group enter their capture channel; its credit is withheld while the channel is full or stopped
(R381). -/
def Dev.takeRecords (s : Dev) (p : PortId) (node g first : Nat) (recs : List Rec) : Dev :=
  let key := (node, g)
  let want := (s.link.recvRecs.find? (fun x => x.1 == key)).map (fun x => x.2)
  let s1 := s.modLink (fun l => { l with recvRecs := (l.recvRecs.filter (fun x => x.1 != key)) ++ [(key, first + recs.length)] })
  match s1.boundRing node g with
  | none => s1
  | some c =>
    let lost := match want with
      | some w => first - w
      | none => 0
    let s2 := if lost == 0 then s1 else (s1.modChan c (fun k => { k with queue := k.queue ++ [s1.linkGap lost] })).draw
    let s3 := s2.modChan c (fun k => { k with queue := k.queue ++ recs })
    if s3.flag (cB c) HOST_CAP_STATUS_RUNNING && !s3.flag (cB c) HOST_CAP_STATUS_FULL then s3
    else s3.modVc p 2 (fun v => { v with owed := v.owed - 1, withheld := v.withheld + 1 })

def execRecordFrame (rx : Rx) (group : GroupId) (first : Word64) (records : List Rec) (s : State) : Host.Outcome State Fault Refusal :=
  s.onAwake (fun d => d.frame rx 2 false false (.records group.val first.toNat records) (fun e =>
    e.takeRecords rx.port rx.src.toNat group.val first.toNat records))

/-- A remote that has turned its path is reached through the port its report came by: relayed commands go out again, with the time
frames to all nodes that the old path has not acknowledged, and station data still on the old path is lost (R401). -/
def Dev.reroute (s : Dev) (k : Nat) (p : PortId) : Dev :=
  let old := otherPort p
  let v := (s.port old).vcs.get 2
  let cut := v.waiting.any (fun f => f.stationTo k) || v.unacked.any (fun f => f.stationTo k)
  let w := (s.port old).vcs.get 1
  let again := (w.unacked ++ w.waiting).filter (fun f => f.dst == 15)
  let s0 := vcList.foldl (fun d j => d.modVc old j (fun w => { w with waiting := w.waiting.filter (fun f => f.dst != k) })) s
  let s1 := s0.each again (fun d f => d.sendFrom p 1 f.src 15 f.body)
  let s2 := if cut then s1.xferEnd 2 else s1
  s2.each (s2.ringsOf k) (fun d r => d.each (d.ring r).relayed (fun e x => e.sendNode k 0 (.command r.val x.1 x.2.1 x.2.2.1.hdr x.2.2.2)))

/-- FAULT_FRAME: a fault of a remote, the rejection of its image, or a turned path (R401, R411, R413). -/
def Dev.takeFault (s : Dev) (p : PortId) (k : Nat) (m : Msg) (err : Word) (state : Nat) : Dev :=
  let s0 := s.nodeHeard k p (state == 0)
  let b := nodeBase k
  if err != 0 then
    (((s0.wr (b + LINK_NODE_ERR) err).setFlag b LINK_NODE_STATUS_REJECTED true).raise 0x2E1 0 0 k).linkEvent
  else
    let s1 := ((s0.wr (b + LINK_NODE_FAULT_LO) (msgLo m)).wr (b + LINK_NODE_FAULT_HI) (msgHi m)).raise 0x2E0 0 m.source.toNat k
    if m.source == 0x2CA then s1.reroute k p
    else if m.source == 0x2C2 || m.source == 0x2C3 then s1.behindAbsent k
    else s1

/-- The node a frame of a device in BOOT (SRC 14) came from: the first one along port `p` that is not up
(DEDUCED, notes/assumptions/30.md). -/
def Dev.bootNode (s : Dev) (p : PortId) : Nat :=
  let l := if s.plates.link.ring && p == 1 then s.nodes.reverse else s.nodes
  match l.find? (fun k => s.fld (nodeBase k) LINK_NODE_STATUS_STATE != 2) with
  | some k => k
  | none => s.neighbour p

def execFaultFrame (rx : Rx) (m : Msg) (atlasError : Word) (state : Byte) (s : State) : Host.Outcome State Fault Refusal :=
  s.onAwake (fun d => d.frame rx 0 false false (.fault m atlasError state.toNat) (fun e =>
    let k := if rx.src.toNat == 14 then e.bootNode rx.port else rx.src.toNat
    if 1 ≤ k ∧ k ≤ e.plates.link.count then e.takeFault rx.port k m atlasError state.toNat else e))

/-! ## Station data (R53, R250, R411, R412) -/

/-- Bytes of a frame, in bank words: a lone 32-bit half first where the offset asks for it. -/
def wordChunks : Nat → Nat → List Byte → List (Nat × List Byte)
  | 0, _, _ => []
  | n + 1, a, l =>
    if l.isEmpty then []
    else
      let k := if a % 8 == 0 then 8 else 4
      (a, l.take k) :: wordChunks n (a + k) (l.drop k)

/-- Station data on a remote: dropped whole where it meets an ACTIVE segment, and counted as written in either case. -/
def Dev.takeStation (s : Dev) (a : Nat) (l : List Byte) : Dev :=
  let act := fun (x : Nat) => decide (x < 0x1000000) && (s.seg (x / 262144)).1 == 2
  let s1 := if act a then s.raise 0x301 0 a 0xFF
    else if act (a + l.length - 1) then s.raise 0x301 0 (a + l.length - 1) 0xFF
    else s.each (wordChunks 64 a l) (fun d c => d.storeWrite c.1 c.2 rdHost)
  (s1.modLink (fun k => { k with written := (k.written + 1) % 4294967296 })).runAllWaiting

/-- Image bytes in BOOT (R53): a frame at offset 0 starts the staging anew from its port; other ports are not heard. -/
def Dev.takeBoot (s : Dev) (p : PortId) (off : Nat) (l : List Byte) (last : Bool) : Dev :=
  let b := s.boot
  if off == 0 || (b.kport == some p.val && !b.klast) then
    let n := if off == 0 then l.length else max b.klen (off + l.length)
    let a := (s.rd ATLAS_STAGE_ADDR).toNat + off
    let s1 := if decide (0x1000000 ≤ a) && decide (a + l.length ≤ 0x2000000) then s.put a l else s
    { s1 with boot := { s1.boot with kport := some p.val, klen := n, klast := last }
              link := { s1.link with written := (s1.link.written + 1) % 4294967296 } }
  else s

def execStationDataFrame (rx : Rx) (addr : Word) (data : List Byte) (boot last : Bool) (s : State) : Host.Outcome State Fault Refusal :=
  s.onAwake (fun d => d.frame rx 2 (d.untagged boot false) true (.station addr data boot last) (fun e =>
    if boot then (if e.bootListen then e.takeBoot rx.port addr.toNat data last else e)
    else if e.released then e.takeStation addr.toNat data
    else e))

/-! ## Time, axes, triggers, freeze (R271, R275, R407 to R410) -/

/-- TIME_SYNC_FRAME: the offset of TIME; the first frame sets TIME, and SECOND frames are the edges of R268. A SYNC is not
relayed. -/
def Dev.takeSync (s : Dev) (p : PortId) (rate : Nat) (second : Bool) (t rxTime : Word64) : Dev :=
  if !s.timeFromLink then s
  else
    let o := (rxTime - t).toInt - openDiv (s.fld (pB p) LINK_PORT_HOP_D_PS) 10
    let first := !s.mer.linkSeen
    let s0 := if s.mer.linkLost then s.merEvent 4 else s
    let s1 := s0.modMer (fun m => { m with linkSeen := true, linkAt := s.now, linkRate := rate, linkLost := false })
    if first then (s1.stepTime (s1.time - BitVec.ofInt 64 o)).setFlag 0 MER_TIME_STATUS_TIME_SET true
    else if second then s1.discipline o
    else s1

def execTimeSyncFrame (rx : Rx) (slewRate : BitVec 7) (second : Bool) (t : Word64) (rxTime : Word64) (s : State) :
    Host.Outcome State Fault Refusal :=
  s.onAwake (fun d =>
    let r := d.accept rx 1 false (d.isRemote || d.plates.link.ring)
    if r.2 && r.1.isFor rx then r.1.takeSync rx.port slewRate.toNat second t rxTime else r.1)

/-- The hub's step, in the cycle of acceptance; the copy that comes over the other port of a ring does not act again. -/
def Dev.hubStep (s : Dev) (t d : Word64) : Dev :=
  if !s.timeFromLink || s.link.step == some (t, d) then s
  else (s.modLink (fun l => { l with step := some (t, d) })).stepTime (s.time + d)

/-- TIME_STEP_FRAME. -/
def execTimeStepFrame (rx : Rx) (t : Word64) (dT : Word64) (s : State) : Host.Outcome State Fault Refusal :=
  s.onAwake (fun d => d.frame rx 1 false true (.timeStep t dT) (fun e => e.hubStep t dT))

/-- A sample of the relayed axis, once where it comes over both ports of a ring; after a loss the axis jumps to the relayed value. -/
def Dev.takeSample (s : Dev) (t v : Word64) : Dev :=
  if !(s.axisRec 4).en || ((s.axisSt 4).samples.head?.map (fun x => x.1)) == some t then s
  else
    let s1 := s.modAxis 4 (fun x => { x with seen := true, samples := ((t, v) :: x.samples).take 300 })
    let s2 := match (s1.axisSt 4).samples with
      | (t1, v1) :: (t2, v2) :: _ => s1.setRate 4 (v1 - v2).toInt (t1 - t2).toInt
      | _ => s1
    if s2.flag (axBase 4) MER_AX_STATUS_LOST then (s2.setLost 4 false).passMarks (fun a => a == 4) (fun _ => false) else s2

def execTimeAxisFrame (rx : Rx) (axis : Byte) (t : Word64) (v : Word64) (s : State) : Host.Outcome State Fault Refusal :=
  s.onAwake (fun d => d.frame rx 1 false true (.timeAxis axis.toNat t v) (fun e => e.takeSample t v))

/-- The link trigger of this node's engines. -/
def Dev.fire (s : Dev) (engines : Word) (nodes : BitVec 16) : Dev :=
  if nodes.getLsbD s.node then s.each (sliceList engines) (fun d g => d.waitEvent g 7) else s

/-- TRIGGER_FRAME: the named engines of this node meet WAIT 7; the copy that comes over the other port of a ring does not
act again (R401). -/
def Dev.takeTrigger (s : Dev) (p : PortId) (engines : Word) (nodes : BitVec 16) : Dev :=
  let again := match s.link.trig with
    | some (e, n, q) => e == engines && n == nodes && q != p.val
    | none => false
  if again then s.modLink (fun l => { l with trig := none })
  else (s.modLink (fun l => { l with trig := some (engines, nodes, p.val) })).fire engines nodes

def execTriggerFrame (rx : Rx) (engines : Word) (nodes : BitVec 16) (s : State) : Host.Outcome State Fault Refusal :=
  s.onAwake (fun d => d.frame rx 1 false true (.trigger engines nodes) (fun e => e.takeTrigger rx.port engines nodes))

/-- FREEZE_FRAME: relayed as soon as its header is received; the freeze begins once its tag has passed (R410). -/
def execFreezeFrame (rx : Rx) (origin : Byte) (s : State) : Host.Outcome State Fault Refusal :=
  s.onAwake (fun d =>
    let d1 := if d.receiving rx.port && !d.bootListen then d.relayFrame rx 1 (.freeze origin.toNat) else d
    let r := d1.accept rx 1 (d1.untagged true true) (d1.isRemote || d1.bootListen || d1.cameRound rx)
    if r.2 && r.1.isFor rx then r.1.freeze 3 else r.1)

/-! ## What a node sends of itself (R271, R275, R407 to R409, R411) -/

/-- The cycle at which TIME next enters a period of `w` ns after period `k`: this one, if it has not been used (R407, R408). -/
def Dev.periodStart (s : Dev) (w k : Nat) : Nat :=
  if s.time.toNat / w == k then s.now + (w - s.time.toNat % w) else s.now

/-- TIME_SYNC_SEND. -/
def Dev.sendSync (s : Dev) : Dev :=
  let rate := if s.timeFromLink then s.mer.linkRate else s.fld 0 MER_PPS_CFG_SLEW_RATE
  s.each (s.downPorts.filter (fun p => s.flag (pB p) LINK_PORT_STATUS_UP)) (fun d p =>
    d.send p 1 (d.neighbour p) (.timeSync rate (decide (d.time.toNat % 1000000000 < 1000000)) d.time))

def execTimeSyncSend (s : State) : Host.Outcome State Fault Refusal :=
  s.onAwake (fun d =>
    if d.released && d.domains then
      let d1 := d.upTo (d.periodStart 1000000 d.link.syncMs)
      (d1.modLink (fun l => { l with syncMs := d1.time.toNat / 1000000 })).sendSync
    else d)

/-- AXIS_SAMPLE_SEND: the hub's relayed axis as it stands. -/
def execAxisSampleSend (s : State) : Host.Outcome State Fault Refusal :=
  s.onAwake (fun d =>
    let a := d.fld 0 MER_LINK_CFG_LINK_SRC
    if d.isRemote || !d.released || !d.domains || a == 0 then d
    else
      let e := d.upTo (d.periodStart 1000 d.link.axisUs)
      (e.modLink (fun l => { l with axisUs := e.time.toNat / 1000 })).sendDown 1 (.timeAxis a e.time (e.axisNow a)))

/-- TIME_LINK_LOST: 10 ms without a TIME frame. -/
def execTimeLinkLost (s : State) : Host.Outcome State Fault Refusal :=
  s.onAwake (fun d =>
    if !d.timeFromLink || d.mer.linkLost || d.fallback then d
    else
      let d1 := (d.upTo (max d.mer.linkAt d.boot.zero + 10000000)).modMer (fun m => { m with linkLost := true })
      (d1.merEvent 4).raiseGlobal 0x2A7 1)

/-- TRIGGER_SEND, a write of `LINK_TRIG_CTRL.SEND`: a hub's own engines are named under node 0; a remote refuses it
(DEDUCED, notes/assumptions/30.md). -/
def Dev.triggerSend (s : Dev) (nodes : BitVec 9) : Dev :=
  if s.isRemote then s.linkRefuse
  else
    let s1 := s.setFld 0 LINK_TRIG_CTRL_NODES nodes.toNat
    let e := s1.rd LINK_TRIG_ENGINES
    let s2 := s1.sendDown 1 (.trigger e (nodes.setWidth 16))
    (if s2.anyPortUp then s2 else s2.upTo (s2.now + 2)).fire e (nodes.setWidth 16)

def execTriggerSend (nodes : BitVec 9) (s : State) : Host.Outcome State Fault Refusal := s.onAwake (fun d => d.triggerSend nodes)

/-- Frames of up to 248 bytes. -/
def stationChunks : Nat → Nat → List Byte → List (Nat × List Byte × Bool)
  | 0, _, _ => []
  | n + 1, a, l => if l.length ≤ 248 then [(a, l, true)] else (a, l.take 248, false) :: stationChunks n (a + 248) (l.drop 248)

/-- XFER_START, a write of `LINK_XFER_CTRL.START`: the frames take their place behind what waits, and the transfer runs until the
last has been sent. -/
def Dev.xferStart (s : Dev) (k : Nat) (boot last : Bool) : Dev :=
  if s.isRemote || k == 0 || decide (8 < k) || s.flag 0 LINK_XFER_STATUS_BUSY then s.linkRefuse
  else
    let s1 := ((s.setFld 0 LINK_XFER_CTRL_NODE k).setFlag 0 LINK_XFER_CTRL_BOOT boot).setFlag 0 LINK_XFER_CTRL_LAST last
    let a := (s1.rd LINK_XFER_SRC).toNat
    let n := s1.fld 0 LINK_XFER_LEN_LEN
    let st := s1.fld (nodeBase k) LINK_NODE_STATUS_STATE
    if n == 0 then s1.xferEnd 0
    else if decide (s1.plates.link.count < k) || st == 3 || (st == 0 && !boot) then s1.xferEnd 1
    else if !backed a || !backed (a + n - 1) || (decide (a < 0x27E0000) && decide (0x27E0000 < a + n)) then s1.xferEnd 3
    else
      let fs := stationChunks (n / 248 + 1) (s1.rd LINK_XFER_DST).toNat (s1.bytes a n)
      let s2 := ((s1.eccRead a n rdHost).modLink (fun l => { l with xferNode := k })).setFlag 0 LINK_XFER_STATUS_BUSY true
      ((s2.each fs (fun d f => d.sendNode k 2 (.station (BitVec.ofNat 32 f.1) f.2.1 boot (boot && last && f.2.2)))).addWord
        (nodeBase k + LINK_NODE_XFER) fs.length).xferCheck

def execXferStart (node : BitVec 4) (boot last : Bool) (s : State) : Host.Outcome State Fault Refusal :=
  s.onAwake (fun d => d.xferStart node.toNat boot last)

/-! ## LINK registers (R417 to R420) -/

/-- A write of a LINK register. -/
def Dev.linkWrite (s : Dev) (a : Nat) (v : Word) : Dev :=
  let x := v.toNat
  if a == LINK_TRIG_CTRL then (if bitOf x 9 then s.triggerSend (v.setWidth 9) else s.store a v)
  else if a == LINK_KEY_CTRL then
    let s1 := s.store a v
    if bitOf x 3 then s1.keyLoad (Fin.ofNat 8 (x % 8)) else s1
  else if a == LINK_RKEY_CTRL then s.rkeyWrite (x % 16) (bitOf x 4)
  else if a == LINK_XFER_SRC then (if x % 4 == 0 then s.store a v else s.linkRefuse)
  else if a == LINK_XFER_LEN then (if x % 4 == 0 && decide (x % 33554432 ≤ 16777216) then s.store a v else s.linkRefuse)
  else if a == LINK_XFER_CTRL then
    let k := getBits x 1 4
    if bitOf x 0 then s.xferStart k (bitOf x 5) (bitOf x 6)
    else if k == 0 || decide (8 < k) then s.linkRefuse
    else s.store a v
  else if 0x80100 ≤ a ∧ a < 0x80180 then
    let p : PortId := Fin.ofNat 2 ((a - 0x80100) / 0x40)
    let o := (a - 0x80100) % 0x40
    if o == LINK_PORT_CTRL then
      let s1 := if bitOf x 0 then s.endQuarantine p else s
      if bitOf x 1 then s1.retrain p else s1
    else if o == LINK_PORT_CFG then
      let k : Fin 8 := Fin.ofNat 8 (x % 8)
      if decide (k.val < s.plates.link.slots) && (s.link.keys.get k).isSome then s.store a v else s.linkRefuse
    else s.store a v
  else s.store a v

end Sys2Proof.Machine
end

