-- ==== Sys2Proof/Machine/Lifecycle.lean ====
section
/-! DEFINITION. Fuse commands and the lifecycle registers (R57 to R61), and the requests of `ATLAS_CTRL` (R38, R41, R45). -/

namespace Sys2Proof.Machine

def Dev.modBoot (s : Dev) (f : Boot → Boot) : Dev := { s with boot := f s.boot }

/-- Lifecycle state: 0 BOOT, 1 COMMISSION, 2 SERVICE, 3 RECOVERY (R60). -/
def Dev.lifeState (s : Dev) : Nat := s.fld 0 GLOBAL_STATUS_STATE

/-! ## Fuses (R58, R61) -/

/-- Majority of the three bits of the SERVICE fuse. -/
def serviceBlown (b : BitVec 3) : Bool := decide (2 ≤ b.toNat % 2 + b.toNat / 2 % 2 + b.toNat / 4)

/-- The bits already blown in a fuse whose programming a power failure cuts short: of a key hash some of the 384 and not
the valid bit, of the SERVICE fuse some of the three, of a revocation fuse its bit or not; which, are free values. -/
def Fuses.cut (f : Fuses) (cmd k : Nat) (key : BitVec 384) : Fuses :=
  match cmd with
  | 1 => { f with hash0 := f.hash0 ||| (Config.partialHash k key &&& key), blown0 := true }
  | 2 => { f with hash1 := f.hash1 ||| (Config.partialHash k key &&& key), blown1 := true }
  | 3 => { f with revoked := f.revoked ||| (if (Config.serviceBitsBlown k).getLsbD 0 then 1 else 0) }
  | 4 => { f with revoked := f.revoked ||| (if (Config.serviceBitsBlown k).getLsbD 0 then 2 else 0) }
  | 5 => { f with service := f.service ||| Config.serviceBitsBlown k }
  | _ => f

/-- A fuse command that ran to its end: a programmed bit stays programmed (R58). -/
def Fuses.program (f : Fuses) (cmd : Nat) (key : BitVec 384) : Fuses :=
  match cmd with
  | 1 => { f with hash0 := f.hash0 ||| key, blown0 := true, valid0 := true }
  | 2 => { f with hash1 := f.hash1 ||| key, blown1 := true, valid1 := true }
  | 3 => { f with revoked := f.revoked ||| 1 }
  | 4 => { f with revoked := f.revoked ||| 2 }
  | 5 => { f with service := 7 }
  | _ => f

/-- Number of the fuse command a word names, 0 for none. -/
def fuseCommand (v : Word) : Nat :=
  if v == 0x4B455930 then 1 else if v == 0x4B455931 then 2 else if v == 0x4B525630 then 3
  else if v == 0x4B525631 then 4 else if v == 0x53455256 then 5 else 0

/-- The command is accepted in the state the device is in. -/
def Dev.fuseOk (s : Dev) (f : Fuses) (cmd : Nat) : Bool :=
  match cmd with
  | 1 => decide (s.lifeState ≤ 1) && !f.blown0
  | 2 => decide (s.lifeState ≤ 1) && !f.blown1
  | 3 => s.released && f.valid1 && !f.revoked.getLsbD 1
  | 4 => s.released && f.valid0 && !f.revoked.getLsbD 0
  | 5 => s.lifeState == 1 && Dev.allSlices.all s.parked
  | _ => false

/-- A write of `GLOBAL_LIFECYCLE`; one while a command is busy is ignored (DEDUCED, notes/assumptions/37.md). -/
def Dev.lifecycle (s : Dev) (f : Fuses) (v : Word) : Dev :=
  if s.boot.fuseCmd != 0 then s
  else if s.fuseOk f (fuseCommand v) then
    (s.modBoot (fun b => { b with fuseCmd := fuseCommand v
                                  fuseKey := BitVec.ofNat 384 (s.num (s.rd ATLAS_STAGE_ADDR).toNat 48) })).setFld 0 GLOBAL_LIFECYCLE_RESULT 1
  else s.setFld 0 GLOBAL_LIFECYCLE_RESULT 3

def execProgramKeyHash0 (s : State) : Host.Outcome State Fault Refusal := s.onAwake (fun d => d.lifecycle s.fuses 0x4B455930)
def execProgramKeyHash1 (s : State) : Host.Outcome State Fault Refusal := s.onAwake (fun d => d.lifecycle s.fuses 0x4B455931)
def execRevokeKey0 (s : State) : Host.Outcome State Fault Refusal := s.onAwake (fun d => d.lifecycle s.fuses 0x4B525630)
def execRevokeKey1 (s : State) : Host.Outcome State Fault Refusal := s.onAwake (fun d => d.lifecycle s.fuses 0x4B525631)
def execBlowServiceFuse (s : State) : Host.Outcome State Fault Refusal := s.onAwake (fun d => d.lifecycle s.fuses 0x53455256)

/-- LIFECYCLE_COMMAND_DONE: the fuses are blown; the SERVICE fuse takes effect at the next start-up. -/
def execLifecycleCommandDone (s : State) : Host.Outcome State Fault Refusal :=
  if s.awake && s.boot.fuseCmd != 0 then
    let f := s.fuses.program s.boot.fuseCmd s.boot.fuseKey
    .next { s with
      toDev := (s.toDev.modBoot (fun b => { b with fuseCmd := 0, fused := serviceBlown f.service })).setFld 0 GLOBAL_LIFECYCLE_RESULT 2
      fuses := f }
  else .next s

/-! ## The R59 latch -/

/-- The cause of a Grave source persists: that of 0x3EC is the latch itself. -/
def Dev.graveCause (s : Dev) : Bool :=
  (List.range 1024).any (fun x => x != 0x3EC && s.srcClass x == 3 && (s.rd (FAULT_CAUSE + 4 * (x / 32))).getLsbD (x % 32))

/-- A write of one to `GLOBAL_STATUS.GRAVE_LATCH`. -/
def Dev.clearGraveLatch (s : Dev) : Dev :=
  if s.lifeState == 3 && !s.refreshLock.graveCause then (s.setFlag 0 GLOBAL_STATUS_GRAVE_LATCH false).cause 0x3EC false else s

def execGraveLatchClear (s : State) : Host.Outcome State Fault Refusal := s.onAwake Dev.clearGraveLatch

/-! ## GLOBAL registers (R60, R61) -/

/-- A write of a GLOBAL register. -/
def Dev.globalWrite (s : Dev) (f : Fuses) (a : Nat) (v : Word) : Dev :=
  if a == GLOBAL_LIFECYCLE then s.lifecycle f v
  else if a == GLOBAL_STATUS then
    let s1 := if bitOf v.toNat 11 then s.setFlag 0 GLOBAL_STATUS_HOST_RESET_SEEN false else s
    if bitOf v.toNat 10 then s1.clearGraveLatch else s1
  else s.store a v

/-! ## ATLAS_CTRL -/

/-- `ATLAS_ERROR` (R44). -/
def Dev.atlasError (s : Dev) (code plate detail : Nat) : Dev :=
  s.wr ATLAS_ERROR (BitVec.ofNat 32 (code + 256 * (plate % 256) + 65536 * (detail % 65536)))

/-- LOAD: the check of a staged full image is asked for; the push window closes while it runs (R52). -/
def Dev.atlasLoad (s : Dev) : Dev :=
  if s.boot.push then s.atlasError 0x17 0xFF 0
  else if s.released || !s.flag 0 GLOBAL_STATUS_PUSH_OPEN then s.atlasError 0x16 0xFF 0
  else (s.setFlag 0 GLOBAL_STATUS_PUSH_OPEN false).modBoot (fun b => { b with push := true })

def execAtlasLoad (s : State) : Host.Outcome State Fault Refusal := s.onAwake Dev.atlasLoad

/-- PARTIAL: the check of a staged partial image is asked for. -/
def Dev.atlasPartial (s : Dev) : Dev :=
  if s.flag 0 ATLAS_STATUS_PARTIAL_BUSY then s.atlasError 0x17 0xFF 0
  else if !s.released then s.atlasError 0x16 0xFF 0
  else (s.setFlag 0 ATLAS_STATUS_PARTIAL_BUSY true).modBoot (fun b => { b with partial_ := true, pmask := 0, papply := false })

def execAtlasPartial (s : State) : Host.Outcome State Fault Refusal := s.onAwake Dev.atlasPartial

/-- PARTIAL_DONE: an accepted reload has been applied (R41). -/
def execPartialDone (s : State) : Host.Outcome State Fault Refusal :=
  s.onAwake (fun d =>
    if d.boot.papply then
      let d1 := d.modBoot (fun b => { b with partial_ := false, pmask := 0, papply := false })
      ((d1.setFlag 0 ATLAS_STATUS_PARTIAL_BUSY false).setFlag 0 ATLAS_STATUS_PARTIAL_DONE true).vector 1
    else d)

/-- A write of an ATLAS register: an address that is not a multiple of 16 is discarded (DEDUCED, notes/assumptions/35.md). -/
def Dev.atlasWrite (s : Dev) (a : Nat) (v : Word) : Dev :=
  if a == ATLAS_CTRL then
    let s1 := if bitOf v.toNat 0 then s.atlasLoad else s
    if bitOf v.toNat 1 then s1.atlasPartial else s1
  else if a == ATLAS_STAGE_ADDR && v.toNat % 16 != 0 then s
  else s.store a v

end Sys2Proof.Machine
end

