-- ==== Sys2Proof/Machine/RegWrite.lean ====
section
/-! DEFINITION. A write of one BAR0 word, dispatched to the rule of its register (R41, R52, R362), and a read of one with
the high-word latch of R265. -/

namespace Sys2Proof.Machine

/-! ## MEMORY (R317) -/

/-- A write of a MEMORY register. -/
def Dev.memWrite (s : Dev) (rq : Requester) (a : Nat) (v : Word) : Dev :=
  let x := v.toNat
  if a == MEM_RS_CFG then (if getBits x 0 10 < 2 || decide (1000 < getBits x 0 10) then s.memRefuse else s.store a v)
  else if a == MEM_RS_LATE then (if x == 0 then s else s.wr a 0)
  else if MEM_EXCL_START ≤ a ∧ a < MEM_EXCL_START + 64 then
    let st := a - (a - MEM_EXCL_START) % 8
    let ok := if a == st then exclusionOk x (s.rd (st + 4)).toNat else exclusionOk (s.rd st).toNat x
    if rq = .surveyor ∧ ok = true then s.wr a v else s.memRefuse
  else s.store a v

/-! ## Slices -/

/-- The loop of slice `n` is open or the slice is parked. -/
def Dev.loopIdle (s : Dev) (n : SliceId) : Bool := s.parked n || s.loopState n == 0

/-- `SLICE_LOOP_CFG` (R175, R193, R213). -/
def Dev.loopCfgWrite (s : Dev) (n : SliceId) (v : Word) : Dev :=
  let b := sB n
  let x := v.toNat
  let bad := (bitOf x 0 != s.flag b SLICE_LOOP_CFG_POLARITY && !s.loopIdle n)
    || getBits x 2 2 == 3 || getBits x 8 8 == 0
    || (getBits x 2 2 != s.fld b SLICE_LOOP_CFG_INJ_POINT && s.flag b SLICE_LOOP_CFG_INJ_EN)
  if bad then s.loopRefuse n else s.store (b + SLICE_LOOP_CFG) v

/-- A write of a word of slice `n` at offset `o`, but the paired words. A word that belongs to the group's lowest slice is
ignored elsewhere. -/
def Dev.sliceWrite (s : Dev) (n : SliceId) (o : Nat) (v : Word) : Dev :=
  let b := sB n
  let x := v.toNat
  let plain := s.store (b + o) v
  if s.lowOnly n o && s.low n != n then s
  else if o == SLICE_FORCE_CFG then s.forceCfgWrite n v
  else if o == SLICE_QUEUE_STATUS then (if bitOf x 10 then plain.flushQueue n else plain)
  else if o == SLICE_MEAS_CFG then s.measCfgWrite n v
  else if o == SLICE_REC_CFG then s.recCfgWrite n v
  else if o == SLICE_REC_APERTURE then (if getBits x 8 8 == 0 || (!bitOf x 0 && !(s.axisRec 3).en) then s.capRefuse n else plain)
  else if o == SLICE_REC_PERIOD then (if x < 100 then s.capRefuse n else plain)
  else if o == SLICE_CAP_BASE then s.capRegionWrite n false v
  else if o == SLICE_CAP_SIZE then s.capRegionWrite n true v
  else if o == SLICE_CAP_RD then s.capRdWrite n v
  else if o == SLICE_CAP_LOST then (if x == 0 then s else s.wr (b + o) 0)
  else if o == SLICE_CORR_CTRL then s.corrWrite n v
  else if o == SLICE_CORR_MARK_LO || o == SLICE_CORR_MARK_HI then (if s.flag b SLICE_CORR_STATUS_BUSY then s else plain)
  else if o == SLICE_RANGE_CFG || o == SLICE_RANGE_TIMING || o == SLICE_RANGE_THR then s.rangeWrite n o v
  else if SLICE_RG_PAIR ≤ o ∧ o ≤ SLICE_RG_CFG then s.rgWrite n o v
  else if o == SLICE_LIM_BASE then (if x % 32 != 0 then s else plain)
  else if o == SLICE_CLAMP_CTRL then
    let s1 := if bitOf x 0 then s.clampClear n else s
    if bitOf x 1 then s1.readLimits n (s1.fld b SLICE_LIM_STATUS_ACTIVE) else s1
  else if o == SLICE_CMP_HYST || o == SLICE_WIN_THR then s.comparatorWrite (b + o) v
  else if o == SLICE_WIN_CFG then (s.winCfgWrite n v (BitVec.ofInt 12 (Config.approx s.freeCtr []))).draw
  else if SLICE_PRG_CFG ≤ o ∧ o < SLICE_PRG_STATUS then s.prgWrite n o v
  else if o == SLICE_LOOP_CFG then s.loopCfgWrite n v
  else if o == SLICE_LOOP_DIV then s.loopDivWrite n v
  else if o == SLICE_LOOP_OUTER then s.loopOuterWrite n v
  else if o == SLICE_COEF_BASE then (if x % 32 == 0 && s.loopIdle n then plain else s.loopRefuse n)
  else if o == SLICE_FB_CFG then (if getBits x 8 8 == 0 then s.loopRefuse n else plain)
  else if o == SLICE_TUNE_CFG then
    (if 4 < getBits x 1 3 then s.loopRefuse n
     else s.store (b + o) (if s.low n = n then v else v &&& 0xFFFFFFFE))
  else plain

/-! ## Traverse (R262) -/

/-- A write of a word of engine `g` at offset `o`. -/
def Dev.travWrite (s : Dev) (g : GroupId) (o : Nat) (v : Word) : Dev :=
  let x := v.toNat
  let plain := s.store (tB g + o) v
  match s.group g.val with
  | none => s
  | some r =>
    if o == TRAV_CTRL then (if bitOf x 0 then plain.doorbell g else plain)
    else if o == TRAV_LEG_BASE then (if s.travState g == 0 && x % 32 == 0 && inSystem x 131072 then plain else s)
    else if o == TRAV_WAIT_CFG then (if getBits x 0 5 < r.size then plain else s)
    else if o == TRAV_JUMP_CFG then s.jumpCfgWrite g v
    else if o == TRAV_LATE || o == TRAV_SKIPPED || o == TRAV_UNDERRUN then (if x == 0 then s else s.wr (tB g + o) 0)
    else plain

/-! ## All of BAR0 -/

/-- Offset of the _V word of the pair a BAR0 offset belongs to, and whether it is the _C word. -/
def pairOf (a : Nat) : Option (Nat × Bool) :=
  if (pairAt a).isSome then some (a, false)
  else if 4 ≤ a && (pairAt (a - 4)).isSome then some (a - 4, true)
  else none

/-- The effect of a whole, aligned write of the register word at `a`, reach left aside. -/
def Dev.writeWord (s : Dev) (f : Fuses) (rq : Requester) (a : Nat) (v : Word) : Dev :=
  if a < 0x10000 then s.globalWrite f a v
  else if a < 0x20000 then s.atlasWrite a v
  else if a < 0x30000 then s.clkWrite a v
  else if a < 0x40000 then
    (if a == MER_TIME_CTRL then s.timeCtrl (v.getLsbD 0) (v.getLsbD 1) (v.getLsbD 2)
     else if 0x30100 ≤ a then s.axWrite ((a - 0x30100) / 0x40 + 1) ((a - 0x30100) % 0x40) v
     else s.merWrite a v)
  else if a < 0x50000 then s.faultWrite rq a v
  else if a < 0x60000 then s.datumWrite a v
  else if a < 0x70000 then s.memWrite rq a v
  else if a < 0x80000 then s.hostWrite a v
  else if a < 0x90000 then s.linkWrite a v
  else if a < 0xA0000 then s.comparatorWrite a v
  else if a < 0x300000 then s.sliceWrite (sid ((a - 0x100000) / 0x10000)) (a % 0x10000) v
  else if a < 0x420000 then s.travWrite (sid ((a - 0x400000) / 0x1000)) (a % 0x1000) v
  else s.genWrite (sid ((a - 0x500000) / 0x1000)) (a % 0x1000) v

/-- REGISTER_WRITE: a write outside what the requester reaches, of an unoccupied word, or not of one whole aligned word is
discarded; a narrow write of a paired word is a mismatch. -/
def Dev.bar0Write (s : Dev) (f : Fuses) (rq : Requester) (a : Nat) (v : Word) (full : Bool) : Dev :=
  if s.reloadBars rq a || a % 4 != 0 then s
  else
    match pairOf a with
    | some (p, false) => s.stageWrite rq p v full
    | some (p, true) => s.complWrite rq p v full
    | none => if !full || regRow a = none then s else s.writeWord f rq a v

def execRegisterWrite (rq : Requester) (offset : Nat) (v : Word) (full : Bool) (s : State) : Host.Outcome State Fault Refusal :=
  s.onAwake (fun d => d.bar0Write s.fuses rq offset v full)

/-! ## Reads (R265, R362) -/

/-- The low word of the 64-bit register a word belongs to, of those R265 governs. -/
def latchBase (a : Nat) : Option Nat :=
  let b := a / 8 * 8
  if a % 4 != 0 then none
  else if b == MER_TIME_LO then some b
  else if b == GLOBAL_UID_LO then some b
  else if 0x30100 ≤ b ∧ b < 0x30200 ∧ b % 0x40 = 0 then some b
  else if 0x50100 ≤ b ∧ b < 0x50300 ∧ b % 16 = 8 then some b
  else if 0x71000 ≤ b ∧ b < 0x71800 ∧ b % 0x40 = HOST_CAP_WRITTEN_LO then some b
  else none

/-- The value a read of one word returns, and what it does to the latch of its requester. -/
def Dev.bar0Read (s : Dev) (f : Fuses) (rq : Requester) (a : Nat) : Dev :=
  let answer := fun (d : Dev) (w : Word) => { d with answer := ⟨w.setWidth 64, false, false⟩ }
  if a % 4 != 0 || (decide (rq = .host) && !s.hostReach0 a) then answer s 0
  else
    match latchBase a with
    | none => answer s (s.view f.uid a)
    | some b =>
      let others := s.latches.filter (fun x => !(decide (x.1 = rq) && x.2.1 == b))
      if a == b then answer { s with latches := (rq, b, s.view f.uid (b + 4)) :: others } (s.view f.uid b)
      else
        match s.latches.find? (fun x => decide (x.1 = rq) && x.2.1 == b) with
        | some x => answer { s with latches := others } x.2.2
        | none => answer s (s.view f.uid a)

def execLowWordRead (rq : Requester) (offset : Nat) (s : State) : Host.Outcome State Fault Refusal :=
  s.onAwake (fun d => d.bar0Read s.fuses rq offset)

end Sys2Proof.Machine
end

