-- ==== Sys2Proof/Machine/AtlasCheck.lean ====
section
/-! DEFINITION. The checks of an Atlas image (R17 to R38): header, authenticity, plates, and the rules that relate plates to one
another. Nothing here changes state. -/

namespace Sys2Proof.Machine

/-- A failed check: CODE, PLATE and DETAIL of `ATLAS_ERROR` (R44). -/
structure Reject where
  code   : Nat
  plate  : Nat
  detail : Nat
  deriving DecidableEq, Repr

/-- A plate: its index in image order, TYPE, MASK, the offset of its header and its payload (R21). -/
structure Plate where
  idx  : Nat
  ty   : Nat
  mask : Word
  off  : Nat
  pay  : List Byte
  deriving DecidableEq, Repr

/-- The `k`-byte number at offset `a` of a byte string. -/
def numAt (p : List Byte) (a k : Nat) : Nat := leNat ((p.drop a).take k)

/-- Record `i` of records of `k` bytes. -/
def rec_ (p : List Byte) (k i : Nat) : List Byte := (p.drop (k * i)).take k

/-- `n` bytes from offset `a` are zero. -/
def zeros (p : List Byte) (a n : Nat) : Bool := ((p.drop a).take n).all (fun b => b == 0)

/-- The first failing condition of a list of (holds, what to report). -/
def firstFail {α : Type} : List (Bool × α) → Option α
  | [] => none
  | (ok, r) :: l => if ok then firstFail l else some r

/-! ## Header and signature block (R17, R18, R38 steps 1 to 9) -/

/-- Steps 1 to 5, on the 64 bytes of the header. -/
def headerCode (h : List Byte) : Option Nat :=
  let n := numAt h
  let len := n 8 4
  firstFail
    [(n 0 4 == 0x534C5441, 0x01), (n 4 2 == 1 && n 6 2 == 64, 0x02),
     (len % 16 == 0 && decide (352 ≤ len) && decide (len ≤ 8388608) && decide (1 ≤ n 0x18 2) && decide (n 0x18 2 ≤ 14)
       && decide (n 0x1A 2 < 8) && zeros h 0x20 32, 0x1A),
     (n 0x0C 4 == (regReset GLOBAL_ID).toNat, 0x03),
     (decide (n 0x10 4 ≤ (regReset GLOBAL_REV).toNat) && decide ((regReset GLOBAL_REV).toNat ≤ n 0x14 4), 0x04)]

/-- Steps 7 to 9, on the whole image. -/
def authCode (f : Fuses) (img : List Byte) : Option Nat :=
  let body := img.take (img.length - 256)
  let sig := img.drop (img.length - 256)
  let key := (sig.drop 0x10).take 96
  firstFail
    [(zeros sig 4 12 && zeros sig 0xD0 48, 0x1B),
     (f.keyOk (numAt sig 0 4) key, 0x07),
     (signatureOk key ((sig.drop 0x70).take 96) body, 0x06)]

/-! ## Records -/

/-- GROUP record with its DIVIDER. -/
def groupRec (r : List Byte) : GroupRec × Nat :=
  (⟨numAt r 0 1, 2 ^ numAt r 1 1, numAt r 2 1, numAt r 3 1 == 1, getBits (numAt r 6 1) 0 4, getBits (numAt r 6 1) 4 4⟩, numAt r 4 2)

def groupRecs (p : List Byte) : List (GroupRec × Nat) := (List.range (p.length / 8)).map (fun i => groupRec (rec_ p 8 i))

def laneRec (r : List Byte) : LaneRec :=
  ⟨numAt r 0 1, numAt r 1 1, bitOf (numAt r 2 1) 0, bitOf (numAt r 2 1) 1, numAt r 4 2, numAt r 6 2⟩

def routeRec (r : List Byte) : RouteRec := ⟨numAt r 0 1, numAt r 1 1, numAt r 2 1, numAt r 3 1, numAt r 4 1 == 1⟩

def limitRec (r : List Byte) : LimSet :=
  let w := fun (a : Nat) => BitVec.ofNat 64 (numAt r a 8)
  { vHi := w 0, vHiC := w 8, vLo := w 16, vLoC := w 24, iHi := w 32, iHiC := w 40, iLo := w 48, iLoC := w 56, margin := 0 }

def axisRecOf (r : List Byte) : AxisRec := ⟨numAt r 0 1 == 1, numAt r 1 1, numAt r 4 4, numAt r 8 4⟩

def linkRec (p : List Byte) : LinkRec :=
  { remote := numAt p 0 1 == 1, ports := numAt p 1 1, ring := numAt p 2 1 == 1, count := numAt p 3 1, upstream := numAt p 4 1
    node := numAt p 5 1, slots := numAt p 6 1, auth := bitOf (numAt p 7 1) 0, rotate := bitOf (numAt p 7 1) 1, freeze := numAt p 8 1 == 1 }

/-- Records of a per-slice plate with their slices, ascending. -/
def perSlice {α : Type} (m : Word) (p : List Byte) (k : Nat) (f : List Byte → α) : List (Nat × α) :=
  (maskList m).mapIdx (fun i n => (n, f (rec_ p k i)))

/-! ## Field rules of each plate (R38 step 10) -/

/-- LENGTH equals record count times record size (R23). -/
def lengthOk (ty : Nat) (m : Word) (p : List Byte) : Bool :=
  let n := p.length
  let k := (maskList m).length
  match ty with
  | 1 => n == 8
  | 2 => n == 64
  | 3 => n == 16
  | 4 => n == 136
  | 5 => n == 80 * k
  | 6 => n % 8 == 0
  | 7 => n == 8 * k
  | 8 => n == 8 * k
  | 9 => n == 104
  | 10 => n == 4
  | 11 => n == 4 + 24 * (maskList (BitVec.ofNat 32 (numAt p 0 4))).length
  | 12 => decide (2052 ≤ n) && n == 2052 + 4 * numAt p 0x800 2
  | 13 => n == 4 + 8 * numAt p 0 4
  | 14 => decide (16 ≤ n) && n == 16 + numAt p 8 4
  | _ => false

/-- GROUP (R24): the records after `e`, one past the slices covered so far. -/
def groupFail (m : Word) : Nat → List (List Byte) → Option Nat
  | e, [] => (maskList m).find? (fun n => decide (e ≤ n))
  | e, r :: l =>
    let f := numAt r 0 1
    let size := 2 ^ numAt r 1 1
    let gang := numAt r 2 1
    let ok := decide (f < 32) && decide (numAt r 1 1 ≤ 5) && decide (gang ≤ 2) && decide (numAt r 3 1 ≤ 1) && numAt r 7 1 == 0
      && decide (100 ≤ numAt r 4 2) && decide (getBits (numAt r 6 1) 0 4 ≤ 4) && decide (getBits (numAt r 6 1) 4 4 ≤ 2)
      && f % size == 0 && decide (e ≤ f) && (List.range size).all (fun i => m.getLsbD (f + i))
      && (gang != 1 || (decide (2 ≤ size) && decide (size ≤ 8))) && (gang != 2 || (decide (2 ≤ size) && decide (size ≤ 4)))
      && (numAt r 3 1 == 0 || decide (4 ≤ size))
    if !ok then some f
    else match (maskList m).find? (fun n => decide (e ≤ n) && decide (n < f)) with
      | some n => some n
      | none => groupFail m (f + size) l

/-- Records that name lane `l`. -/
def onLane (rs : List (Nat × LaneRec)) (l : Nat) : List (Nat × LaneRec) := rs.filter (fun r => r.2.lane == l)

/-- LANE: its own fields, then the rules of R26 that need no other plate; the second number is the slice or lane. -/
def laneFail (m : Word) (p : List Byte) : Option Nat :=
  let raw := perSlice m p 8 id
  let rs := perSlice m p 8 laneRec
  match raw.find? (fun x =>
      let r := x.2
      !((decide (numAt r 0 1 ≤ 31) || numAt r 0 1 == 0xFF) && decide (numAt r 1 1 ≤ 3) && decide (numAt r 2 1 ≤ 3) && numAt r 3 1 == 0
        && (numAt r 4 2 == 0 || (decide (2 ≤ numAt r 4 2) && decide (numAt r 4 2 ≤ 4096)))
        && (numAt r 6 2 == 0 || decide (numAt r 6 2 < numAt r 4 2)))) with
  | some x => some x.1
  | none => (List.range 32).find? (fun l =>
      let q := onLane rs l
      !(decide (q.length ≤ 4) && (List.range q.length).all (fun s => (q.filter (fun x => x.2.slot == s)).length == 1)
        && (q.all (fun x => x.2.oversub) || q.all (fun x => !x.2.oversub)) && (decide (q.length ≠ 1) || q.all (fun x => !x.2.oversub))))

def routeFail (m : Word) (p : List Byte) : Option Nat :=
  ((perSlice m p 8 id).find? (fun x =>
    let r := x.2
    let fb := fun (v : Nat) => decide (v < 32) || v == 0xFE
    let k := numAt r 2 1
    !(fb (numAt r 0 1) && fb (numAt r 1 1) && decide (k ≤ 6) && decide (numAt r 3 1 < 32) && (!([0, 4, 5] : List Nat).contains k || numAt r 3 1 == 0)
      && decide (numAt r 4 1 ≤ 1) && zeros r 5 3))).map (fun x => x.1)

def limitsFail (m : Word) (p : List Byte) : Option Nat :=
  ((perSlice m p 80 id).find? (fun x =>
    let r := x.2
    let l := limitRec r
    let k := BitVec.ofNat 32 (numAt r 0x40 4)
    !(l.ok && BitVec.ofNat 32 (numAt r 0x44 4) == ~~~k && decide (k.toNat < 256) && decide (k.toNat % 16 ≤ 9) && decide (k.toNat / 16 ≤ 3)
      && zeros r 0x48 8 && decide (l.vLo.toInt < l.vHi.toInt) && decide (l.iLo.toInt < l.iHi.toInt)))).map (fun x => x.1)

/-- PINS: the failing pin's index within its own block of the payload; with several, blocks in payload order (which
number DETAIL gives: DESIGN CHOICE, notes/assumptions/61.md). -/
def pinsFail (p : List Byte) : Option Nat :=
  let b := fun (a : Nat) => numAt p a 1
  match (List.range 4).find? (fun k => decide (3 < b k)) with
  | some k => some k
  | none =>
    if 7 < b 4 || !zeros p 5 3 then some 0
    else match (List.range 32).find? (fun k => decide (15 < b (0x28 + k)) || getBits (b (0x28 + k)) 2 2 == 3) with
      | some k => some k
      | none => match (List.range 32).find? (fun k => decide (15 < b (0x48 + k))) with
        | some k => some k
        | none => if bitOf (b 3) 0 && bitOf (b 4) 0 then some 3 else none

/-- CLOCK: it has no slice, lane or group, so DETAIL is 0 (DESIGN CHOICE, notes/assumptions/61.md). -/
def clockFail (p : List Byte) : Option Nat :=
  let b := fun (a : Nat) => numAt p a 1
  if decide (b 0 ≤ 2) && decide (b 1 ≤ 2) && decide (b 2 ≤ 1) && decide (1 ≤ b 3) && decide (b 3 ≤ 100) && decide (10 ≤ numAt p 4 2)
    && decide (numAt p 4 2 ≤ 10000) && numAt p 6 2 == 0 then none else some 0

/-- MERIDIAN (R456): the failing axis by its AXIS code. -/
def meridianFail (p : List Byte) : Option Nat :=
  ([0, 1, 2, 3] : List Nat).findSome? (fun i =>
    let r := rec_ p 16 i
    let en := numAt r 0 1
    let kind := numAt r 1 1
    let a := numAt r 4 4
    let b := numAt r 8 4
    let ok := decide (en ≤ 1) && zeros r 2 2 && zeros r 12 4 &&
      (if en == 0 then kind == 0 && a == 0 && b == 0
       else if i < 2 then
         decide (kind ≤ 1) && decide (1 ≤ a) && decide (a ≤ 16777216)
           && (if kind == 0 then b == 0 else decide (8 ≤ b % 256) && decide (b % 256 ≤ 48) && decide (10 ≤ b / 256) && decide (b / 256 ≤ 1000))
       else kind == 0 && b == 0 && (if i == 2 then decide (45 ≤ a) && decide (a ≤ 65) else a == 0))
    if ok then none else some (i + 1))

/-- LINK: DETAIL 0 (DESIGN CHOICE, notes/assumptions/61.md). -/
def linkFail (p : List Byte) : Option Nat :=
  let b := fun (a : Nat) => numAt p a 1
  let ok := decide (b 0 ≤ 1) && decide (1 ≤ b 1) && decide (b 1 ≤ 3) && decide (b 2 ≤ 1) && (b 2 == 0 || b 1 == 3)
    && (if b 0 == 0 then decide (b 3 ≤ 8) && b 4 == 0 && b 5 == 0
        else b 3 == 0 && decide (b 4 ≤ 1) && decide (1 ≤ b 5) && decide (b 5 ≤ 8))
    && decide (1 ≤ b 6) && decide (b 6 ≤ 8) && decide (b 7 ≤ 3) && decide (b 8 ≤ 1) && zeros p 9 7
  if ok then none else some 0

/-- MEMORY (R457): DETAIL is the failing exclusion's index, else the failing segment's, else 0 (R44 names no
number for this plate: DESIGN CHOICE, notes/assumptions/61.md). -/
def memoryFail (p : List Byte) : Option Nat :=
  let n := numAt p 2 1
  if numAt p 0 2 < 2 || 1000 < numAt p 0 2 || 8 < n || !zeros p 3 5 then some 0
  else match (List.range 8).find? (fun e =>
      let st := numAt p (8 + 8 * e) 4
      let len := numAt p (12 + 8 * e) 4
      !(if e < n then decide (256 ≤ len) && exclusionOk st len else st == 0 && len == 0)) with
    | some e => some e
    | none => (List.range 64).find? (fun k => !(decide (numAt p (0x48 + k) 1 < 32) || numAt p (0x48 + k) 1 == 0xFF))

/-- Slices the AGILE plate names (R32). -/
def agileList (p : List Byte) : List Nat := (p.map BitVec.toNat).filter (fun n => n != 0xFF)

def agileFail (p : List Byte) : Option Nat :=
  let l := agileList p
  if l.isEmpty then some 0
  else match l.find? (fun n => decide (31 < n) || decide (1 < (l.filter (fun m => m == n)).length)) with
    | some n => some n
    | none => none

/-- Records of the INDUCTIVE plate: VEL, ACC and JERK of each slice (R33). -/
def inductRecs (p : List Byte) : List (Nat × List Byte) := perSlice (BitVec.ofNat 32 (numAt p 0 4)) (p.drop 4) 24 id

def inductiveFail (p : List Byte) : Option Nat :=
  if numAt p 0 4 == 0 then some 0
  else ((inductRecs p).find? (fun x => !([0, 8, 16] : List Nat).all (fun a =>
    numAt x.2 a 4 != 0 && BitVec.ofNat 32 (numAt x.2 (a + 4) 4) == ~~~BitVec.ofNat 32 (numAt x.2 a 4)))).map (fun x => x.1)

/-- A source is Grave by its entry or fixed (R34). -/
def plateGrave (p : List Byte) (x : Nat) : Bool := fixedGrave x || numAt p (2 * x) 2 % 4 == 3

/-- FAULT (R34, R37): DETAIL is the failing source number of a plate entry, or a dependency's index, or the source a dependency
must not put after itself (DESIGN CHOICE, notes/assumptions/61.md). That source numbers are valid is read as their reserved
bits being zero: a number of the reserved ranges is accepted (DESIGN CHOICE, notes/assumptions/61.md). -/
def faultFail (p : List Byte) : Option Nat :=
  match (List.range 1024).find? (fun x => decide (127 < numAt p (2 * x) 2)) with
  | some x => some x
  | none =>
    let n := numAt p 0x800 2
    if 1024 < n || numAt p 0x802 2 != 0 then some 0
    else (List.range n).findSome? (fun i =>
      let w := numAt p (2052 + 4 * i) 4
      if getBits w 10 6 != 0 || getBits w 26 6 != 0 then some i
      else if plateGrave p (getBits w 16 10) then some (getBits w 16 10) else none)

/-- Entry `i` of the DEFAULTS plate: offset and value. -/
def defaultAt (p : List Byte) (i : Nat) : Nat × Word := (numAt p (4 + 8 * i) 4, BitVec.ofNat 32 (numAt p (8 + 8 * i) 4))

/-- Bits of a word that a DEFAULTS entry may set: its RW, PV and PC fields. -/
def defaultBits (a : Nat) : Word :=
  match regRow a with
  | some r => BitVec.ofNat 32 r.rw
  | none => 0

/-- DEFAULTS (R35): the index of the first failing entry. -/
def defaultsFail (p : List Byte) : Option Nat :=
  let n := numAt p 0 4
  if n == 0 || 65536 < n then some 0
  else (List.range n).find? (fun i =>
    let e := defaultAt p i
    let pair := match pairOf e.1 with
      | some (v, false) => decide (i + 1 < n) && (defaultAt p (i + 1)).1 == v + 4
      | some (v, true) => decide (0 < i) && (defaultAt p (i - 1)).1 == v
      | none => true
    !(e.1 % 4 == 0 && defaultBits e.1 != 0 && e.2 &&& ~~~defaultBits e.1 == 0 && !(decide (0x10000 ≤ e.1) && decide (e.1 < 0x20000))
      && !(decide (0x40000 ≤ e.1) && decide (e.1 < 0x50000)) && pair))

/-- FIRMWARE (R36). -/
def firmwareFail (p : List Byte) : Option Nat :=
  let a := numAt p 0 4
  let n := numAt p 8 4
  if a % 4 == 0 && decide (4 ≤ n) && decide (n ≤ 2097152) && n % 4 == 0 && inSystem a n && decide (a ≤ numAt p 4 4)
    && decide (numAt p 4 4 < a + n) && zeros p 12 4 then none else some 0

/-- A plate's own field rules: CODE and DETAIL. R44's DETAIL for a plate with no slice, lane or group is the model's
(DESIGN CHOICE, notes/assumptions/61.md). -/
def fieldFail (ty : Nat) (m : Word) (p : List Byte) : Option (Nat × Nat) :=
  let as_ := fun (c : Nat) (o : Option Nat) => o.map (fun d => (c, d))
  match ty with
  | 1 => as_ 0x19 (clockFail p)
  | 2 => as_ 0x19 (meridianFail p)
  | 3 => as_ 0x18 (linkFail p)
  | 4 => as_ 0x19 (memoryFail p)
  | 5 => as_ 0x0F (limitsFail m p)
  | 6 => as_ 0x0B (groupFail m 0 ((List.range (p.length / 8)).map (rec_ p 8)))
  | 7 => as_ 0x0C (laneFail m p)
  | 8 => as_ 0x0D (routeFail m p)
  | 9 => as_ 0x0E (pinsFail p)
  | 10 => as_ 0x11 (agileFail p)
  | 11 => as_ 0x12 (inductiveFail p)
  | 12 => as_ 0x10 (faultFail p)
  | 13 => as_ 0x13 (defaultsFail p)
  | _ => as_ 0x14 (firmwareFail p)

/-! ## The plate walk (R38 steps 10 and 11) -/

/-- One plate at offset `off` of an image whose plate space ends at `stop`: the plate, or the first failing check. A payload or
padding that runs past the plate space is reported in step 10, 0x05 with the plate's index (R38 asks there only
that the header lie within the space and LENGTH be in range: DESIGN CHOICE, notes/assumptions/61.md). -/
def parsePlate (img : List Byte) (stop off idx : Nat) (seen : List Plate) : Except Reject Plate :=
  let h := (img.drop off).take 16
  let len := numAt h 4 4
  let ty := numAt h 0 2
  let m := BitVec.ofNat 32 (numAt h 8 4)
  let p := (img.drop (off + 16)).take len
  let pad := (16 - len % 16) % 16
  let bad := fun (c d : Nat) => Except.error ⟨c, idx, d⟩
  if stop < off + 16 || len < 4 || 8388096 < len || len % 4 != 0 || stop < off + 16 + len + pad then bad 0x05 (off / 256)
  else if ty == 0 || 14 < ty || seen.any (fun q => q.ty == ty) || numAt h 2 2 != 0 then bad 0x09 0
  else if (crc32 p).toNat != numAt h 12 4 then bad 0x08 0
  else if !lengthOk ty m p then bad 0x0A 0
  else
    match fieldFail ty m p with
    | some (c, d) => bad c d
    | none => if zeros img (off + 16 + len) pad then .ok ⟨idx, ty, m, off, p⟩ else bad 0x05 (off / 256)

/-- The plates in image order, PLATE_COUNT at most, until the space is filled. -/
def parsePlates (img : List Byte) (stop : Nat) : Nat → Nat → List Plate → Except Reject (List Plate)
  | 0, off, seen => if off == stop then .ok seen else .error ⟨0x05, 0xFF, off / 256⟩
  | n + 1, off, seen =>
    if off == stop then .error ⟨0x05, 0xFF, off / 256⟩
    else
      match parsePlate img stop off seen.length seen with
      | .error r => .error r
      | .ok p => parsePlates img stop n (off + 16 + (p.pay.length + 15) / 16 * 16) (seen ++ [p])

/-! ## Presence and masks (R22, R23, R38 steps 12 and 13) -/

def requiredFull : List Nat := [3, 5, 6, 7, 8, 9, 14]
def perSliceTypes : List Nat := [5, 6, 7, 8]

/-- Step 12, with the image's PARTIAL flag, which must suit the request (DEDUCED, notes/assumptions/38.md). Of a type that may not
stand in a partial image and a required type that is absent, the first is reported, with DETAIL 0 (DESIGN CHOICE,
notes/assumptions/61.md). -/
def presenceFail (ps : List Plate) (partial_ flag : Bool) : Option Reject :=
  let missing := (if partial_ then perSliceTypes else requiredFull).find? (fun t => !ps.any (fun p => p.ty == t))
  match if partial_ then ps.find? (fun p => !perSliceTypes.contains p.ty) else none with
  | some p => some ⟨0x09, p.idx, 0⟩
  | none => match missing with
    | some t => some ⟨0x09, 0xFF, t⟩
    | none => if flag == partial_ then none else some ⟨0x09, 0xFF, 0⟩

/-- The plate of a type. -/
def plateOf (ps : List Plate) (t : Nat) : Option Plate := ps.find? (fun p => p.ty == t)
def payOf (ps : List Plate) (t : Nat) : List Byte := ((plateOf ps t).map (fun p => p.pay)).getD []
def idxOf (ps : List Plate) (t : Nat) : Nat := ((plateOf ps t).map (fun p => p.idx)).getD 0xFF
def maskOf_ (ps : List Plate) (t : Nat) : Word := ((plateOf ps t).map (fun p => p.mask)).getD 0

/-- Step 13: in a partial image all MASKs are that of its first plate, and take groups in force whole. -/
def maskFail (ps : List Plate) (partial_ : Bool) (groups : List GroupRec) : Option Reject :=
  let m := if partial_ then ((ps.head?).map (fun p => p.mask)).getD 0 else 0xFFFFFFFF
  match ps.find? (fun p => p.mask != m) with
  | some p => some ⟨0x0A, p.idx, 0⟩
  | none =>
    if partial_ then
      (groups.find? (fun r => r.slices.any (fun n => m.getLsbD n.val) && !r.slices.all (fun n => m.getLsbD n.val))).map
        (fun r => ⟨0x0A, idxOf ps 6, r.first⟩)
    else none

/-! ## Rules between plates (R38 step 14) -/

/-- What the rules of step 14 are judged on: the plates of a full image, or a partial image with the configuration in force. -/
structure Cross where
  mask   : Word
  groups : List (GroupRec × Nat)
  lanes  : List (Nat × LaneRec)
  routes : List (Nat × RouteRec)
  axes   : List AxisRec
  loadIn : Bool
  smon   : List Nat
  agile  : List Nat
  induct : Word
  deriving DecidableEq, Repr

def Cross.groupOf (x : Cross) (n : Nat) : Option (GroupRec × Nat) :=
  x.groups.find? (fun g => decide (g.1.first ≤ n) && decide (n < g.1.first + g.1.size))

/-- GROUP against MERIDIAN and PINS: an axis that is enabled, LOAD_IN for an external strobe. -/
def Cross.groupFail (x : Cross) : Option Nat :=
  (x.groups.find? (fun g => (g.1.axis != 0 && !((x.axes[g.1.axis - 1]?).getD ⟨false, 0, 0, 0⟩).en) || (g.1.strobe && !x.loadIn))).map
    (fun g => g.1.first)

/-- LANE against GROUP (R26): LANE 0xFF exactly on gang partners; dividers and slot spacing of shared lanes. -/
def Cross.laneFail (x : Cross) : Option Nat :=
  match x.lanes.find? (fun r => match x.groupOf r.1 with
      | some g => (r.2.lane == 0xFF) != (g.1.gang != 0 && g.1.first != r.1)
      | none => true) with
  | some r => some r.1
  | none => (List.range 32).find? (fun l =>
      let q := onLane x.lanes l
      let ds := q.map (fun r => ((x.groupOf r.1).map (fun g => g.2)).getD 0)
      let n : Nat := ds.headD 0
      let over_ := q.all (fun r => r.2.oversub)
      decide (2 ≤ q.length) && !(ds.all (fun d => d == n) && decide (400 ≤ n) && decide ((if over_ then 100 else 112) ≤ n / q.length)))

/-- ROUTE against LANE, GROUP and PINS (R28). -/
def Cross.routeFail (x : Cross) : Option Nat :=
  (x.routes.find? (fun r =>
    let outM := ((x.lanes.find? (fun q => q.1 == r.1)).map (fun q => q.2.outM)).getD 0
    let gang := ((x.groupOf r.1).map (fun g => if g.1.first == r.1 then g.1.gang else 0)).getD 0
    ((r.2.kind == 0) != (outM == 0)) || (r.2.fbV == 0xFE && gang != 2) || (r.2.fbI == 0xFE && gang != 1)
      || (r.2.kind == 6 && !bitOf (x.smon.getD r.2.idx 0) 0))).map (fun r => r.1)

/-- AGILE against LANE (R32): alone on a dedicated lane. -/
def Cross.agileFail (x : Cross) : Option Nat :=
  x.agile.find? (fun n => match x.lanes.find? (fun r => r.1 == n) with
    | some r => r.2.lane == 0xFF || (onLane x.lanes r.2.lane).length != 1
    | none => false)

/-- INDUCTIVE against GROUP (R33). -/
def Cross.inductFail (x : Cross) : Option Nat :=
  (x.groups.find? (fun g =>
    let l := g.1.slices.map (fun n => x.induct.getLsbD n.val)
    (g.1.gang == 1 && l.any id && !l.all id) || (g.1.gang == 2 && l.any id))).map (fun g => g.1.first)

/-- LIMITS against the full scales of Datum bank F, or the decades of R131 where that bank is not valid (R29). -/
def limitsDatumFail (s : Dev) (m : Word) (p : List Byte) : Option Nat :=
  let valid := imgValid (s.bankByte 0) 0
  ((perSlice m p 80 id).find? (fun x =>
    let l := limitRec x.2
    let fs := fun (i : Nat) => if valid then signed 64 (imgNum (s.bankByte 0) (recOff 3 x.1 + 8 * i) 8) else fsDefault.getD i 0
    let k := numAt x.2 0x40 4
    let fi := fs (k % 16)
    let fv := fs (10 + k / 16 % 4)
    let big := fun (w : Word64) (f : Int) => decide (5 * f < 4 * w.toInt) || decide (5 * f < -(4 * w.toInt))
    big l.vHi fv || big l.vLo fv || big l.iHi fi || big l.iLo fi)).map (fun x => x.1)

/-- LINK against BOOTSEL, the port the image came by and the SERVICE fuse (R31, R53, R57). -/
def Dev.linkRoleFail (s : Dev) (l : LinkRec) : Bool :=
  l.remote != (s.fld 0 GLOBAL_STATUS_BOOTSEL == 2) || (l.remote && s.boot.kport != some l.upstream)
    || (s.flag 0 GLOBAL_STATUS_SERVICE_FUSED && !l.auth)

/-- The plates of a full image as the rules of step 14 see them. -/
def fullCross (ps : List Plate) : Cross :=
  let pins := payOf ps 9
  { mask := 0xFFFFFFFF, groups := groupRecs (payOf ps 6), lanes := perSlice 0xFFFFFFFF (payOf ps 7) 8 laneRec
    routes := perSlice 0xFFFFFFFF (payOf ps 8) 8 routeRec
    axes := (List.range 4).map (fun i => axisRecOf (rec_ (payOf ps 2) 16 i)), loadIn := bitOf (numAt pins 4 1) 0
    smon := (List.range 32).map (fun k => numAt pins (0x28 + k) 1), agile := agileList (payOf ps 10)
    induct := BitVec.ofNat 32 (numAt (payOf ps 11) 0 4) }

/-- A partial image with the configuration in force. -/
def Dev.partCross (s : Dev) (ps : List Plate) : Cross :=
  let m := maskOf_ ps 6
  { mask := m, groups := groupRecs (payOf ps 6), lanes := perSlice m (payOf ps 7) 8 laneRec, routes := perSlice m (payOf ps 8) 8 routeRec
    axes := s.plates.axes, loadIn := bitOf s.plates.loadCfg 0, smon := s.plates.smon, agile := s.plates.agile.filter (fun n => m.getLsbD n)
    induct := s.plates.induct }

/-- Step 14 of a full image. -/
def Dev.crossFail (s : Dev) (ps : List Plate) : Option Reject :=
  let x := fullCross ps
  let link := linkRec (payOf ps 3)
  let at_ := fun (c t : Nat) (o : Option Nat) => o.map (fun d => (⟨c, idxOf ps t, d⟩ : Reject))
  [at_ 0x19 2 (if ((x.axes[3]?).map (fun a => a.en)).getD false && !link.remote then some 4 else none),
   at_ 0x18 3 (if s.linkRoleFail link then some 0 else none),
   at_ 0x0F 5 (limitsDatumFail s 0xFFFFFFFF (payOf ps 5)), at_ 0x0B 6 x.groupFail, at_ 0x0C 7 x.laneFail, at_ 0x0D 8 x.routeFail,
   at_ 0x11 10 x.agileFail, at_ 0x12 11 x.inductFail].findSome? id

/-- The conditions of R40, on the state in force: a slice, an engine, a lane. -/
def Dev.notParked (s : Dev) (ps : List Plate) : Option Reject :=
  let m := maskOf_ ps 6
  let lanes := (perSlice m (payOf ps 7) 8 laneRec).map (fun r => r.2.lane)
  match (maskList m).find? (fun n => !s.parked (sid n)) with
  | some n => some ⟨0x15, idxOf ps 6, n⟩
  | none => match (maskList m).find? (fun g => s.travState (sid g) != 0 || (s.eng (sid g)).start.isSome) with
    | some g => some ⟨0x15, idxOf ps 6, g⟩
    | none => ((List.range 32).find? (fun l => lanes.contains l
        && (List.range 32).any (fun n => !m.getLsbD n && s.serves l n))).map (fun l => ⟨0x15, idxOf ps 7, l⟩)

/-- Step 14 of a partial image. -/
def Dev.partFail (s : Dev) (ps : List Plate) : Option Reject :=
  let x := s.partCross ps
  let at_ := fun (c t : Nat) (o : Option Nat) => o.map (fun d => (⟨c, idxOf ps t, d⟩ : Reject))
  [s.notParked ps, at_ 0x0F 5 (limitsDatumFail s x.mask (payOf ps 5)), at_ 0x0B 6 x.groupFail, at_ 0x0C 7 x.laneFail,
   at_ 0x0D 8 x.routeFail, at_ 0x11 7 x.agileFail, at_ 0x12 6 x.inductFail].findSome? id

/-! ## The whole check (R38) -/

/-- Steps 10 to 14. -/
def Dev.platesOk (s : Dev) (img : List Byte) (partial_ : Bool) : Except Reject (List Plate) :=
  match parsePlates img (img.length - 256) (numAt img 0x18 2) 64 [] with
  | .error r => .error r
  | .ok ps =>
    match presenceFail ps partial_ (bitOf (numAt img 0x1A 2) 0) with
    | some r => .error r
    | none => match maskFail ps partial_ s.plates.groups with
      | some r => .error r
      | none => match if partial_ then s.partFail ps else s.crossFail ps with
        | some r => .error r
        | none => .ok ps

/-- The checks of R38 on an image of which `supplied` bytes were staged, none for a flash image; `img` gives its first `n`
bytes. -/
def Dev.checkImage (s : Dev) (f : Fuses) (img : Nat → List Byte) (supplied : Option Nat) (partial_ : Bool) :
    Except Reject (List Byte × List Plate) :=
  let h := img 64
  let len := numAt h 8 4
  match headerCode h with
  | some c => .error ⟨c, 0xFF, 0⟩
  | none =>
    if supplied.isSome && supplied != some len then .error ⟨0x1C, 0xFF, 0⟩
    else
      match authCode f (img len) with
      | some c => .error ⟨c, 0xFF, 0⟩
      | none => match s.platesOk (img len) partial_ with
        | .error r => .error r
        | .ok ps => .ok (img len, ps)

end Sys2Proof.Machine
end

