-- ==== Sys2Proof/Machine/Atlas.lean ====
section
/-! DEFINITION. Applying an Atlas image (R22, R41, R47 steps 6 and 7), and the command that checks one (R38 to R41, R45). -/

namespace Sys2Proof.Machine

/-! ## The sine table (R228) -/

/-- π in units of 2⁻⁸⁰. -/
def pi80 : Int := 3797952473636338580787993

/-- The sine series from term `t` of index `k` on, in units of 2⁻⁸⁰, `x2` the square of the angle. -/
def sineSeries (x2 : Int) : Nat → Nat → Int → Int
  | 0, _, _ => 0
  | n + 1, k, t => t + sineSeries x2 n (k + 2) (-(t * x2 / 2 ^ 80) / ((k + 1) * (k + 2)))

/-- round(524,287 × sin(2π r / 4,096)) for r up to 1,024. -/
def sineQuarter (r : Nat) : Int :=
  let x := pi80 * r / 2048
  (2 * 524287 * sineSeries (x * x / 2 ^ 80) 16 1 x + 2 ^ 80) / 2 ^ 81

/-- Entry `i` of the sine table. -/
def sineEntry (i : Nat) : Int :=
  match i / 1024 with
  | 0 => sineQuarter (i % 1024)
  | 1 => sineQuarter (1024 - i % 1024)
  | 2 => -sineQuarter (i % 1024)
  | _ => -sineQuarter (1024 - i % 1024)

def sineTable : List Byte := (List.range 4096).flatMap (fun i => leBytes 4 (unsigned 32 (sineEntry i)))

/-! ## Plates, in TYPE order -/

/-- The configuration a full image gives (R22). -/
def platesOf (img : List Byte) (ps : List Plate) : Plates :=
  let flags := numAt img 0x1A 2
  let p := fun (t : Nat) => payOf ps t
  let pins := p 9
  let lim := perSlice 0xFFFFFFFF (p 5) 80 id
  { groups := (groupRecs (p 6)).map (fun g => g.1), lanes := (perSlice 0xFFFFFFFF (p 7) 8 laneRec).map (fun r => r.2)
    routes := (perSlice 0xFFFFFFFF (p 8) 8 routeRec).map (fun r => r.2), limits := lim.map (fun r => limitRec r.2)
    irMax := lim.map (fun r => numAt r.2 0x40 4 % 16), vrMax := lim.map (fun r => numAt r.2 0x40 4 / 16 % 16)
    trig := (List.range 4).map (fun k => numAt pins k 1), loadCfg := numAt pins 4 1
    rgSafe := (List.range 32).map (fun k => numAt pins (8 + k) 1), smon := (List.range 32).map (fun k => numAt pins (0x28 + k) 1)
    cmpSafe := (List.range 32).map (fun k => numAt pins (0x48 + k) 1)
    ppsEdge := if (plateOf ps 1).isSome then numAt (p 1) 1 1 else 1
    axes := (List.range 4).map (fun i => axisRecOf (rec_ (p 2) 16 i)), link := linkRec (p 3)
    segOwner := (List.range 64).map (fun k => if (plateOf ps 4).isSome then numAt (p 4) (0x48 + k) 1 else 0xFF)
    agile := agileList (p 10), induct := BitVec.ofNat 32 (numAt (p 11) 0 4), parkOnReset := bitOf flags 2, recovery := bitOf flags 1
    entry := numAt (p 14) 4 4 }

/-- CLOCK and the cleaner's source (R22, R289, R290); `refin` is the correction measured where REFIN is qualified. -/
def Dev.applyClock (s : Dev) (ps : List Plate) (refin : Option Int) : Dev :=
  let p := if (plateOf ps 1).isSome then payOf ps 1 else [1, 1, 0, 100, 100, 0, 0, 0]
  let freq := numAt p 0 1
  let s1 := ((s.setFld 0 CLK_CFG_REFIN_FREQ freq).setFld 0 CLK_CFG_CLEANER_BW (numAt p 4 2)).setFlag 0 MER_PPS_CFG_JUMP_POLICY (numAt p 2 1 == 1)
  let s2 := s1.setFld 0 MER_PPS_CFG_SLEW_RATE (numAt p 3 1)
  let s3 := s2.setFld 0 MER_TIME_STATUS_SRC
    (if s2.isRemote && freq == 0 then 2 else if s2.plates.ppsEdge != 0 then 1 else 0)
  if freq == 0 then s3.setFld 0 CLK_STATUS_CLEANER_SRC (if s3.plates.ppsEdge != 0 then 2 else if s3.isRemote then 3 else 0)
  else
    match refin with
    | some c => (((s3.setFlag 0 CLK_STATUS_REF_PRESENT true).setFlag 0 CLK_STATUS_REF_QUALIFIED true).setFld 0 CLK_STATUS_CLEANER_SRC 1).putInt
        CLK_CORR (clampI (-1759218604) 1759218604 c) |>.modClk (fun k => { k with refSeen := true })
    | none => (s3.setFld 0 CLK_STATUS_CLEANER_SRC 0).coast.modClk (fun k => { k with lostAt := s3.now })

/-- MERIDIAN, LINK and MEMORY. -/
def Dev.applyCommon (s : Dev) (ps : List Plate) : Dev :=
  let l := s.plates.link
  let s1 := s.each [1, 2, 3, 4] (fun d a => d.setFlag (axBase a) MER_AX_STATUS_ENABLED (d.axisRec a).en)
  let s2 := ((((s1.setFlag 0 LINK_STATUS_ROLE l.remote).setFld 0 LINK_STATUS_NODE l.node).setFlag 0 LINK_STATUS_RING l.ring).setFld 0
    LINK_STATUS_UPSTREAM l.upstream).setFlag 0 LINK_STATUS_AUTH_REQUIRED l.auth
  let s3 := s2.each s2.nodes (fun d k => d.setFld (nodeBase k) LINK_NODE_STATUS_PORT (if bitOf l.ports 0 then 0 else 1))
  match plateOf ps 4 with
  | none => s3.setFld 0 MEM_RS_CFG_PACE_US 20
  | some q => (s3.setFld 0 MEM_RS_CFG_PACE_US (numAt q.pay 0 2)).each (List.range 8) (fun d e =>
      (d.wr (MEM_EXCL_START + 8 * e) (BitVec.ofNat 32 (numAt q.pay (8 + 8 * e) 4))).wr (MEM_EXCL_LEN + 8 * e)
        (BitVec.ofNat 32 (numAt q.pay (12 + 8 * e) 4)))

/-- GROUP on the registers of the slices of one group. -/
def Dev.applyGroup (s : Dev) (g : GroupRec × Nat) : Dev :=
  s.each g.1.slices (fun d n =>
    let low := n.val == g.1.first
    ((d.setFld (sB n) SLICE_FORCE_CFG_GANG g.1.gang).setFlag (sB n) SLICE_STROBE_CFG_EXT (low && g.1.strobe)).setFld (sB n)
      SLICE_LOOP_DIV_DIVIDER (if low then g.2 else 0))

/-- LANE on the registers of one slice. -/
def Dev.applyLane (s : Dev) (n : SliceId) : Dev :=
  let own := s.low n
  let r := s.plates.lanes.getD n.val ⟨n.val, 0, false, false, 0, 0⟩
  let q := if r.lane == 0xFF then s.plates.lanes.getD own.val r else r
  let s1 := ((s.setFlag (sB n) SLICE_LOOP_CFG_OUTER_ADD r.add).setFlag (sB n) SLICE_LOOP_CFG_OVERSUB r.oversub).setFlag (sB n)
    SLICE_LOOP_CFG_AGILE (s.plates.agile.contains n.val)
  let s2 := (s1.setFld (sB n) SLICE_LOOP_STATUS_LANE q.lane).setFld (sB n) SLICE_LOOP_STATUS_SLOT q.slot
  (s2.setFld (sB n) SLICE_LOOP_OUTER_OUTER_M r.outM).setFld (sB n) SLICE_LOOP_OUTER_OUTER_PHASE r.outPh

/-- Slice `n` on the highest ranges of its LIMITS record, path A active (R132). -/
def Dev.applyRange (s : Dev) (n : SliceId) : Dev :=
  let k := s.irMax n
  let s1 := (((s.setFld (sB n) SLICE_RANGE_STATUS_IRANGE k).setFld (sB n) SLICE_RANGE_STATUS_TARGET k).setFld (sB n)
    SLICE_RANGE_STATUS_VRANGE (s.vrMax n)).setFlag (sB n) SLICE_RANGE_STATUS_APATH false
  s1.setFld (sB n) SLICE_RANGE_STATUS_STANDBY (s1.steady n k false).2

/-- LIMITS: the record is the set in force, with no margin, until the first UNPARK (R145, R147). -/
def Dev.applyLimits (s : Dev) (n : SliceId) : Dev :=
  let h := s.hard n
  ((s.modSl n (fun x => { x with limits := h, limGood := h, hardGood := h })).convertLimits n).loadThr n

/-- INDUCTIVE: contour set 15 of each marked slice (R33). -/
def Dev.applyInductive (s : Dev) (p : List Byte) : Dev :=
  let s1 := s.each Dev.allSlices (fun d n => d.setFlag (sB n) SLICE_FORCE_CFG_INDUCTIVE (d.induct n))
  s1.each (inductRecs p) (fun d x =>
    let w := fun (k : Nat) => BitVec.ofNat 32 (numAt x.2 k 4)
    (d.each [(GEN_PARK_VEL_V, 0), (GEN_PARK_ACC_V, 8), (GEN_PARK_JERK_V, 16)] (fun e (o : Nat × Nat) =>
      (e.wr (genBase x.1 + o.1) (w o.2)).wr (genBase x.1 + o.1 + 4) (~~~w o.2))).modSl (sid x.1) (fun z =>
        { z with goodVel := w 0, goodAcc := w 8, goodJerk := w 16 }))

/-- FAULT: a Grave source reads CLASS 3 and carries ERR_PIN (R34). -/
def Dev.applyFault (s : Dev) (q : Plate) : Dev :=
  let p := q.pay
  let s1 := s.each (List.range 1024) (fun d x =>
    let e := numAt p (2 * x) 2 % 128
    d.setFld (srcBase x) ⟨FAULT_SRC, 0, 7⟩ (if plateGrave p x then putBits (putBits e 0 2 3) 6 1 1 else e))
  let n := numAt p 0x800 2
  (s1.setFld 0 FAULT_DEP_COUNT_COUNT n).each (List.range n) (fun d i => d.wr (FAULT_DEP + 4 * i) (BitVec.ofNat 32 (numAt p (2052 + 4 * i) 4)))

/-- The comparators are armed (R158): clamps on every slice, monitors the plate enables. -/
def Dev.armAll (s : Dev) (clamps : List (Side × Side)) (mons : List Side) : Dev :=
  let s1 := s.each Dev.allSlices (fun d n =>
    let c := clamps.getD n.val (.inside, .inside)
    (d.armClamp n true c.1).armClamp n false c.2)
  s1.each (List.range 32) (fun d m => if d.monOn m then d.monArm m (match mons.getD m .inside with
    | .above => some true
    | .below => some false
    | .inside => none) else d)

/-- The bits of a DEFAULTS word that a write can change, all differing from the value written: a write that the word takes shows,
whatever it held (R35). -/
def Dev.unlike (s : Dev) (a : Nat) (v : Word) : Dev :=
  s.wr a ((s.rd a &&& ~~~defaultBits a) ||| (~~~v &&& defaultBits a))

/-- A DEFAULTS write would be refused or discarded at run time (R35): a word that held none of its bits, `p` after the write, does
not take it, a fault message came of it in `d`, or its unit ignores it. -/
def Dev.defaultRefused (s d p : Dev) (a : Nat) (v : Word) : Bool :=
  let idle :=
    if 0x30100 ≤ a ∧ a < 0x30200 then !(s.axisRec ((a - 0x30100) / 0x40 + 1)).en
    else if 0x90000 ≤ a ∧ a < 0x90200 then !s.monOn ((a - 0x90000) / 16)
    else if 0x100000 ≤ a ∧ a < 0x300000 then
      let n := sid ((a - 0x100000) / 0x10000)
      s.lowOnly n (a % 0x10000) && s.low n != n
    else if 0x400000 ≤ a ∧ a < 0x420000 then s.group ((a - 0x400000) / 0x1000) = none
    else false
  let noted := (List.range 32).any (fun i => s.rd (FAULT_REAL + 4 * i) != d.rd (FAULT_REAL + 4 * i))
  match pairOf a with
  | some (_, false) => false
  | _ => idle || noted || p.rd a &&& defaultBits a != v

/-- The entries of the DEFAULTS plate in list order: the state, or the index of the first that is refused. -/
def Dev.applyDefaults (f : Fuses) (p : List Byte) : Nat → Nat → Dev → Except Nat Dev
  | 0, _, s => .ok s
  | k + 1, i, s =>
    let e := defaultAt p i
    let d := s.bar0Write f .surveyor e.1 e.2 true
    if s.defaultRefused d ((s.unlike e.1 e.2).bar0Write f .surveyor e.1 e.2 true) e.1 e.2 then .error i else Dev.applyDefaults f p k (i + 1) d

/-- Step 6 but DEFAULTS and what follows it. -/
def Dev.applyPlates (s : Dev) (img : List Byte) (ps : List Plate) (refin : Option Int) : Dev :=
  let s0 := { s with plates := platesOf img ps }
  let s1 := (s0.applyClock ps refin).applyCommon ps
  let s2 := s1.each (groupRecs (payOf ps 6)) Dev.applyGroup
  let s3 := s2.each Dev.allSlices (fun d n => ((d.applyLane n).applyRange n).applyLimits n)
  let s4 := s3.applyInductive (payOf ps 11)
  match plateOf ps 12 with
  | some q => s4.applyFault q
  | none => s4

/-- Steps 6 and 7 of R47 with a full image from source `src`; the index of a refused DEFAULTS entry otherwise. -/
def Dev.applyFull (s : Dev) (f : Fuses) (img : List Byte) (ps : List Plate) (src : Nat) (clamps : List (Side × Side)) (mons : List Side)
    (temps : List (Option Int)) (refin : Option Int) : Except Nat Dev :=
  let s1 := s.applyPlates img ps refin
  match Dev.applyDefaults f (payOf ps 13) (numAt (payOf ps 13) 0 4) 0 s1 with
  | .error i => .error i
  | .ok d =>
    let fw := payOf ps 14
    let d1 := (d.put 0x2000000 sineTable).put (numAt fw 0 4) (fw.drop 16)
    let d2 := (d1.armAll clamps mons).modCol (fun c => { c with surveyor := true, kickAt := d1.now })
    let d3 := ((d2.setFld 0 ATLAS_STATUS_SOURCE src).setFlag 0 ATLAS_STATUS_LOADED true).setFld 0 ATLAS_STATUS_KEY_INDEX
      (numAt img (img.length - 256) 4)
    let d4 := (d3.wr ATLAS_SEQ (BitVec.ofNat 32 (numAt img 0x1C 4))).modBoot (fun b => { b with step := 8, push := false })
    let d5 := d4.selectBank.datumService temps false
    .ok (d5.each Dev.allSlices (fun e n => (e.convertLimits n).loadThr n))

/-! ## Partial images (R41) -/

/-- The elements of a list at the indices of `m` replaced. -/
def replaceAt {α : Type} (l : List α) (m : Word) (f : Nat → α) : List α :=
  l.mapIdx (fun i x => if m.getLsbD i then f i else x)

/-- A record among those of a partial plate. -/
def recOr {α : Type} (l : List (Nat × α)) (d : α) (n : Nat) : α := ((l.find? (fun r => r.1 == n)).map (fun r => r.2)).getD d

/-- A partial image replaces the groups, lanes, routes and limits of its slices; they stay parked, with registers kept and delay
lines cleared. Each goes to the highest ranges of its new LIMITS record, path A, with its setpoint rescaled, whatever ranges it
stood on (DESIGN CHOICE, notes/assumptions/38.md). Where no limit set has passed its checks yet the new record is the set in
force (R145). -/
def Dev.applyPartial (s : Dev) (img : List Byte) (ps : List Plate) : Dev :=
  let m := maskOf_ ps 6
  let ns := sliceList m
  let gs := groupRecs (payOf ps 6)
  let lanes := perSlice m (payOf ps 7) 8 laneRec
  let routes := perSlice m (payOf ps 8) 8 routeRec
  let lims := perSlice m (payOf ps 5) 80 id
  let p := s.plates
  let kept := p.groups.filter (fun g => !m.getLsbD g.first)
  let merged := (List.range 32).filterMap (fun n => ((gs.map (fun g => g.1)) ++ kept).find? (fun g => g.first == n))
  let q : Plates :=
    { p with groups := merged, lanes := replaceAt p.lanes m (recOr lanes ⟨0, 0, false, false, 0, 0⟩)
             routes := replaceAt p.routes m (recOr routes ⟨0, 0, 0, 0, false⟩)
             limits := replaceAt p.limits m (fun n => limitRec (recOr lims [] n))
             irMax := replaceAt p.irMax m (fun n => numAt (recOr lims [] n) 0x40 4 % 16)
             vrMax := replaceAt p.vrMax m (fun n => numAt (recOr lims [] n) 0x40 4 / 16 % 16) }
  let s1 := ({ s with plates := q }).each gs Dev.applyGroup
  let s2 := s1.each ns (fun d n =>
    let d1 := (d.applyLane n).modSl n (fun x => { x with tapsM := .zero, tapsL := .zero, tapsO := .zero })
    let d2 := (d1.rescaleI n (d1.irMax n)).rescaleV n (d1.vrMax n)
    if (d2.sl n).limPassed then (((d2.applyRange n).modSl n (fun x => { x with hardGood := d2.hard n })).convertLimits n).loadThr n
    else (d2.applyRange n).applyLimits n)
  (s2.wr ATLAS_SEQ (BitVec.ofNat 32 (numAt img 0x1C 4))).modBoot (fun b => { b with pmask := m, papply := true })

/-! ## ATLAS_IMAGE_CHECK -/

/-- The first `n` bytes of a flash image; flash beyond what it holds reads erased. -/
def flashBytes (l : List Byte) (n : Nat) : List Byte := l.take n ++ List.replicate (n - l.length) 0xFF

/-- A boot image is rejected (R39, R44). -/
def Dev.rejected (s : Dev) (r : Reject) : Dev := (s.atlasError r.code r.plate r.detail).raiseGlobal 0x3A0 0

/-- Check an image and apply it: the released-to-be device, or the first failing check. -/
def Dev.loadFull (s : Dev) (f : Fuses) (img : Nat → List Byte) (supplied : Option Nat) (src : Nat)
    (clamps : List (Side × Side)) (mons : List Side) (temps : List (Option Int)) (refin : Option Int) : Except Reject Dev :=
  match s.checkImage f img supplied false with
  | .error r => .error r
  | .ok x =>
    match s.applyFull f x.1 x.2 src clamps mons temps refin with
    | .error i => .error ⟨0x13, idxOf x.2 13, i⟩
    | .ok d => .ok d

/-- Both flash images (R39): the golden one if the first is rejected, and the push window if both are. -/
def Dev.bootFlash (s : Dev) (f : Fuses) (prim gold : List Byte) (clamps : List (Side × Side)) (mons : List Side)
    (temps : List (Option Int)) (refin : Option Int) : Dev :=
  match s.loadFull f (flashBytes prim) none 0 clamps mons temps refin with
  | .ok d => d
  | .error r =>
    let s1 := s.rejected r
    match s1.loadFull f (flashBytes gold) none 1 clamps mons temps refin with
    | .ok d => d.raiseGlobal 0x3A1 0
    | .error q => (s1.rejected q).setFlag 0 GLOBAL_STATUS_PUSH_OPEN true

/-- The staged image from BAR2 offset `a` on. -/
def Dev.stagedBytes (s : Dev) (n : Nat) : List Byte := s.bytes (s.rd ATLAS_STAGE_ADDR).toNat n

/-- A rejected link image: the hub hears of it in a FAULT frame out of the port that delivered it, and the staging begins
afresh (R39, R53, R411). -/
def Dev.rejectLink (s : Dev) (p : Nat) (r : Reject) : Dev :=
  let s1 := s.rejected r
  (s1.modBoot (fun b => { b with kport := none, klen := 0, klast := false })).sendFrom (Fin.ofNat 2 p) 0 14 0
    (.fault (msg 0x3A0 0 0 0xFF) (s1.rd ATLAS_ERROR) 0)

/-- The check of a staged partial image: a rejection changes nothing else and raises 0x3A2 (R40). -/
def Dev.checkPartial (s : Dev) (f : Fuses) : Dev :=
  match s.checkImage f s.stagedBytes (some (s.rd ATLAS_STAGE_LEN).toNat) true with
  | .ok x => (s.applyPartial x.1 x.2).wr ATLAS_ERROR 0
  | .error r =>
    let s1 := (s.atlasError r.code r.plate r.detail).modBoot (fun b => { b with partial_ := false, pmask := 0, papply := false })
    (((s1.setFlag 0 ATLAS_STATUS_PARTIAL_BUSY false).setFlag 0 ATLAS_STATUS_PARTIAL_DONE true).vector 1).raiseGlobal 0x3A2 0

/-- ATLAS_IMAGE_CHECK: of the partial image asked for, of the image pushed, of the one staged over the link, or of the images
in flash. -/
def Dev.imageCheck (s : Dev) (f : Fuses) (prim gold : List Byte) (clamps : List (Side × Side)) (mons : List Side)
    (temps : List (Option Int)) (refin : Option Int) : Dev :=
  if s.boot.partial_ then (if s.boot.papply then s else s.checkPartial f)
  else if s.boot.step < 4 || 8 ≤ s.boot.step then s
  else if s.boot.push then
    match s.loadFull f s.stagedBytes (some (s.rd ATLAS_STAGE_LEN).toNat) 2 clamps mons temps refin with
    | .ok d => d
    | .error r => ((s.rejected r).modBoot (fun b => { b with push := false })).setFlag 0 GLOBAL_STATUS_PUSH_OPEN true
  else
    match s.fld 0 GLOBAL_STATUS_BOOTSEL, s.boot.kport with
    | 0, _ => if s.flag 0 GLOBAL_STATUS_PUSH_OPEN then s else s.bootFlash f prim gold clamps mons temps refin
    | 2, some p =>
      if s.boot.klast then
        match s.loadFull f s.stagedBytes (some s.boot.klen) 3 clamps mons temps refin with
        | .ok d => d
        | .error r => s.rejectLink p r
      else s
    | _, _ => s

/-- The clamps' inputs of all slices, high then low. -/
def sidePairs (hi lo : List Side) : List (Side × Side) :=
  (List.range 32).map (fun n => (hi.getD n .inside, lo.getD n .inside))

def execAtlasImageCheck (prim gold : List Byte) (clampHi clampLo mons : List Side) (temps : List (Option Int)) (refin : Bool)
    (corr : Int) (s : State) : Host.Outcome State Fault Refusal :=
  s.onAwake (fun d => d.imageCheck s.fuses prim gold (sidePairs clampHi clampLo) mons temps (if refin then some corr else none))

end Sys2Proof.Machine
end

