-- ==== Sys2Proof/Machine/Startup.lean ====
section
/-! DEFINITION. Reset, start-up and release (R46 to R51, R54, R62), the interlock (R65, R66), power failure (R67 to R71) and
power-on reset (R59, R72). -/

namespace Sys2Proof.Machine

def Dev.modPins (s : Dev) (f : Pins → Pins) : Dev := { s with pins := f s.pins }

/-! ## RESET_N and power-on reset -/

/-- RESET_N_RISE: the straps are sampled, the fuses load, the ROM starts, and the repair list is applied (R46, R47, R312). -/
def Dev.resetRise (s : Dev) (bootsel : Nat) (recovery : Bool) : Dev :=
  ((s.modPins (fun p => { p with resetN := true })).bootStart bootsel recovery).loadRepairs

def execResetNRise (bootsel : BitVec 2) (recoveryN : Bool) (s : State) : Host.Outcome State Fault Refusal :=
  s.on (fun d => if d.pins.resetN then d else d.resetRise bootsel.toNat (!recoveryN))

/-- A fuse command that a reset or a loss of power cuts short (R61; DEDUCED, notes/assumptions/37.md). -/
def State.cutFuse (s : State) : State :=
  if s.boot.fuseCmd == 0 then s
  else
    let f := s.fuses.cut s.boot.fuseCmd s.freeCtr s.boot.fuseKey
    { s with
      toDev := s.toDev.draw.modBoot (fun b => { b with fuseCmd := 0, fused := serviceBlown f.service })
      fuses := f }

/-- RESET_N_LOW (R62): every output returns to the clockless default, the state to its reset values. -/
def execResetNLow (s : State) : Host.Outcome State Fault Refusal :=
  if s.pins.resetN then s.cutFuse.on (fun d => d.resetAll.modPins (fun p => { p with resetN := false })) else .next s

/-- What a loss of every supply leaves: the Datum die and the levels of the input balls (R72). -/
def Dev.powerOn (s : Dev) : Dev :=
  let d : Dev := { Dev.atPowerOn with
    now := s.now, freeCtr := s.freeCtr, nvm := s.nvm, pins := { s.pins with resetN := false, loadOut := 0 }
    boot := { Boot.atReset with fused := s.boot.fused } }
  (d.setFlag 0 GLOBAL_STATUS_INTERLOCK (!s.pins.interlockN)).setFlag 0 GLOBAL_STATUS_PWRFAIL (!s.pins.pwrfailN)

/-- POWER_ON_RESET: RESET_N is low while the supplies rise (R46); the R59 latch clears. -/
def execPowerOnReset (s : State) : Host.Outcome State Fault Refusal := s.cutFuse.on Dev.powerOn

/-! ## Start-up (R47) -/

/-- Conditions of input balls and supplies that stand when the core clock starts (R66, R67, R349). -/
def Dev.pinCauses (s : Dev) : Dev :=
  let s1 := (s.cause 0x3E0 (!s.pins.pwrfailN)).each s.pins.brown (fun d r => d.cause (0x3E1 + r) true)
  if s1.pins.interlockN || s1.sticky false 0x3E8 then s1 else s1.interlockAct

/-- The end of step 3: both PLLs are locked and A is active; TIME starts from 0. With BOOTSEL 01 or 11 the push window opens
(R48, R52, R266, R293). -/
def Dev.bootLock (s : Dev) : Dev :=
  let s1 := ((s.pllLock false).pllLock true).setFlag 0 CLK_STATUS_ACTIVE false
  let s2 : Dev := { s1 with time := 0, boot := { s1.boot with step := 4 } }
  let s3 := if s2.memst.entries.isEmpty then s2.loadRepairs else s2
  (s3.setFlag 0 GLOBAL_STATUS_PUSH_OPEN (bitOf (s3.fld 0 GLOBAL_STATUS_BOOTSEL) 0)).pinCauses

def execBootPllLock (s : State) : Host.Outcome State Fault Refusal :=
  s.onAwake (fun d => if d.boot.step != 3 || !d.flag 0 CLK_STATUS_XIN_OK then d else d.bootLock)

/-- Step 8: one pass over the 15,872 tiles of the system store at 0.4 µs each, those in an exclusion range left out; the tiles
at the positions `failed` are repaired (R47, R308 to R311). -/
def Dev.bootPass (s : Dev) (failed : List Nat) : Dev :=
  let s1 := (s.upTo (s.now + 6348800)).eccRead 0x2400000 0x3E0000 rdResurvey
  let s2 := s1.each failed (fun d p => match d.passTile p with
    | some t => d.tileFails t
    | none => d)
  { s2 with boot := { s2.boot with step := 9 } }

def execBootResurveyPass (failed : List Nat) (s : State) : Host.Outcome State Fault Refusal :=
  s.onAwake (fun d => if d.boot.step != 8 then d else d.bootPass failed)

/-- Lifecycle state entered at release (R57). -/
def Dev.releaseState (s : Dev) : Nat :=
  if s.flag 0 GLOBAL_STATUS_RECOVERY_STRAP || s.plates.recovery then 3
  else if s.flag 0 GLOBAL_STATUS_SERVICE_FUSED then 2 else 1

/-- Step 9. With the R59 latch set 0x3EC is raised, and its cause persists while the latch is set. -/
def Dev.bootRelease (s : Dev) : Dev :=
  let s1 := s.upTo s.boot.deferTo
  let s2 := (s1.setFlag 0 GLOBAL_STATUS_READY true).setFld 0 GLOBAL_STATUS_STATE s1.releaseState
  let s3 := s2.wr GLOBAL_BOOT_TIME (BitVec.ofNat 32 ((s1.now - s1.boot.zero) / 1000))
  let s4 : Dev := { s3 with
    boot := { s3.boot with step := 10 }, mer := { s3.mer with ppsAt := some s3.now }, memst := { s3.memst with paceAt := s3.now } }
  if s4.flag 0 GLOBAL_STATUS_GRAVE_LATCH then (s4.cause 0x3EC true).raiseGlobal 0x3EC 0 else s4

/-- RELEASE is deferred while PWRFAIL_N is low or a brown-out detector is tripped (R51). -/
def execRelease (s : State) : Host.Outcome State Fault Refusal :=
  s.onAwake (fun d => if d.boot.step != 9 || !d.pins.pwrfailN || !d.pins.brown.isEmpty then d else d.bootRelease)

/-- A condition that defers release clears (R51). -/
def Dev.deferRelease (s : Dev) : Dev :=
  if s.boot.step == 9 then { s with boot := { s.boot with deferTo := s.now + 1000000 } } else s

/-! ## Power failure (R67 to R71) -/

/-- The sequence of R68 starts: park begins 5 cycles after the trigger. In freeze the device thaws at once, 4 cycles after the
trigger (R71, R429). -/
def Dev.startPowerFail (s : Dev) (pin : Bool) : Dev :=
  let s1 := if s.frz.frozen then s.thaw.upTo (s.thaw.now + 1) else s.upTo (s.now + 5)
  s1.powerFail pin

/-- PWRFAIL_N_FALL. -/
def Dev.pwrfailFall (s : Dev) : Dev :=
  let s1 := ((s.modPins (fun p => { p with pwrfailN := false })).setFlag 0 GLOBAL_STATUS_PWRFAIL true).cause 0x3E0 true
  if s1.pins.resetN then (s1.startPowerFail true).raiseGlobal 0x3E0 0 else s1

def execPwrfailNFall (s : State) : Host.Outcome State Fault Refusal :=
  s.on (fun d => if d.pins.pwrfailN then d.pwrfailFall else d)

/-- PWRFAIL_N_RISE: the clear of 0x3E0 is no longer refused. -/
def execPwrfailNRise (s : State) : Host.Outcome State Fault Refusal :=
  s.on (fun d =>
    if d.pins.pwrfailN then d
    else (((d.modPins (fun p => { p with pwrfailN := true })).setFlag 0 GLOBAL_STATUS_PWRFAIL false).cause 0x3E0 false).deferRelease)

/-- BROWN_OUT of a rail, 0 VDD_CORE to 5 VDD_AN: the source is Grave, so its wire holds ERR_N low 3 cycles after the detector trips
(R13); park begins in cycle 5 of R68, where R13 has cycle 4 (DEDUCED, notes/assumptions/59.md). -/
def Dev.brownTrip (s : Dev) (rail : Nat) : Dev :=
  let s1 := (s.modPins (fun p => { p with brown := p.brown ++ [rail] })).cause (0x3E1 + rail) true
  if !s1.pins.resetN then s1
  else
    let x := 0x3E1 + rail
    let s2 := if s1.frz.frozen then (s1.startPowerFail false).modCol (fun c => { c with wired := addNat x c.wired })
      else ((s1.graveErr x).upTo (s1.now + 5)).powerFail false
    (s2.gravePark).raiseWired (msg x 0 0 0xFF)

def execBrownOut (rail : Fin 6) (s : State) : Host.Outcome State Fault Refusal :=
  s.on (fun d => if d.pins.brown.contains rail.val then d else d.brownTrip rail.val)

/-- BROWN_OUT_RELEASE (R434). -/
def execBrownOutRelease (rail : Fin 6) (s : State) : Host.Outcome State Fault Refusal :=
  s.on (fun d =>
    if d.pins.brown.contains rail.val then
      ((d.modPins (fun p => { p with brown := p.brown.filter (fun r => r != rail.val) })).cause (0x3E1 + rail.val) false).deferRelease
    else d)

/-! ## INTERLOCK_N (R65, R66) -/

/-- INTERLOCK_N_FALL: the clockless gate at once, the clocked path 5 cycles later, or at thaw. -/
def Dev.interlockFall (s : Dev) : Dev :=
  let s1 := ((s.modPins (fun p => { p with interlockN := false })).setFlag 0 GLOBAL_STATUS_INTERLOCK true).interlockGate true
  if !s1.pins.resetN then s1
  else if s1.frz.frozen then s1.modFrz (fun f => { f with lock := true })
  else ((s1.upTo (s1.now + 5)).interlockAct).each Dev.allSlices (fun d n => d.modSl n (fun x => { x with gate := false }))

def execInterlockNFall (s : State) : Host.Outcome State Fault Refusal :=
  s.on (fun d => if d.pins.interlockN then d.interlockFall else d)

/-- INTERLOCK_N_RISE: slices stay parked; the cause of 0x3E8 ends 1 ms later. -/
def execInterlockNRise (s : State) : Host.Outcome State Fault Refusal :=
  s.on (fun d =>
    if d.pins.interlockN then d
    else ((d.modPins (fun p => { p with interlockN := true, interlockAt := d.now })).setFlag 0 GLOBAL_STATUS_INTERLOCK false).interlockGate
      false)

/-! ## Output pins (R54, R81, R164) -/

/-- Level of an output pin: driven low or high, or high-impedance. -/
inductive Level where
  | low
  | high
  | off
  deriving DecidableEq, Repr

def levelOf (b : Bool) : Level := if b then .high else .low

/-- The pins of slice `n` are undriven: its group is not yet enabled, and VDD_IO is out of range. -/
def Dev.undriven (s : Dev) (n : SliceId) : Bool := !(s.sl n).enabled && s.pins.brown.contains 2

/-- OUTEN_N of slice `n`. -/
def Dev.pinOuten (s : Dev) (n : SliceId) : Level :=
  if s.undriven n then .off else levelOf !(s.flag (sB n) SLICE_FORCE_STATUS_OUTEN)

/-- FORCE_P − FORCE_N of slice `n` in FDAC steps, none where undriven: its group is not yet enabled, and VDD_AP or VDD_AN is out of
range. -/
def Dev.pinForce (s : Dev) (n : SliceId) : Option Int :=
  if !(s.sl n).enabled && (s.pins.brown.contains 4 || s.pins.brown.contains 5) then none else some (s.forced n)

/-- RGk and PRG_PWM of slice `n`. -/
def Dev.pinRg (s : Dev) (n : SliceId) (k : Nat) : Level := if s.undriven n then .off else levelOf (bitOf (s.sl n).rg k)
def Dev.pinPrg (s : Dev) (n : SliceId) : Level := if s.undriven n then .off else levelOf (s.prgPin n)

/-- CLAMP_N of slice `n`: high until the clamps are armed, and before the group is enabled while a rail is out of range. -/
def Dev.pinClampN (s : Dev) (n : SliceId) : Level :=
  if s.undriven n then .off
  else if !s.clampsArmed || (!(s.sl n).enabled && !s.pins.brown.isEmpty) then .high
  else levelOf !(s.sl n).clampN

/-- ERR_N, an open drain: low, or released. -/
def Dev.pinErrN (s : Dev) : Level := if s.pins.brown.contains 2 then .off else if s.errLow then .low else .off

/-- READY and LOAD_OUT. -/
def Dev.pinReady (s : Dev) : Level :=
  if s.pins.brown.contains 2 then .off else levelOf (s.pins.brown.isEmpty && s.flag 0 GLOBAL_STATUS_READY)
def Dev.pinLoadOut (s : Dev) : Level := if s.pins.brown.contains 2 then .off else levelOf (decide (s.now < s.pins.loadOut))

end Sys2Proof.Machine
end

