-- ==== Sys2Proof/Machine/Dispatch.lean ====
section
/-! DEFINITION. One arm per command: its meaning, by name. -/

namespace Sys2Proof.Machine

def exec (i : Instr) (s : State) : Host.Outcome State Fault Refusal :=
  match i with
  | .resetNRise bootsel recoveryN => Sys2Proof.Machine.execResetNRise bootsel recoveryN s
  | .bootPllLock => Sys2Proof.Machine.execBootPllLock s
  | .resetNLow => Sys2Proof.Machine.execResetNLow s
  | .atlasImageCheck prim gold clampHi clampLo mons temps refin corr => Sys2Proof.Machine.execAtlasImageCheck prim gold clampHi clampLo mons temps refin corr s
  | .bootResurveyPass failed => Sys2Proof.Machine.execBootResurveyPass failed s
  | .release => Sys2Proof.Machine.execRelease s
  | .atlasLoad => Sys2Proof.Machine.execAtlasLoad s
  | .atlasPartial => Sys2Proof.Machine.execAtlasPartial s
  | .partialDone => Sys2Proof.Machine.execPartialDone s
  | .programKeyHash0 => Sys2Proof.Machine.execProgramKeyHash0 s
  | .programKeyHash1 => Sys2Proof.Machine.execProgramKeyHash1 s
  | .revokeKey0 => Sys2Proof.Machine.execRevokeKey0 s
  | .revokeKey1 => Sys2Proof.Machine.execRevokeKey1 s
  | .blowServiceFuse => Sys2Proof.Machine.execBlowServiceFuse s
  | .lifecycleCommandDone => Sys2Proof.Machine.execLifecycleCommandDone s
  | .graveLatchClear => Sys2Proof.Machine.execGraveLatchClear s
  | .pwrfailNFall => Sys2Proof.Machine.execPwrfailNFall s
  | .pwrfailNRise => Sys2Proof.Machine.execPwrfailNRise s
  | .brownOut rail => Sys2Proof.Machine.execBrownOut rail s
  | .interlockNFall => Sys2Proof.Machine.execInterlockNFall s
  | .interlockNRise => Sys2Proof.Machine.execInterlockNRise s
  | .perst => Sys2Proof.Machine.execPerst s
  | .functionLevelReset => Sys2Proof.Machine.execFunctionLevelReset s
  | .sampleTick g => Sys2Proof.Machine.execSampleTick g s
  | .laneComputation n v ia ib => Sys2Proof.Machine.execLaneComputation n v ia ib s
  | .dieToDieParityError n w => Sys2Proof.Machine.execDieToDieParityError n w s
  | .fdacLatch n => Sys2Proof.Machine.execFdacLatch n s
  | .queueFlush n => Sys2Proof.Machine.execQueueFlush n s
  | .loadInEdge => Sys2Proof.Machine.execLoadInEdge s
  | .loadInTimeout g => Sys2Proof.Machine.execLoadInTimeout g s
  | .parkRgSafe n => Sys2Proof.Machine.execParkRgSafe n s
  | .parkComplete n => Sys2Proof.Machine.execParkComplete n s
  | .inductiveRampEnd n => Sys2Proof.Machine.execInductiveRampEnd n s
  | .unparkOutenLow g => Sys2Proof.Machine.execUnparkOutenLow g s
  | .unparkClose g => Sys2Proof.Machine.execUnparkClose g s
  | .monitorSlot n reading => Sys2Proof.Machine.execMonitorSlot n reading s
  | .forceCfgWrite n v => Sys2Proof.Machine.execForceCfgWrite n v s
  | .pairedValueWrite rq offset v full => Sys2Proof.Machine.execPairedValueWrite rq offset v full s
  | .pairedComplementWrite rq offset v full => Sys2Proof.Machine.execPairedComplementWrite rq offset v full s
  | .recordWindowClose n => Sys2Proof.Machine.execRecordWindowClose n s
  | .recCfgWrite g v => Sys2Proof.Machine.execRecCfgWrite g v s
  | .rowWrite => Sys2Proof.Machine.execRowWrite s
  | .captureArm h p => Sys2Proof.Machine.execCaptureArm h p s
  | .capRegionWrite g size v => Sys2Proof.Machine.execCapRegionWrite g size v s
  | .capRdWrite g v => Sys2Proof.Machine.execCapRdWrite g v s
  | .measCfgWrite n v => Sys2Proof.Machine.execMeasCfgWrite n v s
  | .corrArm n v => Sys2Proof.Machine.execCorrArm n v s
  | .corrWindowOpen n => Sys2Proof.Machine.execCorrWindowOpen n s
  | .corrWindowClose n => Sys2Proof.Machine.execCorrWindowClose n s
  | .range h p => Sys2Proof.Machine.execRange h p s
  | .handoverPrepareEnd n => Sys2Proof.Machine.execHandoverPrepareEnd n s
  | .handoverEnd n => Sys2Proof.Machine.execHandoverEnd n s
  | .soloSwitchEnd n => Sys2Proof.Machine.execSoloSwitchEnd n s
  | .vrangeHoldEnd n => Sys2Proof.Machine.execVrangeHoldEnd n s
  | .rgPatternWrite n offset v => Sys2Proof.Machine.execRgPatternWrite n offset v s
  | .limReload n => Sys2Proof.Machine.execLimReload n s
  | .clampTrip n high => Sys2Proof.Machine.execClampTrip n high s
  | .clampAutoRelease n => Sys2Proof.Machine.execClampAutoRelease n s
  | .clampClear n => Sys2Proof.Machine.execClampClear n s
  | .winCrossing n above => Sys2Proof.Machine.execWinCrossing n above s
  | .winCfgWrite n v input => Sys2Proof.Machine.execWinCfgWrite n v input s
  | .winSampledTick n value => Sys2Proof.Machine.execWinSampledTick n value s
  | .smonTick m value => Sys2Proof.Machine.execSmonTick m value s
  | .comparatorWrite offset v => Sys2Proof.Machine.execComparatorWrite offset v s
  | .prgPeriodStart n cs vs => Sys2Proof.Machine.execPrgPeriodStart n cs vs s
  | .headroomTick n => Sys2Proof.Machine.execHeadroomTick n s
  | .prgCfgWrite n v => Sys2Proof.Machine.execPrgCfgWrite n v s
  | .laneParityError l => Sys2Proof.Machine.execLaneParityError l s
  | .laneRestoreDone l => Sys2Proof.Machine.execLaneRestoreDone l s
  | .loopDivWrite g v => Sys2Proof.Machine.execLoopDivWrite g v s
  | .loopOuterWrite n v => Sys2Proof.Machine.execLoopOuterWrite n v s
  | .outerTick n => Sys2Proof.Machine.execOuterTick n s
  | .loopOpen h mask => Sys2Proof.Machine.execLoopOpen h mask s
  | .loopOpenEffect g => Sys2Proof.Machine.execLoopOpenEffect g s
  | .loopClose h mask => Sys2Proof.Machine.execLoopClose h mask s
  | .loopCloseEffect g => Sys2Proof.Machine.execLoopCloseEffect g s
  | .coefSelectSelect h p => Sys2Proof.Machine.execCoefSelectSelect h p s
  | .coefSelectWrite h p => Sys2Proof.Machine.execCoefSelectWrite h p s
  | .coefSelectWriteOne h p => Sys2Proof.Machine.execCoefSelectWriteOne h p s
  | .coefSwitch n => Sys2Proof.Machine.execCoefSwitch n s
  | .contourSet h p => Sys2Proof.Machine.execContourSet h p s
  | .genSet h p => Sys2Proof.Machine.execGenSet h p s
  | .genSetEffect g => Sys2Proof.Machine.execGenSetEffect g s
  | .genRegisterWrite n offset v => Sys2Proof.Machine.execGenRegisterWrite n offset v s
  | .set h p => Sys2Proof.Machine.execSet h p s
  | .setEffect g => Sys2Proof.Machine.execSetEffect g s
  | .dwellBoundary g => Sys2Proof.Machine.execDwellBoundary g s
  | .markReached g => Sys2Proof.Machine.execMarkReached g s
  | .waitConditionMet g e => Sys2Proof.Machine.execWaitConditionMet g e s
  | .stepApply g => Sys2Proof.Machine.execStepApply g s
  | .waitTimeout g => Sys2Proof.Machine.execWaitTimeout g s
  | .doorbell g => Sys2Proof.Machine.execDoorbell g s
  | .prefetchRead g => Sys2Proof.Machine.execPrefetchRead g s
  | .segmentReady h segment => Sys2Proof.Machine.execSegmentReady h segment s
  | .segmentReadyKeep h segment => Sys2Proof.Machine.execSegmentReadyKeep h segment s
  | .segmentFree h segment => Sys2Proof.Machine.execSegmentFree h segment s
  | .underrunResume g => Sys2Proof.Machine.execUnderrunResume g s
  | .jumpRequest g src => Sys2Proof.Machine.execJumpRequest g src s
  | .jumpWindowFilled g command => Sys2Proof.Machine.execJumpWindowFilled g command s
  | .jumpCfgWrite g v => Sys2Proof.Machine.execJumpCfgWrite g v s
  | .legJump h leg => Sys2Proof.Machine.execLegJump h leg s
  | .legStart h p => Sys2Proof.Machine.execLegStart h p s
  | .legStartFirstStep g => Sys2Proof.Machine.execLegStartFirstStep g s
  | .legStopNow h => Sys2Proof.Machine.execLegStopNow h s
  | .legStopAtBoundary h => Sys2Proof.Machine.execLegStopAtBoundary h s
  | .timeSetNow w => Sys2Proof.Machine.execTimeSetNow w s
  | .timeSetPps cancel => Sys2Proof.Machine.execTimeSetPps cancel s
  | .timeCancel => Sys2Proof.Machine.execTimeCancel s
  | .ppsEdge => Sys2Proof.Machine.execPpsEdge s
  | .ppsLost => Sys2Proof.Machine.execPpsLost s
  | .slewDecrement => Sys2Proof.Machine.execSlewDecrement s
  | .encoderEdge e ab tooFast => Sys2Proof.Machine.execEncoderEdge e ab tooFast s
  | .encoderZPulse z => Sys2Proof.Machine.execEncoderZPulse z s
  | .encoderPreset e => Sys2Proof.Machine.execEncoderPreset e s
  | .serialPoll e frame stuck => Sys2Proof.Machine.execSerialPoll e frame stuck s
  | .mainsCrossing => Sys2Proof.Machine.execMainsCrossing s
  | .mainsLost => Sys2Proof.Machine.execMainsLost s
  | .linkAxisLost => Sys2Proof.Machine.execLinkAxisLost s
  | .ptmRequest => Sys2Proof.Machine.execPtmRequest s
  | .ptmResponse master propagation => Sys2Proof.Machine.execPtmResponse master propagation s
  | .ptmTimeout => Sys2Proof.Machine.execPtmTimeout s
  | .cleanerUpdate phasePs freqPpb => Sys2Proof.Machine.execCleanerUpdate phasePs freqPpb s
  | .refinLost range => Sys2Proof.Machine.execRefinLost range s
  | .forceCoast on => Sys2Proof.Machine.execForceCoast on s
  | .refinRequalified jumpPs => Sys2Proof.Machine.execRefinRequalified jumpPs s
  | .pllLocked b => Sys2Proof.Machine.execPllLocked b s
  | .standbyLockLost => Sys2Proof.Machine.execStandbyLockLost s
  | .activePllLockLost stepPs => Sys2Proof.Machine.execActivePllLockLost stepPs s
  | .clockSwitch stepPs => Sys2Proof.Machine.execClockSwitch stepPs s
  | .pllBothLost => Sys2Proof.Machine.execPllBothLost s
  | .runaway ppb => Sys2Proof.Machine.execRunaway ppb s
  | .xinLost => Sys2Proof.Machine.execXinLost s
  | .resurveyPaceTick => Sys2Proof.Machine.execResurveyPaceTick s
  | .resurveyTestDone failed => Sys2Proof.Machine.execResurveyTestDone failed s
  | .scrubWrite word stillBad => Sys2Proof.Machine.execScrubWrite word stillBad s
  | .repairCommit ok => Sys2Proof.Machine.execRepairCommit ok s
  | .exclusionWrite rq e len v => Sys2Proof.Machine.execExclusionWrite rq e len v s
  | .datumServiceRun temps => Sys2Proof.Machine.execDatumServiceRun temps s
  | .datumRampStep => Sys2Proof.Machine.execDatumRampStep s
  | .calibrateSelf h p => Sys2Proof.Machine.execCalibrateSelf h p s
  | .calibrateExtRef h p => Sys2Proof.Machine.execCalibrateExtRef h p s
  | .calibrateExtRange h p => Sys2Proof.Machine.execCalibrateExtRange h p s
  | .calibrationDone r => Sys2Proof.Machine.execCalibrationDone r s
  | .datumCommitUser h p => Sys2Proof.Machine.execDatumCommitUser h p s
  | .datumCommitFactory h p => Sys2Proof.Machine.execDatumCommitFactory h p s
  | .datumCommitDone readBackOk => Sys2Proof.Machine.execDatumCommitDone readBackOk s
  | .faultMessage m => Sys2Proof.Machine.execFaultMessage m s
  | .graveWire source => Sys2Proof.Machine.execGraveWire source s
  | .overflowSlotTake => Sys2Proof.Machine.execOverflowSlotTake s
  | .blockResetEnd target => Sys2Proof.Machine.execBlockResetEnd target s
  | .faultClear injBank w v => Sys2Proof.Machine.execFaultClear injBank w v s
  | .faultInject v => Sys2Proof.Machine.execFaultInject v s
  | .irqRearm => Sys2Proof.Machine.execIrqRearm s
  | .watchdogKick => Sys2Proof.Machine.execWatchdogKick s
  | .surveyorWatchdog => Sys2Proof.Machine.execSurveyorWatchdog s
  | .surveyorException => Sys2Proof.Machine.execSurveyorException s
  | .tempHigh => Sys2Proof.Machine.execTempHigh s
  | .tempCritical => Sys2Proof.Machine.execTempCritical s
  | .cmdTailWrite r v => Sys2Proof.Machine.execCmdTailWrite r v s
  | .commandFetch r res => Sys2Proof.Machine.execCommandFetch r res s
  | .reservedOpcode h opcode => Sys2Proof.Machine.execReservedOpcode h opcode s
  | .park h => Sys2Proof.Machine.execPark h s
  | .unpark h => Sys2Proof.Machine.execUnpark h s
  | .barrier h p => Sys2Proof.Machine.execBarrier h p s
  | .barrierTimeout r => Sys2Proof.Machine.execBarrierTimeout r s
  | .fence h => Sys2Proof.Machine.execFence h s
  | .ringCfgWrite r v => Sys2Proof.Machine.execRingCfgWrite r v s
  | .cplHeadWrite r v => Sys2Proof.Machine.execCplHeadWrite r v s
  | .captureStart c list => Sys2Proof.Machine.execCaptureStart c list s
  | .captureStop c => Sys2Proof.Machine.execCaptureStop c s
  | .consumedWrite c v => Sys2Proof.Machine.execConsumedWrite c v s
  | .captureRecordWrite c => Sys2Proof.Machine.execCaptureRecordWrite c s
  | .captureWriteback c => Sys2Proof.Machine.execCaptureWriteback c s
  | .msiXSend v => Sys2Proof.Machine.execMsiXSend v s
  | .pcieLinkDown => Sys2Proof.Machine.execPcieLinkDown s
  | .d3hotEntry => Sys2Proof.Machine.execD3hotEntry s
  | .bar2Write rq offset data poisoned other => Sys2Proof.Machine.execBar2Write rq offset data poisoned other s
  | .registerWrite rq offset v full => Sys2Proof.Machine.execRegisterWrite rq offset v full s
  | .commandFrame rx ring index xfer h cmd keyBlock => Sys2Proof.Machine.execCommandFrame rx ring index xfer h cmd keyBlock s
  | .completionFrame rx ring c => Sys2Proof.Machine.execCompletionFrame rx ring c s
  | .recordFrame rx group first records => Sys2Proof.Machine.execRecordFrame rx group first records s
  | .stationDataFrame rx addr data boot last => Sys2Proof.Machine.execStationDataFrame rx addr data boot last s
  | .timeSyncFrame rx slewRate second t rxTime => Sys2Proof.Machine.execTimeSyncFrame rx slewRate second t rxTime s
  | .timeStepFrame rx t d => Sys2Proof.Machine.execTimeStepFrame rx t d s
  | .timeAxisFrame rx axis t v => Sys2Proof.Machine.execTimeAxisFrame rx axis t v s
  | .triggerFrame rx engines nodes => Sys2Proof.Machine.execTriggerFrame rx engines nodes s
  | .freezeFrame rx origin => Sys2Proof.Machine.execFreezeFrame rx origin s
  | .faultFrame rx m atlasError state => Sys2Proof.Machine.execFaultFrame rx m atlasError state s
  | .heartbeatFrame rx b => Sys2Proof.Machine.execHeartbeatFrame rx b s
  | .heartbeatSend p => Sys2Proof.Machine.execHeartbeatSend p s
  | .timeSyncSend => Sys2Proof.Machine.execTimeSyncSend s
  | .axisSampleSend => Sys2Proof.Machine.execAxisSampleSend s
  | .retransmitTimeout p vc => Sys2Proof.Machine.execRetransmitTimeout p vc s
  | .partnerAbsent p => Sys2Proof.Machine.execPartnerAbsent p s
  | .timeLinkLost => Sys2Proof.Machine.execTimeLinkLost s
  | .laneFailure p lane => Sys2Proof.Machine.execLaneFailure p lane s
  | .portTrained p session => Sys2Proof.Machine.execPortTrained p session s
  | .portRetrain p => Sys2Proof.Machine.execPortRetrain p s
  | .portRelease p => Sys2Proof.Machine.execPortRelease p s
  | .quarantineEnd p => Sys2Proof.Machine.execQuarantineEnd p s
  | .keyLoad slot => Sys2Proof.Machine.execKeyLoad slot s
  | .remoteKeySend node => Sys2Proof.Machine.execRemoteKeySend node s
  | .triggerSend nodes => Sys2Proof.Machine.execTriggerSend nodes s
  | .xferStart node boot last => Sys2Proof.Machine.execXferStart node boot last s
  | .xferCountTimeout r => Sys2Proof.Machine.execXferCountTimeout r s
  | .freezeNFall => Sys2Proof.Machine.execFreezeNFall s
  | .jtagFreeze => Sys2Proof.Machine.execJtagFreeze s
  | .jtagThaw freezeN => Sys2Proof.Machine.execJtagThaw freezeN s
  | .jtagStatus freezeN => Sys2Proof.Machine.execJtagStatus freezeN s
  | .scanSelect chain => Sys2Proof.Machine.execScanSelect chain s
  | .scanRead => Sys2Proof.Machine.execScanRead s
  | .memSelect addr => Sys2Proof.Machine.execMemSelect addr s
  | .memRead => Sys2Proof.Machine.execMemRead s
  | .unlockChallenge => Sys2Proof.Machine.execUnlockChallenge s
  | .unlockResponse keyIndex r => Sys2Proof.Machine.execUnlockResponse keyIndex r s
  | .unlockVerifyDone => Sys2Proof.Machine.execUnlockVerifyDone s
  | .extest cells => Sys2Proof.Machine.execExtest cells s
  | .samplePreload cells => Sys2Proof.Machine.execSamplePreload cells s
  | .bypass tdi => Sys2Proof.Machine.execBypass tdi s
  | .powerOnReset => Sys2Proof.Machine.execPowerOnReset s
  | .brownOutRelease rail => Sys2Proof.Machine.execBrownOutRelease rail s
  | .xinReturn => Sys2Proof.Machine.execXinReturn s
  | .clampInputReturn n high => Sys2Proof.Machine.execClampInputReturn n high s
  | .laneRejoin p lane => Sys2Proof.Machine.execLaneRejoin p lane s
  | .perstDeassert => Sys2Proof.Machine.execPerstDeassert s
  | .pcieLinkUp speed width => Sys2Proof.Machine.execPcieLinkUp speed width s
  | .configurationRequest q => Sys2Proof.Machine.execConfigurationRequest q s
  | .msiXUnmask v => Sys2Proof.Machine.execMsiXUnmask v s
  | .bar2Read rq offset wide => Sys2Proof.Machine.execBar2Read rq offset wide s
  | .lowWordRead rq offset => Sys2Proof.Machine.execLowWordRead rq offset s

end Sys2Proof.Machine
end

