-- ==== Sys2Proof/Machine/Step.lean ====
section
/-! DEFINITION. One step of the block: the command at the front of the queue, or, on an empty queue, one core cycle. -/

namespace Sys2Proof.Machine

/-- With no command waiting one core cycle passes, and the fault collector takes one message of its queue, or of an
overflow slot (R345, R347; DESIGN CHOICE, notes/assumptions/5.md). -/
def Dev.idle (s : Dev) : Dev :=
  if s.awake then
    match s.col.queue with
    | [] => (s.pass 1).takeSlot
    | _ :: _ => (s.pass 1).collect
  else s.pass 1

/-- Take the command at the front of the queue and run it with the queue's rest; on an empty queue the block idles. -/
def step (s : State) : Host.Outcome State Fault Refusal :=
  match s.pending with
  | [] => s.on Dev.idle
  | c :: l => exec c { s with pending := l }

/-- `s` with the command that a word spells put at the front of its queue; the table spells no command by a word, so
`s` is unchanged. -/
def State.withFetchWord (s : State) (nbits w : Nat) : State :=
  match decodeTableWord nbits w with
  | some c => { s with pending := c :: s.pending }
  | none => s

end Sys2Proof.Machine
end

