-- ==== Sys2Proof/Safety.lean ====
section
/-! DEFINITION. What counts as a good state: the sparse stores keep their canonical form (keys strictly rise, no entry
at its default), so that equal contents are equal data. And the terms the statements share: a device replaced in its
block, the frame of a register write, a ring command that is ready to execute, fuses that only blow. -/

namespace Sys2Proof.Machine

/-- The memory's canonical form. -/
def Memory.wf (l : List Host.Cell) : Bool := Store.wf (fun _ => (0 : Byte)) l

/-- The Datum die's canonical form: erased bytes are not listed. -/
def Memory.nvmWf (l : List Host.Cell) : Bool := Store.wf (fun _ => (0xFF : Byte)) l

/-- The register file's canonical form: a word at its reset value is not listed. -/
def Memory.regsWf (l : List (Nat × Word)) : Bool := Store.wf regReset l

/-- All three stores of a device are in canonical form. -/
def Dev.canonical (s : Dev) : Prop := Memory.wf s.mem = true ∧ Memory.nvmWf s.nvm = true ∧ Memory.regsWf s.regs = true

/-- The block `s` with the device `d`: the fuses and the waiting commands stay. -/
def State.withDev (s : State) (d : Dev) : State := { toDev := d, fuses := s.fuses, pending := s.pending }

/-- The frame of a command that writes the register words at `as` alone: every other word stays, and so do the stores, the
Datum die and the plates. -/
def Dev.keeps (s t : Dev) (as : List Nat) : Prop :=
  (∀ a, a ∉ as → t.rd a = s.rd a) ∧ t.mem = s.mem ∧ t.nvm = s.nvm ∧ t.plates = s.plates

/-- A command of ring `h.ring` is fetched, and its entry passes the rules of R368 and R379 for group record `r` of this
device, which no partial reload is replacing (R41). -/
def Dev.ready (s : Dev) (h : Hdr) (r : GroupRec) : Prop :=
  s.awake = true ∧ s.released = true ∧ (s.ring h.ring).fetched ≠ 0 ∧ (s.ring h.ring).held = none ∧ (s.ring h.ring).bound = [] ∧
  h.flags.toNat ≤ 1 ∧ h.rsv = none ∧ h.group.toNat = s.fld (rB h.ring) HOST_RING_CFG_GROUP ∧
  s.fld (rB h.ring) HOST_RING_CFG_NODE = 0 ∧ s.group (h.group.toNat % 32) = some r ∧ s.reloading r.first = false

/-- The device when the next fetched command of ring `r` has been taken from it, 16 cycles after the one before (R370). -/
def Dev.taken (s : Dev) (r : RingId) : Dev := (s.paced r).modRing r (fun q => { q with fetched := q.fetched - 1, bound := q.bound.tail })

/-- A command of this device's own ring, as it executes. -/
def ownCtx (h : Hdr) (opcode : Byte) : Ctx := { hdr := h, opcode := opcode, drop := false, remote := false, index := 0 }

/-- A fuse state that follows `f`: no blown bit is whole again, and the identity stays (R58, R61). -/
def Fuses.follows (f g : Fuses) : Prop :=
  f.hash0 &&& g.hash0 = f.hash0 ∧ f.hash1 &&& g.hash1 = f.hash1 ∧ (f.valid0 = true → g.valid0 = true) ∧
  (f.valid1 = true → g.valid1 = true) ∧ (f.blown0 = true → g.blown0 = true) ∧ (f.blown1 = true → g.blown1 = true) ∧
  f.revoked &&& g.revoked = f.revoked ∧ f.service &&& g.service = f.service ∧ f.uid = g.uid

end Sys2Proof.Machine
end

