-- ==== Sys2Proof/Certificates/Slice0/Obligations.lean ====
section
/-! DEFINITION. The statements for the provers. `Dev.keeps` is the frame of a command that writes the registers it names;
`State.withDev` is the block with another device: its queue and its fuses stay. -/

open Sys2Proof Sys2Proof.Machine

/-- R3, R4, R362: the block takes the command at the front of its queue and runs it with the rest of the queue (the queue is the
model's way to present the events from outside, first in, first out). -/
def Obligations.StepRunsTheFrontCommand : Prop :=
  ∀ (c : Instr) (l : List Instr) (s : State), s.pending = c :: l → step s = exec c { s with pending := l }

/-- On an empty queue one core cycle passes (notes/assumptions/5.md, the model's choice): TIME counts it once start-up has the
core clock, and no register, store or fuse changes unless the collector has a message. R266: TIME counts one a cycle, R297:
ten on the fallback clock. -/
def Obligations.EmptyQueueIsOneCycle : Prop :=
  ∀ s : State, s.pending = [] → s.col.queue = [] → s.col.slots = [] →
    ∃ t, step s = .next t ∧ t.pending = [] ∧ t.fuses = s.fuses ∧ s.keeps t.toDev [] ∧ t.slices = s.slices ∧
      (s.frz.frozen = false → t.now = s.now + 1) ∧ (s.frz.frozen = true → t.now = s.now ∧ t.time = s.time ∧ t.frz.span = s.frz.span + 1) ∧
      (s.awake = true → 4 ≤ s.boot.step → t.time = s.time + (if s.fallback then 10 else 1)) ∧ (s.awake = false → t.time = s.time)

/-- Whatever the state, every command has a next state, and leaves the queue's rest as it is: none of the 230 ends in a fault or
a refusal. -/
def Obligations.EveryCommandAnswersNext : Prop :=
  ∀ (c : Instr) (s : State), ∃ t, exec c s = .next t ∧ t.pending = s.pending

/-- R421, R422: in freeze, or with RESET_N low, nothing of the device's own runs: of all commands only the test port's, the
resets', the pins', the clocks', the encoders' and the comparators' own act (the list is the model's reading:
notes/assumptions/5.md); every other leaves the whole state as it is. -/
def Obligations.StoppedDeviceIgnoresCommands : Prop :=
  ∀ (c : Instr) (s : State), s.awake = false →
    (match c with
    | .clampTrip .. | .clampInputReturn .. | .winCrossing .. | .encoderEdge .. | .perst | .perstDeassert | .pcieLinkDown
    | .freezeNFall | .jtagFreeze | .jtagThaw _ | .jtagStatus _ | .scanSelect _ | .scanRead | .memSelect _ | .memRead | .unlockChallenge
    | .unlockResponse .. | .unlockVerifyDone | .extest _ | .samplePreload _ | .bypass _ | .resetNRise .. | .resetNLow | .powerOnReset | .pwrfailNFall
    | .pwrfailNRise | .brownOut _ | .brownOutRelease _ | .interlockNFall | .interlockNRise | .pllLocked _ | .standbyLockLost | .activePllLockLost _
    | .pllBothLost | .xinLost | .xinReturn | .graveWire _ | .tempCritical => False
    | _ => True) → exec c s = .next s

/-- The reset values other than 0 that the register tables state (R45, R98, R99, R100, R103, R104, R106, R128, R129, R130, R152,
R155, R170, R171, R172, R193, R196, R217, R219, R234, R236, R262, R286, R299, R317, R336, R356, R364, R387, R418), for every
unit; R46: before start-up RESET_N is low and READY is clear. That the stores and the Datum die list nothing at reset is the
model's choice (notes/assumptions/3.md); they are in canonical form. -/
def Obligations.ResetRegisterValues : Prop :=
  (∀ n : SliceId,
    State.reset.fld (sB n) SLICE_FORCE_STATUS_PARKED = 1 ∧ State.reset.rd (sB n + SLICE_PARK_CODE_C) = 0xFFFFFFFF ∧
    State.reset.rd (sB n + SLICE_FDAC_WRITE_C) = 0xFFFFFFFF ∧ State.reset.fld (sB n) SLICE_OUTEN_CFG_OUTEN_DELAY = 1000 ∧
    State.reset.fld (sB n) SLICE_MON_CFG_WINDOW = 320 ∧ State.reset.fld (sB n) SLICE_MON_CFG_LAG = 200 ∧
    State.reset.fld (sB n) SLICE_MON_CFG_COUNT = 1 ∧ State.reset.fld (sB n) SLICE_BAL_CFG_K_BAL = 256 ∧
    State.reset.fld (sB n) SLICE_BAL_CFG_TRIM_MAX = 8192 ∧ State.reset.fld (sB n) SLICE_MEAS_CFG_IB_EN = 1 ∧
    State.reset.fld (sB n) SLICE_REC_CFG_D = 1 ∧ State.reset.fld (sB n) SLICE_REC_APERTURE_SRC = 1 ∧
    State.reset.fld (sB n) SLICE_REC_APERTURE_K = 1 ∧ State.reset.rd (sB n + SLICE_REC_PERIOD) = 0xF4240 ∧
    State.reset.fld (sB n) SLICE_CORR_CTRL_SRC0 = 5 ∧ State.reset.fld (sB n) SLICE_CORR_CTRL_SRC1 = 1 ∧
    State.reset.fld (sB n) SLICE_CORR_CTRL_PERIODS = 1 ∧ State.reset.fld (sB n) SLICE_RANGE_CFG_AR_MAX = 9 ∧
    State.reset.fld (sB n) SLICE_RANGE_CFG_VHOLD = 3 ∧ State.reset.fld (sB n) SLICE_RANGE_CFG_OVERLAP = 16 ∧
    State.reset.fld (sB n) SLICE_RANGE_TIMING_SW_TIME_NS = 2000 ∧ State.reset.fld (sB n) SLICE_RANGE_TIMING_DOWN_COUNT = 64 ∧
    State.reset.fld (sB n) SLICE_RANGE_THR_UP_THR = 62259 ∧ State.reset.fld (sB n) SLICE_RANGE_THR_DOWN_THR = 5243 ∧
    State.reset.fld (sB n) SLICE_RANGE_MATCH_MATCH_LIMIT = 328 ∧ State.reset.fld (sB n) SLICE_CLAMP_CFG_MODE = 1 ∧
    State.reset.fld (sB n) SLICE_CLAMP_CFG_RELEASE_NS = 10000 ∧ State.reset.fld (sB n) SLICE_CLAMP_STATUS_THR_HI = 4095 ∧
    State.reset.fld (sB n) SLICE_CMP_HYST_HYST_HI = 5 ∧ State.reset.fld (sB n) SLICE_CMP_HYST_HYST_LO = 5 ∧
    State.reset.fld (sB n) SLICE_CMP_HYST_HYST_WIN = 5 ∧ State.reset.fld (sB n) SLICE_WIN_CFG_TICK_US = 10 ∧
    State.reset.fld (sB n) SLICE_WIN_THR_THR_HI = 4095 ∧ State.reset.fld (sB n) SLICE_PRG_CFG_PERIOD = 1000 ∧
    State.reset.fld (sB n) SLICE_PRG_CFG_FAULT_COUNT = 4 ∧ State.reset.fld (sB n) SLICE_PRG_LIMIT_CTRL_MAX = 1023 ∧
    State.reset.fld (sB n) SLICE_PRG_LIMIT_SOFT_STEP = 4 ∧ State.reset.fld (sB n) SLICE_PRG_HEAD_V_HEAD_SP = 2000 ∧
    State.reset.fld (sB n) SLICE_PRG_HEAD_V_HEAD_MIN = 500 ∧ State.reset.rd (sB n + SLICE_PRG_HEAD_C) = 0xFE0BF82F ∧
    State.reset.fld (sB n) SLICE_PRG_LOOP_KP = 1024 ∧ State.reset.fld (sB n) SLICE_PRG_LOOP_KI = 128 ∧
    State.reset.fld (sB n) SLICE_PRG_RATE_M_H = 10 ∧ State.reset.fld (sB n) SLICE_PRG_RATE_RAIL_DIV = 2560 ∧
    State.reset.fld (sB n) SLICE_LOOP_CFG_HOLD_LIMIT = 4 ∧ State.reset.fld (sB n) SLICE_LOOP_OUTMIN_V_OUT_MIN = 524288 ∧
    State.reset.rd (sB n + SLICE_LOOP_OUTMIN_C) = 0xFFF7FFFF ∧ State.reset.fld (sB n) SLICE_LOOP_OUTMAX_V_OUT_MAX = 524287 ∧
    State.reset.rd (sB n + SLICE_LOOP_OUTMAX_C) = 0xFFF80000 ∧ State.reset.fld (sB n) SLICE_LOOP_XMARGIN_V_XMARGIN = 1024 ∧
    State.reset.rd (sB n + SLICE_LOOP_XMARGIN_C) = 0xFFFFFBFF ∧ State.reset.rd (sB n + SLICE_OUTER_SP_C) = 0xFFFFFFFF ∧
    State.reset.rd (sB n + SLICE_OUTER_LO_V) = 0x80000000 ∧ State.reset.rd (sB n + SLICE_OUTER_LO_C) = 0x7FFFFFFF ∧
    State.reset.rd (sB n + SLICE_OUTER_HI_V) = 0x7FFFFFFF ∧ State.reset.rd (sB n + SLICE_OUTER_HI_C) = 0x80000000 ∧
    State.reset.fld (sB n) SLICE_FB_CFG_FROZEN_EN = 1 ∧ State.reset.fld (sB n) SLICE_FB_CFG_FROZEN_MOVE = 16) ∧
  (∀ n : SliceId,
    State.reset.fld (gB n) GEN_CONTOUR_STATUS_SET = 15 ∧ State.reset.rd (gB n + GEN_TABLE_BASE) = 0x2004000 ∧
    (State.reset.rd (gB n + GEN_NOISE_SEED)).toNat = n.val + 1) ∧
  (∀ n : SliceId,
    State.reset.fld (monBase n.val) MON_CFG_TICK_US = 100 ∧ State.reset.fld (monBase n.val) MON_CFG_HYST = 5 ∧
    State.reset.fld (monBase n.val) MON_THR_LO = 2048 ∧ State.reset.fld (monBase n.val) MON_THR_HI = 2047) ∧
  (∀ n : SliceId,
    State.reset.rd (tB n + TRAV_BARRIER) = BitVec.twoPow 32 n.val) ∧
  (∀ n : SliceId,
    State.reset.fld (rB n) HOST_RING_CFG_GROUP = n.val) ∧
  (∀ a, 1 ≤ a → a ≤ 4 → State.reset.fld (axBase a) MER_AX_CFG_LINK_DELAY = 5 ∧ State.reset.fld (axBase a) MER_AX_CFG_POLL_US = 10) ∧
  (State.reset.rd (ATLAS_STAGE_ADDR) = 0x1000000 ∧ State.reset.rd (GLOBAL_ID) = 0x7A4E3200 ∧ State.reset.fld 0 GLOBAL_REV_BASE = 11 ∧
   State.reset.fld 0 CLK_QUAL_QUAL_MS = 100 ∧ State.reset.fld 0 MEM_RS_CFG_ENABLE = 1 ∧ State.reset.fld 0 DATUM_CFG_RAMP_MS = 10 ∧
   State.reset.fld 0 DATUM_CFG_POINT_MS = 1 ∧ State.reset.rd (DATUM_WORK_BASE) = 0x2640000 ∧ State.reset.fld 0 FAULT_STATUS_IRQ_ARMED = 1 ∧
   State.reset.fld 0 LINK_RKEY_CTRL_NODE = 1 ∧ State.reset.fld 0 LINK_XFER_CTRL_NODE = 1) ∧
  (State.reset.regs = [] ∧ State.reset.mem = [] ∧ State.reset.nvm = [] ∧ State.reset.canonical ∧ State.reset.pending = [] ∧ State.reset.sched = [] ∧
   State.reset.pins.resetN = false ∧ State.reset.boot.step = 0 ∧ State.reset.flag 0 GLOBAL_STATUS_READY = false)

/-- R62, R54: RESET_N low puts every register but `GLOBAL_STATUS` at its reset value and every unit at rest; the stores and the
Datum die keep their bytes (notes/assumptions/6.md, the model's reading), and the fuses change only as a fuse command that
is cut short leaves them. R46, R59, R72: power-on reset clears the stores too, and the R59 latch; the Datum die keeps its
bytes. -/
def Obligations.ResetsClearTheDevice : Prop :=
  (∀ s : State, s.pins.resetN = true → ∃ t, exec .resetNLow s = .next t ∧ t.pins.resetN = false ∧ t.boot.step = 0 ∧
    (∀ a, a ≠ GLOBAL_STATUS → t.rd a = regReset a) ∧ t.flag 0 GLOBAL_STATUS_READY = false ∧
    (∀ n, t.sl n = .atReset) ∧ (∀ g, t.eng g = .atReset) ∧ t.sched = [] ∧ t.col = .atReset ∧
    t.mem = s.mem ∧ t.nvm = s.nvm ∧ (s.boot.fuseCmd = 0 → t.fuses = s.fuses) ∧ t.pending = s.pending) ∧
  (∀ s : State, ∃ t, exec .powerOnReset s = .next t ∧ t.pins.resetN = false ∧ t.boot.step = 0 ∧
    (∀ a, a ≠ GLOBAL_STATUS → t.rd a = regReset a) ∧ t.flag 0 GLOBAL_STATUS_GRAVE_LATCH = false ∧ t.mem = [] ∧ t.nvm = s.nvm ∧
    (s.boot.fuseCmd = 0 → t.fuses = s.fuses) ∧ t.pending = s.pending)

/-- R46 to R48, R266: the steps of start-up follow one another: RESET_N rising samples the straps; both PLLs locked start TIME
at zero; the Resurvey pass takes 6,348,800 cycles, and changes nothing where nothing fails; release sets READY. Each clause
holds from the step before it, with no supply, pin or latch that holds it up. -/
def Obligations.StartUpAdvances : Prop :=
  (∀ (s : State) (b : BitVec 2) (r : Bool), s.pins.resetN = false →
    ∃ t, exec (.resetNRise b r) s = .next t ∧ t.pins.resetN = true ∧ t.boot.step = 3 ∧
      t.fld 0 GLOBAL_STATUS_BOOTSEL = b.toNat ∧ t.flag 0 GLOBAL_STATUS_RECOVERY_STRAP = (!r) ∧
      t.flag 0 CLK_STATUS_XIN_OK = s.pins.xin ∧ t.mem = s.mem) ∧
  (∀ s : State, s.awake = true → s.boot.step = 3 → s.flag 0 CLK_STATUS_XIN_OK = true →
    s.pins.pwrfailN = true → s.pins.brown = [] → s.pins.interlockN = true →
    ∃ t, exec .bootPllLock s = .next t ∧ t.boot.step = 4 ∧ t.time = 0 ∧ t.flag 0 CLK_STATUS_A_LOCKED = true ∧
      t.flag 0 CLK_STATUS_B_LOCKED = true ∧ t.flag 0 CLK_STATUS_ACTIVE = false ∧
      t.flag 0 GLOBAL_STATUS_PUSH_OPEN = bitOf (s.fld 0 GLOBAL_STATUS_BOOTSEL) 0) ∧
  (∀ (s : State) (failed : List Nat), s.awake = true → s.boot.step = 8 →
    ∃ t, exec (.bootResurveyPass failed) s = .next t ∧ t.boot.step = 9 ∧
      (s.memst.bad = [] → failed = [] → t.now = s.now + 6348800 ∧ t.regs = s.regs ∧ t.mem = s.mem)) ∧
  (∀ s : State, s.awake = true → s.boot.step = 9 → s.pins.pwrfailN = true → s.pins.brown = [] →
    s.flag 0 GLOBAL_STATUS_GRAVE_LATCH = false →
    ∃ t, exec .release s = .next t ∧ t.boot.step = 10 ∧ t.flag 0 GLOBAL_STATUS_READY = true ∧
      t.fld 0 GLOBAL_STATUS_STATE = s.releaseState ∧ t.mem = s.mem)

/-- R38, R41, R44, R52: LOAD during an open push window closes the window and asks for the check of the staged image; after
release it is refused with 0x16 in `ATLAS_ERROR`. PARTIAL after release sets PARTIAL_BUSY and asks for the check of the
staged partial image; one while a reload is busy is refused with 0x17. The end of an accepted reload clears PARTIAL_BUSY,
sets PARTIAL_DONE and sends vector 1. R39, R40, R47: a boot from flash applies the primary image if it passes; if it is
rejected the golden image, with 0x3A1 raised; and if that is rejected too it opens the push window and start-up waits. A
pushed image is applied if it passes; rejected it opens the window again. So is the image a remote has had over the link. A
staged partial image is checked, and applied or rejected, with 0x3A2 raised. -/
def Obligations.AtlasImagesAreRequestedAndTaken : Prop :=
  ((∀ s : State, s.awake = true → s.boot.push = false → s.released = false → s.flag 0 GLOBAL_STATUS_PUSH_OPEN = true →
    ∃ t, exec .atlasLoad s = .next t ∧ t.boot.push = true ∧ t.flag 0 GLOBAL_STATUS_PUSH_OPEN = false ∧ s.keeps t.toDev [GLOBAL_STATUS]) ∧
  (∀ s : State, s.awake = true → s.boot.push = false → s.released = true →
    ∃ t, exec .atlasLoad s = .next t ∧ t.rd ATLAS_ERROR = 0x00FF16 ∧ t.boot = s.boot ∧ s.keeps t.toDev [ATLAS_ERROR]) ∧
  (∀ s : State, s.awake = true → s.released = true → s.flag 0 ATLAS_STATUS_PARTIAL_BUSY = false →
    ∃ t, exec .atlasPartial s = .next t ∧ t.boot.partial_ = true ∧ t.boot.papply = false ∧
      t.flag 0 ATLAS_STATUS_PARTIAL_BUSY = true ∧ s.keeps t.toDev [ATLAS_STATUS]) ∧
  (∀ s : State, s.awake = true → s.flag 0 ATLAS_STATUS_PARTIAL_BUSY = true →
    ∃ t, exec .atlasPartial s = .next t ∧ t.rd ATLAS_ERROR = 0x00FF17 ∧ t.boot = s.boot ∧ s.keeps t.toDev [ATLAS_ERROR]) ∧
  (∀ s : State, s.awake = true → s.boot.papply = true →
    ∃ t, exec .partialDone s = .next t ∧ t.boot.partial_ = false ∧ t.boot.papply = false ∧
      t.flag 0 ATLAS_STATUS_PARTIAL_BUSY = false ∧ t.flag 0 ATLAS_STATUS_PARTIAL_DONE = true ∧ s.keeps t.toDev [ATLAS_STATUS] ∧
      ((t.vects.get 1).pending = true ∨ (t.vects.get 1).due = true))) ∧
  (∀ (s : State) (prim gold : List Byte) (hi lo ms : List Side) (ts : List (Option Int)) (rq : Bool) (c : Int)
    (cl : List (Side × Side)) (rf : Option Int), s.awake = true → cl = sidePairs hi lo → rf = (if rq then some c else none) →
    (s.boot.partial_ = false → 4 ≤ s.boot.step → s.boot.step < 8 → s.boot.push = false →
      s.fld 0 GLOBAL_STATUS_BOOTSEL = 0 → s.flag 0 GLOBAL_STATUS_PUSH_OPEN = false →
      ∃ t, exec (.atlasImageCheck prim gold hi lo ms ts rq c) s = .next t ∧ t.fuses = s.fuses ∧ t.pending = s.pending ∧
        (match s.loadFull s.fuses (flashBytes prim) none 0 cl ms ts rf with
         | .ok d => t.toDev = d
         | .error r =>
           match (s.rejected r).loadFull s.fuses (flashBytes gold) none 1 cl ms ts rf with
           | .ok d => t.toDev = d.raiseGlobal 0x3A1 0
           | .error q => t.toDev = ((s.rejected r).rejected q).setFlag 0 GLOBAL_STATUS_PUSH_OPEN true ∧
               t.flag 0 GLOBAL_STATUS_PUSH_OPEN = true)) ∧
    (s.boot.partial_ = false → 4 ≤ s.boot.step → s.boot.step < 8 → s.boot.push = true →
      ∃ t, exec (.atlasImageCheck prim gold hi lo ms ts rq c) s = .next t ∧ t.fuses = s.fuses ∧ t.pending = s.pending ∧
        (match s.loadFull s.fuses s.stagedBytes (some (s.rd ATLAS_STAGE_LEN).toNat) 2 cl ms ts rf with
         | .ok d => t.toDev = d
         | .error _ => t.boot.push = false ∧ t.flag 0 GLOBAL_STATUS_PUSH_OPEN = true)) ∧
    (∀ p, s.boot.partial_ = false → 4 ≤ s.boot.step → s.boot.step < 8 → s.boot.push = false →
      s.fld 0 GLOBAL_STATUS_BOOTSEL = 2 → s.boot.kport = some p → s.boot.klast = true →
      ∃ t, exec (.atlasImageCheck prim gold hi lo ms ts rq c) s = .next t ∧ t.fuses = s.fuses ∧ t.pending = s.pending ∧
        (match s.loadFull s.fuses s.stagedBytes (some s.boot.klen) 3 cl ms ts rf with
         | .ok d => t.toDev = d
         | .error r => t.toDev = s.rejectLink p r)) ∧
    (s.boot.partial_ = true → s.boot.papply = false →
      exec (.atlasImageCheck prim gold hi lo ms ts rq c) s = .next (s.withDev (s.checkPartial s.fuses))))

/-- R61: a fuse command that the device accepts is busy from its write on, for the key hash staged at that moment; one it does
not accept leaves RESULT 3. Neither blows a fuse yet, and nothing but `GLOBAL_LIFECYCLE` changes. The conditions of each
command are those of `Dev.fuseOk`; that no other command is busy is a premise (notes/assumptions/37.md). R58, R61: when a
fuse command ends, its fuse is blown for good and RESULT is 2; revoking key 0 blows bit 0 of the revocation fuses, a key
hash its 384 bits and its valid bit, the SERVICE fuse its three bits. -/
def Obligations.FuseCommandsAreCheckedAndBlowFuses : Prop :=
  (∀ (s : State) (c : Instr) (k : Nat), s.awake = true → s.boot.fuseCmd = 0 →
    (c, k) ∈ [(Instr.programKeyHash0, 1), (.programKeyHash1, 2), (.revokeKey0, 3), (.revokeKey1, 4), (.blowServiceFuse, 5)] →
    ∃ t, exec c s = .next t ∧ t.fuses = s.fuses ∧ t.pending = s.pending ∧ s.keeps t.toDev [GLOBAL_LIFECYCLE] ∧
      (s.fuseOk s.fuses k = true → t.boot.fuseCmd = k ∧ t.fld 0 GLOBAL_LIFECYCLE_RESULT = 1 ∧
        t.boot.fuseKey = BitVec.ofNat 384 (s.num (s.rd ATLAS_STAGE_ADDR).toNat 48)) ∧
      (s.fuseOk s.fuses k = false → t.boot = s.boot ∧ t.fld 0 GLOBAL_LIFECYCLE_RESULT = 3)) ∧
  (∀ s : State, s.awake = true → s.boot.fuseCmd ≠ 0 →
    ∃ t, exec .lifecycleCommandDone s = .next t ∧ t.fuses = s.fuses.program s.boot.fuseCmd s.boot.fuseKey ∧
      t.boot.fuseCmd = 0 ∧ t.fld 0 GLOBAL_LIFECYCLE_RESULT = 2 ∧ s.keeps t.toDev [GLOBAL_LIFECYCLE] ∧
      (s.boot.fuseCmd = 1 → t.fuses.hash0 = s.fuses.hash0 ||| s.boot.fuseKey ∧ t.fuses.valid0 = true) ∧
      (s.boot.fuseCmd = 3 → t.fuses.revoked.getLsbD 0 = true ∧ t.fuses.revoked.getLsbD 1 = s.fuses.revoked.getLsbD 1) ∧
      (s.boot.fuseCmd = 5 → t.fuses.service = 7 ∧ t.boot.fused = true))

/-- R58, R61: nothing that happens makes a blown fuse bit whole, or changes the device's identity: for every state and every
step, also a step that a reset cuts a fuse command short with (notes/assumptions/37.md). -/
def Obligations.FusesAreOneWay : Prop :=
  ∀ s t : State, step s = .next t → s.fuses.follows t.fuses

/-- R58, R61: of all commands only the end of a fuse command, RESET_N low and power-on reset change the fuses. -/
def Obligations.OnlyThreeCommandsChangeFuses : Prop :=
  ∀ (c : Instr) (s t : State), exec c s = .next t → c ≠ .lifecycleCommandDone → c ≠ .resetNLow → c ≠ .powerOnReset → t.fuses = s.fuses

/-- R67 to R71: PWRFAIL_N falling sets PWRFAIL and the cause of 0x3E0; cycle 5 parks every slice and stops the engines, in
freeze after a thaw, and the source is raised; with RESET_N low it is the level alone. A brown-out does the same with the
source of its rail, 0x3E1 + rail, whose Grave wire holds ERR_N low at cycle 3 (R13; notes/assumptions/59.md, the model's
reading of the two tables). A level that is already so changes nothing. R85: after the park of every slice each of them is
parked or parks. R67, R349, R434: PWRFAIL_N rising clears PWRFAIL and the cause of 0x3E0; a rail that recovers ends the
cause of its source and leaves the other rails. During start-up step 9 release is put off for 1 ms (R51). R65, R66, R429:
INTERLOCK_N falling forces the OUTEN_N pins of the slices not marked inductive off without a clock, and 5 cycles later, in
freeze at thaw, parks every slice, stops the engines and raises 0x3E8. Rising, it clears INTERLOCK and releases a gate still
in force; the slices stay parked, and the cause of 0x3E8 ends 1 ms later. -/
def Obligations.PowerAndInterlockPinsPark : Prop :=
  ((∀ (s : State) (d : Dev), s.pins.pwrfailN = true →
    d = ((s.modPins (fun p => { p with pwrfailN := false })).setFlag 0 GLOBAL_STATUS_PWRFAIL true).cause 0x3E0 true →
    (s.pins.resetN = true → exec .pwrfailNFall s = .next (s.withDev
      (((if s.frz.frozen then d.thaw.upTo (d.thaw.now + 1) else d.upTo (s.now + 5)).powerFail true).raiseGlobal 0x3E0 0))) ∧
    (s.pins.resetN = false → exec .pwrfailNFall s = .next (s.withDev d))) ∧
  (∀ (s : State) (r : Fin 6) (d : Dev), r.val ∉ s.pins.brown →
    d = (s.modPins (fun p => { p with brown := p.brown ++ [r.val] })).cause (0x3E1 + r.val) true →
    (s.pins.resetN = true → s.frz.frozen = false → exec (.brownOut r) s = .next (s.withDev
      (((((d.graveErr (0x3E1 + r.val)).upTo (s.now + 5)).powerFail false).gravePark).raiseWired (msg (0x3E1 + r.val) 0 0 0xFF)))) ∧
    (s.pins.resetN = true → s.frz.frozen = true → exec (.brownOut r) s = .next (s.withDev
      (((((d.thaw.upTo (d.thaw.now + 1)).powerFail false).modCol (fun c => { c with wired := addNat (0x3E1 + r.val) c.wired })).gravePark).raiseWired
        (msg (0x3E1 + r.val) 0 0 0xFF)))) ∧
    (s.pins.resetN = false → exec (.brownOut r) s = .next (s.withDev d))) ∧
  (∀ s : State, s.pins.pwrfailN = false → exec .pwrfailNFall s = .next s) ∧
  (∀ (s : State) (r : Fin 6), r.val ∈ s.pins.brown → exec (.brownOut r) s = .next s) ∧
  (∀ (d : Dev) (n : SliceId), d.parkAll.parking n = true)) ∧
  ((∀ s : State, s.pins.pwrfailN = false →
    ∃ t, exec .pwrfailNRise s = .next t ∧ t.pins.pwrfailN = true ∧ t.flag 0 GLOBAL_STATUS_PWRFAIL = false ∧
      t.flag 0 ⟨FAULT_CAUSE + 4 * 31, 0, 1⟩ = false ∧ s.keeps t.toDev [GLOBAL_STATUS, FAULT_CAUSE + 4 * 31] ∧
      (s.boot.step = 9 → t.boot.deferTo = s.now + 1000000)) ∧
  (∀ (s : State) (r : Fin 6), r.val ∈ s.pins.brown →
    ∃ t, exec (.brownOutRelease r) s = .next t ∧ r.val ∉ t.pins.brown ∧ (∀ q ∈ s.pins.brown, q ≠ r.val → q ∈ t.pins.brown) ∧
      t.flag 0 ⟨FAULT_CAUSE + 4 * 31, 1 + r.val, 1⟩ = false ∧ s.keeps t.toDev [FAULT_CAUSE + 4 * 31] ∧
      (s.boot.step = 9 → t.boot.deferTo = s.now + 1000000))) ∧
  ((∀ (s : State) (d : Dev), s.pins.interlockN = true →
    d = ((s.modPins (fun p => { p with interlockN := false })).setFlag 0 GLOBAL_STATUS_INTERLOCK true).interlockGate true →
    (s.pins.resetN = true → s.frz.frozen = false → exec .interlockNFall s = .next (s.withDev
      (((d.upTo (d.now + 5)).interlockAct).each Dev.allSlices (fun x n => x.modSl n (fun y => { y with gate := false }))))) ∧
    (s.pins.resetN = true → s.frz.frozen = true →
      exec .interlockNFall s = .next (s.withDev (d.modFrz (fun f => { f with lock := true })))) ∧
    (s.pins.resetN = false → exec .interlockNFall s = .next (s.withDev d))) ∧
  (∀ s : State, s.pins.interlockN = false →
    ∃ t, exec .interlockNRise s = .next t ∧ t.pins.interlockN = true ∧ t.pins.interlockAt = s.now ∧
      t.flag 0 GLOBAL_STATUS_INTERLOCK = false ∧ t.mem = s.mem ∧ (∀ n, (t.sl n).phase = (s.sl n).phase) ∧
      ((∀ n, (s.sl n).gate = false) → s.keeps t.toDev [GLOBAL_STATUS] ∧ t.slices = s.slices)))

/-- R64, R366: PERST# of a hub and a Function Level Reset put the host interface alone at its reset values: rings, capture
channels, vectors and configuration space; the commands that wait elsewhere run on without a completion, those fetched keep
the binding of their ring. After release both raise 0x300, a lost link 0x306; PERST# takes the link down too. With
PARK_ON_HOST_RESET every slice parks 4 cycles on (R13). In freeze, and on a remote (R15), PERST# is the ball's level and, on
a hub, the lost link. R15, R64, R360, R384: the ball PERST# rises without any other effect; a link of a hub that comes up
shows its speed and width; D3hot stops the capture channels that run, each with its write-back where it has one, and keeps
the rings. -/
def Obligations.HostResetsAndLinkStates : Prop :=
  ((∀ s : State, s.awake = true → s.released = true →
    (s.plates.link.remote = false →
      exec .perst s = .next (s.withDev (({ s.toDev with pins := { s.pins with perstN := false } }.hostReset true).raiseGlobal 0x300 0))) ∧
    (s.cfg.link = true → exec .functionLevelReset s = .next (s.withDev ((s.hostReset false).raiseGlobal 0x300 0)) ∧
      exec .pcieLinkDown s = .next (s.withDev ((s.hostReset true).raiseGlobal 0x306 0)))) ∧
  (∀ s : State, s.plates.link.remote = true →
    exec .perst s = .next (s.withDev { s.toDev with pins := { s.pins with perstN := false } })) ∧
  (∀ s : State, s.awake = false → s.plates.link.remote = false →
    exec .perst s = .next (s.withDev { s.toDev with pins := { s.pins with perstN := false }, cfg := { s.cfg with link := false } })) ∧
  (∀ s : State, s.awake = true → s.released = false → s.cfg.link = true →
    exec .functionLevelReset s = .next (s.withDev (s.hostReset false)) ∧
    exec .pcieLinkDown s = .next (s.withDev { s.toDev with cfg := { s.cfg with link := false } })) ∧
  (∀ (s : Dev) (b : Bool), s.released = true → s.plates.parkOnReset = false →
    (∀ r, ((s.hostReset b).ring r).held = none ∧ ((s.hostReset b).ring r).fetched = (s.ring r).fetched ∧
      ((s.hostReset b).ring r).bound = (s.ring r).bound ++ List.replicate ((s.ring r).fetched - (s.ring r).bound.length)
        (s.fld (rB r) HOST_RING_CFG_NODE, s.fld (rB r) HOST_RING_CFG_GROUP)) ∧
    (∀ c, (s.hostReset b).chan c = .atReset) ∧ (s.hostReset b).cfg.d3 = false ∧ (s.hostReset b).cfg.msix = false ∧
    (b = true → (s.hostReset b).cfg.link = false) ∧ (s.hostReset b).flag 0 GLOBAL_STATUS_HOST_RESET_SEEN = true ∧
    (∀ a, 0x70000 ≤ a → a < 0x80000 → (s.hostReset b).rd a = regReset a) ∧
    (∀ a, a < 0x70000 ∨ 0x80000 ≤ a → a ≠ GLOBAL_STATUS → (s.hostReset b).rd a = s.rd a) ∧
    (s.hostReset b).mem = s.mem ∧ (s.hostReset b).slices = s.slices) ∧
  (∀ (s d : Dev) (b : Bool), s.released = true → s.plates.parkOnReset = true →
    d = (if b then { s.hostClear with cfg := { s.hostClear.cfg with link := false } } else s.hostClear).setFlag 0
      GLOBAL_STATUS_HOST_RESET_SEEN true → s.hostReset b = (d.upTo (d.now + 4)).parkAll)) ∧
  ((∀ s : State, ∃ t, exec .perstDeassert s = .next t ∧ t.pins.perstN = true ∧ t.cfg = s.cfg ∧ t.rings = s.rings ∧ s.keeps t.toDev []) ∧
  (∀ (s : State) (v : BitVec 3) (w : BitVec 5), s.awake = true → s.pins.perstN = true → s.plates.link.remote = false →
    s.fld 0 GLOBAL_STATUS_BOOTSEL ≠ 2 → 1 ≤ v.toNat → v.toNat ≤ 5 → w.toNat ∈ [1, 2, 4, 8] →
    ∃ t, exec (.pcieLinkUp v w) s = .next t ∧ t.cfg.link = true ∧ t.fld 0 HOST_LINK_SPEED = v.toNat ∧
      t.fld 0 HOST_LINK_WIDTH = w.toNat ∧ s.keeps t.toDev [HOST_LINK]) ∧
  (∀ s : State, s.awake = true → s.cfg.link = true → s.cfg.d3 = false →
    ∃ t, exec .d3hotEntry s = .next t ∧ t.cfg.d3 = true ∧ t.cfg.link = true ∧ t.rings = s.rings ∧ t.mem = s.mem ∧
      (∀ c, t.flag (cB c) HOST_CAP_STATUS_RUNNING = false) ∧
      ∀ c, s.flag (cB c) HOST_CAP_STATUS_RUNNING = true → s.rd64 (cB c + HOST_CAP_WB_LO) (cB c + HOST_CAP_WB_HI) ≠ 0 →
        (t.chan c).backed = (s.chan c).written))

/-- R74, R79, R80: a pending code latches in the FDAC 20 cycles after the previous latch, and PENDING clears; a code on its way
to the FDAC, or what the holding register holds then, latches in its cycle where the last latch is 20 cycles past. A flush
empties the code queue and leaves the FDAC what is due there by now. Memory stays. R5: a parity error on a word of the
die-to-die interface discards the next word of that kind and raises the slice's lane parity source, n × 8 + 7. -/
def Obligations.CodesLatchInTurn : Prop :=
  ((∀ (s : State) (n : SliceId) (c : Code) (a : Nat), s.awake = true → (s.sl n).pendCode = some c → (s.sl n).latchAt = some a →
    (s.sl n).flight = [] → s.flag (sB n) SLICE_FORCE_STATUS_CLAMP_HOLD = false →
    ∃ t, exec (.fdacLatch n) s = .next t ∧ t.fld (sB n) SLICE_FORCE_STATUS_CODE = c.toNat ∧
      t.flag (sB n) SLICE_FORCE_STATUS_PENDING = false ∧ t.now = max s.now (a + 20) ∧ (t.sl n).latchAt = some (a + 20) ∧
      (t.sl n).pendCode = none ∧ t.mem = s.mem) ∧
  (∀ (s : State) (n : SliceId) (c : Nat) (q : Code), s.awake = true → (s.sl n).pendCode = none → (∀ a, (s.sl n).latchAt = some a → a + 20 ≤ c) →
    (s.sl n).flight = [(c, .direct q)] ∨ ((s.sl n).flight = [(c, .holding)] ∧ (s.sl n).holding = q) → (s.sl n).dropCode = false →
    s.flag (sB n) SLICE_FORCE_STATUS_CLAMP_HOLD = false →
    ∃ t, exec (.fdacLatch n) s = .next t ∧ t.fld (sB n) SLICE_FORCE_STATUS_CODE = q.toNat ∧ t.now = max s.now c ∧
      (t.sl n).latchAt = some c ∧ (t.sl n).flight = [] ∧ t.mem = s.mem) ∧
  (∀ (s : State) (n : SliceId), s.awake = true →
    ∃ t, exec (.queueFlush n) s = .next t ∧ (t.sl n).queue = [] ∧ t.fld (sB n) SLICE_QUEUE_STATUS_DEPTH = 0 ∧
      t.fld (sB n) SLICE_FORCE_STATUS_CODE = (s.land n).fld (sB n) SLICE_FORCE_STATUS_CODE ∧
      ((s.sl n).flight = [] → (s.sl n).pendCode = none →
        t.fld (sB n) SLICE_FORCE_STATUS_CODE = s.fld (sB n) SLICE_FORCE_STATUS_CODE ∧ t.mem = s.mem ∧ t.now = s.now))) ∧
  (∀ (s : State) (n : SliceId), s.awake = true → ∀ (w : D2dWord) (f : Slice → Slice),
    (w, f) ∈ [(D2dWord.adcV, fun (x : Slice) => { x with dropV := true }), (.adcIa, fun x => { x with dropIa := true }),
      (.adcIb, fun x => { x with dropIb := true }), (.fdacCode, fun x => { x with dropCode := true }),
      (.rgPattern, fun x => { x with dropRg := true }), (.comparatorEdge, fun x => { x with dropEdge := true }),
      (.threshold, fun x => { x with dropThr := true }), (.control, fun x => { x with dropCtl := true })] →
    exec (.dieToDieParityError n w) s = .next (s.withDev (((s.land n).modSl n f).raise (n.val * 8 + 7) 0 0 n.val)))

/-- R85, R86: the later cycles of the park table. At cycle 2,000 the RG pins go to RG_SAFE; at cycle 9,995 PARKED is set and
PARK_BUSY clears; the end of an inductive ramp starts the table on every slice that acts with the slice, and a CHIP_RESET
that waited goes on (R63). A mismatch of the park pairs is presented with the RG pins (notes/assumptions/57.md, the model's
reading). R89: the UNPARK sequence. At cycle 2,000 OUTEN_N falls on every slice still in it; the slices whose OUTEN delay is
over run from the group's next tick on. For a group of one slice, alone in the sequence, in loop mode: its loop is closed,
and the command is complete. -/
def Obligations.ParkAndUnparkTables : Prop :=
  ((∀ (s : State) (n : SliceId) (st : Nat), s.awake = true → (s.sl n).phase = .parking st false →
    ∃ t, exec (.parkRgSafe n) s = .next t ∧ t.toDev = (((s.upTo (st + 2000)).rgSafe n).modSl n (fun x =>
        { x with phase := .parking st true })).parkMismatch n ∧
      ((s.sl n).parkMis = false → (t.sl n).phase = .parking st true ∧ t.now = max s.now (st + 2000) ∧ t.mem = s.mem ∧
        ((s.sl n).dropRg = false → (t.sl n).rg = (if (s.sl n).enabled then s.plates.rgSafe.getD n.val 0 else 0)))) ∧
  (∀ (s : State) (n : SliceId) (st : Nat), s.awake = true → (s.sl n).phase = .parking st true →
    ∃ t, exec (.parkComplete n) s = .next t ∧ (t.sl n).phase = .parked ∧ t.flag (sB n) SLICE_FORCE_STATUS_PARKED = true ∧
      t.flag (sB n) SLICE_FORCE_STATUS_PARK_BUSY = false ∧ t.now = max s.now (st + 9995) ∧ t.mem = s.mem) ∧
  (∀ (s : State) (n : SliceId), s.awake = true → s.rampOver n = true →
    exec (.inductiveRampEnd n) s = .next (s.withDev (s.each (s.gang n) Dev.parkSlice).chipTry))) ∧
  ((∀ (s : State) (g : GroupId), s.awake = true →
    exec (.unparkOutenLow g) s = .next (s.withDev (s.each (s.members g.val) (fun d n =>
      match (d.sl n).phase with
      | .unparking st false =>
        ((d.upTo (st + 2000)).setFlag (sB n) SLICE_FORCE_STATUS_OUTEN true).modSl n (fun x => { x with phase := .unparking st true })
      | _ => d)))) ∧
  (∀ (s : State) (g : GroupId) (r : GroupRec) (u : Sched), s.domains = true → s.group g.val = some r → s.unparkOf g.val = some u →
    r.slices.any (fun n => s.closeDue n (s.eng g).tickAt) = true →
    ∃ t, exec (.unparkClose g) s = .next t ∧ t.mem = s.mem ∧
      ∀ n ∈ r.slices, s.closeDue n (s.eng g).tickAt = true → (t.sl n).phase = .running) ∧
  (∀ (s : State) (g : GroupId) (r : GroupRec) (st : Nat), s.awake = true → s.group g.val = some r → r.first = g.val → r.size = 1 →
    (s.sl g).phase = .unparking st false →
    ∃ t, exec (.unparkOutenLow g) s = .next t ∧ t.flag (sB g) SLICE_FORCE_STATUS_OUTEN = true ∧
      (t.sl g).phase = .unparking st true ∧ t.now = max s.now (st + 2000) ∧ t.mem = s.mem) ∧
  (∀ (s : State) (g : GroupId) (r : GroupRec) (u : Sched), s.domains = true → s.group g.val = some r → r.first = g.val →
    r.size = 1 → s.groupOf g.val = some r → r.gang = 0 →
    s.unparkOf g.val = some u → u.status = OK → u.mask = bit32 g.val → s.closeDue g (s.eng g).tickAt = true →
    s.direct g = false → (s.sl g).enabled = true → s.sched = [u] →
    ∃ t, exec (.unparkClose g) s = .next t ∧ (t.sl g).phase = .running ∧ t.fld (sB g) SLICE_LOOP_STATUS_STATE = 1 ∧
      t.sched = [] ∧ t.mem = s.mem))

/-- R77, R97, R314: a write of `SLICE_FORCE_CFG` applies its fields while the slice is parked, and elsewhere only where it
leaves DIRECT as it is; otherwise it is discarded whole with a Note. A `_V` word is staged and changes no register; a `_C`
word that is its exact complement and passes the pair's checks makes both words take effect in the next cycle
(`SLICE_OUTER_SP`, whose values have no further check). Host writes, after release, no partial reload. -/
def Obligations.ForceRegisterWrites : Prop :=
  (∀ (s : State) (n : SliceId) (v : Word), s.awake = true → (s.parked n = true ∨ v.getLsbD 0 = s.direct n) →
    ∃ t, exec (.forceCfgWrite n v) s = .next t ∧ t.rd (sB n + SLICE_FORCE_CFG) = (s.store (sB n + SLICE_FORCE_CFG) v).rd (sB n + SLICE_FORCE_CFG) ∧
      (∀ a, a ≠ sB n + SLICE_FORCE_CFG → t.rd a = s.rd a) ∧ t.mem = s.mem ∧ t.slices = s.slices) ∧
  (∀ (s : State) (n : SliceId) (v : Word), s.awake = true → s.parked n = false → v.getLsbD 0 ≠ s.direct n →
    exec (.forceCfgWrite n v) s = .next (s.withDev (s.raise (n.val * 8 + 3) 3 0 n.val))) ∧
  (∀ (s : State) (n : SliceId) (v : Word), s.awake = true → s.cfg.d3 = false → s.isRemote = false →
    s.released = true → s.flag 0 ATLAS_STATUS_PARTIAL_BUSY = false →
    ∃ t, exec (.pairedValueWrite .host (sB n + SLICE_OUTER_SP_V) v true) s = .next t ∧
      t.stagedAt .host (sB n + SLICE_OUTER_SP_V) = some v ∧ t.regs = s.regs ∧ t.mem = s.mem ∧ t.slices = s.slices) ∧
  (∀ (s : State) (n : SliceId) (v : Word), s.awake = true → s.cfg.d3 = false → s.isRemote = false →
    s.released = true → s.flag 0 ATLAS_STATUS_PARTIAL_BUSY = false → s.stagedAt .host (sB n + SLICE_OUTER_SP_V) = some v →
    ∃ t, exec (.pairedComplementWrite .host (sB n + SLICE_OUTER_SP_V + 4) (~~~v) true) s = .next t ∧
      t.rd (sB n + SLICE_OUTER_SP_V) = v ∧ t.rd (sB n + SLICE_OUTER_SP_V + 4) = ~~~v ∧ t.now = s.now + 1 ∧
      t.stagedAt .host (sB n + SLICE_OUTER_SP_V) = none ∧
      (∀ a, a ≠ sB n + SLICE_OUTER_SP_V → a ≠ sB n + SLICE_OUTER_SP_V + 4 → t.rd a = s.rd a) ∧ t.mem = s.mem)

/-- R82: with an external strobe on an enabled group in direct mode, TIMEOUT_US without an edge sets STROBE_LATE of the lowest
slice and is an event of the group (its vector), and nothing else: the holding registers keep their codes. TIMEOUT_US 0
disables the check. An edge on a group none of whose slices is in direct mode is taken at its own TIME and changes no
register. -/
def Obligations.StrobeTimeoutIsReported : Prop :=
  (∀ (s : State) (g : GroupId) (r : GroupRec), s.domains = true → s.group g.val = some r → r.strobed = true → r.strobe = true →
    s.fld (sliceBase r.first) SLICE_STROBE_CFG_TIMEOUT_US ≠ 0 → (s.sl (sid r.first)).enabled = true →
    r.slices.any (fun n => s.direct n) = true →
    exec (.loadInTimeout g) s = .next (s.withDev
      (((s.upTo ((s.eng g).strobeAt + 1000 * s.fld (sliceBase r.first) SLICE_STROBE_CFG_TIMEOUT_US)).setFlag (sliceBase r.first)
        SLICE_STROBE_CFG_STROBE_LATE true).groupEvent g.val))) ∧
  (∀ (s : State) (r : GroupRec), s.domains = true → bitOf s.plates.loadCfg 0 = true → s.plates.groups = [r] → r.strobed = true →
    r.strobe = true → s.sched = [] → (s.eng (sid r.first)).next = none → r.slices.any (fun n => s.direct n) = false →
    ∃ t, exec .loadInEdge s = .next t ∧ (t.eng (sid r.first)).strobeAt = s.now ∧ (t.eng (sid r.first)).strobeTime = s.time ∧
      t.regs = s.regs ∧ t.mem = s.mem ∧ t.slices = s.slices) ∧
  (∀ (s : State) (r : GroupRec), s.domains = true → bitOf s.plates.loadCfg 0 = true → s.plates.groups = [r] → r.strobed = true →
    r.strobe = true → s.sched = [] → (s.eng (sid r.first)).next = none →
    exec .loadInEdge s = .next (s.withDev ((s.modEng (sid r.first) (fun e => { e with strobeAt := s.now, strobeTime := s.time })).each r.slices
      (fun d n => if d.direct n && d.running n then (d.land n).fly n (d.now + 4) .holding else d)))) ∧
  (∀ (s : State) (g : GroupId) (r : GroupRec), s.domains = true → s.group g.val = some r →
    s.fld (sliceBase r.first) SLICE_STROBE_CFG_TIMEOUT_US = 0 → exec (.loadInTimeout g) s = .next s)

/-- R11, R95, R96: a conversion slot of the MADC, the next of the slice, writes the reading and the expected value and counts
the check; with COUNT 0 it raises nothing. The FDAC holds what is due there by the slot. R108, R109, R128: an ADC word that
arrives appears in two registers in one cycle: the raw code with its tag and OVR, and the corrected value; OVR is sticky in
`SLICE_MEAS_STATUS`. -/
def Obligations.MonitorAndRawWords : Prop :=
  (∀ (s : State) (n : SliceId) (x : BitVec 18), s.domains = true → s.fld (sB n) SLICE_MON_CFG_COUNT = 0 →
    ∃ t, exec (.monitorSlot n x) s = .next t ∧ t.fld (sB n) SLICE_MON_READING_READING = x.toNat ∧ (t.sl n).monAt = some (s.nextSlot n) ∧
      ((s.sl n).flight = [] → (s.sl n).pendCode = none → t.now = s.nextSlot n ∧
        t.fld (sB n) SLICE_MON_STATUS_CHECKS = (s.fld (sB n) SLICE_MON_STATUS_CHECKS + 1) % 65536 ∧
        (t.flag (sB n) SLICE_MON_STATUS_LAST_FAIL = false → t.fld (sB n) SLICE_MON_STATUS_FAIL_RUN = 0) ∧
        t.fld (sB n) SLICE_FORCE_STATUS_CODE = s.fld (sB n) SLICE_FORCE_STATUS_CODE ∧ t.mem = s.mem)) ∧
  (∀ (s : Dev) (n : SliceId) (c : Code),
    (s.takeWord n 0 c).rd (sB n + SLICE_MEAS_RAW_V) = rawWord c (s.sl n).tag ∧
    (s.takeWord n 0 c).rd (sB n + SLICE_MEAS_V) = BitVec.ofNat 32 (unsigned 32 (s.correct n c 52 (40 + 2 * s.vrange n))) ∧
    (c = 0x7FFFF ∨ c = 0x80000 → (s.takeWord n 0 c).flag (sB n) ⟨SLICE_MEAS_STATUS, 0, 1⟩ = true) ∧
    s.keeps (s.takeWord n 0 c) [sB n + SLICE_MEAS_RAW_V, sB n + SLICE_MEAS_V, sB n + SLICE_MEAS_STATUS])

/-- R25, R270: the next tick of a group falls on the first cycle, after its latest tick and no earlier than a step or a freeze
allows, at which TIME is a multiple of the sample period. -/
def Obligations.NextTickIsTheFirstMultiple : Prop :=
  ∀ (s : Dev) (g : GroupId) (n : Nat), 0 < n →
    s.now ≤ s.nextTick g n ∧ (s.eng g).tickAt < s.nextTick g n ∧ (s.eng g).tickMin ≤ s.nextTick g n ∧
    (s.time.toNat + (s.nextTick g n - s.now)) % n = 0 ∧
    ∀ c, s.now ≤ c → (s.eng g).tickAt < c → (s.eng g).tickMin ≤ c → (s.time.toNat + (c - s.now)) % n = 0 → s.nextTick g n ≤ c

/-- R25, R81, R107, R142, R191, R241: a sample tick of a group: an accepted divider takes effect, TIME runs on to the tick, what
is due at the FDACs by then is there, the group's tick drives LOAD_OUT where it is the one to, each slice starts a
conversion, and the group's voltage ranges, engine and waveforms take the tick (with LOAD_IN the voltage ranges wait for the
strobe). A running slice with no range change or hold in progress counts the sequence tag of V and IADC-A on and waits for
its words. R185: the words of a slice reach its lane 64 cycles after its sampling instant; the lowest slice of a gang, or
the slice itself, computes the loop; on every slice the words are observed. On an outer tick the law waits for OUTER_TICK
(notes/assumptions/21.md), and a dropped sample feeds no correlator (notes/assumptions/57.md), as the model reads the spec. -/
def Obligations.SamplesAreTakenAndComputed : Prop :=
  ((∀ (s : State) (g : GroupId) (r : GroupRec) (d d1 d2 d3 d4 : Dev), s.domains = true → s.group g.val = some r → d = s.newDivider g →
    d.period g.val ≠ 0 → d1 = (d.upTo (d.nextTick g (d.period g.val))).each r.slices Dev.land →
    d2 = d1.modEng g (fun e => { e with tickTime := d1.time, tickAt := d1.now, unfinished := true }) →
    d3 = (if bitOf d2.plates.loadCfg 1 && d2.loadOutGroup == some r then { d2 with pins := { d2.pins with loadOut := d2.now + 21 } } else d2) →
    d4 = d3.each r.slices Dev.sliceTick →
    exec (.sampleTick g) s = .next (s.withDev
      ((((if r.strobed && r.strobe then d4 else d4.voltDue r).engineTick r).finishTick g)))) ∧
  (∀ (s : Dev) (n : SliceId), (s.sl n).phase = .running → (s.sl n).vhold = none → (s.sl n).vWait = none → (s.sl n).holdEnds = false →
    ((s.sliceTick n).sl n).tag = ((s.sl n).tag + 1) % 256 ∧ ((s.sliceTick n).sl n).awaits = true ∧
    ((s.sliceTick n).sl n).instant = s.time + BitVec.ofNat 64 (s.slotDelay n) ∧ s.keeps (s.sliceTick n) [] ∧
    ∀ m, m ≠ n → (s.sliceTick n).sl m = s.sl m)) ∧
  (∀ (s : State) (n : SliceId) (v ia ib : Code) (a : Nat) (d : Dev), s.domains = true → (s.sl n).awaits = true →
    a = (s.eng (s.low n)).tickAt + s.slotDelay n + 64 → d = ((s.upTo a).each (s.gang n) Dev.land).words n v ia ib →
    (d.owner n ≠ n → exec (.laneComputation n v ia ib) s = .next (s.withDev (d.observe n))) ∧
    (d.owner n = n → ∃ t, exec (.laneComputation n v ia ib) s = .next t ∧
      t.toDev = if ((d.loopTurn n a).sl n).outerWait.isSome then d.loopTurn n a
        else if d.overrun n a then (d.loopTurn n a).recordTick n else (d.loopTurn n a).observe n))

/-- R116, R117, R118: the record of a closed window of a slice that is a group by itself is a row, which waits for the write
path when the group records, or the station it closes under asks for it; a slice of a larger group keeps its record until
the others have theirs. R120, R121, R122: the write path stores the oldest row of the group it serves at the write offset of
the group's region, 16 bytes a record, and WR moves on; a row that does not fit is lost whole and counted. Stated for rows
of one record, with no gap marker waiting, on a hub. R119: a CAPTURE_ARM of no rows completes at once; one while the group
is armed completes BUSY; another arms the group for LENGTH rows from START on and does not complete yet. -/
def Obligations.RowsAreRecorded : Prop :=
  ((∀ (s : State) (n : SliceId) (r : GroupRec) (w : WinRes) (l : List WinRes), s.awake = true → s.groupOf n.val = some r → r.first = n.val → r.size = 1 →
    (s.sl n).wDone = w :: l → (s.sl n).recDone = none → s.flag (sB n) SLICE_REC_CTRL_ENABLE = true → (s.eng n).arm = none →
    ∃ t, exec (.recordWindowClose n) s = .next t ∧ (t.sl n).wDone = l ∧ (t.sl n).recDone = none ∧
      (t.eng n).rows = (s.eng n).rows ++ [[w.record]] ∧ s.keeps t.toDev [] ∧ t.sched = s.sched) ∧
  (∀ (s : State) (n : SliceId) (r : GroupRec) (w : WinRes) (l : List WinRes), s.awake = true → s.groupOf n.val = some r → r.first = n.val → r.size = 1 →
    (s.sl n).wDone = w :: l → (s.sl n).recDone = none → s.flag (sB n) SLICE_REC_CTRL_ENABLE = false → (s.eng n).arm = none →
    ∃ t, exec (.recordWindowClose n) s = .next t ∧ (t.sl n).wDone = l ∧ (t.sl n).recDone = none ∧
      (t.eng n).rows = (if w.rec_ then (s.eng n).rows ++ [[w.record]] else (s.eng n).rows) ∧ s.keeps t.toDev []) ∧
  (∀ (s : State) (n : SliceId) (r : GroupRec) (w : WinRes) (l : List WinRes), s.awake = true → s.groupOf n.val = some r → 2 ≤ r.size → r.size ≤ 32 →
    (s.sl n).wDone = w :: l → (s.sl n).recDone = none → (∀ m, m ≠ n → (s.sl m).recDone = none) →
    ∃ t, exec (.recordWindowClose n) s = .next t ∧ (t.sl n).wDone = l ∧ (t.sl n).recDone = some w.record ∧ s.keeps t.toDev [] ∧
      t.engines = s.engines)) ∧
  ((∀ (s : State) (g : GroupId) (x : Rec) (l : List (List Rec)), s.awake = true → s.nextRowGroup = some g → (s.eng g).rows = [x] :: l →
    (s.eng g).gap = none → s.capSize g ≠ 0 → s.capSize g < 2 ^ 32 → s.capUsed g + 16 * s.size g + 16 ≤ s.capSize g →
    s.plates.link.remote = false →
    ∃ t, exec .rowWrite s = .next t ∧ (t.eng g).rows = l ∧ t.capWr g = (s.capWr g + 16) % s.capSize g ∧
      (∀ i, i < 16 → t.byte (0x1000000 + (s.rd (sB g + SLICE_CAP_BASE)).toNat + s.capWr g + i) = (recBytes x).getD i 0) ∧
      (∀ a, a < 0x1000000 + (s.rd (sB g + SLICE_CAP_BASE)).toNat + s.capWr g ∨
        0x1000000 + (s.rd (sB g + SLICE_CAP_BASE)).toNat + s.capWr g + 16 ≤ a → t.byte a = s.byte a) ∧
      (∀ a, a ∉ [sB g + SLICE_CAP_WR, sB g + SLICE_CAP_STATUS] → t.rd a = s.rd a) ∧ t.rowLast = g.val) ∧
  (∀ (s : State) (g : GroupId) (row : List Rec) (l : List (List Rec)) (q : Gap), s.awake = true → s.nextRowGroup = some g →
    (s.eng g).rows = row :: l → (s.eng g).gap = some q → s.capSize g ≠ 0 → s.capSize g < s.capUsed g + 16 * s.size g + 32 →
    s.plates.link.remote = false →
    ∃ t, exec .rowWrite s = .next t ∧ (t.eng g).rows = l ∧ (t.eng g).gap = some { q with lost := q.lost + row.length } ∧
      (t.rd (sB g + SLICE_CAP_LOST)).toNat = min 0xFFFFFFFF ((s.rd (sB g + SLICE_CAP_LOST)).toNat + row.length) ∧
      t.flag (sB g) SLICE_CAP_STATUS_GAP_PENDING = true ∧ t.mem = s.mem)) ∧
  (∀ (s : State) (h : Hdr) (r : GroupRec) (p : ArmP), s.ready h r →
    (p.length = 0 → exec (.captureArm h p) s = .next (s.withDev ((s.taken h.ring).complete (ownCtx h 0x09) OK))) ∧
    (p.length ≠ 0 → (s.eng (sid r.first)).arm ≠ none →
      exec (.captureArm h p) s = .next (s.withDev ((s.taken h.ring).complete (ownCtx h 0x09) BUSY))) ∧
    (p.length ≠ 0 → (s.eng (sid r.first)).arm = none →
      ∃ t, exec (.captureArm h p) s = .next t ∧ (t.eng (sid r.first)).arm = some (ownCtx h 0x09) ∧
        (t.eng (sid r.first)).armStart = p.start ∧ t.flag (sliceBase r.first) SLICE_REC_CTRL_ARMED = true ∧
        t.rd (sliceBase r.first + SLICE_REC_ARM_LEFT) = p.length ∧
        s.keeps t.toDev [sliceBase r.first + SLICE_REC_CTRL, sliceBase r.first + SLICE_REC_ARM_LEFT] ∧
        (t.ring h.ring).fetched = (s.ring h.ring).fetched - 1))

/-- R120, R129: a region of the capture store moves only to a place that fits the store and overlaps no other, while the group
does not record and no channel drains it, and is empty then; RD moves only forward, in whole records, up to WR. What does
not satisfy this sets REFUSED and changes nothing else. R110, R112, R114: a write of the record filter's registers takes a
length it can use, and starts the new filter with nothing in it and no window open; a station aperture waits for the next
sample of a station in force. A length of 0 for a mean, or outside 2 to 4,096 for a sinc³, sets REFUSED. R128: IB_EN changes
only while its slice is parked; another write of `SLICE_MEAS_CFG` takes effect at once. R125, R126: a write of
`SLICE_CORR_CTRL` with ARM arms the window, which opens at the next wrap of θ with START 0, or from the mark or the gating
station on; it closes after PERIODS wraps, at the sample limit or with its station: the sums, the number of samples and the
periods done appear, DONE is set and BUSY clears. With PERIODS 0 it is done at once. -/
def Obligations.MeasureRegistersKeepTheirRules : Prop :=
  ((∀ (s : State) (g : GroupId) (size : Bool) (v : Word), s.awake = true → s.group g.val ≠ none →
    (if size then s.regionOk g (s.rd (sB g + SLICE_CAP_BASE)).toNat v.toNat else s.regionOk g v.toNat (s.capSize g)) = true →
    s.flag (sB g) SLICE_REC_CTRL_ENABLE = false → (s.eng g).arm = none → s.dmaRuns g = false →
    ∃ t, exec (.capRegionWrite g size v) s = .next t ∧ t.rd (sB g + if size then SLICE_CAP_SIZE else SLICE_CAP_BASE) = v ∧
      t.capWr g = 0 ∧ t.capRd g = 0 ∧
      s.keeps t.toDev [sB g + if size then SLICE_CAP_SIZE else SLICE_CAP_BASE, sB g + SLICE_CAP_WR, sB g + SLICE_CAP_RD, sB g + SLICE_CAP_STATUS]) ∧
  (∀ (s : State) (g : GroupId) (v : Word), s.awake = true → s.group g.val ≠ none → v.toNat % 4096 ≠ 0 →
    ∃ t, exec (.capRegionWrite g false v) s = .next t ∧ t.flag (sB g) SLICE_CAP_STATUS_REFUSED = true ∧ s.keeps t.toDev [sB g + SLICE_CAP_STATUS]) ∧
  (∀ (s : State) (g : GroupId) (v : Word), s.awake = true → s.group g.val ≠ none → v.toNat % 16 = 0 → v.toNat < s.capSize g →
    (v.toNat + s.capSize g - s.capRd g) % s.capSize g ≤ s.capUsed g → s.dmaRuns g = false →
    ∃ t, exec (.capRdWrite g v) s = .next t ∧ t.rd (sB g + SLICE_CAP_RD) = v ∧
      s.keeps t.toDev [sB g + SLICE_CAP_RD, sB g + SLICE_CAP_STATUS]) ∧
  (∀ (s : State) (g : GroupId) (v : Word), s.awake = true → s.group g.val ≠ none → v.toNat % 16 ≠ 0 →
    ∃ t, exec (.capRdWrite g v) s = .next t ∧ t.flag (sB g) SLICE_CAP_STATUS_REFUSED = true ∧ s.keeps t.toDev [sB g + SLICE_CAP_STATUS])) ∧
  ((∀ (s : State) (g : GroupId) (v : Word), s.awake = true → s.group g.val ≠ none →
    (getBits v.toNat 0 2 = 0 ∧ getBits v.toNat 8 24 = 0 ∨ getBits v.toNat 0 2 = 1 ∧ getBits v.toNat 8 24 < 2 ∨
      getBits v.toNat 0 2 = 1 ∧ 4096 < getBits v.toNat 8 24) →
    ∃ t, exec (.recCfgWrite g v) s = .next t ∧ t.flag (sB g) SLICE_CAP_STATUS_REFUSED = true ∧ s.keeps t.toDev [sB g + SLICE_CAP_STATUS] ∧
      t.slices = s.slices) ∧
  (∀ (s : State) (g : GroupId) (v : Word), s.awake = true → s.group g.val ≠ none →
    ¬ (getBits v.toNat 0 2 = 0 ∧ getBits v.toNat 8 24 = 0) → ¬ (getBits v.toNat 0 2 = 1 ∧ (getBits v.toNat 8 24 < 2 ∨ 4096 < getBits v.toNat 8 24)) →
    ∃ t, exec (.recCfgWrite g v) s = .next t ∧ t.rd (sB g + SLICE_REC_CFG) = (s.store (sB g + SLICE_REC_CFG) v).rd (sB g + SLICE_REC_CFG) ∧
      s.keeps t.toDev [sB g + SLICE_REC_CFG] ∧
      ∀ n ∈ s.members g.val, (t.sl n).wCount = 0 ∧ (t.sl n).fV = .zero ∧ (t.sl n).wOpen = false ∧
        (t.sl n).wNext = (decide (getBits v.toNat 0 2 = 3) && s.stationRuns g))) ∧
  ((∀ (s : State) (n : SliceId) (v : Word), s.awake = true → s.parked n = false → v.getLsbD 0 ≠ s.flag (sB n) SLICE_MEAS_CFG_IB_EN →
    ∃ t, exec (.measCfgWrite n v) s = .next t ∧ t.flag (sB n) SLICE_MEAS_STATUS_REFUSED = true ∧ s.keeps t.toDev [sB n + SLICE_MEAS_STATUS] ∧
      t.slices = s.slices) ∧
  (∀ (s : State) (n : SliceId) (v : Word), s.awake = true → (s.parked n = true ∨ v.getLsbD 0 = s.flag (sB n) SLICE_MEAS_CFG_IB_EN) →
    ∃ t, exec (.measCfgWrite n v) s = .next t ∧ t.rd (sB n + SLICE_MEAS_CFG) = (s.store (sB n + SLICE_MEAS_CFG) v).rd (sB n + SLICE_MEAS_CFG) ∧
      s.keeps t.toDev [sB n + SLICE_MEAS_CFG, sB n + SLICE_RANGE_STATUS, sB n + SLICE_RG_NOW])) ∧
  ((∀ (s : State) (n : SliceId) (v : Word) (d : Dev), s.awake = true → v.getLsbD 0 = true → d = s.store (sB n + SLICE_CORR_CTRL) v →
    d.fld (sB n) SLICE_CORR_CTRL_START ≠ 3 → d.fld (sB n) SLICE_CORR_CTRL_SRC0 < 6 → d.fld (sB n) SLICE_CORR_CTRL_SRC1 < 6 →
    (d.fld (sB n) SLICE_CORR_CTRL_PERIODS ≠ 0 →
      ∃ t, exec (.corrArm n v) s = .next t ∧ t.flag (sB n) SLICE_CORR_STATUS_BUSY = true ∧
        (t.sl n).corr = { Corr.idle with st := if d.fld (sB n) SLICE_CORR_CTRL_START = 0 ∨
          (d.fld (sB n) SLICE_CORR_CTRL_START = 1 ∧ d.corrMark n = true) then 2 else 1 } ∧
        t.flag (sB n) SLICE_CORR_STATUS_MARK_PASSED = (decide (d.fld (sB n) SLICE_CORR_CTRL_START = 1) && d.corrMark n) ∧
        s.keeps t.toDev [sB n + SLICE_CORR_CTRL, sB n + SLICE_CORR_STATUS]) ∧
    (d.fld (sB n) SLICE_CORR_CTRL_PERIODS = 0 →
      ∃ t, exec (.corrArm n v) s = .next t ∧ t.flag (sB n) SLICE_CORR_STATUS_DONE = true ∧ t.flag (sB n) SLICE_CORR_STATUS_BUSY = false ∧
        (t.sl n).corr = .idle ∧ t.rd (sB n + SLICE_CORR_NSAMP) = 0 ∧ t.mem = s.mem)) ∧
  (∀ (s : State) (n : SliceId), s.awake = true → (s.sl n).corr.wrapped = true →
    ((s.sl n).corr.st = 2 ∨ ((s.sl n).corr.st = 1 ∧ s.fld (sB n) SLICE_CORR_CTRL_START = 1 ∧ s.corrMark n = true) ∨
      ((s.sl n).corr.st = 1 ∧ s.fld (sB n) SLICE_CORR_CTRL_START ≠ 1 ∧ s.corrGate n = true)) →
    ∃ t, exec (.corrWindowOpen n) s = .next t ∧ (t.sl n).corr = { Corr.idle with st := 3 } ∧ s.keeps t.toDev []) ∧
  (∀ (s : State) (n : SliceId), s.awake = true → (s.sl n).corr.st = 3 →
    (s.fld (sB n) SLICE_CORR_CTRL_PERIODS ≤ (s.sl n).corr.periods ∨ 16777216 ≤ (s.sl n).corr.n ∨
      (s.fld (sB n) SLICE_CORR_CTRL_START = 2 ∧ (s.sl n).corr.wrapped = true ∧ s.corrGate n = false)) →
    ∃ t, exec (.corrWindowClose n) s = .next t ∧ (t.sl n).corr = .idle ∧ t.flag (sB n) SLICE_CORR_STATUS_DONE = true ∧
      t.flag (sB n) SLICE_CORR_STATUS_BUSY = false ∧ t.rd (sB n + SLICE_CORR_NSAMP) = BitVec.ofNat 32 (s.sl n).corr.n ∧
      t.rd64 (sB n + SLICE_CORR0_I_LO) (sB n + SLICE_CORR0_I_HI) = BitVec.ofNat 64 (unsigned 64 (s.sl n).corr.i0) ∧
      t.rd64 (sB n + SLICE_CORR1_Q_LO) (sB n + SLICE_CORR1_Q_HI) = BitVec.ofNat 64 (unsigned 64 (s.sl n).corr.q1) ∧ t.mem = s.mem))

/-- R151, R374: the checks of RANGE in the order of the completion table: a code above 15, an AUTO above 2 and a bad SLICE_MASK
complete BAD_PARAM with the offset of the field, a range above the slice's highest completes LIMIT; none of them changes a
range. R139, R151: an accepted current range on a running slice that is a group by itself begins the first step of its chain
as the command executes; the command waits for the chain. On a slice in park the range is in force at once and the command
completes OK. A SLICE_MASK that names no slice changes nothing and completes OK. -/
def Obligations.RangeCommandStartsAChain : Prop :=
  (∀ (s : State) (h : Hdr) (r : GroupRec) (p : RangeP), s.ready h r →
    (15 < p.irange.toNat → exec (.range h p) s = .next (s.withDev ((s.taken h.ring).completeAt (ownCtx h 0x02) BAD_PARAM 0 (s.taken h.ring).time))) ∧
    (p.irange.toNat ≤ 15 → 15 < p.vrange.toNat →
      exec (.range h p) s = .next (s.withDev ((s.taken h.ring).completeAt (ownCtx h 0x02) BAD_PARAM 1 (s.taken h.ring).time))) ∧
    (p.irange.toNat ≤ 15 → p.vrange.toNat ≤ 15 → 2 < p.auto.toNat →
      exec (.range h p) s = .next (s.withDev ((s.taken h.ring).completeAt (ownCtx h 0x02) BAD_PARAM 2 (s.taken h.ring).time))) ∧
    (p.irange.toNat ≤ 15 → p.vrange.toNat ≤ 15 → p.auto.toNat ≤ 2 → (2 ^ r.size ≤ p.mask.toNat ∨ (r.gang ≠ 0 ∧ 1 < p.mask.toNat)) →
      exec (.range h p) s = .next (s.withDev ((s.taken h.ring).completeAt (ownCtx h 0x02) BAD_PARAM 4 (s.taken h.ring).time))) ∧
    (p.irange.toNat < 15 → p.vrange.toNat ≤ 15 → p.auto.toNat ≤ 2 → r.maskOk p.mask = true →
      (∃ n ∈ r.masked p.mask, s.irMax n < p.irange.toNat) →
      exec (.range h p) s = .next (s.withDev ((s.taken h.ring).completeAt (ownCtx h 0x02) LIMIT 0 (s.taken h.ring).time))) ∧
    (p.irange.toNat = 15 → p.vrange.toNat < 15 → p.auto.toNat ≤ 2 → r.maskOk p.mask = true →
      (∃ n ∈ r.masked p.mask, s.vrMax n < p.vrange.toNat) →
      exec (.range h p) s = .next (s.withDev ((s.taken h.ring).completeAt (ownCtx h 0x02) LIMIT 1 (s.taken h.ring).time)))) ∧
  ((∀ (s : State) (h : Hdr) (r : GroupRec) (p : RangeP) (n : SliceId), s.ready h r → r.first = n.val → r.size = 1 → r.gang = 0 →
    s.groupOf n.val = some r → p.irange.toNat < 15 → p.vrange.toNat = 15 → p.auto = 0 → p.mask = 1 → p.irange.toNat ≤ s.irMax n →
    s.irange n ≠ p.irange.toNat → (s.sl n).rstep = none →
    (s.inPark n = false →
      ∃ t, exec (.range h p) s = .next t ∧ t.fld (sB n) SLICE_RANGE_STATUS_TARGET = p.irange.toNat ∧
        t.fld (sB n) SLICE_RANGE_STATUS_PHASE = 1 ∧ t.irange n = s.irange n ∧ (t.sl n).rstep.isSome = true ∧ t.now = (s.taken h.ring).now ∧
        t.mem = s.mem ∧ t.sched = s.sched ++ [{ ctx := ownCtx h 0x02, cmd := .range p, group := n.val, mask := bit32 n.val
                                                after := t.now + 200, at_ := 0, status := OK, vmask := 0, wmask := 0, time := 0 }]) ∧
    (s.inPark n = true →
      ∃ t, exec (.range h p) s = .next t ∧ t.irange n = p.irange.toNat ∧ t.fld (sB n) SLICE_RANGE_STATUS_TARGET = p.irange.toNat ∧
        (t.sl n).rstep = none ∧ t.sched = s.sched ∧ t.mem = s.mem)) ∧
  (∀ (s : State) (h : Hdr) (r : GroupRec) (p : RangeP), s.ready h r → p.irange.toNat ≤ 15 → p.vrange.toNat ≤ 15 → p.auto.toNat ≤ 2 →
    p.mask = 0 → exec (.range h p) s = .next (s.withDev ((s.taken h.ring).complete (ownCtx h 0x02) OK))))

/-- R135, R138, R139, R141: when a step's preparation ends its overlap begins on every slice that acts with it; when the release
of a step ends, or the switch of a solo slice has reached its sampling instant, the step is over, and in force I a setpoint
that waits for the chain takes effect with its last one. The solo switch is stated for a slice that acts alone. R142: at
tick VHOLD the new voltage range is in force on a slice that acts alone, the commands that wait for it end, and in force V a
setpoint that waits takes effect unless another hold waits; an earlier tick changes nothing. R134, R146, R154: a ladder
pattern register changes only while its slice is parked, otherwise the write sets REFUSED; a reload of the limit set in
force takes a set that matches its complements and lies within the LIMITS record, raises the mismatch source for one that
does not match or holds a word past correction, and refuses one outside the record. The first and the last of these are
stated for a store with no bad word. -/
def Obligations.HandoverAndLimitReload : Prop :=
  ((∀ (s : State) (n : SliceId) (st : RStep), s.awake = true → s.stepOf n = some st → st.solo = false → s.phase (s.owner n) = 1 →
    ∃ t, exec (.handoverPrepareEnd n) s = .next t ∧ t.now = max s.now st.endAt ∧
      (∀ m ∈ s.gang n, t.fld (sB m) SLICE_RANGE_STATUS_PHASE = 2 ∧ (t.sl m).rstep = (s.sl m).rstep) ∧
      s.keeps t.toDev ((s.gang n).map (fun m => sB m + SLICE_RANGE_STATUS) ++ (s.gang n).map (fun m => sB m + SLICE_CLAMP_STATUS))) ∧
  (∀ (s : State) (n : SliceId) (st : RStep), s.awake = true → (s.sl (s.owner n)).rstep = some st → st.solo = false →
    s.phase (s.owner n) = 4 → st.len < st.fade →
    exec (.handoverEnd n) s = .next (s.withDev ((s.upTo st.endAt).stepOver (s.owner n)))) ∧
  (∀ (s : State) (n : SliceId) (st : RStep), s.awake = true → s.owner n = n → s.gang n = [n] → (s.sl n).rstep = some st → st.solo = true →
    st.endAt ≤ (s.eng (s.low n)).tickAt + s.slotDelay n →
    (s.mode n ≠ 1 → exec (.soloSwitchEnd n) s = .next (s.withDev ((s.rescaleI n st.into).stepOver n))) ∧
    ((s.sl n).spWait = none → exec (.soloSwitchEnd n) s = .next (s.withDev ((s.rescaleI n st.into).stepOver n))) ∧
    (∀ w, (s.sl n).spWait = some w → s.mode n = 1 → st.into < 16 → s.fld (sB n) SLICE_RANGE_STATUS_TARGET = st.into →
      exec (.soloSwitchEnd n) s = .next (s.withDev (((s.rescaleI n st.into).takeSp n w).stepOver n)))) ∧
  (∀ (s : Dev) (o : SliceId), s.gang o = [o] → s.owner o = o → s.fld (sB o) SLICE_RANGE_STATUS_TARGET = s.irange o →
    (s.sl o).spWait = none → (s.sl o).rstep.isSome = true → s.sched = [] →
    ((s.stepOver o).sl o).rstep = none ∧ (s.stepOver o).fld (sB o) SLICE_RANGE_STATUS_PHASE = 0 ∧
      (s.stepOver o).fld (sB o) SLICE_RANGE_COUNT_STEPS = (s.fld (sB o) SLICE_RANGE_COUNT_STEPS + 1) % 65536 ∧
      (s.stepOver o).irange o = s.irange o)) ∧
  ((∀ (s : State) (n : SliceId) (k : Nat), s.awake = true → s.owner n = n → s.gang n = [n] → (s.sl n).vhold = some k →
    s.fld (sB n) SLICE_RANGE_CFG_VHOLD ≤ k →
    ((s.sl n).spWait = none ∨ s.mode n ≠ 0 ∨ (s.sl n).vWait.isSome = true →
      exec (.vrangeHoldEnd n) s = .next (s.withDev (((s.rescaleV n (s.sl n).vNew).driveNow n).endVoltPart n))) ∧
    (∀ w, (s.sl n).spWait = some w → s.mode n = 0 → (s.sl n).vWait = none →
      exec (.vrangeHoldEnd n) s = .next (s.withDev ((((s.rescaleV n (s.sl n).vNew).driveNow n).takeSp n w).endVoltPart n)))) ∧
  (∀ (s : Dev) (n : SliceId) (v : Nat), v < 4 → (s.rescaleV n v).vrange n = v ∧ ((s.rescaleV n v).sl n).vhold = none ∧
    (s.rescaleV n v).flag (sB n) SLICE_RANGE_STATUS_VHOLD_ACTIVE = false) ∧
  (∀ (s : State) (n : SliceId) (k : Nat), (s.sl (s.owner n)).vhold = some k →
    k < s.fld (sB (s.owner n)) SLICE_RANGE_CFG_VHOLD → exec (.vrangeHoldEnd n) s = .next s)) ∧
  ((∀ (s : State) (n : SliceId) (o : Nat) (v : Word), s.awake = true →
    (s.parked n = true → ∃ t, exec (.rgPatternWrite n o v) s = .next t ∧ t.rd (sB n + o) = (s.store (sB n + o) v).rd (sB n + o) ∧
      s.keeps t.toDev [sB n + o] ∧ t.slices = s.slices) ∧
    (s.parked n = false → ∃ t, exec (.rgPatternWrite n o v) s = .next t ∧ t.flag (sB n) SLICE_RANGE_STATUS_REFUSED = true ∧
      s.keeps t.toDev [sB n + SLICE_RANGE_STATUS] ∧ t.slices = s.slices)) ∧
  (∀ (s : State) (n : SliceId) (a : Nat), s.awake = true →
    a = (s.rd (sB n + SLICE_LIM_BASE)).toNat + 96 * s.fld (sB n) SLICE_LIM_STATUS_ACTIVE →
    ((s.eccRead a 96 rdSet).uncorrectable a 72 = true → exec (.limReload n) s = .next (s.withDev ((s.eccRead a 96 rdSet).mismatch n))) ∧
    (s.memst.bad = [] →
      ((s.limAt a).ok = true → s.word (a + 0x44) = ~~~s.word (a + 0x40) → (s.limAt a).within (s.hard n) = true →
        ∃ t, exec (.limReload n) s = .next t ∧ (t.sl n).limits = s.limAt a ∧ (t.sl n).limGood = s.limAt a ∧ t.mem = s.mem) ∧
      (((s.limAt a).ok = false ∨ s.word (a + 0x44) ≠ ~~~s.word (a + 0x40)) → exec (.limReload n) s = .next (s.withDev (s.mismatch n))) ∧
      ((s.limAt a).ok = true → s.word (a + 0x44) = ~~~s.word (a + 0x40) → (s.limAt a).within (s.hard n) = false →
        exec (.limReload n) s = .next (s.withDev ((s.setFlag (sB n) SLICE_LIM_STATUS_REFUSED true).note n))))))

/-- R149, R158, R160: 6 cycles after a clamp crosses its threshold its output becomes active and it trips; a clamp that is
already active trips no more. A trip holds the gang and pulls CLAMP_N low on each of its slices, also on one in park, which
obeys its park, and in MODE 2 the park follows 2 cycles later. In freeze the hold and CLAMP_N do not wait for the clock.
R149, R160: 6 cycles after a clamp's input comes back its output is inactive, and with the last one the quiet time begins;
in MODE 0 the hold ends at the first tick from RELEASE_NS after that on, and in MODE 1 or 3 at the first tick after a CLEAR.
A CLEAR while a clamp is active is refused. Stated for a slice that acts alone. -/
def Obligations.ClampsTripHoldAndRelease : Prop :=
  ((∀ (s : State) (n : SliceId) (high : Bool), s.awake = true → 8 ≤ s.boot.step →
    (s.clampOn n high = false →
      exec (.clampTrip n high) s = .next (s.withDev (((((s.upTo (s.now + 6)).each (s.gang n) Dev.land).setFlag (sB n) (undecFld high) false).cmpEdge n
        (if high then 0 else 1) high).clampHit n))) ∧
    (s.clampOn n high = true →
      exec (.clampTrip n high) s = .next (s.withDev (((s.upTo (s.now + 6)).each (s.gang n) Dev.land).setFlag (sB n) (undecFld high) false)))) ∧
  (∀ (s : State) (n : SliceId) (high : Bool), s.pins.resetN = true → 8 ≤ s.boot.step → s.frz.frozen = true → s.clampOn n high = false →
    ∃ t, exec (.clampTrip n high) s = .next t ∧ (∀ m ∈ s.gang n, (t.sl m).clampN = true ∧
      (s.inPark m = false → t.flag (sB m) SLICE_FORCE_STATUS_CLAMP_HOLD = true)) ∧ (t.sl n).tripped = true ∧ t.now = s.now ∧ t.mem = s.mem) ∧
  (∀ (s : Dev) (n m : SliceId), m ∈ s.gang n → ((s.clampHold n).sl m).clampN = true ∧
    (s.inPark m = false → (s.clampHold n).flag (sB m) SLICE_FORCE_STATUS_CLAMP_HOLD = true ∧
      (s.clampHold n).flag (sB m) SLICE_CLAMP_STATUS_HOLD = true)) ∧
  (∀ (s : Dev) (n : SliceId), (s.clampHold n).mem = s.mem ∧ (s.clampHold n).now = s.now) ∧
  (∀ (s d : Dev) (n : SliceId), d = (s.clampHold n).raiseSlice n 4 0 →
    s.clampHit n = if s.fld (sB n) SLICE_CLAMP_CFG_MODE = 2 ∧ s.inPark n = false then (d.upTo (d.now + 2)).parkBegin n else d)) ∧
  ((∀ (s : State) (n : SliceId) (high : Bool), s.awake = true → 8 ≤ s.boot.step → s.gang n = [n] → s.clampOn n high = true →
    s.clampOn n (!high) = false →
    ∃ t, exec (.clampInputReturn n high) s = .next t ∧ t.clampOn n high = false ∧ t.clampOn n (!high) = false ∧
      (t.sl n).quietAt = s.now + 6 ∧ t.now = s.now + 6 ∧ s.keeps t.toDev [sB n + SLICE_CMP_STATUS, sB n + SLICE_CMP_FLAGS]) ∧
  (∀ (s : State) (n : SliceId), s.awake = true → s.gang n = [n] → s.flag (sB n) SLICE_FORCE_STATUS_CLAMP_HOLD = true →
    s.fld (sB n) SLICE_CLAMP_CFG_MODE = 0 → s.clampActive n = false →
    ∃ t, exec (.clampAutoRelease n) s = .next t ∧ (t.sl n).holdEnds = true ∧
      t.now = max s.now ((s.sl n).quietAt + s.fld (sB n) SLICE_CLAMP_CFG_RELEASE_NS) ∧ s.keeps t.toDev []) ∧
  (∀ (s : State) (n : SliceId), s.awake = true → s.gang n = [n] → s.flag (sB n) SLICE_FORCE_STATUS_CLAMP_HOLD = true →
    s.fld (sB n) SLICE_CLAMP_CFG_MODE % 2 = 1 → s.clampActive n = false →
    ∃ t, exec (.clampClear n) s = .next t ∧ (t.sl n).holdEnds = true ∧ t.now = s.now ∧ s.keeps t.toDev []) ∧
  (∀ (s : State) (n : SliceId), s.awake = true → s.clampActive n = true →
    ∃ t, exec (.clampClear n) s = .next t ∧ t.flag (sB n) SLICE_CLAMP_STATUS_REFUSED = true ∧ s.keeps t.toDev [sB n + SLICE_CLAMP_STATUS] ∧
      t.slices = s.slices))

/-- R156, R160, R161: WIN in continuous mode follows its input 6 cycles after it crosses, with the sticky flag of the edge, and
its event is offered in the next; in sampled mode a conversion at the next multiple of TICK_US decides 202 cycles after its
instant between inside, below and above; a write of `SLICE_WIN_CFG` with INPUT 3 or a TICK_US outside 1 to 1,000 is refused.
R157, R162: a window leaves its state only past the threshold by more than the hysteresis: from inside at the thresholds
themselves, from above below HI − HYST, from below above LO + HYST. -/
def Obligations.WindowComparator : Prop :=
  ((∀ (s : State) (n : SliceId) (above : Bool), s.awake = true → s.flag (sB n) SLICE_WIN_CFG_ENABLE = true → s.flag (sB n) SLICE_WIN_CFG_MODE = false →
    s.cmpLevel n 3 = !above → (s.sl n).dropEdge = false →
    exec (.winCrossing n above) s = .next (s.withDev (((((s.upTo (s.now + 6)).setFlag (sB n) SLICE_CMP_STATUS_UNDEC_WIN false).cmpEdge n 3
      above).upTo (s.now + 7)).winEvent n above)) ∧
    (s.fld (sB n) SLICE_WIN_CFG_EDGE = 0 → ∃ t, exec (.winCrossing n above) s = .next t ∧ t.cmpLevel n 3 = above ∧
      t.flag (sB n) (if above then SLICE_CMP_FLAGS_WIN_RISE else SLICE_CMP_FLAGS_WIN_FALL) = true ∧ t.now = s.now + 7 ∧
      s.keeps t.toDev [sB n + SLICE_CMP_STATUS, sB n + SLICE_CMP_FLAGS] ∧ t.slices = s.slices)) ∧
  (∀ (s : State) (n : SliceId) (v : BitVec 12) (c st : Nat), s.domains = true → s.flag (sB n) SLICE_WIN_CFG_ENABLE = true →
    s.flag (sB n) SLICE_WIN_CFG_MODE = true → s.flag (sB n) SLICE_CMP_STATUS_UNDEC_WIN = false →
    c = s.convTick (s.sl n).winTick (1000 * s.fld (sB n) SLICE_WIN_CFG_TICK_US) →
    st = windowState (s.fld (sB n) SLICE_CMP_STATUS_WIN_STATE) (halfMv v.toNat)
        (halfMv (s.fld (sB n) SLICE_WIN_THR_THR_LO)) (halfMv (s.fld (sB n) SLICE_WIN_THR_THR_HI)) (2 * s.fld (sB n) SLICE_CMP_HYST_HYST_WIN) →
    exec (.winSampledTick n v) s = .next (s.withDev (((((s.upTo (c + 202)).setFld (sB n) SLICE_WIN_VALUE_VALUE v.toNat).modSl n
      (fun x => { x with winTick := c })).setFlag (sB n) SLICE_CMP_STATUS_UNDEC_WIN false).winMove n st)) ∧
    (s.fld (sB n) SLICE_WIN_CFG_EDGE = 0 →
      ∃ t, exec (.winSampledTick n v) s = .next t ∧ t.fld (sB n) SLICE_WIN_VALUE_VALUE = v.toNat ∧
        t.fld (sB n) SLICE_CMP_STATUS_WIN_STATE = st ∧ t.now = c + 202 ∧ (t.sl n).winTick = c ∧
        s.keeps t.toDev [sB n + SLICE_WIN_VALUE, sB n + SLICE_CMP_STATUS, sB n + SLICE_CMP_FLAGS])) ∧
  (∀ (s : State) (n : SliceId) (v : Word) (x : BitVec 12), s.awake = true →
    ((getBits v.toNat 2 2 = 3 ∨ getBits v.toNat 16 10 = 0 ∨ 1000 < getBits v.toNat 16 10) →
      ∃ t, exec (.winCfgWrite n v x) s = .next t ∧ t.flag (sB n) SLICE_CMP_STATUS_REFUSED = true ∧ s.keeps t.toDev [sB n + SLICE_CMP_STATUS]) ∧
    (getBits v.toNat 2 2 ≠ 3 → getBits v.toNat 16 10 ≠ 0 → getBits v.toNat 16 10 ≤ 1000 →
      ∃ t, exec (.winCfgWrite n v x) s = .next t ∧ t.rd (sB n + SLICE_WIN_CFG) = (s.store (sB n + SLICE_WIN_CFG) v).rd (sB n + SLICE_WIN_CFG) ∧
        s.keeps t.toDev [sB n + SLICE_WIN_CFG, sB n + SLICE_CMP_STATUS]))) ∧
  (∀ (v lo hi h : Int), 0 ≤ h → lo < hi →
    (windowState 0 v lo hi h = 0 ↔ lo ≤ v ∧ v ≤ hi) ∧
    (windowState 2 v lo hi h = 2 ↔ hi - h ≤ v) ∧
    (v ≤ hi → (windowState 1 v lo hi h = 1 ↔ v ≤ lo + h)) ∧
    ∀ st, windowState st v lo hi h ≤ 2)

/-- R162, R163: a conversion of an enabled monitor, at the next multiple of its TICK_US, shows its value 202 cycles later, and
on a change of state makes the move; a code at either end of the scale raises the overrange source; ACTION 2 parks the slice
2 cycles after a decision BELOW or ABOVE. R156, R162, R172: a hysteresis above 50 mV keeps its own field, a window or
monitor threshold pair whose LO is not below HI and a monitor tick outside 1 to 1,000 µs leave the register, each with
REFUSED; what is in range is stored. -/
def Obligations.MonitorsAndThresholds : Prop :=
  ((∀ (s : State) (m : SliceId) (v : BitVec 12) (c st : Nat) (d : Dev), s.domains = true → s.monOn m.val = true →
    s.flag (monBase m.val) MON_STATUS_UNDECIDED = false → c = s.convTick (s.mons.get m).at_ (1000 * s.fld (monBase m.val) MON_CFG_TICK_US) →
    st = windowState (s.monState m.val) (2 * v.toInt) (2 * signed 12 (s.fld (monBase m.val) MON_THR_LO))
      (2 * signed 12 (s.fld (monBase m.val) MON_THR_HI)) (s.fld (monBase m.val) MON_CFG_HYST) →
    d = ((((s.upTo (c + 202)).setFld (monBase m.val) MON_STATUS_VALUE v.toNat).modMon m (fun x => { x with ticks := (x.ticks + 1) % 256, at_ := c })).setFlag
      (monBase m.val) MON_STATUS_UNDECIDED false).monMove m st →
    (∀ e : Dev, e = (if v = 0x800 ∨ v = 0x7FF then d.raise (0x360 + m.val) 0 0 m.val else d) →
      ((e.monAction m.val ≠ 2 ∨ e.monState m.val = 0 ∨ e.parked m = true) → exec (.smonTick m v) s = .next (s.withDev e)) ∧
      (e.monAction m.val = 2 → e.monState m.val ≠ 0 → e.parked m = false → exec (.smonTick m v) s =
        .next (s.withDev (((e.upTo (c + 204)).modSl m (fun x => { x with monPark := true })).parkBegin m)))) ∧
    (st = s.monState m.val → v ≠ 0x800 → v ≠ 0x7FF → s.monAction m.val ≠ 2 →
      ∃ t, exec (.smonTick m v) s = .next t ∧ t.fld (monBase m.val) MON_STATUS_VALUE = v.toNat ∧ t.monState m.val = s.monState m.val ∧
        t.now = c + 202 ∧ s.keeps t.toDev [monBase m.val + MON_STATUS] ∧ (t.mons.get m).ticks = ((s.mons.get m).ticks + 1) % 256 ∧
        (t.mons.get m).at_ = c)) ∧
  (∀ (s : Dev) (m : SliceId), s.monState m.val = 0 → s.flag (monBase m.val) MON_CFG_IRQ_EN = false →
    s.monMove m 2 = ((s.setFld (monBase m.val) MON_STATUS_STATE 2).setFlag (monBase m.val) MON_STATUS_RISE true).raise (0x340 + m.val) 0 0 m.val)) ∧
  ((∀ (s : State) (n : SliceId) (v : Word), s.awake = true →
    ∃ t, exec (.comparatorWrite (sB n + SLICE_CMP_HYST) v) s = .next t ∧
      (∀ f ∈ [SLICE_CMP_HYST_HYST_HI, SLICE_CMP_HYST_HYST_LO, SLICE_CMP_HYST_HYST_WIN],
        (getBits v.toNat f.lo f.w ≤ 50 → t.fld (sB n) f = getBits v.toNat f.lo f.w) ∧
        (50 < getBits v.toNat f.lo f.w → t.fld (sB n) f = s.fld (sB n) f ∧ t.flag (sB n) SLICE_CMP_STATUS_REFUSED = true)) ∧
      s.keeps t.toDev [sB n + SLICE_CMP_HYST, sB n + SLICE_CMP_STATUS] ∧ t.slices = s.slices) ∧
  (∀ (s : State) (n : SliceId) (v : Word), s.awake = true →
    (getBits v.toNat 0 12 ≤ getBits v.toNat 16 12 →
      ∃ t, exec (.comparatorWrite (sB n + SLICE_WIN_THR) v) s = .next t ∧ t.flag (sB n) SLICE_CMP_STATUS_REFUSED = true ∧
        s.keeps t.toDev [sB n + SLICE_CMP_STATUS]) ∧
    (getBits v.toNat 16 12 < getBits v.toNat 0 12 →
      ∃ t, exec (.comparatorWrite (sB n + SLICE_WIN_THR) v) s = .next t ∧ t.fld (sB n) SLICE_WIN_THR_THR_HI = getBits v.toNat 0 12 ∧
        t.fld (sB n) SLICE_WIN_THR_THR_LO = getBits v.toNat 16 12 ∧ s.keeps t.toDev [sB n + SLICE_WIN_THR])) ∧
  (∀ (s : State) (m : SliceId) (v : Word), s.awake = true → s.monOn m.val = true →
    (getBits v.toNat 0 10 = 0 ∨ 1000 < getBits v.toNat 0 10 →
      ∃ t, exec (.comparatorWrite (monBase m.val + MON_CFG) v) s = .next t ∧ t.flag (monBase m.val) MON_STATUS_REFUSED = true ∧
        s.keeps t.toDev [monBase m.val + MON_STATUS]) ∧
    (signed 12 (getBits v.toNat 0 12) < signed 12 (getBits v.toNat 16 12) →
      ∃ t, exec (.comparatorWrite (monBase m.val + MON_THR) v) s = .next t ∧ t.fld (monBase m.val) MON_THR_LO = getBits v.toNat 0 12 ∧
        t.fld (monBase m.val) MON_THR_HI = getBits v.toNat 16 12 ∧ s.keeps t.toDev [monBase m.val + MON_THR])))

/-- R164, R165, R168: a period of a running pre-regulator takes the rail conversion at its own phase of TIME. With a control
code of 0 it has no pulse; otherwise the pulse rises in cycle 1 and falls 5 cycles after the comparator became active, no
sooner than cycle 41, or after nine tenths of the period with MAXDUTY; FAULT_COUNT periods in a row that the comparator ends
at the end of blanking stop the switching with the overcurrent source. R166, R168: a headroom tick runs the law on the pair
in force, or on the last good one with the mismatch source raised, and holds u while a voltage hold runs, in loop hold and
on stale feedback. In soft start u rises by at most SOFT_STEP a tick and never above CTRL_MAX, and CTRL shows it rounded.
R164, R165, R171: the enable of a pre-regulator changes only while its slice is parked, and its period lies in 500 to 4,000;
another write sets REFUSED. The control code stays at or below CTRL_MAX. -/
def Obligations.PreRegulator : Prop :=
  ((∀ (s : State) (n : SliceId) (cs : List (Nat × Int)) (v : BitVec 12) (k c : Nat), s.domains = true →
    s.flag (sB n) SLICE_PRG_STATUS_RUNNING = true → k = s.fld (sB n) SLICE_PRG_CFG_PERIOD → c = s.nextPhase n k →
    (s.fld (sB n) SLICE_PRG_STATUS_CTRL = 0 →
      ∃ t, exec (.prgPeriodStart n cs v) s = .next t ∧ t.fld (sB n) SLICE_PRG_RAIL_CODE = v.toNat ∧ (t.sl n).prgOc = 0 ∧
        t.now = c ∧ (t.sl n).prgAt = c ∧ (t.sl n).prgPwm = (s.sl n).prgPwm ∧ s.keeps t.toDev [sB n + SLICE_PRG_RAIL]) ∧
    (s.fld (sB n) SLICE_PRG_STATUS_CTRL ≠ 0 → prgActive cs (s.fld (sB n) SLICE_PRG_STATUS_CTRL) (s.fld (sB n) SLICE_PRG_CFG_SLOPE) k = none →
      ∃ t, exec (.prgPeriodStart n cs v) s = .next t ∧ t.fld (sB n) SLICE_PRG_RAIL_CODE = v.toNat ∧ (t.sl n).prgOc = 0 ∧ t.now = c ∧
        (t.sl n).prgPwm = some (c + 1, c + (1 + 9 * k / 10)) ∧
        t.flag (sB n) SLICE_PRG_STATUS_MAXDUTY = true ∧ s.keeps t.toDev [sB n + SLICE_PRG_RAIL, sB n + SLICE_PRG_STATUS]) ∧
    (∀ a, s.fld (sB n) SLICE_PRG_STATUS_CTRL ≠ 0 →
      prgActive cs (s.fld (sB n) SLICE_PRG_STATUS_CTRL) (s.fld (sB n) SLICE_PRG_CFG_SLOPE) k = some a → 31 < a → 10 * max (a + 5) 41 ≤ 10 + 9 * k →
      s.fld (sB n) SLICE_PRG_CFG_FAULT_COUNT ≠ 0 → (s.sl n).dropEdge = false →
      ∃ t, exec (.prgPeriodStart n cs v) s = .next t ∧ t.fld (sB n) SLICE_PRG_RAIL_CODE = v.toNat ∧ (t.sl n).prgOc = 0 ∧ t.now = c ∧
        (t.sl n).prgPwm = some (c + 1, c + max (a + 5) 41) ∧ t.cmpLevel n 2 = false ∧
        s.keeps t.toDev [sB n + SLICE_PRG_RAIL, sB n + SLICE_CMP_STATUS, sB n + SLICE_CMP_FLAGS]) ∧
    (s.fld (sB n) SLICE_PRG_STATUS_CTRL ≠ 0 →
      prgActive cs (s.fld (sB n) SLICE_PRG_STATUS_CTRL) (s.fld (sB n) SLICE_PRG_CFG_SLOPE) k = some 31 →
      s.fld (sB n) SLICE_PRG_CFG_FAULT_COUNT ≠ 0 → s.fld (sB n) SLICE_PRG_CFG_FAULT_COUNT ≤ (s.sl n).prgOc + 1 → 500 ≤ k →
      exec (.prgPeriodStart n cs v) s = .next (s.withDev (((((((s.upTo c).setFld (sB n) SLICE_PRG_RAIL_CODE v.toNat).modSl n
        (fun x => { x with prgAt := c })).cmpEdge n 2 true).cmpEdge n 2 false).modSl n
        (fun x => { x with prgOc := (s.sl n).prgOc + 1, prgPwm := some (c + 1, c + 41) })).overcurrent n))))) ∧
  ((∀ (s : State) (n : SliceId), s.domains = true → (s.flag (sB n) SLICE_PRG_STATUS_RUNNING = true ∨ (s.sl n).prgStop = true) →
    (s.fld (sB n) SLICE_PRG_RATE_M_H ≠ 0 → s.fld (sB n) SLICE_PRG_RATE_M_H ≤ (s.sl n).prgTick) →
    (s.fld (sB n) SLICE_PRG_RATE_M_H = 0 → 4096 ≤ (s.sl n).prgTick) →
    (((s.sl (s.owner n)).vhold.isSome = true ∨ s.loopState (s.owner n) = 2 ∨ 0 < s.fld (sB (s.owner n)) SLICE_FB_STATUS_STALE_RUN) →
      ∃ t, exec (.headroomTick n) s = .next t ∧ (t.sl n).prgTick = 0 ∧ (t.sl n).prgU = (s.sl n).prgU ∧ (t.sl n).prgE = (s.sl n).prgE ∧
        s.keeps t.toDev []) ∧
    ((s.sl (s.owner n)).vhold = none → s.loopState (s.owner n) ≠ 2 → s.fld (sB (s.owner n)) SLICE_FB_STATUS_STALE_RUN = 0 →
      (s.rd (sB n + SLICE_PRG_HEAD_C) = ~~~s.rd (sB n + SLICE_PRG_HEAD_V) →
        exec (.headroomTick n) s = .next (s.withDev ((s.modSl n (fun x => { x with prgTick := 0 })).headLaw n))) ∧
      (s.rd (sB n + SLICE_PRG_HEAD_C) ≠ ~~~s.rd (sB n + SLICE_PRG_HEAD_V) →
        exec (.headroomTick n) s = .next (s.withDev (((s.modSl n (fun x => { x with prgTick := 0 })).mismatch n).headLaw n))))) ∧
  (∀ (s : Dev) (n : SliceId), s.flag (sB n) SLICE_PRG_STATUS_SOFT = true → 0 ≤ (s.sl n).prgU →
    0 ≤ ((s.headLaw n).sl n).prgU ∧ ((s.headLaw n).sl n).prgU ≤ (s.fld (sB n) SLICE_PRG_LIMIT_CTRL_MAX : Int) * 16777216 ∧
    ((s.headLaw n).sl n).prgU ≤ (s.sl n).prgU + (s.fld (sB n) SLICE_PRG_LIMIT_SOFT_STEP : Int) * 16777216 ∧
    (s.headLaw n).fld (sB n) SLICE_PRG_STATUS_CTRL = (roundDiv ((s.headLaw n).sl n).prgU 16777216).toNat ∧
    s.keeps (s.headLaw n) [sB n + SLICE_PRG_STATUS])) ∧
  (∀ (s : State) (n : SliceId) (v : Word), s.awake = true →
    ((getBits v.toNat 8 12 < 500 ∨ 4000 < getBits v.toNat 8 12 ∨ (bitOf v.toNat 0 ≠ s.flag (sB n) SLICE_PRG_CFG_EN ∧ s.parked n = false)) →
      ∃ t, exec (.prgCfgWrite n v) s = .next t ∧ t.flag (sB n) SLICE_PRG_STATUS_REFUSED = true ∧ s.keeps t.toDev [sB n + SLICE_PRG_STATUS]) ∧
    (500 ≤ getBits v.toNat 8 12 → getBits v.toNat 8 12 ≤ 4000 → (bitOf v.toNat 0 = s.flag (sB n) SLICE_PRG_CFG_EN ∨ s.parked n = true) →
      ∃ t, exec (.prgCfgWrite n v) s = .next t ∧ t.rd (sB n + SLICE_PRG_CFG) = (s.store (sB n + SLICE_PRG_CFG) v).rd (sB n + SLICE_PRG_CFG) ∧
        t.fld (sB n) SLICE_PRG_STATUS_CTRL = min (s.fld (sB n) SLICE_PRG_STATUS_CTRL) (s.fld (sB n) SLICE_PRG_LIMIT_CTRL_MAX) ∧
        s.keeps t.toDev [sB n + SLICE_PRG_CFG, sB n + SLICE_PRG_STATUS]))

/-- R85, R86, R376: what PARK does. The park of R85 latches the park code in cycle 0, raises OUTEN_N, opens the loop, empties
the queue and sets PARK_BUSY. PARK begins it on every slice of its group and completes OK at once where all of them are
parked already. Stated for a device on which no command waits. R89, R376: the checks of UNPARK in the order of the table,
and the start of the sequence where none holds: a group already in the sequence answers BUSY, a low INTERLOCK_N or the R59
latch PARKED, a group with no parked slice OK. -/
def Obligations.ParkAndUnparkCommands : Prop :=
  ((∀ (s : Dev) (n : SliceId), s.sched = [] →
    ((s.parkSlice n).sl n).phase = .parking s.now false ∧ (s.parkSlice n).flag (sB n) SLICE_FORCE_STATUS_OUTEN = false ∧
    (s.parkSlice n).flag (sB n) SLICE_FORCE_STATUS_PARK_BUSY = true ∧ (s.parkSlice n).flag (sB n) SLICE_FORCE_STATUS_PARKED = false ∧
    (s.parkSlice n).fld (sB n) SLICE_FORCE_STATUS_CODE = (s.parkCode n).toNat ∧ (s.parkSlice n).fld (sB n) SLICE_LOOP_STATUS_STATE = 0 ∧
    ((s.parkSlice n).sl n).queue = [] ∧ (s.parkSlice n).now = s.now ∧ (s.parkSlice n).mem = s.mem) ∧
  (∀ (s : State) (h : Hdr) (r : GroupRec), s.ready h r → (∀ n ∈ r.slices, (s.sl n).phase = .parked ∧ s.parked n = true) →
    exec (.park h) s = .next (s.withDev ((s.taken h.ring).complete (ownCtx h 0x0C) OK))) ∧
  (∀ (s : State) (h : Hdr) (r : GroupRec), s.ready h r → (r.slices.foldl Dev.parkBegin (s.taken h.ring)).parked (sid r.first) = false → 1 ≤ r.size →
    exec (.park h) s = .next (s.withDev ((r.slices.foldl Dev.parkBegin (s.taken h.ring)).schedule (ownCtx h 0x0C) .park r.first
      (maskOf r.slices) (r.slices.foldl Dev.parkBegin (s.taken h.ring)).now 0)))) ∧
  (∀ (s : State) (h : Hdr) (r : GroupRec), s.ready h r →
    ((∃ u, s.unparkOf r.first = some u) → exec (.unpark h) s = .next (s.withDev ((s.taken h.ring).complete (ownCtx h 0x0D) BUSY))) ∧
    (s.unparkOf r.first = none → (s.pins.interlockN = false ∨ s.flag 0 GLOBAL_STATUS_GRAVE_LATCH = true) →
      exec (.unpark h) s = .next (s.withDev ((s.taken h.ring).complete (ownCtx h 0x0D) PARKED))) ∧
    ((s.taken h.ring).unparkStatus r = none →
      exec (.unpark h) s = .next (s.withDev ((((s.taken h.ring).each r.slices Dev.unparkSlice).schedule (ownCtx h 0x0D) .unpark r.first
        (maskOf r.slices) (s.taken h.ring).now 0).each (r.slices.filter (fun n =>
          (((s.taken h.ring).each r.slices Dev.unparkSlice).schedule (ownCtx h 0x0D) .unpark r.first (maskOf r.slices) (s.taken h.ring).now 0).clampOn n true ||
          (((s.taken h.ring).each r.slices Dev.unparkSlice).schedule (ownCtx h 0x0D) .unpark r.first (maskOf r.slices) (s.taken h.ring).now 0).clampOn n false))
            Dev.clampHit))))

/-- R198, R199: LOOP_OPEN checks its mask, completes OK where no loop it names is closed, and otherwise waits for the first tick
after this cycle, at which the loop of a running slice is open and the command completes OK. R198, R200: LOOP_CLOSE refuses
a direct-mode slice, answers PARKED for one that does not run, and otherwise waits for the first tick 200 cycles on, at
which the loop closes with its sets and limits checked and the command completes OK. -/
def Obligations.LoopsOpenAndClose : Prop :=
  ((∀ (s : State) (h : Hdr) (r : GroupRec) (m : Word), s.ready h r →
    (r.maskOk m = false → exec (.loopOpen h m) s = .next (s.withDev ((s.taken h.ring).completeAt (ownCtx h 0x03) BAD_PARAM 0 (s.taken h.ring).time))) ∧
    (r.maskOk m = true → (∀ n ∈ r.masked m, s.loopState n = 0) →
      exec (.loopOpen h m) s = .next (s.withDev ((s.taken h.ring).complete (ownCtx h 0x03) OK))) ∧
    (r.maskOk m = true → maskOf ((r.masked m).filter (fun n => s.loopState n != 0)) ≠ 0 →
      exec (.loopOpen h m) s = .next (s.withDev ((s.taken h.ring).schedule (ownCtx h 0x03) (.loopOpen m) r.first
        (maskOf ((r.masked m).filter (fun n => s.loopState n != 0))) ((s.taken h.ring).now + 1) 0)))) ∧
  (∀ (s : State) (g : GroupId) (r : GroupRec) (x : Sched) (m : Word), s.domains = true → s.group g.val = some r → r.first = g.val → s.gang g = [g] →
    s.sched = [x] → x.cmd = .loopOpen m → x.group = g.val → x.mask = bit32 g.val → x.due (s.effectAt r).1 (s.effectAt r).2 = true →
    (s.sl g).phase = .running →
    ∃ t, exec (.loopOpenEffect g) s = .next t ∧ t.loopState g = 0 ∧ t.flag (sB g) SLICE_FORCE_STATUS_HOLD = false ∧ t.sched = [] ∧
      t.fld (sB g) SLICE_FORCE_STATUS_CODE = s.fld (sB g) SLICE_FORCE_STATUS_CODE ∧ t.now = s.now ∧ t.mem = s.mem)) ∧
  ((∀ (s : State) (h : Hdr) (r : GroupRec) (m : Word), s.ready h r →
    ((r.maskOk m = false ∨ ∃ n ∈ r.masked m, s.direct n = true) →
      exec (.loopClose h m) s = .next (s.withDev ((s.taken h.ring).completeAt (ownCtx h 0x04) BAD_PARAM 0 (s.taken h.ring).time))) ∧
    (r.maskOk m = true → (∀ n ∈ r.masked m, s.direct n = false) → (∃ n ∈ r.masked m, s.running n = false) →
      exec (.loopClose h m) s = .next (s.withDev ((s.taken h.ring).complete (ownCtx h 0x04) PARKED))) ∧
    (r.maskOk m = true → (∀ n ∈ r.masked m, s.direct n = false ∧ s.running n = true ∧ s.coefBaseOk n = true) → s.pins.interlockN = true →
      maskOf ((r.masked m).filter (fun n => s.loopState n == 0)) ≠ 0 →
      exec (.loopClose h m) s = .next (s.withDev ((s.taken h.ring).schedule (ownCtx h 0x04) (.loopClose m) r.first
        (maskOf ((r.masked m).filter (fun n => s.loopState n == 0))) ((s.taken h.ring).now + 200) 0)))) ∧
  (∀ (s : State) (g : GroupId) (r : GroupRec) (x : Sched) (m : Word), s.domains = true → s.group g.val = some r → r.first = g.val →
    s.sched = [x] → x.cmd = .loopClose m → x.group = g.val → x.mask = bit32 g.val → x.due (s.effectAt r).1 (s.effectAt r).2 = true →
    s.running g = true → s.loopState g = 0 → s.direct g = false →
    exec (.loopCloseEffect g) s = .next (s.withDev (({ s.toDev with sched := [] }.closeAt g).completeAt x.ctx OK 0xFF (s.effectAt r).2))))

/-- R202, R203: SELECT of a set on an open loop puts the set in force and completes OK; on a closed loop it waits for its tick
with PENDING set; an image whose complement does not match completes INTEGRITY at the offset of IMAGE_C. Stated for a slice
that is a group by itself, with no command waiting. R202, R203, R205: WRITE stores the image and its complement, 32 bytes,
in the set of a slice whose loop is open or has another set in force; WRITE_ONE stores one field and its complement. A set
in force on a closed loop without AGILE is refused with LOOP_CLOSED. Stated for a slice that is a group by itself. R203,
R204: a SELECT that is due at the group's latest tick switches the slice to its set, and the command completes OK once no
slice of it is outstanding; with none due the event changes nothing. R26, R191: the divider and the outer rate change only
while the loops of the group are open or parked and within their spans: M from 2 to 4,096 with its phase below it, and an
outer variable routed; a value outside sets REFUSED. -/
def Obligations.CoefficientSets : Prop :=
  (∀ (s : State) (h : Hdr) (r : GroupRec) (p : CoefP) (n : SliceId), s.ready h r → r.masked p.mask = [n] → coefFault p 0 r = none →
    (p.imageC ≠ ~~~p.image → exec (.coefSelectSelect h p) s = .next (s.withDev ((s.taken h.ring).completeAt (ownCtx h 0x05) INTEGRITY 0x18 (s.taken h.ring).time))) ∧
    (p.imageC = ~~~p.image → s.fld (sB n) SLICE_LOOP_STATUS_COEF_SET = p.set.toNat →
      exec (.coefSelectSelect h p) s = .next (s.withDev ((s.taken h.ring).complete (ownCtx h 0x05) OK))) ∧
    (p.imageC = ~~~p.image → s.fld (sB n) SLICE_LOOP_STATUS_COEF_SET ≠ p.set.toNat → s.loopState n = 0 → s.sched = [] →
      ∃ t, exec (.coefSelectSelect h p) s = .next t ∧ t.fld (sB n) SLICE_LOOP_STATUS_COEF_SET = p.set.toNat ∧ t.loopState n = 0 ∧
        t.mem = s.mem ∧ t.sched = [] ∧ t.now = (s.taken h.ring).now) ∧
    (p.imageC = ~~~p.image → s.fld (sB n) SLICE_LOOP_STATUS_COEF_SET ≠ p.set.toNat → s.loopState n ≠ 0 → s.sched = [] →
      ∃ t, exec (.coefSelectSelect h p) s = .next t ∧ t.flag (sB n) SLICE_COEF_WSTATUS_PENDING = true ∧
        t.fld (sB n) SLICE_COEF_WSTATUS_PENDING_SET = p.set.toNat ∧ t.fld (sB n) SLICE_LOOP_STATUS_COEF_SET = s.fld (sB n) SLICE_LOOP_STATUS_COEF_SET ∧
        t.sched = [{ ctx := ownCtx h 0x05, cmd := .coefSelect 0 p, group := r.first, mask := bit32 n.val, after := t.now + 200
                     at_ := 0, status := 0, vmask := 0, wmask := 0, time := 0 }] ∧ t.mem = s.mem)) ∧
  (∀ (s : State) (h : Hdr) (r : GroupRec) (p : CoefP) (n : SliceId), s.ready h r → r.masked p.mask = [n] → p.imageC = ~~~p.image →
    s.flag (sB n) SLICE_COEF_WSTATUS_AGILE_BUSY = false →
    (coefFault p 1 r = none → p.image.extractLsb' 120 8 = 0 → (s.loopState n = 0 ∨ s.fld (sB n) SLICE_LOOP_STATUS_COEF_SET ≠ p.set.toNat) →
      ∃ t, exec (.coefSelectWrite h p) s = .next t ∧
        t.bytes (s.coefAddr n p.comp.toNat p.set.toNat) 32 = leBytes 16 p.image.toNat ++ leBytes 16 p.imageC.toNat ∧
        (∀ a, a < s.coefAddr n p.comp.toNat p.set.toNat ∨ s.coefAddr n p.comp.toNat p.set.toNat + 32 ≤ a → t.byte a = s.byte a) ∧
        t.slices = s.slices ∧ t.sched = s.sched ∧ t.now = (s.taken h.ring).now) ∧
    (coefFault p 2 r = none → p.field.toNat < 7 → (s.loopState n = 0 ∨ s.fld (sB n) SLICE_LOOP_STATUS_COEF_SET ≠ p.set.toNat) →
      ∃ t, exec (.coefSelectWriteOne h p) s = .next t ∧
        t.num (s.coefAddr n p.comp.toNat p.set.toNat + 2 * p.field.toNat) 2 = p.image.toNat ∧
        t.num (s.coefAddr n p.comp.toNat p.set.toNat + 16 + 2 * p.field.toNat) 2 = 65535 - p.image.toNat ∧
        (∀ a, a < s.coefAddr n p.comp.toNat p.set.toNat ∨ s.coefAddr n p.comp.toNat p.set.toNat + 32 ≤ a → t.byte a = s.byte a) ∧
        t.slices = s.slices ∧ t.sched = s.sched) ∧
    (coefFault p 1 r = none → p.image.extractLsb' 120 8 = 0 → s.loopState n ≠ 0 → s.fld (sB n) SLICE_LOOP_STATUS_COEF_SET = p.set.toNat →
      s.flag (sB n) SLICE_LOOP_CFG_AGILE = false →
      exec (.coefSelectWrite h p) s = .next (s.withDev ((((s.taken h.ring).setFlag (sB n) SLICE_COEF_WSTATUS_REFUSED_WR true).note n).complete
        (ownCtx h 0x05) LOOP_CLOSED)))) ∧
  (∀ (s : State) (n : SliceId) (r : GroupRec), s.domains = true → s.group (s.low n).val = some r →
    (∀ (x : Sched) (p : CoefP), s.sched = [x] → x.cmd = .coefSelect 0 p → x.mask.getLsbD n.val = true → x.due (s.effectAt r).1 (s.effectAt r).2 = true →
      exec (.coefSwitch n) s = .next (s.withDev (((s.switchSlice n x p.set.toNat).setFlag (sB n) SLICE_COEF_WSTATUS_PENDING
        ((s.switchSlice n x p.set.toNat).sched.any (fun y => isSelect y.cmd && y.mask.getLsbD n.val))).settle
          (fun y => isSelect y.cmd && y.mask == 0 && y.vmask == 0) (fun _ => (OK, (s.effectAt r).2))))) ∧
    (s.sched = [] → exec (.coefSwitch n) s = .next s)) ∧
  ((∀ (s : State) (g : GroupId) (r : GroupRec) (v : Word), s.awake = true → s.group g.val = some r → getBits v.toNat 0 16 < 100 →
    ∃ t, exec (.loopDivWrite g v) s = .next t ∧ t.flag (sB g) SLICE_LOOP_STATUS_REFUSED = true ∧ s.keeps t.toDev [sB g + SLICE_LOOP_STATUS] ∧ t.slices = s.slices) ∧
  (∀ (s : State) (g : GroupId) (r : GroupRec) (v : Word), s.awake = true → s.group g.val = some r → s.groupOpen r = true → 100 ≤ getBits v.toNat 0 16 →
    (∀ l ∈ (r.slices.map (fun k => s.laneOf k.val)).eraseDups, lanePlanOk (((List.range 32).zip s.plates.lanes).filter (fun x => x.2.lane == l))
      (fun k => match s.groupOf k with
        | some q => if q.first == r.first then getBits v.toNat 0 16 else s.divider q.first
        | none => 0) = true) →
    ∃ t, exec (.loopDivWrite g v) s = .next t ∧ t.rd (sB g + SLICE_LOOP_DIV) = (s.store (sB g + SLICE_LOOP_DIV) v).rd (sB g + SLICE_LOOP_DIV) ∧
      (∃ o, (t.eng g).divOld = some (o, s.now)) ∧ s.keeps t.toDev [sB g + SLICE_LOOP_DIV]) ∧
  (∀ (s : State) (n : SliceId) (v : Word), s.awake = true → (getBits v.toNat 0 13 < 2 ∨ 4096 < getBits v.toNat 0 13 ∨ (s.route n).kind = 0) →
    ∃ t, exec (.loopOuterWrite n v) s = .next t ∧ t.flag (sB n) SLICE_LOOP_STATUS_REFUSED = true ∧ s.keeps t.toDev [sB n + SLICE_LOOP_STATUS]) ∧
  (∀ (s : State) (n : SliceId) (r : GroupRec) (v : Word), s.awake = true → s.groupOf n.val = some r → s.groupOpen r = true → 2 ≤ getBits v.toNat 0 13 →
    getBits v.toNat 0 13 ≤ 4096 → getBits v.toNat 16 12 < getBits v.toNat 0 13 → (s.route n).kind ≠ 0 →
    ∃ t, exec (.loopOuterWrite n v) s = .next t ∧ t.rd (sB n + SLICE_LOOP_OUTER) = (s.store (sB n + SLICE_LOOP_OUTER) v).rd (sB n + SLICE_LOOP_OUTER) ∧
      s.keeps t.toDev [sB n + SLICE_LOOP_OUTER]))

/-- R206, R208, R209: the outer law runs within the sample that waits for it when a new word stands behind each part of its
variable, then the sample's own law; with a word that has not changed since the previous outer tick the outer law is skipped
and counted, and at HOLD_LIMIT of them the slice parks. With no sample waiting nothing happens. R174: a parity error in a
lane's memories holds the loop of every slice the lane serves and raises the source of each; the restore of a lane that is
being restored ends its slices' hold at their next tick and the block reset with it. -/
def Obligations.OuterLawAndLaneRestore : Prop :=
  ((∀ (s : State) (n : SliceId) (c e run : Nat) (d : Dev), s.awake = true → (s.sl n).outerWait = some (c, e) →
    d = s.modSl n (fun x => { x with outerWait := none, outTags := s.outerTags n }) →
    run = min 255 (s.fld (sB n) SLICE_OUTER_STATUS_STALE_RUN + 1) →
    (((s.sl n).outTags.zip (s.outerTags n)).any (fun p => p.1 == p.2) = false →
      exec (.outerTick n) s = .next (s.withDev (((d.outerLaw n).lawAndWork n true c e).observe n))) ∧
    ((s.sl n).outTags.length = (s.outerTags n).length → ((s.sl n).outTags.zip (s.outerTags n)).any (fun p => p.1 == p.2) = true →
      (s.sl n).closing = false → (s.sl n).reinit = false → run < s.fld (sB n) SLICE_LOOP_CFG_HOLD_LIMIT →
      exec (.outerTick n) s = .next (s.withDev ((((d.setFlag (sB n) SLICE_OUTER_STATUS_STALE true).setFld (sB n) SLICE_OUTER_STATUS_STALE_RUN
        run).lawAndWork n true c e).observe n))) ∧
    ((s.sl n).outTags.length = (s.outerTags n).length → ((s.sl n).outTags.zip (s.outerTags n)).any (fun p => p.1 == p.2) = true →
      s.fld (sB n) SLICE_LOOP_CFG_HOLD_LIMIT ≤ run →
      exec (.outerTick n) s = .next (s.withDev (((((d.setFlag (sB n) SLICE_OUTER_STATUS_STALE true).setFld (sB n) SLICE_OUTER_STATUS_STALE_RUN
        run).causePark n).raiseSlice n 1 1).observe n)))) ∧
  (∀ (s : State) (n : SliceId), (s.sl n).outerWait = none → exec (.outerTick n) s = .next s)) ∧
  ((∀ (s : State) (l : LaneId), s.awake = true → s.served l.val = [] → s.col.queue = [] →
    ∃ t, exec (.laneParityError l) s = .next t ∧ l.val ∈ t.col.lanes ∧ t.slices = s.slices ∧ t.mem = s.mem) ∧
  (∀ (s : State) (l : LaneId) (n : SliceId), s.awake = true → s.served l.val = [n] →
    exec (.laneParityError l) s = .next (s.withDev (((s.restoreHold n).modCol (fun c => { c with lanes := addNat l.val c.lanes })).raise
      (n.val * 8 + 7) 0 0 n.val))) ∧
  (∀ (s : Dev) (n : SliceId), (s.sl n).phase = .running → s.fld (sB n) SLICE_LOOP_STATUS_STATE = 1 →
    (s.restoreHold n).fld (sB n) SLICE_LOOP_STATUS_STATE = 2 ∧ (s.restoreHold n).flag (sB n) SLICE_FORCE_STATUS_HOLD = true ∧
    (s.restoreHold n).flag (sB n) SLICE_LOOP_STATUS_RESTORE = true ∧ ((s.restoreHold n).sl n).restoring = true ∧
    s.keeps (s.restoreHold n) [sB n + SLICE_LOOP_STATUS, sB n + SLICE_FORCE_STATUS]) ∧
  (∀ (s : State) (l : LaneId), s.awake = true → s.resetting (target 0 l.val) = true →
    exec (.laneRestoreDone l) s = .next (s.withDev ((s.each (s.served l.val) Dev.restoreSlice).endReset (target 0 l.val)))))

/-- R375: SET checks its complement first, then the limits, then its fields, each with its offset, and otherwise waits for the
tick it names; at the tick its values take effect on each slice of its mask and it completes OK with the TIME of the tick. -/
def Obligations.SetChecksThenWaits : Prop :=
  (∀ (s : State) (h : Hdr) (r : GroupRec) (p : SetP), s.ready h r →
    (p.valueC ≠ ~~~p.value → exec (.set h p) s = .next (s.withDev ((s.taken h.ring).completeAt (ownCtx h 0x01) INTEGRITY 8 (s.taken h.ring).time))) ∧
    (p.valueC = ~~~p.value → (∃ n ∈ r.masked p.mask, s.setValueOk n p = false) →
      exec (.set h p) s = .next (s.withDev ((s.taken h.ring).completeAt (ownCtx h 0x01) LIMIT 4 (s.taken h.ring).time))) ∧
    (p.valueC = ~~~p.value → (∀ n ∈ r.masked p.mask, s.setValueOk n p = true ∧ s.setLimitsOk n p = true) → r.maskOk p.mask = true →
      3 < p.mode.toNat → exec (.set h p) s = .next (s.withDev ((s.taken h.ring).completeAt (ownCtx h 0x01) BAD_PARAM 0x0C (s.taken h.ring).time))) ∧
    (p.valueC = ~~~p.value → (∀ n ∈ r.masked p.mask, s.setValueOk n p = true ∧ s.setLimitsOk n p = true) → r.maskOk p.mask = true →
      p.mode.toNat ≤ 3 → (p.limitSet = 0xFF ∨ p.limitSet.toNat ≤ 15) → p.contour.toNat ≤ 15 →
      exec (.set h p) s = .next (s.withDev ((s.taken h.ring).schedule (ownCtx h 0x01) (.set p) r.first (r.devMask p.mask) ((s.taken h.ring).now + 200) p.at_)))) ∧
  (∀ (s : State) (g : GroupId) (r : GroupRec) (x : Sched) (p : SetP), s.domains = true → s.group g.val = some r → s.sched = [x] → x.cmd = .set p →
    x.group = g.val → x.due (s.effectAt r).1 (s.effectAt r).2 = true →
    exec (.setEffect g) s = .next (s.withDev ((({ s.toDev with sched := [] }).each (sliceList x.mask) (fun e n => e.setSlice n p)).completeAt x.ctx OK 0xFF
      (s.effectAt r).2))) ∧
  (∀ (s : Dev) (n : SliceId) (w : Word), (s.mode n = 1 → s.chainRuns n = false) → (s.mode n = 0 → (s.sl n).vhold = none ∧ (s.sl n).vWait = none) →
    ((s.useSp n w).sl n).sp = .of w ∧ ((s.useSp n w).sl n).spWait = none ∧ s.keeps (s.useSp n w) [])

/-- R226: the checks of CONTOUR_SET in the order of its payload, each with its offset, and the 32 bytes of the set as stored:
three words with their complements and eight zero bytes. Stated for a slice that is a group by itself. R232: GEN_SET checks
its fields, answers BUSY while one is pending on a slice it names, and otherwise waits for its tick with PENDING set; at the
tick its profile is loaded and it completes. Profile 0 stops the generator: mode, amplitude, offset and noise are 0. R227,
R230: at a sampling instant the phase is FREQ × TIME + PHASE0 modulo 2⁴⁸; with neither shape nor noise the value is the
offset. R234, R236: generator registers keep to their spans: a noise seed of 0, a profile base off a 64-byte boundary and a
table length of 1 are refused and keep their registers; a seed that is not 0 is stored. -/
def Obligations.GeneratorsAndContours : Prop :=
  (∀ (s : State) (h : Hdr) (r : GroupRec) (p : ContourP) (n : SliceId), s.ready h r → r.masked p.mask = [n] →
    (14 < p.set.toNat → exec (.contourSet h p) s = .next (s.withDev ((s.taken h.ring).completeAt (ownCtx h 0x0B) BAD_PARAM 0 (s.taken h.ring).time))) ∧
    (p.set.toNat ≤ 14 → r.maskOk p.mask = true → p.vel = 0 →
      exec (.contourSet h p) s = .next (s.withDev ((s.taken h.ring).completeAt (ownCtx h 0x0B) BAD_PARAM 8 (s.taken h.ring).time))) ∧
    (p.set.toNat ≤ 14 → r.maskOk p.mask = true → p.vel ≠ 0 → p.acc ≠ 0 → p.jerk ≠ 0 → p.imageC ≠ ~~~(p.jerk ++ p.acc ++ p.vel) →
      exec (.contourSet h p) s = .next (s.withDev ((s.taken h.ring).completeAt (ownCtx h 0x0B) INTEGRITY 0x14 (s.taken h.ring).time))) ∧
    (p.set.toNat ≤ 14 → r.maskOk p.mask = true → p.vel ≠ 0 → p.acc ≠ 0 → p.jerk ≠ 0 → p.imageC = ~~~(p.jerk ++ p.acc ++ p.vel) →
      ∃ t, exec (.contourSet h p) s = .next t ∧
        t.word ((s.rd (gB n + GEN_CONTOUR_BASE)).toNat + 32 * p.set.toNat) = p.vel ∧
        t.word ((s.rd (gB n + GEN_CONTOUR_BASE)).toNat + 32 * p.set.toNat + 4) = ~~~p.vel ∧
        t.word ((s.rd (gB n + GEN_CONTOUR_BASE)).toNat + 32 * p.set.toNat + 8) = p.acc ∧
        t.word ((s.rd (gB n + GEN_CONTOUR_BASE)).toNat + 32 * p.set.toNat + 16) = p.jerk ∧
        t.num ((s.rd (gB n + GEN_CONTOUR_BASE)).toNat + 32 * p.set.toNat + 24) 8 = 0 ∧
        (∀ a, a < (s.rd (gB n + GEN_CONTOUR_BASE)).toNat + 32 * p.set.toNat ∨ (s.rd (gB n + GEN_CONTOUR_BASE)).toNat + 32 * p.set.toNat + 32 ≤ a →
          t.byte a = s.byte a) ∧ t.slices = s.slices ∧ t.sched = s.sched)) ∧
  ((∀ (s : State) (h : Hdr) (r : GroupRec) (p : GenP) (n : SliceId), s.ready h r → r.masked p.mask = [n] → p.profile.toNat ≤ 15 → p.flags.toNat ≤ 1 →
    r.maskOk p.mask = true →
    (s.flag (gB n) GEN_STATUS_PENDING = true → exec (.genSet h p) s = .next (s.withDev ((s.taken h.ring).complete (ownCtx h 0x0A) BUSY))) ∧
    (s.flag (gB n) GEN_STATUS_PENDING = false →
      ∃ t, exec (.genSet h p) s = .next t ∧ t.flag (gB n) GEN_STATUS_PENDING = true ∧ s.keeps t.toDev [gB n + GEN_STATUS] ∧
        t.sched = s.sched ++ [{ ctx := ownCtx h 0x0A, cmd := .genSet p, group := r.first, mask := r.devMask p.mask, after := t.now + 200
                                at_ := p.at_, status := 0, vmask := 0, wmask := 0, time := 0 }])) ∧
  (∀ (s : State) (g : GroupId) (r : GroupRec) (x : Sched) (p : GenP), s.domains = true → s.group g.val = some r → s.sched = [x] → x.cmd = .genSet p →
    x.group = g.val → (s.eng (sid r.first)).due = false → x.due (s.effectAt r).1 (s.effectAt r).2 = true →
    exec (.genSetEffect g) s = .next (s.withDev (({ s.toDev with sched := [] }.genEffect x p (s.effectAt r).2).finishTick g))) ∧
  (∀ (s : Dev) (n : SliceId), (s.loadProfile n 0).2 = OK ∧ (s.loadProfile n 0).1.rd (gB n + GEN_MODE) = 0 ∧ (s.loadProfile n 0).1.rd (gB n + GEN_AMPL) = 0 ∧
    (s.loadProfile n 0).1.rd (gB n + GEN_OFFSET) = 0 ∧ (s.loadProfile n 0).1.rd (gB n + GEN_NOISE_AMPL) = 0 ∧
    s.keeps (s.loadProfile n 0).1 [gB n + GEN_MODE, gB n + GEN_AMPL, gB n + GEN_OFFSET, gB n + GEN_NOISE_AMPL])) ∧
  (∀ (s : Dev) (n : SliceId), s.fld (gB n) GEN_MODE_SHAPE = 0 → s.fld (gB n) GEN_MODE_NOISE = 0 →
    (s.waveSample n).theta n = (s.rd48 (gB n + GEN_FREQ_LO) (gB n + GEN_FREQ_HI) * (s.sl n).instant.toNat
      + s.rd48 (gB n + GEN_PHASE0_LO) (gB n + GEN_PHASE0_HI)) % 2 ^ 48 ∧
    (s.waveSample n).rd (gB n + GEN_VALUE) = s.rd (gB n + GEN_OFFSET) ∧ ((s.waveSample n).gen n).w = (s.rd (gB n + GEN_OFFSET)).toInt ∧
    ((s.waveSample n).gen n).lfsr = (s.gen n).lfsr ∧
    s.keeps (s.waveSample n) [gB n + GEN_PHASE_LO, gB n + GEN_PHASE_HI, gB n + GEN_VALUE]) ∧
  (∀ (s : State) (n : SliceId) (v : Word), s.awake = true →
    (∃ t, exec (.genRegisterWrite n GEN_NOISE_SEED 0) s = .next t ∧ t.flag (gB n) GEN_STATUS_REFUSED = true ∧ s.keeps t.toDev [gB n + GEN_STATUS]) ∧
    (v ≠ 0 → ∃ t, exec (.genRegisterWrite n GEN_NOISE_SEED v) s = .next t ∧ t.rd (gB n + GEN_NOISE_SEED) = v ∧ s.keeps t.toDev [gB n + GEN_NOISE_SEED]) ∧
    (v.toNat % 64 ≠ 0 → ∃ t, exec (.genRegisterWrite n GEN_PROF_BASE v) s = .next t ∧ t.flag (gB n) GEN_STATUS_REFUSED = true ∧
      s.keeps t.toDev [gB n + GEN_STATUS]) ∧
    (getBits v.toNat 0 17 = 1 → ∃ t, exec (.genRegisterWrite n GEN_TABLE_LEN v) s = .next t ∧ t.flag (gB n) GEN_STATUS_REFUSED = true ∧
      s.keeps t.toDev [gB n + GEN_STATUS]) ∧
    (v.toNat % 64 = 0 → inSystem v.toNat 960 = true → s.flag (gB n) GEN_STATUS_PENDING = false →
      ∃ t, exec (.genRegisterWrite n GEN_PROF_BASE v) s = .next t ∧ t.rd (gB n + GEN_PROF_BASE) = v ∧ s.keeps t.toDev [gB n + GEN_PROF_BASE]) ∧
    (∀ o, o ∉ [GEN_CONTOUR_BASE, GEN_PROF_BASE, GEN_TABLE_BASE, GEN_TABLE_LEN, GEN_NOISE_SEED] →
      ∃ t, exec (.genRegisterWrite n o v) s = .next t ∧ t.rd (gB n + o) = (s.store (gB n + o) v).rd (gB n + o) ∧ s.keeps t.toDev [gB n + o]))

/-- R246: what follows a step: the next one of its leg; after the last one the leg again, until REP passes are done, for ever
where REP is 0xFFFFFFFF; then the successor leg, where 0xFFFF ends the path, and the exit interrupt of a leg with EXIT_IRQ. -/
def Obligations.PathsFollowTheirLegs : Prop :=
  ∀ (s : Dev) (g : GroupId) (p : PathPos),
    (p.step + 1 < p.desc.count → s.follow g p = (s, .step { p with step := p.step + 1 }) ∧ p.exits = false) ∧
    (p.desc.count ≤ p.step + 1 → p.desc.rep = 0xFFFFFFFF →
      s.follow g p = (s, .step { p with step := 0, pass := (p.pass + 1) % 2 ^ 32 }) ∧ p.exits = false) ∧
    (p.desc.count ≤ p.step + 1 → p.desc.rep < 0xFFFFFFFF → p.pass + 1 < p.desc.rep →
      s.follow g p = (s, .step { p with step := 0, pass := p.pass + 1 }) ∧ p.exits = false) ∧
    (p.desc.count ≤ p.step + 1 → p.desc.rep < 0xFFFFFFFF → p.pass + 1 = p.desc.rep →
      s.follow g p = s.enterRead g p.desc.succ ∧ p.exits = bitOf p.desc.flags 3) ∧
    s.enter g 0xFFFF = .idle

/-- R242, R244, R253, R277, R278: conditions of waits. A mark on TIME is met in the cycle in which TIME reaches it, a mark of
any axis once it has been reached, late if it was passed before; in HOLD it counts as late. A trigger that the PINS plate
enables, a link trigger and the WIN event meet the wait that names them and no other; a doorbell that none awaits stays
pending. R240, R242, R248: the fields of a step whose condition was met, as the engine holds them since it read the step,
stand in it 4 cycles later, 6 for a trigger; a step that R29 refuses halts the engine with kind 2 instead. -/
def Obligations.WaitsAreMetAndStepsApply : Prop :=
  ((∀ (s : State) (g : GroupId) (r : GroupRec) (m : Word64), s.domains = true → s.group g.val = some r → s.wantedMark g = some m →
    (r.axis = 0 → s.reachedMark g m = false → s.travState g = 2 → (s.eng g).metAt = none → (s.eng g).late = false → (s.eng g).due = false →
      ∃ t, exec (.markReached g) s = .next t ∧ t.time = m ∧ t.now = s.now + (m - s.time).toNat ∧ (t.eng g).metAt = some t.now ∧ s.keeps t.toDev []) ∧
    (s.reachedMark g m = true → s.travState g = 2 → (s.eng g).metAt = none →
      exec (.markReached g) s = .next (s.withDev (s.meet g (s.eng g).late))) ∧
    (s.reachedMark g m = true → s.travState g = 3 →
      exec (.markReached g) s = .next (s.withDev ((s.bumpSat (tB g + TRAV_LATE)).modEng g (fun e => { e with heldLate := e.heldLate + 1 }))))) ∧
  (∀ (s : State) (g : GroupId) (r : GroupRec) (k : Fin 4), s.domains = true → s.group g.val = some r → s.trigOn k.val = true →
    s.awaiting g (2 + k.val) = true → (s.eng g).due = false →
    ∃ t, exec (.waitConditionMet g (.trigger k)) s = .next t ∧ (t.eng g).metAt = some s.now ∧ t.now = s.now ∧ s.keeps t.toDev []) ∧
  (∀ (s : State) (g : GroupId) (r : GroupRec), s.domains = true → s.group g.val = some r →
    ((s.eng g).due = false → s.awaiting g 7 = true →
      ∃ t, exec (.waitConditionMet g .link) s = .next t ∧ (t.eng g).metAt = some s.now ∧ s.keeps t.toDev []) ∧
    ((s.eng g).due = false → s.awaiting g 8 = true → (s.sl (Fin.ofNat 32 (g.val + s.fld (tB g) TRAV_WAIT_CFG_WIN_SLICE))).winOffer = some s.now →
      ∃ t, exec (.waitConditionMet g .win) s = .next t ∧ (t.eng g).metAt = some s.now ∧ s.keeps t.toDev []) ∧
    (s.awaiting g 9 = true → exec (.waitConditionMet g .barrier) s = .next (s.withDev s.releaseBarrier)) ∧
    (s.awaiting g 7 = false → exec (.waitConditionMet g .link) s = .next s)) ∧
  (∀ (s : State) (g : GroupId) (r : GroupRec), s.awake = true → s.group g.val = some r →
    (s.awaiting g 6 = false → ∃ t, exec (.doorbell g) s = .next t ∧ t.flag (tB g) TRAV_STATUS_DOORBELL_PENDING = true ∧ s.keeps t.toDev [tB g + TRAV_STATUS] ∧
      t.engines = s.engines) ∧
    (s.awaiting g 6 = true → (s.eng g).due = false → ∃ t, exec (.doorbell g) s = .next t ∧ (t.eng g).metAt = some s.now ∧ s.keeps t.toDev []))) ∧
  (∀ (s : State) (g : GroupId) (r : GroupRec) (p : PathPos) (h : HeldStep) (c : Nat) (d : Dev), s.domains = true → s.group g.val = some r → r.first = g.val →
    s.travState g = 2 → (s.eng g).applied = false → (s.eng g).next = some p → (s.eng g).held = some h → (s.eng g).metAt = some c →
    d = s.upTo (c + waitLatency (s.fld (tB g) TRAV_STATUS_WAIT)) →
    ((d.holding h).stepFieldsOk r (p.index r.size) = true →
      ∃ t, exec (.stepApply g) s = .next t ∧ (t.eng g).applied = true ∧ (t.eng g).next = some p ∧
        t.now = max s.now (c + waitLatency (s.fld (tB g) TRAV_STATUS_WAIT)) ∧ s.keeps t.toDev []) ∧
    ((d.holding h).stepFieldsOk r (p.index r.size) = false → exec (.stepApply g) s = .next (s.withDev (d.halt g 2 (p.index r.size)))))

/-- R241, R243, R256, R258: the events of an engine that fall on a tick. At a dwell boundary a LEG_STOP that waits goes before a
sampled jump, a jump before the path's next step; a wait that times out raises kind 4 and goes on with its step, stops, or
leaves for the successor, as its leg says; a start that is due takes its leg's first step. R248, R249, R254: a prefetch
reads the next step of the path into the window while it holds fewer than 256 words and the step's segment is READY or
ACTIVE, and holds its words, the mark and the sets it names; an engine in HOLD whose segment is READY resumes, at its next
tick, at the step it holds when its leg says RESUME, and otherwise where the skip leads. -/
def Obligations.EngineEventsAndPrefetch : Prop :=
  ((∀ (s : State) (g : GroupId) (r : GroupRec) (d : Dev), s.domains = true → s.group g.val = some r → r.first = g.val → s.travState g = 1 →
    (s.eng g).due = true → (s.eng g).applied = false → d = s.modEng g (fun e => { e with due := false }) →
    ((s.eng g).stops ≠ [] → exec (.dwellBoundary g) s = .next (s.withDev ((d.leavePath g 0).finishTick g))) ∧
    (∀ j, (s.eng g).stops = [] → (s.eng g).sampled = some j → exec (.dwellBoundary g) s = .next (s.withDev ((d.takeJump r j).finishTick g))) ∧
    (∀ p, (s.eng g).stops = [] → (s.eng g).sampled = none → (s.eng g).pos = some p →
      exec (.dwellBoundary g) s = .next (s.withDev ((d.goOn r p).finishTick g)))) ∧
  (∀ (s : State) (g : GroupId) (r : GroupRec) (p : PathPos) (d : Dev) (x : Dev × Place), s.domains = true → s.group g.val = some r → r.first = g.val →
    s.travState g = 2 → (s.eng g).due = true → (s.eng g).metAt = none → (s.eng g).next = some p →
    d = (s.modEng g (fun e => { e with due := false })).travFault g 4 (p.index r.size) → d.travState g = 2 →
    (getBits p.desc.flags 1 2 = 0 → s.fld (tB g) TRAV_STATUS_WAIT ≠ 1 → exec (.waitTimeout g) s = .next (s.withDev ((d.modEng g (fun e =>
      { e with metAt := some (d.now + 4 - waitLatency (s.fld (tB g) TRAV_STATUS_WAIT)) })).finishTick g))) ∧
    (getBits p.desc.flags 1 2 = 1 → exec (.waitTimeout g) s = .next (s.withDev (((d.dropStarts g).leavePath g 0).finishTick g))) ∧
    (2 ≤ getBits p.desc.flags 1 2 → x = ((d.modEng g (fun e => { e with window := .none, held := none })).legExit g (bitOf p.desc.flags 3)).enterRead g
      p.desc.succ → exec (.waitTimeout g) s = .next (s.withDev (((x.1.goPlace r x.2).sweep).finishTick g)))) ∧
  (∀ (s : State) (g : GroupId) (r : GroupRec) (c : Ctx) (leg a : Nat) (t : Word64) (d : Dev), s.domains = true → s.group g.val = some r → r.first = g.val →
    (s.eng g).start = some (c, leg, t, a) → (s.eng g).due = true → a ≤ (s.eng g).tickAt → t.toNat ≤ (s.eng g).tickTime.toNat →
    d = s.modEng g (fun e => { e with start := none, due := false, waiters := [c] }) →
    (∀ q, (s.eng g).window.place = some q → exec (.legStartFirstStep g) s = .next (s.withDev ((d.goPlace r q).finishTick g))) ∧
    ((s.eng g).window.place = none → exec (.legStartFirstStep g) s =
      .next (s.withDev (((d.enterRead g leg).1.goPlace r (d.enterRead g leg).2).finishTick g))))) ∧
  ((∀ (s : State) (g : GroupId) (r : GroupRec) (q : PathPos), s.domains = true → s.group g.val = some r → r.first = g.val →
    (s.travState g = 1 ∨ s.travState g = 2 ∨ (s.eng g).start.isSome = true) → (s.eng g).window.last = some (.step q) →
    ((s.eng g).window.steps.length + 2) * r.size ≤ 256 → s.mayEnter g (q.index r.size) = true →
    exec (.prefetchRead g) s = .next (s.withDev ((s.fetchStep r q).1.modEng g (fun e =>
      { e with window := ⟨e.window.steps ++ [(s.fetchStep r q).2], none⟩ })))) ∧
  (∀ (s : State) (g : GroupId) (r : GroupRec) (p q : PathPos), s.domains = true → s.group g.val = some r → r.first = g.val → s.memst.bad = [] →
    (s.eng g).window = .none → (s.eng g).next = none → (s.eng g).pos = some p → s.travState g = 1 → r.size ≤ 32 → p.next = some q →
    s.mayEnter g (q.index r.size) = true →
    ∃ t x, exec (.prefetchRead g) s = .next t ∧ (t.eng g).window = ⟨[x], none⟩ ∧ x.pos = q ∧ x.ix = q.index r.size ∧
      x.wait = (s.station (q.index r.size)).wait ∧ (x.cells.head? = some (16 * x.ix, s.bytes (16 * x.ix) (16 * r.size))) ∧
      (t.seg (segOf (q.index r.size))).1 = 2 ∧ s.keeps t.toDev []) ∧
  (∀ (s : State) (g : GroupId) (r : GroupRec) (p : PathPos), s.domains = true → s.group g.val = some r → (s.eng g).next = some p → s.travState g = 3 →
    (s.eng g).resume = none → s.mayEnter g (p.index r.size) = true →
    (bitOf p.desc.flags 0 = true →
      exec (.underrunResume g) s = .next (s.withDev (((s.fetchStep r p).1.modEng g (fun e =>
        { e with next := some p, window := ⟨[(s.fetchStep r p).2], none⟩, resume := some (.step p) })).sweep))) ∧
    (∀ (q : Dev × Window × Bool) (n : PathPos), bitOf p.desc.flags 0 = false → q = Dev.skipOn g r 1048576 s.toDev p false → q.2.2 = false →
      q.2.1.place = some (.step n) →
      exec (.underrunResume g) s = .next (s.withDev ((q.1.modEng g (fun e =>
        { e with next := some n, window := q.2.1, resume := some (.step n) })).sweep)))) ∧
  (∀ (s : Dev) (r : GroupRec) (p : PathPos), (s.fetchStep r p).2.pos = p ∧ (s.fetchStep r p).2.ix = p.index r.size ∧
    (s.fetchStep r p).2.wait = (s.station (p.index r.size)).wait))

/-- R249: SEGMENT_READY makes a segment READY, with or without KEEP, or FREE; it refuses a segment number above 63 and one the
GROUP plate gives to another group, and answers BUSY for an ACTIVE one. R161, R255, R260, R262: an armed request that its
register enables arrives in the latch, where its window is filled, a trigger's 2 cycles after its edge at the ball; a
comparator's takes the WIN event that stands; a request of a source that is not enabled does nothing; a filled window lets
its request arrive; a write of `TRAV_JUMP_CFG` that names a slice outside the group or a trigger the PINS plate does not
enable is discarded. -/
def Obligations.SegmentsAndJumps : Prop :=
  (∀ (s : State) (h : Hdr) (r : GroupRec) (k : Byte), s.ready h r →
    (63 < k.toNat → exec (.segmentReady h k) s = .next (s.withDev ((s.taken h.ring).completeAt (ownCtx h 0x10) BAD_PARAM 0 (s.taken h.ring).time))) ∧
    (k.toNat ≤ 63 → s.plates.segOwner.getD k.toNat 0xFF ≠ 0xFF → s.plates.segOwner.getD k.toNat 0xFF ≠ h.group.toNat % 32 →
      exec (.segmentReady h k) s = .next (s.withDev ((s.taken h.ring).completeAt (ownCtx h 0x10) BAD_PARAM 0 (s.taken h.ring).time))) ∧
    (k.toNat ≤ 63 → (s.plates.segOwner.getD k.toNat 0xFF = 0xFF ∨ s.plates.segOwner.getD k.toNat 0xFF = h.group.toNat % 32) →
      ((s.seg k.toNat).1 = 2 →
        exec (.segmentReady h k) s = .next (s.withDev ((s.taken h.ring).complete (ownCtx h 0x10) BUSY))) ∧
      ((s.seg k.toNat).1 ≠ 2 →
        (∃ t, exec (.segmentReady h k) s = .next t ∧ t.seg k.toNat = (1, false) ∧ (∀ j, j < 64 → j ≠ k.toNat → t.seg j = s.seg j) ∧ t.mem = s.mem) ∧
        (∃ t, exec (.segmentReadyKeep h k) s = .next t ∧ t.seg k.toNat = (1, true) ∧ (∀ j, j < 64 → j ≠ k.toNat → t.seg j = s.seg j) ∧ t.mem = s.mem) ∧
        (∃ t, exec (.segmentFree h k) s = .next t ∧ t.seg k.toNat = (0, false) ∧ (∀ j, j < 64 → j ≠ k.toNat → t.seg j = s.seg j) ∧ t.mem = s.mem)))) ∧
  ((∀ (s : State) (g : GroupId) (r : GroupRec) (k : Fin 4), s.domains = true → s.group g.val = some r → r.first = g.val →
    s.flag (tB g) TRAV_JUMP_CFG_TRIG_EN = true →
    s.fld (tB g) TRAV_JUMP_CFG_TRIG_SEL = k.val → s.trigOn k.val = true → (s.eng g).armed.isSome = true → (s.eng g).latch = none →
    ∃ t, exec (.jumpRequest g (.trigger k)) s = .next t ∧ (t.eng g).latch = some ⟨none, s.fld (tB g) TRAV_JUMP_CFG_TARGET, s.now + 2, 1⟩ ∧
      t.flag (tB g) TRAV_STATUS_JUMP_PENDING = true ∧ s.keeps t.toDev [tB g + TRAV_STATUS]) ∧
  (∀ (s : State) (g : GroupId) (r : GroupRec) (n : SliceId), s.domains = true → s.group g.val = some r → r.first = g.val →
    s.flag (tB g) TRAV_JUMP_CFG_CMP_EN = true → r.first + s.fld (tB g) TRAV_JUMP_CFG_CMP_SLICE = n.val → (s.sl n).winOffer.isSome = true →
    (s.eng g).armed.isSome = true → (s.eng g).latch = none →
    ∃ t, exec (.jumpRequest g (.comparator n)) s = .next t ∧ (t.eng g).latch = some ⟨none, s.fld (tB g) TRAV_JUMP_CFG_TARGET, s.now, 0⟩ ∧
      (t.sl n).winOffer = none ∧ t.flag (tB g) TRAV_STATUS_JUMP_PENDING = true ∧ s.keeps t.toDev [tB g + TRAV_STATUS]) ∧
  (∀ (s : State) (g : GroupId) (k : Fin 4), s.flag (tB g) TRAV_JUMP_CFG_TRIG_EN = false → exec (.jumpRequest g (.trigger k)) s = .next s) ∧
  (∀ (s : State) (g : GroupId) (r : GroupRec), s.domains = true → s.group g.val = some r →
    (∀ j, (s.eng g).filling = some j → exec (.jumpWindowFilled g true) s = .next (s.withDev (((s.fillWindow r j.leg true).modEng g
      (fun e => { e with filling := none })).arrive g { j with at_ := s.now }))) ∧
    ((s.eng g).armed = none → ((s.fillWindow r (s.fld (tB g) TRAV_JUMP_CFG_TARGET) false).eng g).armWait = none →
      exec (.jumpWindowFilled g false) s = .next (s.withDev (s.fillWindow r (s.fld (tB g) TRAV_JUMP_CFG_TARGET) false)))) ∧
  (∀ (s : State) (g : GroupId) (r : GroupRec) (v : Word), s.group g.val = some r →
    (r.size ≤ getBits v.toNat 4 5 ∨ s.trigOn (getBits v.toNat 1 2) = false) → exec (.jumpCfgWrite g v) s = .next s) ∧
  (∀ (s : State) (g : GroupId) (r : GroupRec) (v : Word), s.awake = true → s.group g.val = some r → getBits v.toNat 4 5 < r.size →
    s.trigOn (getBits v.toNat 1 2) = true → (s.eng g).latch = none →
    exec (.jumpCfgWrite g v) s = .next (s.withDev (((s.store (tB g + TRAV_JUMP_CFG) v).modEng g (fun e =>
      { e with armed := none, armWait := none })).sweep))))

/-- R257, R258, R259: the leg commands. A leg above 4,095 is a bad field; a jump whose window must be filled waits for it; a
start on an engine that runs answers BUSY, one while INTERLOCK_N is low PARKED, and another waits 200 cycles for its tick; a
stop in mode 0 acts at once, one in mode 1 waits for the boundary of a dwelling engine. -/
def Obligations.LegCommands : Prop :=
  ∀ (s : State) (h : Hdr) (r : GroupRec), s.ready h r →
    (∀ leg : BitVec 16, 4095 < leg.toNat →
      exec (.legJump h leg) s = .next (s.withDev ((s.taken h.ring).completeAt (ownCtx h 0x07) BAD_PARAM 0 (s.taken h.ring).time))) ∧
    (∀ (leg : BitVec 16) (j : JumpReq) (d : Dev), s.legStatus (sid r.first) leg.toNat r.size = OK → (s.eng (sid r.first)).filling = none →
      j = ⟨some (ownCtx h 0x07), leg.toNat, (s.taken h.ring).now, 2⟩ →
      d = (s.taken h.ring).modEng (sid r.first) (fun e => { e with filling := some j, command := none }) →
      (d.nothingToFill (sid r.first) leg.toNat = false → exec (.legJump h leg) s = .next (s.withDev d.sweep)) ∧
      (d.nothingToFill (sid r.first) leg.toNat = true → exec (.legJump h leg) s =
        .next (s.withDev (((d.fillWindow r leg.toNat true).modEng (sid r.first) (fun e => { e with filling := none })).arrive (sid r.first) j)))) ∧
    (∀ (d : Dev) (g : GroupId) (j : JumpReq), (d.eng g).latch = none →
      ((d.arrive g j).eng g).latch = some j ∧ (d.arrive g j).flag (tB g) TRAV_STATUS_JUMP_PENDING = true ∧ d.keeps (d.arrive g j) [tB g + TRAV_STATUS]) ∧
    (∀ p : StartP, (s.travState (sid r.first) = 1 ∨ s.travState (sid r.first) = 2 ∨ s.travState (sid r.first) = 3) →
      exec (.legStart h p) s = .next (s.withDev ((s.taken h.ring).complete (ownCtx h 0x06) BUSY))) ∧
    (∀ p : StartP, s.travState (sid r.first) = 0 → (s.eng (sid r.first)).start = none → s.legStatus (sid r.first) p.leg.toNat r.size = OK →
      s.pins.interlockN = false → exec (.legStart h p) s = .next (s.withDev ((s.taken h.ring).complete (ownCtx h 0x06) PARKED))) ∧
    (∀ (p : StartP) (q : PathPos), s.travState (sid r.first) = 0 → (s.eng (sid r.first)).start = none → s.legStatus (sid r.first) p.leg.toNat r.size = OK →
      s.pins.interlockN = true → s.fld 0 DATUM_STATUS_BANK ≠ 3 → s.powerFailing = false → s.enter (sid r.first) p.leg.toNat = .step q →
      s.memst.bad = [] → s.mayEnter (sid r.first) (q.index r.size) = false →
      ∃ t, exec (.legStart h p) s = .next t ∧ (t.eng (sid r.first)).start = some (ownCtx h 0x06, p.leg.toNat, p.at_, t.now + 200) ∧
        t.now = (s.taken h.ring).now ∧ (t.eng (sid r.first)).window.place = some (.step q) ∧ s.keeps t.toDev []) ∧
    (∀ (p : StartP) (x : Dev × Place), (s.travState (sid r.first) = 0 ∨ s.travState (sid r.first) = 4) → (s.eng (sid r.first)).start = none →
      s.legStatus (sid r.first) p.leg.toNat r.size = OK → s.pins.interlockN = true → s.fld 0 DATUM_STATUS_BANK ≠ 3 → s.powerFailing = false →
      x = (s.taken h.ring).enterRead (sid r.first) p.leg.toNat →
      (x.2 = .idle → exec (.legStart h p) s = .next (s.withDev ((x.1.setFld (tB (sid r.first)) TRAV_STATUS_STATE 0).complete (ownCtx h 0x06) OK))) ∧
      (x.2 ≠ .idle → exec (.legStart h p) s = .next (s.withDev ((x.1.modEng (sid r.first) (fun e =>
        { e with start := some (ownCtx h 0x06, p.leg.toNat, p.at_, (s.taken h.ring).now + 200), window := ⟨[], some x.2⟩ })).prefetch r)))) ∧
    exec (.legStopNow h) s = .next (s.withDev (((s.taken h.ring).stopEngine (sid r.first)).complete (ownCtx h 0x08) OK)) ∧
    (s.travState (sid r.first) = 1 →
      ∃ t, exec (.legStopAtBoundary h) s = .next t ∧ (t.eng (sid r.first)).stops = (s.eng (sid r.first)).stops ++ [ownCtx h 0x08] ∧ s.keeps t.toDev []) ∧
    (s.travState (sid r.first) ≠ 1 →
      exec (.legStopAtBoundary h) s = .next (s.withDev (((s.taken h.ring).stopEngine (sid r.first)).complete (ownCtx h 0x08) OK)))

/-- R266, R270: SET_NOW sets TIME to EPOCH in the cycle after the write, SET_PPS leaves a request pending for the next accepted
PPS edge, CANCEL withdraws one; what breaks its condition is refused and leaves a pending request. A set or a step puts TIME
at its new value, records it and its size, ends a slew, passes the marks it jumps over and raises 0x2A2. R267, R268, R269,
R282, R283: an accepted PPS edge shows its offset; before TIME has been set, nothing else follows, up to 2 ns the phase is
trimmed; beyond, a slew of minus the offset starts, or with JUMP_POLICY 1 the next edge steps TIME. An edge with SET_PPS
pending sets TIME; one in the cycle of a SET_NOW write has its offset discarded. An outlier is ignored and raises 0x2A1; 2.5
s without an accepted edge raise 0x2A0. The slew's remainder goes down by one every 10⁹ ÷ SLEW_RATE cycles and SLEWING ends
with it. -/
def Obligations.TimeIsSetAndDisciplined : Prop :=
  ((∀ (s : State) (c : Bool), s.awake = true →
    (s.timeFromLink = false → exec (.timeSetNow ⟨c, false⟩) s = .next (s.withDev
      (((if c then s.setFlag 0 MER_TIME_STATUS_SET_PENDING false else s.toDev).upTo (s.now + 1)).setTime))) ∧
    (s.timeFromLink = true → ∃ t, exec (.timeSetNow ⟨c, false⟩) s = .next t ∧ t.flag 0 MER_TIME_STATUS_REFUSED = true ∧ t.time = s.time ∧
      t.flag 0 MER_TIME_STATUS_SET_PENDING = s.flag 0 MER_TIME_STATUS_SET_PENDING ∧ s.keeps t.toDev [MER_TIME_STATUS])) ∧
  (∀ (s : State) (c : Bool), s.awake = true →
    (s.timeFromLink = false → s.epoch.toNat % 1000000000 = 0 → s.plates.ppsEdge ≠ 0 →
      ∃ t, exec (.timeSetPps c) s = .next t ∧ t.flag 0 MER_TIME_STATUS_SET_PENDING = true ∧ t.time = s.time ∧ t.now = s.now ∧
        s.keeps t.toDev [MER_TIME_STATUS]) ∧
    (s.timeFromLink = true ∨ s.epoch.toNat % 1000000000 ≠ 0 ∨ s.plates.ppsEdge = 0 →
      ∃ t, exec (.timeSetPps c) s = .next t ∧ t.flag 0 MER_TIME_STATUS_REFUSED = true ∧
        t.flag 0 MER_TIME_STATUS_SET_PENDING = s.flag 0 MER_TIME_STATUS_SET_PENDING ∧ s.keeps t.toDev [MER_TIME_STATUS])) ∧
  (∀ s : State, s.awake = true → ∃ t, exec .timeCancel s = .next t ∧ t.flag 0 MER_TIME_STATUS_SET_PENDING = false ∧ t.time = s.time ∧
    s.keeps t.toDev [MER_TIME_STATUS]) ∧
  (∀ (d : Dev) (x : Word64), ∃ e : Dev, d.stepTime x = (e.passMarks (fun a => a == 0) (fun _ => false)).raiseGlobal 0x2A2 0 ∧ e.time = x ∧ e.now = d.now ∧
    e.rd64 MER_STEP_AT_LO MER_STEP_AT_HI = x ∧ e.rd64 MER_STEP_SIZE_LO MER_STEP_SIZE_HI = x - d.time ∧
    e.flag 0 MER_TIME_STATUS_STEPPED = true ∧ e.flag 0 MER_TIME_STATUS_SLEWING = false ∧ e.rd MER_SLEW_LEFT = 0 ∧ e.mem = d.mem)) ∧
  ((∀ s : State, s.domains = true → s.released = true → s.plates.ppsEdge ≠ 0 → s.timeFromLink = false →
    (s.mer.firstEdge = true ∨ s.mer.ppsAt = none ∨ (∃ a, s.mer.ppsAt = some a ∧ oneSecond a s.now = true) ∨
      (∃ a b l, s.mer.outliers = a :: b :: l ∧ oneSecond a s.now = true ∧ oneSecond b a = true)) →
    (∀ o : Int, s.flag 0 MER_TIME_STATUS_SET_PENDING = true → o = offsetOfTime (s.time.toNat - signed 16 (s.fld 0 MER_PPS_CFG_DELAY_NS)) →
      exec .ppsEdge s = .next (s.withDev
        ((((s.modMer (fun x => { x with ppsAt := some s.now, firstEdge := false, outliers := [] })).setPpsOk true).showOffset o).setTime))) ∧
    (∀ c, exec (.timeSetNow ⟨c, true⟩) s = .next (s.withDev
      (((s.modMer (fun x => { x with ppsAt := some s.now, firstEdge := false, outliers := [] })).setPpsOk true).timeCtrl true false c))) ∧
    (∀ o : Int, s.flag 0 MER_TIME_STATUS_SET_PENDING = false → o = offsetOfTime (s.time.toNat - signed 16 (s.fld 0 MER_PPS_CFG_DELAY_NS)) →
      (s.flag 0 MER_TIME_STATUS_TIME_SET = false ∨
        s.mer.stepPending = false ∧ s.flag 0 MER_TIME_STATUS_SLEWING = false ∧ -2 ≤ o ∧ o ≤ 2) →
      ∃ t, exec .ppsEdge s = .next t ∧ t.flag 0 MER_TIME_STATUS_PPS_OK = true ∧ t.rd MER_OFFSET = BitVec.ofNat 32 (unsigned 32 (satS 32 o)) ∧
        t.time = s.time ∧ t.mer.firstEdge = false ∧ t.mer.ppsAt = some s.now ∧ (s.flag 0 MER_TIME_STATUS_TIME_SET = true → t.clk.trim = -1000 * o) ∧ s.keeps t.toDev [MER_TIME_STATUS, MER_IRQ_CAUSE, MER_OFFSET])) ∧
  (∀ (s : State) (a : Nat), s.domains = true → s.released = true → s.plates.ppsEdge ≠ 0 → s.timeFromLink = false → s.mer.firstEdge = false →
    s.mer.ppsAt = some a → oneSecond a s.now = false → (∀ x y l, s.mer.outliers = x :: y :: l → (oneSecond x s.now && oneSecond y x) = false) →
    exec .ppsEdge s = .next (s.withDev ((((s.modMer (fun x => { x with outliers := (s.now :: x.outliers).take 2 })).setFlag 0 MER_TIME_STATUS_OUTLIER true).merEvent
      2).raiseGlobal 0x2A1 0))) ∧
  (∀ (d : Dev) (o : Int), d.flag 0 MER_TIME_STATUS_TIME_SET = true →
    (d.mer.stepPending = true → ∃ e : Dev, d.discipline o = e.stepTime (d.time - BitVec.ofInt 64 o) ∧ e.mem = d.mem ∧
      (∀ a, a ≠ MER_OFFSET → e.rd a = d.rd a)) ∧
    (d.mer.stepPending = false → d.flag 0 MER_TIME_STATUS_SLEWING = false → 2 < o ∨ o < -2 →
      (d.flag 0 MER_PPS_CFG_JUMP_POLICY = true → (d.discipline o).mer.stepPending = true ∧ (d.discipline o).time = d.time ∧
        d.keeps (d.discipline o) [MER_OFFSET]) ∧
      (d.flag 0 MER_PPS_CFG_JUMP_POLICY = false → ∃ e : Dev, d.discipline o = e.raiseGlobal 0x2A3 0 ∧
        e.rd MER_SLEW_LEFT = BitVec.ofNat 32 (unsigned 32 (satS 32 (-o))) ∧ e.flag 0 MER_TIME_STATUS_SLEWING = true ∧ e.time = d.time ∧
        e.mer.slewAt = d.now ∧ d.keeps e [MER_OFFSET, MER_SLEW_LEFT, MER_TIME_STATUS, MER_IRQ_CAUSE]))) ∧
  (∀ (s : State) (a : Nat), s.domains = true → s.plates.ppsEdge ≠ 0 → s.timeFromLink = false → s.mer.ppsAt = some a → exec .ppsLost s = .next (s.withDev
    ((((s.upTo (a + 2500000000)).modMer (fun m => { m with ppsAt := none, firstEdge := true, outliers := [] })).setPpsOk false).raiseGlobal 0x2A0 0))) ∧
  (∀ s : State, s.awake = true → s.slewRate ≠ 0 →
    (1 < (s.rd MER_SLEW_LEFT).toInt → ∃ t, exec .slewDecrement s = .next t ∧ t.rd MER_SLEW_LEFT = s.rd MER_SLEW_LEFT - 1 ∧
      t.now = max s.now (s.mer.slewAt + 1000000000 / s.slewRate) ∧ t.mer.slewAt = t.now ∧ s.keeps t.toDev [MER_SLEW_LEFT]) ∧
    ((s.rd MER_SLEW_LEFT).toInt < -1 → ∃ t, exec .slewDecrement s = .next t ∧ t.rd MER_SLEW_LEFT = s.rd MER_SLEW_LEFT + 1 ∧
      t.now = max s.now (s.mer.slewAt + 1000000000 / s.slewRate) ∧ s.keeps t.toDev [MER_SLEW_LEFT]) ∧
    ((s.rd MER_SLEW_LEFT = 1 ∨ s.rd MER_SLEW_LEFT = 0xFFFFFFFF) → ∃ t, exec .slewDecrement s = .next t ∧ t.rd MER_SLEW_LEFT = 0 ∧
      t.flag 0 MER_TIME_STATUS_SLEWING = false ∧ s.keeps t.toDev [MER_SLEW_LEFT, MER_TIME_STATUS, MER_IRQ_CAUSE])))

/-- R272 to R275, R277, R280: levels of an encoder that stand one place on in the quadrature cycle move its axis by one count of
256 units, 4 cycles later; an edge too close to the last raises 0x2A4 + n, and so does a change of both inputs, which counts
nothing; the first Z pulse defines position 0 and a later one elsewhere raises the source; PRESET loads the axis. A serial
frame, a mains crossing, their losses and the end of the link axis's extrapolation; and the Precision Time Measurement
dialogue, whose pair is the TIME of the request plus the propagation delay and the master's time. -/
def Obligations.AxesFollowTheirInputs : Prop :=
  (∀ (x : AxisSt) (up : Bool) (b c : Nat), (x.edge up b c).value = (if up then x.value + 256 else x.value - 256) ∧ (x.edge up b c).at_ = c ∧
    (x.edge up b c).edgeAt = some b ∧ (x.seen = true → x.dirUp ≠ up → (x.edge up b c).held = 1) ∧
    (∀ a, x.seen = true → x.dirUp = up → x.edgeAt = some a → (x.edge up b c).period = b - a)) ∧
  (∀ (s : State) (e : Fin 2) (a b : Bool) (k : Nat) (d : Dev), s.awake = true → (s.axisRec (encAxis e)).en = true → (s.axisRec (encAxis e)).kind = 0 →
    k = (quadPlace (a, b) + 4 - quadPlace (s.pins.encoder.getD e.val (false, false))) % 4 →
    d = { s.toDev with pins := { s.pins with encoder := s.pins.encoder.set e.val (a, b) } } →
    (k = 1 ∨ k = 3 → ∃ t, exec (.encoderEdge e (a, b) false) s = .next t ∧
      t.axisSt (encAxis e) = (s.modAxis (encAxis e) (fun x => x.edge (k == 1) s.now (s.now + 4))).axisSt (encAxis e) ∧
      t.now = s.now + 4 ∧ s.keeps t.toDev [axBase (encAxis e) + MER_AX_STATUS, axBase (encAxis e) + MER_AX_RATE]) ∧
    (k = 1 ∨ k = 3 → exec (.encoderEdge e (a, b) true) s =
      .next (s.withDev ((d.quadEdge (encAxis e) (k == 1)).axisError (encAxis e) (0x2A4 + e.val) 0))) ∧
    (k = 2 → ∀ f, exec (.encoderEdge e (a, b) f) s = .next (s.withDev (d.axisError (encAxis e) (0x2A4 + e.val) 0)))) ∧
  (∀ (s : State) (e : Fin 2), s.awake = true → (s.axisRec (encAxis e)).en = true → (s.axisRec (encAxis e)).kind = 0 →
    s.flag (axBase (encAxis e)) MER_AX_CFG_Z_EN = true →
    (s.flag (axBase (encAxis e)) MER_AX_STATUS_ZSEEN = false → ∃ t, exec (.encoderZPulse ⟨e, none⟩) s = .next t ∧
      t.flag (axBase (encAxis e)) MER_AX_STATUS_ZSEEN = true ∧ t.mer = (s.modAxis (encAxis e) (fun x => { x with zero := s.axisNow (encAxis e) })).mer ∧
      s.keeps t.toDev [axBase (encAxis e) + MER_AX_STATUS]) ∧
    (s.flag (axBase (encAxis e)) MER_AX_STATUS_ZSEEN = true → 256 < s.axisPos (encAxis e) → s.axisPos (encAxis e) + 256 < s.revolution (encAxis e) →
      exec (.encoderZPulse ⟨e, none⟩) s = .next (s.withDev (s.axisError (encAxis e) (0x2A4 + e.val) 0))) ∧
    (s.flag (axBase (encAxis e)) MER_AX_STATUS_ZSEEN = true → s.axisPos (encAxis e) ≤ 256 → exec (.encoderZPulse ⟨e, none⟩) s = .next s) ∧
    (∀ l, (s.encLevels e l false).awake = true →
      exec (.encoderZPulse ⟨e, some l⟩) s = exec (.encoderZPulse ⟨e, none⟩) (s.withDev (s.encLevels e l false)))) ∧
  (∀ (s : State) (e : Fin 2), s.awake = true → (s.axisRec (encAxis e)).en = true →
    ∃ d : Dev, exec (.encoderPreset e) s = .next (s.withDev (d.passMarks (fun k => k == encAxis e) (fun _ => false))) ∧
      d.axisSt (encAxis e) = (s.modAxis (encAxis e) (fun x => { x with
        value := s.rd64 (axBase (encAxis e) + MER_AX_SET_LO) (axBase (encAxis e) + MER_AX_SET_HI)
        zero := s.rd64 (axBase (encAxis e) + MER_AX_SET_LO) (axBase (encAxis e) + MER_AX_SET_HI), at_ := s.now, period := 0
        frames := (x.frames.take 1).map (fun f => (f.1, s.rd64 (axBase (encAxis e) + MER_AX_SET_LO) (axBase (encAxis e) + MER_AX_SET_HI))) })).axisSt (encAxis e) ∧
      d.flag (axBase (encAxis e)) MER_AX_STATUS_ZSEEN = false ∧ d.rd (axBase (encAxis e) + MER_AX_RATE) = 0 ∧
      s.keeps d [axBase (encAxis e) + MER_AX_STATUS, axBase (encAxis e) + MER_AX_RATE]) ∧
  (∀ (s : State) (e : Fin 2) (f : BitVec 48) (c : Nat) (d : Dev), s.domains = true → (s.axisRec (encAxis e)).en = true → (s.axisRec (encAxis e)).kind = 1 →
    ((s.axisSt (encAxis e)).pollAt = none → c = s.now) →
    (∀ a, (s.axisSt (encAxis e)).pollAt = some a → c = max s.now (a + 1000 * s.fld (axBase (encAxis e)) MER_AX_CFG_POLL_US)) →
    d = (s.upTo (c + getBits (s.axisRec (encAxis e)).b 0 8 * getBits (s.axisRec (encAxis e)).b 8 16 + 2)).modAxis (encAxis e)
      (fun x => { x with pollAt := some c }) →
    exec (.serialPoll e f true) s = .next (s.withDev (d.axisError (encAxis e) (0x2A4 + e.val) 0)) ∧
    exec (.serialPoll e f false) s = .next (s.withDev (d.serialFrame
      (encAxis e) (getBits f.toNat 0 (getBits (s.axisRec (encAxis e)).b 0 8) / 2 ^ s.fld (axBase (encAxis e)) MER_AX_CFG_POS_SHIFT %
        max (s.axisRec (encAxis e)).a 1) c))) ∧
  (∀ s : State, s.domains = true → (s.axisRec 3).en = true → (s.axisSt 3).seen = true → s.flag (axBase 3) MER_AX_STATUS_LOST = false →
    (7 * s.mainsNominal ≤ 10 * (s.now - (s.axisSt 3).at_) → 10 * (s.now - (s.axisSt 3).at_) ≤ 14 * s.mainsNominal →
      ∃ t, exec .mainsCrossing s = .next t ∧ t.now = s.now + 24 ∧ t.axisSt 3 = (s.modAxis 3 (fun y => { y with
        value := BitVec.ofNat 64 ((y.value.toNat / 4294967296 + 1) * 4294967296), at_ := s.now, period := s.now - (s.axisSt 3).at_, seen := true })).axisSt 3 ∧
        s.keeps t.toDev [axBase 3 + MER_AX_RATE]) ∧
    (10 * (s.now - (s.axisSt 3).at_) < 7 * s.mainsNominal → exec .mainsCrossing s = .next s) ∧
    (∃ d : Dev, exec .mainsLost s = .next (s.withDev ((d.setLost 3 true).raiseGlobal 0x2A6 0)) ∧ d.now = max s.now ((s.axisSt 3).at_ + 2 * s.mainsNominal) ∧
      d.regs = s.regs ∧ d.mem = s.mem)) ∧
  (∀ (s : State) (x v : Word64) (l : List (Word64 × Word64)), s.domains = true → (s.axisRec 4).en = true → (s.axisSt 4).samples = (x, v) :: l →
    s.flag (axBase 4) MER_AX_STATUS_LOST = false →
    exec .linkAxisLost s = .next (s.withDev (((s.upTo (s.now + ((x + 8000) - s.linkTime).toInt.toNat)).setLost 4 true).raiseGlobal 0x2A7 2))) ∧
  (∀ s : State, s.awake = true → s.isRemote = false → s.cfg.ptm = true → s.cfg.link = true → s.mer.ptmOpen = none →
    s.fld 0 MER_PTM_CTRL_INTERVAL_MS = 0 →
    ∃ t, exec .ptmRequest s = .next t ∧ t.mer.ptmOpen = some s.time ∧ t.mer.ptmAt = s.now ∧ s.keeps t.toDev []) ∧
  (∀ s : State, s.awake = true → s.fld 0 MER_PTM_CTRL_INTERVAL_MS ≠ 0 → exec .ptmRequest s = .next (s.withDev
      (((s.upTo (s.mer.ptmTimer + 1000000 * s.fld 0 MER_PTM_CTRL_INTERVAL_MS)).modMer (fun m =>
        { m with ptmTimer := max s.now (s.mer.ptmTimer + 1000000 * s.fld 0 MER_PTM_CTRL_INTERVAL_MS) })).ptmBegin))) ∧
  (∀ (s : State) (x m : Word64) (p : Word), s.awake = true → s.mer.ptmOpen = some x →
    (∃ t, exec (.ptmResponse m p) s = .next t ∧ t.rd64 MER_PTM_TIME_LO MER_PTM_TIME_HI = x + p.setWidth 64 ∧ t.rd64 MER_PTM_HOST_LO MER_PTM_HOST_HI = m ∧
      t.fld 0 MER_PTM_STATUS_SEQ = (s.fld 0 MER_PTM_STATUS_SEQ + 1) % 2 ^ MER_PTM_STATUS_SEQ.w ∧ t.flag 0 MER_PTM_STATUS_VALID = true ∧ t.flag 0 MER_PTM_STATUS_NEW = true ∧
      t.mer.ptmOpen = none ∧
      s.keeps t.toDev [MER_PTM_TIME_LO, MER_PTM_TIME_HI, MER_PTM_HOST_LO, MER_PTM_HOST_HI, MER_PTM_STATUS, MER_IRQ_CAUSE]) ∧
    (∃ t, exec .ptmTimeout s = .next t ∧ t.flag 0 MER_PTM_STATUS_FAILED = true ∧ t.mer.ptmOpen = none ∧ t.now = max s.now (s.mer.ptmAt + 100000) ∧
      s.keeps t.toDev [MER_PTM_STATUS, MER_IRQ_CAUSE]))

/-- R289 to R292: an update of the cleaner moves CORR by no more than 2 ppm a second and within ±100 ppm (which value the filter
takes is open, notes/assumptions/4.md), shows the phase error and the frequency, and makes a new trim of a phase error
within ±2 ns; a reference lost, a REFIN absent from the start included, or a forced coast freezes CORR, ends the trim and
sets COASTING. A reference requalifies QUAL_MS after the loss at the earliest: it ends the coasting with a trim for a jump
of at most 2 ns, rebuilds the phase for a larger one, and has no jump where it qualifies for the first time. -/
def Obligations.CleanerCoastsAndReturns : Prop :=
  (∀ (s : State) (ph fr : Int), s.awake = true → 8 ≤ s.boot.step → s.fld 0 CLK_STATUS_CLEANER_SRC ≠ 0 → s.flag 0 CLK_STATUS_COASTING = false →
    s.flag 0 CLK_STATUS_REF_LOCKED = false →
    ∃ t, exec (.cleanerUpdate ph fr) s = .next t ∧ (t.rd CLK_CORR).toInt ≤ 1759218604 ∧ -1759218604 ≤ (t.rd CLK_CORR).toInt ∧
      ((s.rd CLK_CORR).toInt ≤ 1759218604 → -1759218604 ≤ (s.rd CLK_CORR).toInt →
        (t.rd CLK_CORR).toInt ≤ (s.rd CLK_CORR).toInt + s.corrStep ∧ (s.rd CLK_CORR).toInt - s.corrStep ≤ (t.rd CLK_CORR).toInt) ∧
      t.rd CLK_PHASE_ERR = BitVec.ofNat 32 (unsigned 32 (satS 32 ph)) ∧ t.rd CLK_REF_OFFSET = BitVec.ofNat 32 (unsigned 32 (satS 32 fr)) ∧
      (smallPhase ph = false → t.flag 0 CLK_STATUS_REF_LOCKED = false ∧ t.clk.okRun = 0) ∧
      (smallPhase ph = true → t.clk.trim = -ph ∧ t.clk.trimAt = s.now) ∧ t.time = s.time ∧
      s.keeps t.toDev [CLK_CORR, CLK_REF_OFFSET, CLK_PHASE_ERR, CLK_STATUS]) ∧
  (∀ (s : State) (range : Bool), s.awake = true → 8 ≤ s.boot.step → s.fld 0 CLK_CFG_REFIN_FREQ ≠ 0 → s.clk.refLost = false →
    ∃ d : Dev, exec (.refinLost range) s = .next (s.withDev ((d.raiseClk (if range then 0x286 else 0x285)).clkEvent s.toDev)) ∧
      d.flag 0 CLK_STATUS_COASTING = true ∧ d.flag 0 CLK_STATUS_REF_QUALIFIED = false ∧ d.flag 0 CLK_STATUS_REF_LOCKED = false ∧
      d.clk.trim = 0 ∧ d.clk.refLost = true ∧ d.clk.lostAt = s.now ∧ d.fld 0 CLK_STATUS_CLEANER_SRC = 0 ∧
      (range = false → d.flag 0 CLK_STATUS_REF_PRESENT = false) ∧ s.keeps d [CLK_STATUS]) ∧
  (∀ s : State, s.awake = true →
    (∃ t, exec (.forceCoast true) s = .next t ∧ t.flag 0 CLK_STATUS_COASTING = true ∧ t.flag 0 CLK_CTRL_FORCE_COAST = true ∧
      t.flag 0 CLK_STATUS_REF_LOCKED = false ∧ t.clk.trim = 0 ∧ s.keeps t.toDev [CLK_STATUS, CLK_CTRL]) ∧
    (s.flag 0 CLK_CTRL_FORCE_COAST = true → s.flag 0 CLK_STATUS_REF_QUALIFIED = true →
      ∃ t, exec (.forceCoast false) s = .next t ∧ t.flag 0 CLK_STATUS_COASTING = false ∧ t.flag 0 CLK_CTRL_FORCE_COAST = false ∧
        s.keeps t.toDev [CLK_STATUS, CLK_CTRL])) ∧
  (∀ (s : State) (j : Int), s.awake = true → 8 ≤ s.boot.step → s.fld 0 CLK_CFG_REFIN_FREQ ≠ 0 → s.flag 0 CLK_STATUS_REF_QUALIFIED = false →
    s.flag 0 CLK_CTRL_FORCE_COAST = false →
    (s.clk.refSeen = false ∨ smallPhase (s.reduceJump j) = true → ∃ t, exec (.refinRequalified j) s = .next t ∧ t.flag 0 CLK_STATUS_COASTING = false ∧
      t.flag 0 CLK_STATUS_REF_QUALIFIED = true ∧ t.flag 0 CLK_STATUS_REF_PRESENT = true ∧ t.fld 0 CLK_STATUS_CLEANER_SRC = 1 ∧
      t.clk.refLost = false ∧ t.clk.refSeen = true ∧ t.now = max s.now (s.clk.lostAt + 1000000 * s.fld 0 CLK_QUAL_QUAL_MS) ∧
      t.clk.trim = (if s.clk.refSeen then -(s.reduceJump j) else s.clk.trim) ∧ s.keeps t.toDev [CLK_STATUS]) ∧
    (s.clk.refSeen = true → smallPhase (s.reduceJump j) = false → ∃ d u : Dev,
      exec (.refinRequalified j) s = .next (s.withDev ((d.raiseClk 0x287).clkEvent u)) ∧
      u = s.upTo (s.clk.lostAt + 1000000 * s.fld 0 CLK_QUAL_QUAL_MS) ∧ u.now = max s.now (s.clk.lostAt + 1000000 * s.fld 0 CLK_QUAL_QUAL_MS) ∧
      d.now = u.now ∧ d.flag 0 CLK_STATUS_COASTING = false ∧ d.flag 0 CLK_STATUS_REBUILT = true ∧ d.clk.trim = 0 ∧ d.time = u.time ∧
      s.keeps d [CLK_STATUS]))

/-- R293, R294, R296, R297: a PLL locks in band 32, and with the other locked the standby is ready; a standby that loses lock
only searches again; an active one hands over to a ready standby within 3 cycles, with ACTIVE changed and the step recorded,
or is the double loss. On the fallback clock a loss only searches again. A double loss, a runaway beyond ±200 ppm and the
loss of XIN are Grave clock sources: 8 cycles after the assertion the core domains stand on the fallback clock, and XIN's
return lets the PLLs search again. Stated for a device in no freeze. -/
def Obligations.PllsLockAndSwitch : Prop :=
  (∀ (s : State) (b : Bool), s.awake = true → 4 ≤ s.boot.step → s.flag 0 CLK_STATUS_XIN_OK = true →
    ∃ t, exec (.pllLocked b) s = .next t ∧ t.pllIsLocked b = true ∧ t.flag 0 (if b then CLK_STATUS_B_LOCKED else CLK_STATUS_A_LOCKED) = true ∧
      t.fld 0 (if b then CLK_PLL_B_BAND else CLK_PLL_A_BAND) = 32 ∧ t.flag 0 (if b then CLK_PLL_B_SEARCHING else CLK_PLL_A_SEARCHING) = false ∧
      (s.pllIsLocked (!b) = true → t.flag 0 CLK_STATUS_STANDBY_READY = true) ∧ t.active = s.active ∧ t.now = s.now ∧
      s.keeps t.toDev [if b then CLK_PLL_B else CLK_PLL_A, CLK_STATUS, FAULT_CAUSE + 4 * 20]) ∧
  (∀ s : State, s.pins.resetN = true → s.pllIsLocked (!s.active) = true →
    exec .standbyLockLost s = .next (s.withDev (((s.pllLost (!s.active)).raiseClk (0x280 + (!s.active).toNat)).clkEvent s.toDev))) ∧
  (∀ (s : State) (x : BitVec 16), s.pins.resetN = true → s.pllIsLocked s.active = true →
    (s.fallback = false → s.flag 0 CLK_STATUS_STANDBY_READY = true → exec (.activePllLockLost x) s = .next (s.withDev
      ((((((if s.frz.frozen then s.toDev else s.pass 1).raiseClk (0x280 + s.active.toNat)).upTo (s.now + 3)).pllSwitch (min x.toNat 50)).pllLost s.active).clkEvent s.toDev))) ∧
    (s.fallback = true → exec (.activePllLockLost x) s = .next (s.withDev
      (((s.pllLost s.active).raiseClk (0x280 + s.active.toNat)).clkEvent s.toDev))) ∧
    (s.frz.frozen = false → s.fallback = false → s.flag 0 CLK_STATUS_STANDBY_READY = false →
      exec (.activePllLockLost x) s = .next (s.withDev (((s.pllLost s.active).graveClock 0x282).clkEvent s.toDev)) ∧
      exec .pllBothLost s = .next (s.withDev (((s.pllLost s.active).graveClock 0x282).clkEvent s.toDev)))) ∧
  (∀ (d : Dev) (b : Bool), (d.pllLost b).pllIsLocked b = false ∧ (d.pllLost b).flag 0 CLK_STATUS_STANDBY_READY = false ∧
    (d.pllLost b).flag 0 (if b then CLK_PLL_B_SEARCHING else CLK_PLL_A_SEARCHING) = true ∧ (d.pllLost b).active = d.active ∧ (d.pllLost b).now = d.now ∧
    d.keeps (d.pllLost b) [if b then CLK_PLL_B else CLK_PLL_A, CLK_STATUS, FAULT_CAUSE + 4 * 20]) ∧
  (∀ (s : State) (x : Int), s.awake = true → 4 ≤ s.boot.step → s.fallback = false →
    (-200000 ≤ x → x ≤ 200000 → ∃ t, exec (.runaway x) s = .next t ∧ t.rd CLK_CORE_ERR = BitVec.ofNat 32 (unsigned 32 (satS 32 x)) ∧
      s.keeps t.toDev [CLK_CORE_ERR]) ∧
    (200000 < x ∨ x < -200000 → exec (.runaway x) s = .next (s.withDev (((s.putInt CLK_CORE_ERR x).graveClock 0x283).clkEvent
      (s.putInt CLK_CORE_ERR x))))) ∧
  (∀ s : State, s.pins.resetN = true → s.flag 0 CLK_STATUS_XIN_OK = true →
    ∃ u : Dev, exec .xinLost s = .next (s.withDev
      ((((u.modClk (fun c => { c with osc := true })).setFlag 0 CLK_STATUS_XIN_OK false).graveClock 0x284).clkEvent u)) ∧
      u.pins.xin = false ∧ u.now = s.now ∧ s.keeps u []) ∧
  (∀ s : State, s.pins.resetN = true → ∃ t, exec .xinReturn s = .next t ∧ t.flag 0 CLK_STATUS_XIN_OK = true ∧ t.clk.osc = false ∧
    t.pins.xin = true ∧ s.keeps t.toDev [CLK_STATUS]) ∧
  (∀ (s : State) (x : Nat), s.frz.frozen = false → s.graveClock x = (s.raiseGlobal x 0).fallbackMove s.now) ∧
  (∀ (d : Dev) (c : Nat), d.awake = true → d.boot.chip = false → (∀ n k, (d.sl n).phase ≠ .ramp k) →
    (d.fallbackMove c).fallback = true ∧ (d.fallbackMove c).now = max d.now (c + 8) ∧ (d.fallbackMove c).pllIsLocked false = false ∧
    (d.fallbackMove c).pllIsLocked true = false ∧ d.keeps (d.fallbackMove c) [CLK_STATUS, CLK_PLL_A, CLK_PLL_B, FAULT_CAUSE + 4 * 20])

/-- R295: a write of one to SWITCH makes the same switch, from the write on: three cycles later ACTIVE has changed and SWITCHED
is set. The former active PLL stays locked, no source is raised (the collector is as it was), and it is the standby once it
is aligned, which PLL_LOCKED reports. With STANDBY_READY clear or FALLBACK set the write is refused: REFUSED is set and
ACTIVE stays. -/
def Obligations.ManualSwitchIsTheSameSwitch : Prop :=
  (∀ (s : State) (x : BitVec 16), s.awake = true → s.flag 0 CLK_STATUS_STANDBY_READY = true → s.fallback = false →
    ∃ t, exec (.clockSwitch x) s = .next t ∧ t.active = !s.active ∧ t.flag 0 CLK_STATUS_SWITCHED = true ∧
      t.flag 0 CLK_STATUS_STANDBY_READY = false ∧ t.fld 0 CLK_SWITCHES_LAST_STEP_PS = min x.toNat 50 ∧ t.now = s.now + 3 ∧
      (∀ b, t.pllIsLocked b = s.pllIsLocked b) ∧ t.col = s.col ∧ s.keeps t.toDev [CLK_STATUS, CLK_SWITCHES]) ∧
  (∀ s : State, s.awake = true → 4 ≤ s.boot.step → s.flag 0 CLK_STATUS_XIN_OK = true → s.pllIsLocked s.active = true →
    ∃ t, exec (.pllLocked (!s.active)) s = .next t ∧ t.flag 0 CLK_STATUS_STANDBY_READY = true ∧ t.pllIsLocked (!s.active) = true ∧ t.active = s.active) ∧
  (∀ (s : State) (x : BitVec 16), s.awake = true → (s.flag 0 CLK_STATUS_STANDBY_READY = false ∨ s.fallback = true) →
    ∃ t, exec (.clockSwitch x) s = .next t ∧ t.flag 0 CLK_STATUS_REFUSED = true ∧ t.active = s.active ∧ t.col = s.col ∧ s.keeps t.toDev [CLK_STATUS])

/-- R304, R306, R308, R309, R312, R317: a word with a single-bit error that awaits its scrub is written back and, if it still
shows the error, queues its tile; only the Surveyor writes an exclusion range, and only a good one; a pace tick starts a
test, or marks one due while another runs; a test that passes leaves the memory as it was, and with the last position of a
pass done the pass is counted and the pattern changes; a repair-list commit writes the inactive copy and is over. -/
def Obligations.MemoryRepairsItself : Prop :=
  (∀ (s : State) (w : Nat), s.awake = true →
    (s.memst.scrub.contains w = true →
      (∃ t, exec (.scrubWrite w false) s = .next t ∧ t.memst.scrub = s.memst.scrub.filter (fun x => x != w) ∧
        t.memst.bad = s.memst.bad.filter (fun b => b.1 != w) ∧ t.memst.retest = s.memst.retest ∧ s.keeps t.toDev []) ∧
      (∃ t, exec (.scrubWrite w true) s = .next t ∧ t.memst.scrub = s.memst.scrub.filter (fun x => x != w) ∧ t.memst.bad = s.memst.bad ∧
        (s.memst.retest.length < 4 → s.tileOf (8 * w) ∈ t.memst.retest) ∧ s.keeps t.toDev [])) ∧
    (s.memst.scrub.contains w = false → exec (.scrubWrite w false) s = .next s ∧ exec (.scrubWrite w true) s = .next s)) ∧
  (∀ (s : State) (e : Fin 8) (v : Word), s.awake = true →
    (exclusionOk v.toNat (s.rd (MEM_EXCL_LEN + 8 * e.val)).toNat = true → ∃ t, exec (.exclusionWrite .surveyor e false v) s = .next t ∧
      t.rd (MEM_EXCL_START + 8 * e.val) = v ∧ s.keeps t.toDev [MEM_EXCL_START + 8 * e.val]) ∧
    (exclusionOk (s.rd (MEM_EXCL_START + 8 * e.val)).toNat v.toNat = true → ∃ t, exec (.exclusionWrite .surveyor e true v) s = .next t ∧
      t.rd (MEM_EXCL_LEN + 8 * e.val) = v ∧ s.keeps t.toDev [MEM_EXCL_LEN + 8 * e.val]) ∧
    (exclusionOk v.toNat (s.rd (MEM_EXCL_LEN + 8 * e.val)).toNat = false → ∃ t, exec (.exclusionWrite .surveyor e false v) s = .next t ∧
      t.flag 0 MEM_STATUS_REFUSED = true ∧ s.keeps t.toDev [MEM_STATUS]) ∧
    (∀ len : Bool, ∃ t, exec (.exclusionWrite .host e len v) s = .next t ∧ t.flag 0 MEM_STATUS_REFUSED = true ∧ s.keeps t.toDev [MEM_STATUS])) ∧
  (∀ s : State, s.awake = true → 9 ≤ s.boot.step →
    (s.flag 0 MEM_RS_CFG_ENABLE = false ∨ s.memst.test ≠ none → ∃ t, exec .resurveyPaceTick s = .next t ∧
      t.now = max s.now (s.memst.paceAt + 1000 * s.fld 0 MEM_RS_CFG_PACE_US) ∧ t.memst.paceAt = t.now ∧ t.memst.test = s.memst.test ∧
      (s.flag 0 MEM_RS_CFG_ENABLE = true → t.memst.due = true) ∧ s.keeps t.toDev []) ∧
    (s.flag 0 MEM_RS_CFG_ENABLE = true → s.memst.test = none → ∃ d : Dev, exec .resurveyPaceTick s = .next (s.withDev d.nextTest) ∧
      d.now = max s.now (s.memst.paceAt + 1000 * s.fld 0 MEM_RS_CFG_PACE_US) ∧ d.memst.paceAt = d.now ∧ s.keeps d [])) ∧
  (∀ (s : State) (x : TileTest), s.awake = true → s.memst.test = some x → s.memst.due = false →
    ∃ t, exec (.resurveyTestDone false) s = .next t ∧ t.memst.test = none ∧ t.flag 0 MEM_RS_STATUS_BUSY = false ∧
      t.now = max s.now (x.start + 392) ∧ s.keeps t.toDev [MEM_RS_STATUS, MEM_RS_PASS] ∧
      t.rd MEM_RS_PASS = s.rd MEM_RS_PASS + (if s.memst.next = 166400 then 1 else 0) ∧
      t.memst.next = (if s.memst.next = 166400 then 0 else s.memst.next) ∧
      t.flag 0 MEM_RS_STATUS_PATTERN = (s.flag 0 MEM_RS_STATUS_PATTERN != decide (s.memst.next = 166400))) ∧
  (∀ (d : Dev) (p sp : Nat), p % 520 < 512 → d.memst.freeSpare (p / 520) = some sp → d.memst.commit.isSome = true →
    ∃ e : Dev, d.tileFails p = e.raise (0x140 + p / 520) 3 (d.servedOffset p) 0xFF ∧ e.memst.entries = d.memst.entries ++ [repairEntry p sp false] ∧
      e.memst.waiting = true ∧ e.mem = d.mem) ∧
  (∀ (s : State) (c : Nat), s.awake = true → s.memst.commit = some c → s.memst.waiting = false →
    ∃ t, exec (.repairCommit true) s = .next t ∧ t.memst.commit = none ∧ t.flag 0 MEM_REPAIR_STATUS_COMMIT_BUSY = false ∧ t.mem = s.mem ∧
      t.memst.entries = s.memst.entries ∧ (∀ a, a ≠ MEM_REPAIR_STATUS → t.rd a = s.rd a) ∧
      t.fld 0 MEM_REPAIR_STATUS_ENTRIES = (s.memst.entries.take 5120).length % 2 ^ MEM_REPAIR_STATUS_ENTRIES.w)

/-- R326, R327: the sets a temperature lies between; the Datum service gives each slice with good records its targets, to which
the present corrections move in a ramp; a record that fails is not used and raises 0x385; the ramps whose next step comes
first move one step in the cycle it is due, and the last step gives the targets. -/
def Obligations.DatumServiceRampsToItsTargets : Prop :=
  (∀ x : Int, (x < -640 → pickSet x = (0, none)) ∧ (1520 ≤ x → pickSet x = (7, none)) ∧
    (-640 ≤ x → x < 1520 → (pickSet x).1 ≤ 6 ∧ setTemp (pickSet x).1 ≤ x ∧ x < setTemp ((pickSet x).1 + 1) ∧
      (pickSet x).2 = some ((x - setTemp (pickSet x).1) * 65536 / (setTemp ((pickSet x).1 + 1) - setTemp (pickSet x).1)))) ∧
  (∀ (s : State) (ts : List (Option Int)), s.awake = true → 8 ≤ s.boot.step → exec (.datumServiceRun ts) s = .next (s.withDev
    ((s.upTo (s.datum.serviceAt + 10000000)).datumService ts true))) ∧
  (∀ (d : Dev) (n : SliceId) (x : Int),
    ((∀ k, k = (pickSet x).1 ∨ (k = (pickSet x).1 + 1 ∧ (pickSet x).2 ≠ none) → imgRecOk d.workByte (recOff k n.val) = true) →
      ((d.serviceSlice n x true).sl n).cT = d.corrTargets n.val x ∧ ((d.serviceSlice n x true).sl n).fsNext = d.storedFs n.val ∧
      ((d.sl n).cT ≠ d.corrTargets n.val x → ((d.serviceSlice n x true).sl n).cS = d.rampSteps ∧ ((d.serviceSlice n x true).sl n).cK = 0 ∧
        ((d.serviceSlice n x true).sl n).cAt = d.now ∧ ((d.serviceSlice n x true).sl n).cLen = 1000000 * d.fld 0 DATUM_CFG_RAMP_MS ∧
        ((d.serviceSlice n x true).sl n).c0 = (List.range corrCount).map (d.corrOf n)) ∧
      (∀ m, m ≠ n → (d.serviceSlice n x true).sl m = d.sl m) ∧ d.keeps (d.serviceSlice n x true) []) ∧
    (imgRecOk d.workByte (recOff (pickSet x).1 n.val) = false → d.serviceSlice n x true =
      (d.modDatum (fun q => { q with restore := addNat n.val q.restore })).raise 0x385 0 0 n.val)) ∧
  (∀ s : State, s.awake = true → ∃ t, exec .datumRampStep s = .next t ∧ s.keeps t.toDev [DATUM_STATUS] ∧ t.now = max s.now s.rampNext ∧
    (t.flag 0 DATUM_STATUS_RAMP_ACTIVE = true ↔ ∃ n, (t.sl n).cS ≠ 0) ∧
    ∀ n, (t.sl n).cT = (s.sl n).cT ∧ ((s.sl n).cS = 0 → t.sl n = s.sl n) ∧ (t.now < (s.sl n).rampDue → t.sl n = s.sl n) ∧
      ((s.sl n).rampDue ≤ t.now → (s.sl n).cK + 1 < (s.sl n).cS → (t.sl n).cK = (s.sl n).cK + 1 ∧ (t.sl n).cS = (s.sl n).cS) ∧
      ((s.sl n).rampDue ≤ t.now → (s.sl n).cS ≠ 0 → (s.sl n).cS ≤ (s.sl n).cK + 1 → (t.sl n).c0 = (s.sl n).cT ∧ (t.sl n).cS = 0)) ∧
  (∀ (d : Dev) (n : SliceId), (d.sl n).cS ≠ 0 → d.rampNext ≤ (d.sl n).rampDue ∧ ∃ m, (d.sl m).cS ≠ 0 ∧ d.rampNext = (d.sl m).rampDue)

/-- R328 to R335: the calibrations and commits of a ring run their checks in order: a bad field, BUSY, the preconditions, each
of which answers at once; a run that starts holds CAL_BUSY. A commit of what is in force completes at once; one that starts
erases the target's header and holds COMMIT_BUSY; at its end the target's bank is in force with the next sequence, or the
commit failed and the bank stays. -/
def Obligations.CalibrationAndCommit : Prop :=
  (∀ (s : State) (h : Hdr) (r : GroupRec) (p : CalP) (q : CommitP), s.ready h r →
    exec (.calibrateSelf h p) s = .next (s.withDev ((s.taken h.ring).calibrateCmd (ownCtx h 0x0E) r 0 p)) ∧
    exec (.calibrateExtRef h p) s = .next (s.withDev ((s.taken h.ring).calibrateCmd (ownCtx h 0x0E) r 1 p)) ∧
    exec (.calibrateExtRange h p) s = .next (s.withDev ((s.taken h.ring).calibrateCmd (ownCtx h 0x0E) r 2 p)) ∧
    exec (.datumCommitUser h q) s = .next (s.withDev ((s.taken h.ring).commitCmd (ownCtx h 0x0F) 0 q)) ∧
    exec (.datumCommitFactory h q) s = .next (s.withDev ((s.taken h.ring).commitCmd (ownCtx h 0x0F) 1 q))) ∧
  (∀ (d : Dev) (c : Ctx) (r : GroupRec) (k : Nat) (p : CalP), k < 2 → d.calFault r k p = none →
    (d.datum.cal.isSome || d.datum.commit.isSome) = false → (d.fld 0 DATUM_STATUS_BANK = 3 → p.scope ≠ 1) →
    ((d.setFld 0 DATUM_LAST_PRECOND 0).setFld 0 DATUM_LAST_SLICE 0).calPrecond
      ⟨c, k, p, r.first, r.devMask p.mask, d.now, false, (List.range 4).map (fun o => d.octantTemp (sid (8 * o)))⟩ = none →
    (d.calibrateCmd c r k p).datum.cal = some ⟨c, k, p, r.first, r.devMask p.mask, d.now, false,
      (List.range 4).map (fun o => d.octantTemp (sid (8 * o)))⟩ ∧
    (d.calibrateCmd c r k p).flag 0 DATUM_STATUS_CAL_BUSY = true ∧ d.keeps (d.calibrateCmd c r k p) [DATUM_STATUS, DATUM_LAST]) ∧
  (∀ (s : State) (c : CalRun) (r : CalResult), s.domains = true → s.datum.cal = some c →
    exec (.calibrationDone r) s = .next (s.withDev (s.calibrationDone c r))) ∧
  (∀ (d : Dev) (c : Ctx) (p : CommitP),
    (1 < p.source.toNat → d.commitCmd c 0 p = d.completeAt c BAD_PARAM 1 d.time) ∧
    (p.source = 0 → d.sameSets d.workByte = true → d.commitCmd c 0 p = d.datumDone c OK 0xFF) ∧
    (p.source = 0 → d.sameSets d.workByte = false → (d.rd (DATUM_CYCLES_F + 4 * d.userTarget)).toNat < 100000 →
      (d.datum.commit.isSome || d.datum.cal.isSome) = true → d.commitCmd c 0 p = d.datumDone c BUSY 0xFF) ∧
    (p.source = 0 → d.sameSets d.workByte = false → (d.rd (DATUM_CYCLES_F + 4 * d.userTarget)).toNat < 89999 → d.datum.commit = none → d.datum.cal = none →
      d.noCommit = false → d.memst.commit = none →
      (d.commitCmd c 0 p).datum.commit = some ⟨c, d.userTarget, none, d.now, d.time, true⟩ ∧ (d.commitCmd c 0 p).flag 0 DATUM_STATUS_COMMIT_BUSY = true ∧
      (d.commitCmd c 0 p).flag 0 (validFld d.userTarget) = false ∧ (d.commitCmd c 0 p).mem = d.mem ∧
      (d.commitCmd c 0 p).rd (DATUM_CYCLES_F + 4 * d.userTarget) = d.rd (DATUM_CYCLES_F + 4 * d.userTarget) + 1 ∧
      ∀ i, i < 256 → (d.commitCmd c 0 p).bankByte d.userTarget i = 0xFF)) ∧
  (∀ (s : State) (run : CommitRun), s.awake = true → s.datum.commit = some run → s.memst.commit = none → run.begun = true → run.staged = none →
    1 ≤ run.bank → run.bank ≤ 2 →
    (∃ d : Dev, exec (.datumCommitDone true) s = .next (s.withDev (d.datumDone run.ctx OK 0xFF).nextCommit) ∧ d.datum.commit = none ∧
      d.fld 0 DATUM_STATUS_BANK = run.bank ∧ d.flag 0 (validFld run.bank) = true ∧ d.flag 0 DATUM_STATUS_DIRTY = false ∧ d.mem = s.mem ∧
      d.now = max s.now (run.start + 393000)) ∧
    (∃ d : Dev, exec (.datumCommitDone false) s = .next (s.withDev ((d.raiseGlobal 0x382 0).datumDone run.ctx INTEGRITY 0xFF).nextCommit) ∧
      d.datum.commit = none ∧ d.fld 0 DATUM_STATUS_BANK = s.fld 0 DATUM_STATUS_BANK ∧ d.mem = s.mem))

/-- R340: the effective class of a message is the higher of the class of its source and the floor of its kind; the floors of the
table, with Note 0, Alert 1, Serious 2 and Grave 3, those of the banks being the classes of R313. Every other kind has the
floor Note. -/
def Obligations.EffectiveClassHasAFloor : Prop :=
  (∀ (d : Dev) (m : Msg), d.effClass m = max (d.srcClass m.source.toNat) (kindFloor m.source.toNat m.kind.toNat)) ∧
  (∀ n, n < 32 →
    kindFloor (n * 8 + 1) 1 = 2 ∧ kindFloor (n * 8 + 1) 2 = 2 ∧ kindFloor (n * 8 + 1) 3 = 0 ∧ kindFloor (n * 8 + 2) 1 = 0 ∧
    kindFloor (n * 8 + 2) 2 = 2 ∧ kindFloor (n * 8 + 3) 1 = 2 ∧ kindFloor (n * 8 + 3) 2 = 0 ∧ kindFloor (n * 8 + 3) 3 = 0 ∧
    ∀ k j, k < 8 → k ≠ 1 → k ≠ 2 → k ≠ 3 → kindFloor (n * 8 + k) j = 0) ∧
  (∀ b, b < 320 →
    kindFloor (0x140 + b) 1 = 0 ∧ kindFloor (0x140 + b) 2 = 2 ∧ kindFloor (0x140 + b) 3 = 1 ∧ kindFloor (0x140 + b) 4 = 2 ∧
    kindFloor (0x140 + b) 5 = 1 ∧ kindFloor (0x140 + b) 6 = 1) ∧
  (∀ x k, 0x100 ≤ x → x < 0x140 ∨ 0x280 ≤ x → kindFloor x k = 0)

/-- R345, R347, R348: a classified message sets its sticky bit, SEEN and `FAULT_LAST`; one that meets a full queue is merged
where its bit is set with a class no lower, and otherwise held in the overflow slot of its source, which is PENDING. A bit
is set only in the bank INJECTED names. -/
def Obligations.CollectorRecordsMessages : Prop :=
  (∀ (d : Dev) (m : Msg), d.isRemote = false →
    (d.record m).sticky m.injected m.source.toNat = true ∧ (d.record m).fld (srcBase m.source.toNat) FAULT_SRC_SEEN =
      max (d.effClass m) (d.fld (srcBase m.source.toNat) FAULT_SRC_SEEN) ∧
    (d.record m).rd FAULT_LAST_LO = msgLo m ∧ (d.record m).rd FAULT_LAST_HI = msgHi m ∧
    (∀ x, x < 1024 → (d.record m).sticky (!m.injected) x = d.sticky (!m.injected) x) ∧
    d.keeps (d.record m) [bankWord m.injected m.source.toNat, FAULT_SRC + 4 * m.source.toNat, FAULT_LAST_LO, FAULT_LAST_HI]) ∧
  (∀ (d : Dev) (m : Msg), 64 ≤ d.col.queue.length → d.col.slots.find? (fun q => q.source == m.source) = none →
    (d.sticky m.injected m.source.toNat = true → d.effClass m ≤ d.fld (srcBase m.source.toNat) FAULT_SRC_SEEN →
      d.enqueue m = d.bumpSat FAULT_MERGED) ∧
    (d.sticky m.injected m.source.toNat = false → m ∈ (d.enqueue m).col.slots ∧
      (d.enqueue m).flag (srcBase m.source.toNat) FAULT_SRC_PENDING = true ∧ (d.enqueue m).sticky m.injected m.source.toNat = true ∧
      (d.enqueue m).col.queue = d.col.queue)) ∧
  (∀ (d : Dev) (m : Msg), d.col.queue.length < 63 → d.enqueue m = d.modCol (fun k => { k with queue := k.queue ++ [m] }))

/-- R342, R345 to R349, R352, R356: the commands of the collector. A block's message is raised, never as injected; one whose
wire has acted parks nothing again; a Grave wire drops ERR_N 3 and parks 4 cycles later; an occupied slot is taken when the
queue has room; a clear spares a bit whose cause persists; an injected message enters in the next cycle, behind a real one
of that cycle; a rearm sends vector 0 again while an IRQ bit is set; the watchdog, the Surveyor's exceptions and the
temperature sensors raise their sources; in RECOVERY the R59 latch clears. -/
def Obligations.CollectorCommands : Prop :=
  (∀ (s : State) (m : Msg), s.awake = true → s.col.wired.contains m.source.toNat = false →
    exec (.faultMessage m) s = .next (s.withDev (s.raiseMsg { m with injected := false }))) ∧
  (∀ (s : State) (m : Msg), s.awake = true → s.col.wired.contains m.source.toNat = true →
    exec (.faultMessage m) s = .next (s.withDev (s.raiseWired { m with injected := false }))) ∧
  (∀ (d : Dev) (x : Nat), d.awake = true → d.graveAct x = ((d.graveErr x).upTo (d.now + 4)).gravePark ∧ (d.graveErr x).now = d.now + 3 ∧
    x ∈ (d.graveErr x).col.wired ∧ (x < 1024 → (d.graveErr x).errLow = true) ∧ d.keeps (d.graveErr x) []) ∧
  (∀ (s : State) (x : BitVec 10), s.pins.resetN = true →
    (s.srcClass x.toNat = 3 → s.frz.frozen = false → exec (.graveWire x) s = .next (s.withDev (s.graveAct x.toNat))) ∧
    (s.srcClass x.toNat = 3 → s.frz.frozen = true → ∃ t, exec (.graveWire x) s = .next t ∧ x.toNat ∈ t.frz.wires ∧ s.keeps t.toDev []) ∧
    (s.srcClass x.toNat ≠ 3 → exec (.graveWire x) s = .next s)) ∧
  (∀ (s : State) (m : Msg), s.awake = true → s.lowSlot = some m → s.col.queue.length < 64 →
    exec .overflowSlotTake s = .next (s.withDev (((s.modCol (fun c => { c with slots := c.slots.filter (fun q => q.source != m.source) })).setFlag
      (srcBase m.source.toNat) FAULT_SRC_PENDING false).dispatch m))) ∧
  (∀ (s : State) (x : BitVec 22), s.awake = true → s.resetting x.toNat = true → x.toNat / 262144 ≠ 0 →
    ∃ t, exec (.blockResetEnd x) s = .next t ∧ t.resetting x.toNat = false ∧ s.keeps t.toDev []) ∧
  (∀ (s : State) (i : Fin 32) (w : Fin 32), s.awake = true → s.refreshLock = s.toDev →
    (s.sticky false (32 * w.val + i.val) = true → s.clearRefused false (32 * w.val + i.val) = false →
      ∃ t, exec (.faultClear false w (BitVec.twoPow 32 i.val)) s = .next t ∧ t.sticky false (32 * w.val + i.val) = false ∧
        t.fld (srcBase (32 * w.val + i.val)) FAULT_SRC_SEEN = 0 ∧ s.keeps t.toDev [FAULT_REAL + 4 * w.val, FAULT_SRC + 4 * (32 * w.val + i.val)]) ∧
    (s.sticky false (32 * w.val + i.val) = true → s.clearRefused false (32 * w.val + i.val) = true →
      ∃ t, exec (.faultClear false w (BitVec.twoPow 32 i.val)) s = .next t ∧ t.sticky false (32 * w.val + i.val) = true ∧
        t.flag 0 FAULT_STATUS_CLEAR_REFUSED = true ∧ s.keeps t.toDev [FAULT_STATUS]) ∧
    (s.sticky true (32 * w.val + i.val) = true →
      ∃ t, exec (.faultClear true w (BitVec.twoPow 32 i.val)) s = .next t ∧ t.sticky true (32 * w.val + i.val) = false ∧
        s.keeps t.toDev [FAULT_INJ + 4 * w.val])) ∧
  (∀ (s : State) (v : Word), s.awake = true → v.toNat < 2 ^ 25 →
    (s.col.queue = [] → exec (.faultInject v) s = .next (s.withDev ((s.upTo (s.now + 1)).dispatch (msgOf (s.rd FAULT_INJECT_LO) v)))) ∧
    (∀ (q : Msg) (l : List Msg), s.col.queue = q :: l → q.source ≠ (msgOf (s.rd FAULT_INJECT_LO) v).source →
      exec (.faultInject v) s = .next (s.withDev (((s.upTo (s.now + 1)).collect).dispatch (msgOf (s.rd FAULT_INJECT_LO) v))))) ∧
  (∀ s : State, s.awake = true →
    ((∀ x, x < 1024 → s.irqSource x = false) → ∃ t, exec .irqRearm s = .next t ∧ t.flag 0 FAULT_STATUS_IRQ_ARMED = true ∧ s.keeps t.toDev [FAULT_STATUS]) ∧
    ((∃ x, x < 1024 ∧ s.irqSource x = true) → ∃ t, exec .irqRearm s = .next t ∧ t.flag 0 FAULT_STATUS_IRQ_ARMED = false ∧
      ((t.vects.get 0).pending = true ∨ (t.vects.get 0).due = true) ∧ s.keeps t.toDev [FAULT_STATUS])) ∧
  (∀ s : State, s.awake = true →
    (∃ t, exec .watchdogKick s = .next t ∧ t.col.kickAt = s.now ∧ s.keeps t.toDev []) ∧
    (s.fld 0 FAULT_WDOG_PERIOD_US ≠ 0 → s.col.surveyor = true → exec .surveyorWatchdog s = .next (s.withDev
      (((s.upTo (s.col.kickAt + 1000 * s.fld 0 FAULT_WDOG_PERIOD_US)).kick).raiseGlobal 0x3C1 0))) ∧
    (s.fld 0 FAULT_WDOG_PERIOD_US = 0 → exec .surveyorWatchdog s = .next s) ∧
    (s.col.surveyor = true → exec .surveyorException s = .next (s.withDev (s.raiseGlobal 0x3C0 0))) ∧
    exec .tempHigh s = .next (s.withDev (s.raiseGlobal 0x3E7 0)) ∧ exec .tempCritical s = .next (s.withDev (s.raiseGlobal 0x3E9 0))) ∧
  (∀ s : State, s.awake = true → s.fld 0 GLOBAL_STATUS_STATE = 3 → s.refreshLock.graveCause = false →
    ∃ t, exec .graveLatchClear s = .next t ∧ t.flag 0 GLOBAL_STATUS_GRAVE_LATCH = false ∧
      t.flag 0 ⟨FAULT_CAUSE + 4 * 31, 12, 1⟩ = false ∧ s.keeps t.toDev [GLOBAL_STATUS, FAULT_CAUSE + 4 * 31]) ∧
  (∀ s : State, s.fld 0 GLOBAL_STATUS_STATE ≠ 3 → exec .graveLatchClear s = .next s)

/-- R353: where a real message of the same source is classified in the cycle in which an injected one is, the real one is taken
and dispatched with its full reactions, the injected one leaves nothing but INJ_PREEMPTED, and the record of a real message
sets its bit of the REAL bank. -/
def Obligations.RealMessageWinsOverInjected : Prop :=
  (∀ (s : State) (v : Word) (q : Msg) (l : List Msg), s.awake = true → v.toNat < 2 ^ 25 → s.col.queue = q :: l →
    q.injected = false → q.source = (msgOf (s.rd FAULT_INJECT_LO) v).source →
    exec (.faultInject v) s = .next (s.withDev
      ((((s.upTo (s.now + 1)).modCol (fun c => { c with queue := l })).dispatch q).setFlag 0 FAULT_STATUS_INJ_PREEMPTED true))) ∧
  (∀ (d : Dev) (q : Msg), q.injected = false → d.consequential q = false →
    d.dispatch q = (let s1 := ((d.record q).react q).laneRestore q
      match s1.resetTarget q with
      | some t => if d.reactions q &&& 0x10 != 0 && d.reactions q &&& 0x20 == 0 then s1.requestReset t [q.source.toNat] else s1
      | none => s1)) ∧
  (∀ (d : Dev) (q : Msg), q.injected = false → (d.record q).sticky false q.source.toNat = true)

/-- R367 to R370, R379, R385: the pointers of a ring pair. A tail write takes effect unless it steps back or past 128 entries,
which stops the ring with error 3; a fetch takes what waits, with a completion entry reserved for each; a fetch error stops
the ring with error 1; a reserved opcode completes BAD_PARAM; a head write frees entries that were written; a binding
changes only while the pair is stopped. -/
def Obligations.RingPointers : Prop :=
  (∀ (s : State) (r : RingId) (v : Word), s.awake = true →
    (ringDist (s.ringFld r HOST_CMD_HEAD_HEAD) (v.toNat % 256) ≤ 128 →
      ringDist (s.ringFld r HOST_CMD_HEAD_HEAD) (s.ringFld r HOST_CMD_TAIL_TAIL) ≤ ringDist (s.ringFld r HOST_CMD_HEAD_HEAD) (v.toNat % 256) →
      ∃ t, exec (.cmdTailWrite r v) s = .next t ∧ t.ringFld r HOST_CMD_TAIL_TAIL = v.toNat % 256 ∧ s.keeps t.toDev [rB r + HOST_CMD_TAIL] ∧
        t.rings = s.rings) ∧
    ((128 < ringDist (s.ringFld r HOST_CMD_HEAD_HEAD) (v.toNat % 256) ∨
        ringDist (s.ringFld r HOST_CMD_HEAD_HEAD) (v.toNat % 256) < ringDist (s.ringFld r HOST_CMD_HEAD_HEAD) (s.ringFld r HOST_CMD_TAIL_TAIL)) →
      exec (.cmdTailWrite r v) s = .next (s.withDev ((s.hostRefuse).ringError r 3)))) ∧
  (∀ (s : State) (r : RingId) (n : Nat), s.awake = true → s.released = true → s.hostUp = true → s.flag (rB r) HOST_RING_CFG_ENABLE = true →
    (s.ring r).stopped = false → s.fetchRoom r ≠ 0 →
    (∃ t, exec (.commandFetch r (.ok n)) s = .next t ∧ (t.ring r).fetched = (s.ring r).fetched + min n (s.fetchRoom r) ∧
      t.ringFld r HOST_CMD_HEAD_HEAD = (s.ringFld r HOST_CMD_HEAD_HEAD + min n (s.fetchRoom r)) % 256 ∧
      t.ringFld r HOST_RING_STATUS_IN_FLIGHT = (s.ringFld r HOST_RING_STATUS_IN_FLIGHT + min n (s.fetchRoom r)) % 256 ∧
      s.keeps t.toDev [rB r + HOST_CMD_HEAD, rB r + HOST_RING_STATUS]) ∧
    exec (.commandFetch r .error) s = .next (s.withDev (s.ringError r 1))) ∧
  (∀ (s : State) (h : Hdr) (r : GroupRec) (o : Byte), s.ready h r → (o = 0 ∨ 0x13 ≤ o.toNat) →
    exec (.reservedOpcode h o) s = .next (s.withDev ((s.taken h.ring).complete (ownCtx h o) BAD_PARAM))) ∧
  (∀ (s : State) (r : RingId) (v : Word), s.awake = true →
    (ringDist (s.ringFld r HOST_CPL_HEAD_HEAD) (v.toNat % 256) ≤ ringDist (s.ringFld r HOST_CPL_HEAD_HEAD) (s.ringFld r HOST_CPL_TAIL_TAIL) →
      ∃ t, exec (.cplHeadWrite r v) s = .next t ∧ t.ringFld r HOST_CPL_HEAD_HEAD = v.toNat % 256 ∧
        (t.ring r).cpl = (s.ring r).cpl.drop (ringDist (s.ringFld r HOST_CPL_HEAD_HEAD) (v.toNat % 256)) ∧ s.keeps t.toDev [rB r + HOST_CPL_HEAD]) ∧
    (ringDist (s.ringFld r HOST_CPL_HEAD_HEAD) (s.ringFld r HOST_CPL_TAIL_TAIL) < ringDist (s.ringFld r HOST_CPL_HEAD_HEAD) (v.toNat % 256) →
      ∃ t, exec (.cplHeadWrite r v) s = .next t ∧ t.flag 0 HOST_STATUS_REFUSED = true ∧ s.keeps t.toDev [HOST_STATUS] ∧ t.rings = s.rings)) ∧
  (∀ (s : State) (r : RingId) (v : Word), s.awake = true →
    (8 < getBits v.toNat 1 4 → ∃ t, exec (.ringCfgWrite r v) s = .next t ∧ t.flag 0 HOST_STATUS_REFUSED = true ∧ s.keeps t.toDev [HOST_STATUS]) ∧
    (bitOf v.toNat 0 = true → s.rd64 (rB r + HOST_CMD_BASE_LO) (rB r + HOST_CMD_BASE_HI) = 0 →
      ∃ t, exec (.ringCfgWrite r v) s = .next t ∧ t.flag 0 HOST_STATUS_REFUSED = true ∧ s.keeps t.toDev [HOST_STATUS]) ∧
    (s.flag (rB r) HOST_RING_STATUS_RUNNING = false → s.flag (rB r) HOST_RING_CFG_ENABLE = false → getBits v.toNat 1 4 ≤ 8 → bitOf v.toNat 0 = true →
      s.rd64 (rB r + HOST_CMD_BASE_LO) (rB r + HOST_CMD_BASE_HI) ≠ 0 → s.rd64 (rB r + HOST_CPL_BASE_LO) (rB r + HOST_CPL_BASE_HI) ≠ 0 →
      (∀ q, q ≠ r → s.flag (rB q) HOST_RING_CFG_ENABLE = false) →
      ∃ t, exec (.ringCfgWrite r v) s = .next t ∧ t.flag (rB r) HOST_RING_CFG_ENABLE = true ∧ t.ringFld r HOST_RING_CFG_NODE = getBits v.toNat 1 4 ∧
        t.ringFld r HOST_RING_CFG_GROUP = getBits v.toNat 6 5 ∧ t.flag (rB r) HOST_RING_STATUS_RUNNING = true ∧ (t.ring r).stopped = false ∧
        (t.ring r).phase = true ∧ s.keeps t.toDev [rB r + HOST_RING_CFG, rB r + HOST_RING_STATUS]))

/-- R366, R369: a completion is one entry behind those of its ring, with the phase of the pass; CPL_TAIL advances, IN_FLIGHT
counts down, and a requested interrupt is a cause of the ring's vector. A group event is a cause of the pair bound to the
group, and sends its vector; with no pair bound it does nothing. A record that crosses a multiple of IRQ_BYTES is a cause of
its channel's pair (R382). -/
def Obligations.CompletionsAndGroupEvents : Prop :=
  (∀ (d : Dev) (r : RingId) (c : Cpl) (irq : Bool),
    ((d.postCpl r c irq).ring r).cpl = (d.ring r).cpl ++ [{ c with phase := (d.ring r).phase }] ∧
    (d.postCpl r c irq).ringFld r HOST_CPL_TAIL_TAIL = (d.ringFld r HOST_CPL_TAIL_TAIL + 1) % 256 ∧
    ((d.postCpl r c irq).ring r).phase = (if d.ringFld r HOST_CPL_TAIL_TAIL % 128 = 127 then !(d.ring r).phase else (d.ring r).phase) ∧
    (d.postCpl r c irq).ringFld r HOST_RING_STATUS_IN_FLIGHT = d.ringFld r HOST_RING_STATUS_IN_FLIGHT - 1 ∧
    (irq = true → d.flag (rB r) HOST_RING_CFG_IRQ_EN = true → (d.postCpl r c irq).flag (rB r) HOST_RING_CAUSE_COMPLETION = true ∧
      (((d.postCpl r c irq).vects.get (ringVector r)).pending = true ∨ ((d.postCpl r c irq).vects.get (ringVector r)).due = true)) ∧
    (irq = false → (d.postCpl r c irq).vects = d.vects) ∧
    d.keeps (d.postCpl r c irq) [rB r + HOST_CPL_TAIL, rB r + HOST_RING_STATUS, rB r + HOST_RING_CAUSE]) ∧
  (∀ (d : Dev) (g : Nat), (d.boundRing 0 g = none → d.groupEvent g = d) ∧
    (∀ r, d.boundRing 0 g = some r → (d.groupEvent g).flag (rB r) HOST_RING_CAUSE_GROUP_EVENT = true ∧
      (((d.groupEvent g).vects.get (ringVector r)).pending = true ∨ ((d.groupEvent g).vects.get (ringVector r)).due = true) ∧
      (ringVector r).val = 4 + r.val ∧ d.keeps (d.groupEvent g) [rB r + HOST_RING_CAUSE])) ∧
  (∀ (d : Dev) (k g : Nat) (r : RingId), d.boundRing k g = some r → d.ringFld r HOST_RING_CFG_NODE = k ∧ d.ringFld r HOST_RING_CFG_GROUP = g) ∧
  (∀ (d : Dev) (r : RingId) (x : Rec), (d.rd (cB r + HOST_CAP_IRQ_BYTES)).toNat ≠ 0 →
    (d.chan r).written / (d.rd (cB r + HOST_CAP_IRQ_BYTES)).toNat ≠ ((d.chan r).written + 16) / (d.rd (cB r + HOST_CAP_IRQ_BYTES)).toNat →
    (d.countRecord r x).flag (rB r) HOST_RING_CAUSE_CAPTURE = true ∧
    (((d.countRecord r x).vects.get (ringVector r)).pending = true ∨ ((d.countRecord r x).vects.get (ringVector r)).due = true))

/-- R377, R378: a BARRIER whose mask lacks its own ring, or whose timeout is too long, is a bad field; one whose mask is its own
ring alone completes at once; another holds its ring, until its timeout at the latest. A FENCE with an earlier command open
holds its ring, and the last open one lets it complete. -/
def Obligations.BarrierAndFence : Prop :=
  (∀ (s : State) (h : Hdr) (r : GroupRec) (p : BarrierP), s.ready h r →
    exec (.barrier h p) s = .next (s.withDev ((s.taken h.ring).barrierCmd (ownCtx h 0x11) p)) ∧
    exec (.fence h) s = .next (s.withDev ((s.taken h.ring).fenceCmd (ownCtx h 0x12)))) ∧
  (∀ (d : Dev) (c : Ctx) (p : BarrierP),
    (p.ringMask.getLsbD c.hdr.ring.val = false → d.barrierCmd c p = d.completeAt c BAD_PARAM 0 d.time) ∧
    (p.ringMask.getLsbD c.hdr.ring.val = true → (∀ i, p.ringMask.getLsbD i = true → d.flag (rB (sid i)) HOST_RING_CFG_ENABLE = true) →
      (10000000 < p.timeoutUs.toNat → d.barrierCmd c p = d.completeAt c BAD_PARAM 4 d.time) ∧
      (p.timeoutUs.toNat ≤ 10000000 → p.timeoutUs ≠ 0 → (∃ q : RingId, q ≠ c.hdr.ring ∧ p.ringMask.getLsbD q.val = true ∧ d.atBarrier q = false) →
        ((d.barrierCmd c p).ring c.hdr.ring).held = some (c, p.ringMask, some (d.now + 1000 * p.timeoutUs.toNat)) ∧
        (d.barrierCmd c p).flag (rB c.hdr.ring) HOST_RING_STATUS_BARRIER_WAIT = true ∧
        d.keeps (d.barrierCmd c p) [rB c.hdr.ring + HOST_RING_STATUS]) ∧
      (p.timeoutUs = 0 → p.ringMask = BitVec.twoPow 32 c.hdr.ring.val → c.opcode = 0x11 → ∃ e : Dev, d.barrierCmd c p = e.complete c OK ∧
        (e.ring c.hdr.ring).held = none ∧ e.flag (rB c.hdr.ring) HOST_RING_STATUS_BARRIER_WAIT = false ∧ d.keeps e [rB c.hdr.ring + HOST_RING_STATUS]))) ∧
  (∀ (s : State) (r : RingId) (c : Ctx) (m : Word) (x : Nat), s.awake = true → (s.ring r).held = some (c, m, some x) →
    exec (.barrierTimeout r) s = .next (s.withDev (((s.upTo x).unhold r).complete c TIMEOUT))) ∧
  (∀ (d : Dev) (c : Ctx), c.opcode = 0x12 → d.ringFld c.hdr.ring HOST_RING_CFG_NODE = 0 →
    (d.open_ c.hdr.ring ≠ 1 → ((d.fenceCmd c).ring c.hdr.ring).held = some (c, 0, none) ∧
      (d.fenceCmd c).flag (rB c.hdr.ring) HOST_RING_STATUS_FENCE_WAIT = true ∧ d.keeps (d.fenceCmd c) [rB c.hdr.ring + HOST_RING_STATUS]) ∧
    (d.open_ c.hdr.ring = 1 → (d.ring c.hdr.ring).relayed = [] → ∃ e : Dev, ∃ x : Cpl, d.fenceCmd c = e.postCpl c.hdr.ring x (c.hdr.flags.getLsbD 0) ∧
      x.status = OK ∧ x.tag = c.hdr.tag ∧ x.opcode = 0x12 ∧ (e.ring c.hdr.ring).held = none ∧ d.keeps e [rB c.hdr.ring + HOST_RING_STATUS]))

/-- R365, R380 to R384, R360: a capture channel starts with a good scatter list and nothing written, stops with WRITTEN written
back, takes the host's CONSUMED where it lies between what was and what is written, and writes the oldest record of its
group, as it leaves the store, while there is room. A vector that is due is sent, or stays pending while it is masked;
unmasking makes a pending one due. Configuration requests. -/
def Obligations.CaptureDmaAndVectors : Prop :=
  (∀ (s : State) (c : RingId), s.awake = true → s.flag (cB c) HOST_CAP_STATUS_RUNNING = false →
    (s.fld (cB c) HOST_SGL_COUNT_COUNT = 0 → ∀ l, exec (.captureStart c l) s = .next (s.withDev (s.capError c 1))) ∧
    (s.fld (cB c) HOST_SGL_COUNT_COUNT ≠ 0 → s.fld (cB c) HOST_SGL_COUNT_COUNT ≤ 4096 →
      exec (.captureStart c none) s = .next (s.withDev (s.capError c 2)) ∧
      ∀ l : List SglEntry, l.length = s.fld (cB c) HOST_SGL_COUNT_COUNT → sglOk l = true →
        ∃ t, exec (.captureStart c (some l)) s = .next t ∧ t.flag (cB c) HOST_CAP_STATUS_RUNNING = true ∧ (t.chan c).written = 0 ∧ (t.chan c).consumed = 0 ∧
          (t.chan c).size = (l.map (fun e => e.len.toNat)).sum ∧ t.rd64 (cB c + HOST_CAP_WRITTEN_LO) (cB c + HOST_CAP_WRITTEN_HI) = 0 ∧
          s.keeps t.toDev [cB c + HOST_CAP_STATUS, cB c + HOST_CAP_CONSUMED_LO, cB c + HOST_CAP_CONSUMED_HI, cB c + HOST_CAP_WRITTEN_LO,
            cB c + HOST_CAP_WRITTEN_HI])) ∧
  (∀ (s : State) (c : RingId), s.awake = true → s.flag (cB c) HOST_CAP_STATUS_RUNNING = true →
    (∃ t, exec (.captureStop c) s = .next t ∧ t.flag (cB c) HOST_CAP_STATUS_RUNNING = false ∧ (t.chan c).written = (s.chan c).written ∧
      (t.chan c).backed = (if s.rd64 (cB c + HOST_CAP_WB_LO) (cB c + HOST_CAP_WB_HI) = 0 then (s.chan c).backed else (s.chan c).written) ∧
      s.keeps t.toDev [cB c + HOST_CAP_STATUS, cB c + HOST_CAP_WRITTEN_LO, cB c + HOST_CAP_WRITTEN_HI]) ∧
    (s.hostUp = true → s.rd64 (cB c + HOST_CAP_WB_LO) (cB c + HOST_CAP_WB_HI) ≠ 0 → ∃ t, exec (.captureWriteback c) s = .next t ∧
      (t.chan c).backed = (s.chan c).written ∧ s.keeps t.toDev []) ∧
    (∀ (x : Rec) (l : List Rec), s.hostUp = true → (s.chan c).written - (s.chan c).consumed + 16 ≤ (s.chan c).size →
      (s.ringFld c HOST_RING_CFG_NODE ≠ 0 → (s.chan c).queue = x :: l → ∃ t, exec (.captureRecordWrite c) s = .next t ∧ (t.chan c).queue = l ∧
        (t.chan c).written = (s.chan c).written + 16 ∧ (t.chan c).out = some x ∧
        s.keeps t.toDev [cB c + HOST_CAP_STATUS, cB c + HOST_CAP_WRITTEN_LO, cB c + HOST_CAP_WRITTEN_HI, rB c + HOST_RING_CAUSE]) ∧
      (s.ringFld c HOST_RING_CFG_NODE = 0 → s.capSize (sid (s.ringFld c HOST_RING_CFG_GROUP)) ≠ 0 → s.capUsed (sid (s.ringFld c HOST_RING_CFG_GROUP)) ≠ 0 →
        exec (.captureRecordWrite c) s = .next (s.withDev (((s.eccRead (s.capAddr (sid (s.ringFld c HOST_RING_CFG_GROUP)) 0) 16 rdCap).capTake
          (sid (s.ringFld c HOST_RING_CFG_GROUP)) 1).countRecord c (s.capRec (sid (s.ringFld c HOST_RING_CFG_GROUP)) 0)))))) ∧
  (∀ (d : Dev) (c : RingId) (x : Rec), ((d.countRecord c x).chan c).written = (d.chan c).written + 16 ∧ ((d.countRecord c x).chan c).out = some x) ∧
  (∀ (s : State) (c : RingId) (v : Word), s.awake = true →
    ((s.chan c).written < (s.rd (cB c + HOST_CAP_CONSUMED_HI) ++ v).toNat → ∃ t, exec (.consumedWrite c v) s = .next t ∧ t.flag 0 HOST_STATUS_REFUSED = true ∧
      s.keeps t.toDev [HOST_STATUS] ∧ t.chans = s.chans) ∧
    ((s.rd (cB c + HOST_CAP_CONSUMED_HI) ++ v).toNat ≤ (s.chan c).written → (s.chan c).consumed ≤ (s.rd (cB c + HOST_CAP_CONSUMED_HI) ++ v).toNat →
      (s.rd (cB c + HOST_CAP_CONSUMED_HI) ++ v).toNat % 16 = 0 → ∃ t, exec (.consumedWrite c v) s = .next t ∧
        (t.chan c).consumed = (s.rd (cB c + HOST_CAP_CONSUMED_HI) ++ v).toNat ∧ t.rd (cB c + HOST_CAP_CONSUMED_LO) = v ∧
        s.keeps t.toDev [cB c + HOST_CAP_CONSUMED_LO, cB c + HOST_CAP_STATUS, cB c + HOST_CAP_WRITTEN_LO, cB c + HOST_CAP_WRITTEN_HI])) ∧
  (∀ (s : State) (v : Fin 40), s.awake = true → s.hostUp = true → (s.vects.get v).due = true →
    ((s.vects.get v).masked = false → s.cfg.fmask = false → s.cfg.msix = true → ∃ t, exec (.msiXSend v) s = .next t ∧ (t.vects.get v).due = false ∧
      (t.vects.get v).sent = (s.vects.get v).sent + 1 ∧ t.now = max s.now (s.vects.get v).free ∧
      (t.vects.get v).free = t.now + s.fld 0 HOST_IRQ_HOLDOFF_NS ∧ s.keeps t.toDev []) ∧
    ((s.vects.get v).masked = true → ∃ t, exec (.msiXSend v) s = .next t ∧ (t.vects.get v).due = false ∧ (t.vects.get v).pending = true ∧
      (t.vects.get v).sent = (s.vects.get v).sent ∧ s.keeps t.toDev [])) ∧
  (∀ (s : State) (v : Fin 40), s.awake = true → s.cfg.msix = true →
    (s.cfg.fmask = false → (s.vects.get v).pending = true → ∃ t, exec (.msiXUnmask (some v)) s = .next t ∧ (t.vects.get v).masked = false ∧
      (t.vects.get v).pending = false ∧ (t.vects.get v).due = true ∧ s.keeps t.toDev []) ∧
    (∃ t, exec (.msiXUnmask none) s = .next t ∧ t.cfg.fmask = false ∧ s.keeps t.toDev [] ∧
      ((s.vects.get v).masked = false → (s.vects.get v).pending = true → (t.vects.get v).due = true))) ∧
  (∀ s : State, s.awake = true → s.cfg.link = true →
    (s.cfgRetry = true → ∀ q, exec (.configurationRequest q) s = .next (s.withDev { s.toDev with answer := ⟨0, false, true⟩ })) ∧
    (s.cfgRetry = false → exec (.configurationRequest .read) s = .next (s.withDev { s.toDev with answer := ⟨0x32001F3E, false, false⟩ }) ∧
      (∀ on, ∃ t, exec (.configurationRequest (.ptmEnable on)) s = .next t ∧ t.cfg.ptm = on ∧ s.keeps t.toDev []) ∧
      (∀ en mask, ∃ t, exec (.configurationRequest (.msixControl en mask)) s = .next t ∧ t.cfg.msix = en ∧ t.cfg.fmask = mask ∧ s.keeps t.toDev []) ∧
      (s.cfg.d3 = false → exec (.configurationRequest (.powerState true)) s = .next (s.withDev s.d3Enter)) ∧
      (s.cfg.d3 = true → exec (.configurationRequest (.powerState false)) s = .next (s.withDev s.hostClear)) ∧
      exec (.configurationRequest .otherWrite) s = .next s))

/-- R202, R250, R265, R302, R305, R325, R362: an aligned 64-bit write of a backed offset stores its bytes and no others; one to
an unbacked or a read-only offset, a poisoned one, and one the requester does not reach change nothing; one to an ACTIVE
segment is dropped with 0x301. A mailbox word both ports write in one cycle takes both, unless they clash, when the host's
is kept and the collision counted (R305); a coefficient set in force is not written (R202). Reads answer the bytes, or zero
where nothing is backed; a low word of TIME latches its high word for its requester. A register write goes to its register;
one that is narrow, misaligned, out of reach or to no register is discarded. -/
def Obligations.BarAccesses : Prop :=
  (∀ (s : State) (rq : Requester) (a : Nat) (l : List Byte), s.awake = true → l.length = 8 → a % 8 = 0 → s.reach2 rq a = true →
    (backed a = true → s.readOnly2 a = false → s.setsHit a 8 = [] → (0x1000000 ≤ a ∨ (s.segs.toList.getD (a / 262144) (0, false)).1 ≠ 2) →
      ∃ t, exec (.bar2Write rq a l false none) s = .next t ∧ (∀ i, i < 8 → t.byte (a + i) = l.getD i 0) ∧
        (∀ x, x < a ∨ a + 8 ≤ x → t.byte x = s.byte x) ∧ t.regs = s.regs ∧ t.nvm = s.nvm ∧ t.slices = s.slices) ∧
    ((backed a = false ∨ s.readOnly2 a = true) → exec (.bar2Write rq a l false none) s = .next s) ∧
    (backed a = true → s.readOnly2 a = false → s.setsHit a 8 ≠ [] → exec (.bar2Write rq a l false none) s = .next (s.withDev
      (s.each (s.setsHit a 8) (fun d n => (d.setFlag (sB n) SLICE_COEF_WSTATUS_REFUSED_WR true).note n)))) ∧
    (backed a = true → s.readOnly2 a = false → s.setsHit a 8 = [] → a < 0x1000000 → (s.segs.toList.getD (a / 262144) (0, false)).1 = 2 →
      exec (.bar2Write rq a l false none) s = .next (s.withDev (s.raise 0x301 0 a 0xFF))) ∧
    exec (.bar2Write .host a l true none) s = .next s) ∧
  (∀ (s : State) (rq : Requester) (a : Nat) (l : List Byte), s.awake = true → s.reach2 rq a = false → exec (.bar2Write rq a l false none) s = .next s) ∧
  (∀ (s : State) (a b : Nat) (l m : List Byte), s.awake = true → accessOk a l.length = true → accessOk b m.length = true →
    0x2800000 ≤ a → a < 0x2820000 → b / 8 = a / 8 → s.reach2 .host a = true → s.reach2 .surveyor b = true →
    (bytesClash a l b m = false → exec (.bar2Write .host a l false (some (b % 8, m))) s = .next (s.withDev
      ((s.storeWrite a l rdHost).storeWrite b m rdSurveyor))) ∧
    (bytesClash a l b m = true → exec (.bar2Write .host a l false (some (b % 8, m))) s = .next (s.withDev
      (((s.storeWrite a l rdHost).addFld 0 MEM_MBX_STATUS_COLLISIONS 1).raise (0x140 + 319) 5 a 0xFF)))) ∧
  (∀ (s : State) (rq : Requester) (a : Nat) (w : Bool), s.awake = true → a % (if w then 8 else 4) = 0 →
    ((backed a = false ∨ s.reach2 rq a = false) → exec (.bar2Read rq a w) s = .next (s.withDev { s.toDev with answer := ⟨0, false, false⟩ })) ∧
    (backed a = true → s.reach2 rq a = true → s.memst.bad = [] → exec (.bar2Read rq a w) s = .next (s.withDev
      { s.toDev with answer := ⟨BitVec.ofNat 64 (s.num a (if w then 8 else 4)), false, false⟩ }))) ∧
  (∀ (s : State) (rq : Requester), s.awake = true → s.released = true → s.cfg.d3 = false → s.isRemote = false →
    (∀ a, a % 4 = 0 → latchBase a = none → exec (.lowWordRead rq a) s = .next (s.withDev
      { s.toDev with answer := ⟨(s.view s.fuses.uid a).setWidth 64, false, false⟩ })) ∧
    (∃ t, exec (.lowWordRead rq MER_TIME_LO) s = .next t ∧ t.answer.data = (s.time.extractLsb' 0 32).setWidth 64 ∧
      (rq, MER_TIME_LO, s.time.extractLsb' 32 32) ∈ t.latches ∧ s.keeps t.toDev []) ∧
    (∀ w l, s.latches = (rq, MER_TIME_LO, w) :: l → ∃ t, exec (.lowWordRead rq MER_TIME_HI) s = .next t ∧ t.answer.data = w.setWidth 64 ∧ s.keeps t.toDev [])) ∧
  (∀ (s : State) (rq : Requester) (a : Nat) (v : Word), s.awake = true →
    (s.reloadBars rq a = false → a % 4 = 0 → pairOf a = none → regRow a ≠ none →
      exec (.registerWrite rq a v true) s = .next (s.withDev (s.writeWord s.fuses rq a v))) ∧
    (pairOf a = none → exec (.registerWrite rq a v false) s = .next s) ∧
    ((s.reloadBars rq a = true ∨ a % 4 ≠ 0) → ∀ full, exec (.registerWrite rq a v full) s = .next s) ∧
    (pairOf a = none → regRow a = none → ∀ full, exec (.registerWrite rq a v full) s = .next s))

/-- R396, R397, R402 to R404: a port that receives accepts a frame whose CRC and sequence are right and whose tag the channel's
keys bear out: SEQ and the counter move on, a credit is owed, and the frame's ACK and credits are taken. A frame with a bad
CRC is counted and answered by a NAK; one that fails its tag is counted and raises 0x2C4 + p. Stated for a frame whose
direction suits the node and stores with no bad word. R271, R275, R391, R394, R395, R401, R407 to R413: what the frames that
reach a node do there, when they are accepted and meant for it: relayed commands and their completions, records, station
data, the time frames, samples, triggers, freezes and faults. A frame for other nodes too is relayed before it acts; a
FREEZE is relayed before its tag is checked, and a SYNC not at all. -/
def Obligations.FramesAreAcceptedAndActOn : Prop :=
  (∀ (d : Dev) (rx : Rx) (k : Fin 3) (ex : Bool), d.receiving rx.port = true → d.bootListen = false →
    (rx.crcOk = false → d.accept rx k ex true = ((d.addWord (pB rx.port + LINK_PORT_CRCERR) 1).owesNak rx.port, false)) ∧
    (rx.crcOk = true → rx.seq.toNat = ((d.port rx.port).vcs.get k).rxSeq →
      (ex = false → d.authKind rx ((d.port rx.port).vcs.get k).rxCount ≠ 0 →
        d.accept rx k ex true = (d.authFail rx.port (d.authKind rx ((d.port rx.port).vcs.get k).rxCount), false)) ∧
      ((ex = true ∨ d.authKind rx ((d.port rx.port).vcs.get k).rxCount = 0) → rx.formOk = true → rx.src.toNat ≠ d.node → d.memst.bad = [] →
        (d.accept rx k ex true).2 = true ∧ (d.accept rx k ex true).1.now = d.now ∧
        (((d.accept rx k ex true).1.port rx.port).vcs.get k).rxSeq = (((d.port rx.port).vcs.get k).rxSeq + 1) % 256 ∧
        (((d.accept rx k ex true).1.port rx.port).vcs.get k).rxCount = max ((d.port rx.port).vcs.get k).rxCount rx.counter.toNat ∧
        (((d.accept rx k ex true).1.port rx.port).vcs.get k).owed = ((d.port rx.port).vcs.get k).owed + 1))) ∧
  (∀ (s : State) (d : Dev) (rx : Rx), s.awake = true → d.isFor rx = true →
  (∀ (ring index : Byte) (x : Word) (h : Hdr) (c : RingCmd) (kb : Option (List Byte × Bool)), ring.toNat < 32 → d.released = true →
    s.accept rx 0 (s.untagged false false) (s.isRemote || s.bootListen || s.cameRound rx) = (d, true) →
    exec (.commandFrame rx ring index x h c kb) s = .next (s.withDev ((d.relayFrame rx 0 (.command ring.toNat index.toNat x h c)).takeCommand
      ⟨ring.toNat, index.toNat, x.toNat, h, c, d.now⟩))) ∧
  (∀ (index : Byte) (x : Word) (h : Hdr) (c : RingCmd) (kb : List Byte × Bool),
    s.accept rx 0 (s.untagged false true) (s.isRemote || s.bootListen || s.cameRound rx) = (d, true) →
    exec (.commandFrame rx 0xFF index x h c (some kb)) s = .next (s.withDev
      ((d.relayFrame rx 0 (.keyLoad (kb.1.map (fun y => y.setWidth 32)))).takeKey kb.1 kb.2 h))) ∧
  (∀ (ring : Byte) (c : Cpl), ring.toNat < 32 → s.accept rx 0 false (!s.isRemote || rx.dst.toNat != s.node) = (d, true) →
    exec (.completionFrame rx ring c) s = .next (s.withDev ((d.relayFrame rx 0 (.completion ring.toNat c)).takeCompletion ring.toNat rx.src.toNat c))) ∧
  (∀ (g : GroupId) (first : Word64) (l : List Rec), s.accept rx 2 false (!s.isRemote || rx.dst.toNat != s.node) = (d, true) →
    exec (.recordFrame rx g first l) s = .next (s.withDev
      ((d.relayFrame rx 2 (.records g.val first.toNat l)).takeRecords rx.port rx.src.toNat g.val first.toNat l))) ∧
  (∀ (m : Msg) (err : Word) (st : Byte) (k : Nat), k = (if rx.src.toNat = 14 then d.bootNode rx.port else rx.src.toNat) →
    1 ≤ k → k ≤ d.plates.link.count → s.accept rx 0 false (!s.isRemote || rx.dst.toNat != s.node) = (d, true) →
    exec (.faultFrame rx m err st) s = .next (s.withDev ((d.relayFrame rx 0 (.fault m err st.toNat)).takeFault rx.port k m err st.toNat))) ∧
  (∀ (a : Word) (l : List Byte) (last : Bool),
    (d.released = true → s.accept rx 2 (s.untagged false false) (s.isRemote || s.bootListen || s.cameRound rx) = (d, true) →
      exec (.stationDataFrame rx a l false last) s = .next (s.withDev ((d.relayFrame rx 2 (.station a l false last)).takeStation a.toNat l))) ∧
    (d.bootListen = true → s.accept rx 2 (s.untagged true false) (s.isRemote || s.bootListen || s.cameRound rx) = (d, true) →
      exec (.stationDataFrame rx a l true last) s = .next (s.withDev ((d.relayFrame rx 2 (.station a l true last)).takeBoot rx.port a.toNat l last)))) ∧
  (∀ (x y : Word64) (r : BitVec 7) (sec : Bool), s.accept rx 1 false (s.isRemote || s.plates.link.ring) = (d, true) →
    exec (.timeSyncFrame rx r sec x y) s = .next (s.withDev (d.takeSync rx.port r.toNat sec x y))) ∧
  (s.accept rx 1 false (s.isRemote || s.bootListen || s.cameRound rx) = (d, true) →
    (∀ x y : Word64, exec (.timeStepFrame rx x y) s = .next (s.withDev ((d.relayFrame rx 1 (.timeStep x y)).hubStep x y))) ∧
    (∀ (a : Byte) (x y : Word64), exec (.timeAxisFrame rx a x y) s = .next (s.withDev ((d.relayFrame rx 1 (.timeAxis a.toNat x y)).takeSample x y))) ∧
    (∀ (en : Word) (nodes : BitVec 16), exec (.triggerFrame rx en nodes) s = .next (s.withDev
      ((d.relayFrame rx 1 (.trigger en nodes)).takeTrigger rx.port en nodes)))) ∧
  (∀ (o : Byte) (s1 : Dev), s1 = (if s.receiving rx.port && !s.bootListen then s.relayFrame rx 1 (.freeze o.toNat) else s.toDev) →
    s1.accept rx 1 (s1.untagged true true) (s1.isRemote || s1.bootListen || s1.cameRound rx) = (d, true) →
    exec (.freezeFrame rx o) s = .next (s.withDev (d.freeze 3))))

/-- R271, R372, R381, R395, R412, R413: what the work of those frames is. A command whose station data has come runs at once and
is not run twice; a completion takes its command from the ring's list, or is late; records join their channel's queue;
station data is written and counted; the first TIME frame steps TIME and sets it, a SECOND one disciplines it; the hub's
step acts once, and so does a sample that comes over both ports of a ring. -/
def Obligations.FrameContentsTakeEffect : Prop :=
  (∀ (d : Dev) (x : XferWait) (e : Cpl), d.link.done.find? (fun y => y.1 == x.ring && y.2.1 == x.index) = some (x.ring, x.index, e) →
    d.takeCommand x = if e.status == 255 then d else d.sendHub 0 (.completion x.ring e)) ∧
  (∀ (d : Dev) (x : XferWait), d.link.done.find? (fun y => y.1 == x.ring && y.2.1 == x.index) = none → d.link.xferWait = [] → d.xferMet x = true →
    ∃ e : Dev, d.takeCommand x = e.runRelayed x ∧ e.link = d.link ∧ d.keeps e []) ∧
  (∀ (d : Dev) (ring src : Nat) (c : Cpl), ring < 32 → (d.ring (sid ring)).relayed = [] → ∃ e : Dev, d.takeCompletion ring src c = e ∧
    e.fld 0 HOST_STATUS_LATE_CPL = (d.fld 0 HOST_STATUS_LATE_CPL + 1) % 2 ^ HOST_STATUS_LATE_CPL.w ∧ e.rings = d.rings ∧ d.keeps e [HOST_STATUS]) ∧
  (∀ (d : Dev) (ring src i : Nat) (w : Word) (x : Ctx) (y : RingCmd) (c : Cpl), ring < 32 → (d.ring (sid ring)).relayed = [(i, w, x, y)] →
    x.hdr.tag = c.tag → x.opcode = c.opcode → ∃ e : Dev, d.takeCompletion ring src c = e.endRelayed (sid ring) x { c with relayed := true } ∧
      (e.ring (sid ring)).relayed = [] ∧ d.keeps e []) ∧
  (∀ (d : Dev) (p : PortId) (k g first : Nat) (l : List Rec) (c : RingId), d.boundRing k g = some c → d.flag (cB c) HOST_CAP_STATUS_RUNNING = true →
    d.flag (cB c) HOST_CAP_STATUS_FULL = false → d.link.recvRecs = [((k, g), first)] →
    ((d.takeRecords p k g first l).chan c).queue = (d.chan c).queue ++ l ∧ d.keeps (d.takeRecords p k g first l) []) ∧
  (∀ (d : Dev) (p : PortId) (r : Nat) (sec : Bool) (x y : Word64), d.timeFromLink = true → d.mer.linkLost = false →
    (d.mer.linkSeen = true → sec = false → (d.takeSync p r sec x y).mer = { d.mer with linkSeen := true, linkAt := d.now, linkRate := r, linkLost := false } ∧
      (d.takeSync p r sec x y).time = d.time ∧ d.keeps (d.takeSync p r sec x y) []) ∧
    (d.mer.linkSeen = false → ∃ e : Dev, d.takeSync p r sec x y = (e.stepTime (d.time - BitVec.ofInt 64 ((y - x).toInt -
        openDiv (d.fld (pB p) LINK_PORT_HOP_D_PS) 10))).setFlag 0 MER_TIME_STATUS_TIME_SET true ∧ e.time = d.time ∧ d.keeps e [])) ∧
  (∀ (d : Dev) (x y : Word64), d.timeFromLink = true → (d.link.step ≠ some (x, y) → ∃ e : Dev, d.hubStep x y = e.stepTime (d.time + y) ∧
      e.link.step = some (x, y) ∧ e.time = d.time ∧ d.keeps e []) ∧ (d.link.step = some (x, y) → d.hubStep x y = d)) ∧
  (∀ (d : Dev) (x v : Word64), (d.axisRec 4).en = true → d.flag (axBase 4) MER_AX_STATUS_LOST = false →
    (((d.axisSt 4).samples.head?.map (fun y => y.1)) ≠ some x → ((d.takeSample x v).axisSt 4).seen = true ∧
      ((d.takeSample x v).axisSt 4).samples = ((x, v) :: (d.axisSt 4).samples).take 300 ∧ d.keeps (d.takeSample x v) [axBase 4 + MER_AX_RATE]) ∧
    (((d.axisSt 4).samples.head?.map (fun y => y.1)) = some x → d.takeSample x v = d)) ∧
  (∀ (d : Dev) (p : PortId) (en : Word) (nodes : BitVec 16), d.link.trig = none → nodes.getLsbD d.node = false →
    (d.takeTrigger p en nodes).link.trig = some (en, nodes, p.val) ∧ (d.takeTrigger p en nodes).engines = d.engines ∧ d.keeps (d.takeTrigger p en nodes) [])

/-- R393, R397, R399, R400, R403, R407 to R409: what a node sends of itself, and what it finds missing. R398, R404: a trained
port is up on both lanes under its new session; a lane that fails leaves the other, which sends what is unacknowledged
again, and clears its bit with its source; one that rejoins is up again; a retrain takes the port down, and so does the end
of a quarantine. R405, R406, R408, R411, R412: a key takes a slot that is free to be loaded, and the data words are cleared
whatever becomes of it; a key for a node that is not there fails; a trigger goes out of every port; a transfer of no bytes
is done at once, one to an absent node fails, and another runs until its last frame has been sent; a relayed command whose
station data does not come within 1 ms completes INTEGRITY. -/
def Obligations.LinkPortsKeysAndTransfers : Prop :=
  ((∀ (s : State) (rx : Rx) (b : Beat), s.awake = true → s.receiving rx.port = true → rx.crcOk = true → rx.formOk = true → b.restarted = false →
    (s.untagged true true = true ∨ s.authKind rx (s.port rx.port).beatRx = 0) →
    exec (.heartbeatFrame rx b) s = .next (s.withDev ((s.modPort rx.port (fun x => { x with beatRx := max x.beatRx rx.counter.toNat })).heartbeat rx.port b))) ∧
  (∀ (s : State) (p : PortId), s.awake = true → s.receiving p = true → ∃ t f, exec (.heartbeatSend p) s = .next t ∧ (t.port p).sent = some f ∧
    f.counter = (s.port p).beatTx ∧ (t.port p).beatTx = (s.port p).beatTx + 1 ∧ (t.port p).nakDue = false ∧
    (∃ b, f.body = .heartbeat b ∧ b.tTx = s.time ∧ b.session = (s.port p).session ∧ b.nak = (s.port p).nakDue) ∧ s.keeps t.toDev []) ∧
  (∀ (s : State), s.awake = true → s.released = true → s.domains = true →
    (∃ d : Dev, exec .timeSyncSend s = .next (s.withDev d.sendSync) ∧ d.now = max s.now (s.periodStart 1000000 s.link.syncMs) ∧
      d.link.syncMs = d.time.toNat / 1000000 ∧ s.keeps d []) ∧
    (s.isRemote = false → s.fld 0 MER_LINK_CFG_LINK_SRC ≠ 0 → ∃ d : Dev, exec .axisSampleSend s = .next (s.withDev
      (d.sendDown 1 (.timeAxis (s.fld 0 MER_LINK_CFG_LINK_SRC) d.time (d.axisNow (s.fld 0 MER_LINK_CFG_LINK_SRC))))) ∧
      d.now = max s.now (s.periodStart 1000 s.link.axisUs) ∧ d.link.axisUs = d.time.toNat / 1000 ∧ s.keeps d [])) ∧
  (∀ (s : State) (p : PortId) (k : Fin 3), s.awake = true →
    ((s.port p).vcs.get k).unacked ≠ [] → s.canSend p = true → ∃ t, exec (.retransmitTimeout p k) s = .next t ∧
      t.rd (pB p + LINK_PORT_RETX) = s.rd (pB p + LINK_PORT_RETX) + BitVec.ofNat 32 ((s.port p).vcs.get k).unacked.length ∧
      s.keeps t.toDev [pB p + LINK_PORT_RETX]) ∧
  (∀ (s : State) (p : PortId), s.awake = true → s.fallback = false → s.portEnabled p = true → (s.port p).heardAt ≠ 0 →
    s.flag (pB p) LINK_PORT_STATUS_PARTNER_ABSENT = false → exec (.partnerAbsent p) s = .next (s.withDev (s.partnerAbsent p)) ∧
    (∃ e : Dev, s.partnerAbsent p = (if s.isRemote = false then e.portAbsent p else if p = s.upPort then e.hubLost else
        (e.sendHub 0 (.fault (msg (0x2C2 + p.val) 0 0 0xFF) 0 (e.fld 0 GLOBAL_STATUS_STATE))).hubLost) ∧
      e.flag (pB p) LINK_PORT_STATUS_PARTNER_ABSENT = true ∧ e.now = max s.now ((s.port p).heardAt + 30000) ∧ s.keeps e [pB p + LINK_PORT_STATUS])) ∧
  (∀ s : State, s.awake = true → s.timeFromLink = true → s.mer.linkLost = false → s.fallback = false → exec .timeLinkLost s = .next (s.withDev
    ((((s.upTo (max s.mer.linkAt s.boot.zero + 10000000)).modMer (fun m => { m with linkLost := true })).merEvent 4).raiseGlobal 0x2A7 1))) ∧
  (∀ (d : Dev) (p : PortId) (b : Beat), b.nak = false → b.echoTx = 0 → b.echoRx = 0 → d.isRemote = true → p ≠ d.upPort → d.plates.groups = [] → (d.heartbeat p b).flag (pB p) LINK_PORT_STATUS_PARTNER_ABSENT = false ∧
      (d.heartbeat p b).flag (pB p) LINK_PORT_STATUS_PARTNER_BOOT = b.boot ∧ ((d.heartbeat p b).port p).heardAt = d.now ∧
      ((d.heartbeat p b).port p).peer = some b.session ∧ d.keeps (d.heartbeat p b) [pB p + LINK_PORT_STATUS, LINK_XFER_STATUS])) ∧
  ((∀ (s : State) (p : PortId) (x : Word64), s.awake = true → s.fallback = false → 4 ≤ s.boot.step → s.portUsed p = true →
    s.flag (pB p) LINK_PORT_STATUS_UP = false → s.flag (pB p) LINK_PORT_STATUS_QUARANTINED = false →
    ∃ t, exec (.portTrained p x) s = .next t ∧ t.flag (pB p) LINK_PORT_STATUS_UP = true ∧ t.fld (pB p) LINK_PORT_STATUS_LANES = 3 ∧
      (t.port p).session = x ∧ (t.port p).peer = none ∧ (t.port p).downAt = none ∧ t.now = s.now ∧
      s.keeps t.toDev [pB p + LINK_PORT_STATUS, FAULT_CAUSE + 4 * 22]) ∧
  (∀ (s : State) (p : PortId) (l : Fin 2), s.awake = true → s.fallback = false → s.flag (pB p) ⟨LINK_PORT_STATUS, l.val, 1⟩ = true →
    ∃ d : Dev, exec (.laneFailure p l) s = .next (s.withDev ((if (d.raiseGlobal (0x2C0 + p.val) (l.val + 1)).fld (pB p) LINK_PORT_STATUS_LANES == 0 then
        (d.raiseGlobal (0x2C0 + p.val) (l.val + 1)).portLost p
        else vcList.foldl (fun e k => e.resend p k) (d.raiseGlobal (0x2C0 + p.val) (l.val + 1))).linkEvent)) ∧
      d.flag (pB p) ⟨LINK_PORT_STATUS, l.val, 1⟩ = false ∧ d.flag 0 ⟨FAULT_CAUSE + 4 * 22, p.val, 1⟩ = true ∧
      s.keeps d [pB p + LINK_PORT_STATUS, FAULT_CAUSE + 4 * 22]) ∧
  (∀ (s : State) (p : PortId) (l : Fin 2), s.awake = true → s.fallback = false → s.flag (pB p) LINK_PORT_STATUS_UP = true →
    ∃ t, exec (.laneRejoin p l) s = .next t ∧ t.flag (pB p) ⟨LINK_PORT_STATUS, l.val, 1⟩ = true ∧
      (t.fld (pB p) LINK_PORT_STATUS_LANES = 3 → t.flag 0 ⟨FAULT_CAUSE + 4 * 22, p.val, 1⟩ = false) ∧
      s.keeps t.toDev [pB p + LINK_PORT_STATUS, FAULT_CAUSE + 4 * 22]) ∧
  (∀ (s : State) (p : PortId), s.awake = true →
    (s.portUsed p = true → s.flag (pB p) LINK_PORT_STATUS_QUARANTINED = false → ∃ t, exec (.portRetrain p) s = .next t ∧
      t.flag (pB p) LINK_PORT_STATUS_UP = false ∧ t.fld (pB p) LINK_PORT_STATUS_LANES = 0 ∧ (t.port p).peer = none ∧ s.keeps t.toDev [pB p + LINK_PORT_STATUS]) ∧
    (s.flag (pB p) LINK_PORT_STATUS_QUARANTINED = true →
      (∃ t, exec (.portRelease p) s = .next t ∧ t.flag (pB p) LINK_PORT_STATUS_QUARANTINED = false ∧ t.flag (pB p) LINK_PORT_STATUS_UP = false ∧
        t.flag 0 ⟨FAULT_CAUSE + 4 * 22, 6 + p.val, 1⟩ = false ∧ t.now = s.now ∧ s.keeps t.toDev [pB p + LINK_PORT_STATUS, FAULT_CAUSE + 4 * 22]) ∧
      (∃ t, exec (.quarantineEnd p) s = .next t ∧ t.flag (pB p) LINK_PORT_STATUS_QUARANTINED = false ∧ t.flag (pB p) LINK_PORT_STATUS_UP = false ∧
        t.now = max s.now ((s.port p).quarAt + 100000000) ∧ s.keeps t.toDev [pB p + LINK_PORT_STATUS, FAULT_CAUSE + 4 * 22])) ∧
    (s.flag (pB p) LINK_PORT_STATUS_QUARANTINED = false → exec (.portRelease p) s = .next s ∧ exec (.quarantineEnd p) s = .next s))) ∧
  ((∀ (s : State) (k : Fin 8), s.awake = true → s.isRemote = false →
    (s.slotFree k = true → ∃ t, exec (.keyLoad k) s = .next t ∧
      t.link.keys.get k = some (BitVec.ofNat 256 (leNat ((List.range 8).flatMap (fun i => leBytes 4 (s.rd (LINK_KEY_DATA + 4 * i)).toNat)))) ∧
      (∀ i, i < 8 → t.rd (LINK_KEY_DATA + 4 * i) = 0) ∧ t.flag 0 ⟨LINK_KEY_STATUS, k.val, 1⟩ = true ∧
      s.keeps t.toDev (LINK_KEY_CTRL :: LINK_KEY_STATUS :: (List.range 8).map (fun i => LINK_KEY_DATA + 4 * i))) ∧
    (s.slotFree k = false → ∃ d : Dev, exec (.keyLoad k) s = .next (s.withDev (d.raiseGlobal 0x2CC 0).linkEvent) ∧ d.flag 0 LINK_KEY_STATUS_REFUSED = true ∧
      d.link.keys = s.link.keys ∧ (∀ i, i < 8 → d.rd (LINK_KEY_DATA + 4 * i) = 0))) ∧
  (∀ (s : State) (k : BitVec 4), s.awake = true →
    (k = 0 ∨ 8 < k.toNat → ∃ t, exec (.remoteKeySend k) s = .next t ∧ t.flag 0 LINK_STATUS_REFUSED = true ∧ s.keeps t.toDev [LINK_STATUS]) ∧
    (k ≠ 0 → k.toNat ≤ 8 → s.isRemote = false → s.flag 0 LINK_RKEY_STATUS_BUSY = false → s.plates.link.count < k.toNat →
      ∃ t, exec (.remoteKeySend k) s = .next t ∧ t.fld 0 LINK_RKEY_STATUS_RESULT = 2 ∧ t.flag 0 LINK_RKEY_STATUS_BUSY = false ∧
        s.keeps t.toDev [LINK_RKEY_CTRL, LINK_RKEY_STATUS]) ∧
    (k ≠ 0 → k.toNat ≤ 8 → s.isRemote = false → s.flag 0 LINK_RKEY_STATUS_BUSY = false → k.toNat ≤ s.plates.link.count →
      (s.fld (nodeBase k.toNat) LINK_NODE_STATUS_STATE = 1 ∨ s.fld (nodeBase k.toNat) LINK_NODE_STATUS_STATE = 2) →
      ∃ d : Dev, exec (.remoteKeySend k) s = .next (s.withDev (d.sendNode k.toNat 0 (.keyLoad ((List.range 12).map (fun i => s.rd (LINK_RKEY_DATA + 4 * i)))))) ∧
        d.flag 0 LINK_RKEY_STATUS_BUSY = true ∧ s.keeps d [LINK_RKEY_CTRL, LINK_RKEY_STATUS])) ∧
  (∀ (s : State) (nodes : BitVec 9), s.awake = true →
    (s.isRemote = true → ∃ t, exec (.triggerSend nodes) s = .next t ∧ t.flag 0 LINK_STATUS_REFUSED = true ∧ s.keeps t.toDev [LINK_STATUS]) ∧
    (s.isRemote = false → s.anyPortUp = true → exec (.triggerSend nodes) s = .next (s.withDev
      (((s.setFld 0 LINK_TRIG_CTRL_NODES nodes.toNat).sendDown 1 (.trigger (s.rd LINK_TRIG_ENGINES) (nodes.setWidth 16))).fire
        (s.rd LINK_TRIG_ENGINES) (nodes.setWidth 16)))) ∧
    (s.isRemote = false → s.anyPortUp = false → ∃ d : Dev, exec (.triggerSend nodes) s = .next (s.withDev
      (d.fire (s.rd LINK_TRIG_ENGINES) (nodes.setWidth 16))) ∧ d.now = s.now + 2 ∧ s.keeps d [LINK_TRIG_CTRL])) ∧
  (∀ (s : State) (k : BitVec 4) (boot last : Bool), s.awake = true →
    (k = 0 ∨ 8 < k.toNat ∨ s.isRemote = true ∨ s.flag 0 LINK_XFER_STATUS_BUSY = true → ∃ t, exec (.xferStart k boot last) s = .next t ∧ t.flag 0 LINK_STATUS_REFUSED = true ∧
      s.keeps t.toDev [LINK_STATUS]) ∧
    (k ≠ 0 → k.toNat ≤ 8 → s.isRemote = false → s.flag 0 LINK_XFER_STATUS_BUSY = false → s.fld 0 LINK_XFER_LEN_LEN = 0 → ∃ t, exec (.xferStart k boot last) s = .next t ∧
      t.flag 0 LINK_XFER_STATUS_DONE = true ∧ t.fld 0 LINK_XFER_STATUS_ERR = s.fld 0 LINK_XFER_STATUS_ERR ∧
      s.keeps t.toDev [LINK_XFER_CTRL, LINK_XFER_STATUS]) ∧
    (k ≠ 0 → k.toNat ≤ 8 → s.isRemote = false → s.flag 0 LINK_XFER_STATUS_BUSY = false → s.fld 0 LINK_XFER_LEN_LEN ≠ 0 → s.plates.link.count < k.toNat →
      ∃ d : Dev, exec (.xferStart k boot last) s = .next (s.withDev ((d.raiseGlobal 0x2CB 0).linkEvent)) ∧ d.flag 0 LINK_XFER_STATUS_DONE = true ∧
        d.fld 0 LINK_XFER_STATUS_ERR = 1 ∧ s.keeps d [LINK_XFER_CTRL, LINK_XFER_STATUS]) ∧
    (k ≠ 0 → k.toNat ≤ 8 → s.isRemote = false → s.flag 0 LINK_XFER_STATUS_BUSY = false → s.fld 0 LINK_XFER_LEN_LEN ≠ 0 →
      k.toNat ≤ s.plates.link.count → s.fld (nodeBase k.toNat) LINK_NODE_STATUS_STATE = 2 →
      (s.rd LINK_XFER_SRC).toNat + s.fld 0 LINK_XFER_LEN_LEN ≤ 0x27E0000 → s.memst.bad = [] →
      ∃ t : Dev, exec (.xferStart k boot last) s = .next (s.withDev t.xferCheck) ∧ t.flag 0 LINK_XFER_STATUS_BUSY = true ∧ t.link.xferNode = k.toNat ∧
        t.rd (nodeBase k.toNat + LINK_NODE_XFER) = s.rd (nodeBase k.toNat + LINK_NODE_XFER) + BitVec.ofNat 32 (stationChunks (s.fld 0 LINK_XFER_LEN_LEN / 248 + 1)
          (s.rd LINK_XFER_DST).toNat (s.bytes (s.rd LINK_XFER_SRC).toNat (s.fld 0 LINK_XFER_LEN_LEN))).length ∧
        s.keeps t [LINK_XFER_CTRL, LINK_XFER_STATUS, nodeBase k.toNat + LINK_NODE_XFER])) ∧
  (∀ d : Dev, d.flag 0 LINK_XFER_STATUS_BUSY = true → (d.xferWaits = true → d.xferCheck = d) ∧ (d.xferWaits = false →
    d.xferCheck.flag 0 LINK_XFER_STATUS_BUSY = false ∧ d.xferCheck.flag 0 LINK_XFER_STATUS_DONE = true ∧ d.keeps d.xferCheck [LINK_XFER_STATUS])) ∧
  (∀ (s : State) (r : RingId) (x : XferWait), s.awake = true → s.link.xferWait = [x] → x.ring = r.val →
    ∃ d : Dev, exec (.xferCountTimeout r) s = .next (s.withDev (d.sendHub 0 (.completion x.ring
      { tag := x.hdr.tag, status := INTEGRITY, phase := false, relayed := true, opcode := RingCmd.opcode x.cmd, group := x.hdr.group.toNat % 32, node := s.node, faultOff := 0xFF, time := d.time }))) ∧
      d.link.xferWait = [] ∧ d.link.done.head?.map (fun y => (y.1, y.2.1)) = some (x.ring, x.index) ∧ d.now = max s.now (x.since + 1000000) ∧ s.keeps d []))

/-- R421 to R424, R429: FREEZE_N falling and the FREEZE instruction stop the device 4 cycles later, with their cause and a new
challenge; in a freeze they change nothing but the port's data register; THAW is refused with FREEZE_N low, a chain away
from home or a response under check, and otherwise the device thaws. Stated for a freeze that does not propagate. R425 to
R428: the instructions of the test port. STATUS shows `FRZ_STATUS`; a selected chain reads one bit a shift and comes home
after its length; the memory address counts on after a read; none of the readout instructions works unless readout is open.
A challenge is shown in freeze only; a response is checked once, its key and its signature over the challenge, and the third
that fails locks the freeze out; EXTEST drives the balls in reset only; SAMPLE and BYPASS. -/
def Obligations.FreezeThawAndTestPort : Prop :=
  ((∀ s : State, s.pins.resetN = true → s.frz.frozen = false → s.powerFailing = false → s.plates.link.freeze = false →
    (∃ t, exec .freezeNFall s = .next t ∧ t.frz.frozen = true ∧ t.frz.cause = 1 ∧ t.now = s.now + 4 ∧ t.frz.count = (s.frz.count + 1) % 65536 ∧
      t.frz.unlocked = false ∧ t.frz.shifts = 0 ∧ t.frz.span = 0 ∧ t.pins.freezeN = false ∧ s.keeps t.toDev []) ∧
    (∃ t, exec .jtagFreeze s = .next t ∧ t.frz.frozen = true ∧ t.frz.cause = 2 ∧ t.now = s.now + 4 ∧ t.frz.count = (s.frz.count + 1) % 65536 ∧
      t.frz.dr = (1, 0) ∧ s.keeps t.toDev [])) ∧
  (∀ s : State, s.frz.frozen = true →
    (∃ t, exec .freezeNFall s = .next t ∧ t.frz = s.frz ∧ t.pins.freezeN = false ∧ t.now = s.now ∧ s.keeps t.toDev []) ∧
    (∃ t, exec .jtagFreeze s = .next t ∧ t.frz.frozen = true ∧ t.frz.cause = s.frz.cause ∧ t.frz.refused = false ∧ t.now = s.now ∧ s.keeps t.toDev []) ∧
    (∀ f : Bool, (f = false ∨ s.frz.shifts ≠ 0 ∨ s.frz.busy = true) → ∃ t, exec (.jtagThaw f) s = .next t ∧ t.frz.refused = true ∧ t.frz.frozen = true ∧
      t.now = s.now ∧ s.keeps t.toDev []) ∧
    (s.frz.shifts = 0 → s.frz.busy = false → ∃ d : Dev, exec (.jtagThaw true) s = .next (s.withDev d.thaw) ∧ d.frz.frozen = true ∧ d.frz.refused = false ∧
      d.frz.span = s.frz.span ∧ d.frz.wires = s.frz.wires ∧ d.time = s.time ∧ s.keeps d [])) ∧
  (∀ (s : State) (f : Bool), s.frz.frozen = false → ∃ t, exec (.jtagThaw f) s = .next t ∧ t.frz.frozen = false ∧ t.now = s.now ∧ s.keeps t.toDev []) ∧
  (∀ (d : Dev) (k : Nat), d.frz.span = k → 4 ≤ d.boot.step → d.fallback = false → d.plates.groups = [] → (∀ a, (d.axisRec a).en = false) →
    ∃ e : Dev, d.thawMeridian k = (e.merEvent 6).raiseGlobal 0x2A8 0 ∧ e.mer.firstEdge = true ∧ e.time = d.time + BitVec.ofNat 64 k ∧
      e.rd64 MER_THAW_SKIP_LO MER_THAW_SKIP_HI = BitVec.ofNat 64 k ∧ d.keeps e [MER_THAW_SKIP_LO, MER_THAW_SKIP_HI])) ∧
  ((∀ (s : State) (f : Bool), ∃ t, exec (.jtagStatus f) s = .next t ∧ t.frz.dr.1 = 32 ∧ t.frz.dr.2 = t.frzStatus ∧ t.pins.freezeN = f ∧ t.frz.extest = false ∧
    t.now = s.now ∧ s.keeps t.toDev []) ∧
  (∀ (s : State) (c : Byte), s.readable = true →
    (s.frz.shifts = 0 → ∃ t, exec (.scanSelect c) s = .next t ∧ t.frz.scanSel = c.toNat ∧ t.frz.dr = (8, s.frz.scanSel) ∧ s.keeps t.toDev []) ∧
    (s.frz.shifts ≠ 0 → ∃ t, exec (.scanSelect c) s = .next t ∧ t.frz.scanSel = s.frz.scanSel ∧ s.keeps t.toDev []) ∧
    (∃ t, exec .scanRead s = .next t ∧ t.frz.shifts = (s.frz.shifts + 1) % chainLength s.frz.scanSel ∧ t.frz.scanSel = s.frz.scanSel ∧
      t.frz.dr = (1, (s.chainBit s.fuses.uid s.frz.scanSel s.frz.shifts).toNat) ∧ s.keeps t.toDev [])) ∧
  (∀ (s : State) (a : Word), s.readable = true →
    (∃ t, exec (.memSelect a) s = .next t ∧ t.frz.memAddr = a &&& 0x0FFFFFFF ∧ t.frz.dr = (32, s.frz.memAddr.toNat) ∧ s.keeps t.toDev []) ∧
    (∃ t, exec .memRead s = .next t ∧ t.frz.memAddr = BitVec.ofNat 32 (memNext s.frz.memAddr.toNat) ∧ t.frz.memData = BitVec.ofNat 80 s.memWord ∧
      t.frz.dr = (80, s.memWord) ∧ s.keeps t.toDev [])) ∧
  (∀ s : State, s.readable = false →
    (∀ c, ∃ t, exec (.scanSelect c) s = .next t ∧ t.frz.dr = (8, 0) ∧ t.frz.scanSel = s.frz.scanSel ∧ s.keeps t.toDev []) ∧
    (∃ t, exec .scanRead s = .next t ∧ t.frz.dr = (1, 0) ∧ t.frz.shifts = s.frz.shifts ∧ s.keeps t.toDev []) ∧
    (∀ a, ∃ t, exec (.memSelect a) s = .next t ∧ t.frz.dr = (32, 0) ∧ t.frz.memAddr = s.frz.memAddr ∧ s.keeps t.toDev []) ∧
    (∃ t, exec .memRead s = .next t ∧ t.frz.dr = (80, 0) ∧ t.frz.memAddr = s.frz.memAddr ∧ s.keeps t.toDev [])) ∧
  (∀ s : State, (s.frz.frozen = true → ∃ t, exec .unlockChallenge s = .next t ∧ t.frz.dr = (512, s.challenge s.fuses.uid) ∧ s.keeps t.toDev []) ∧
    (s.frz.frozen = false → ∃ t, exec .unlockChallenge s = .next t ∧ t.frz.dr = (512, 0) ∧ s.keeps t.toDev [])) ∧
  (∀ (s : State) (k : Word) (pk sg : List Byte),
    (s.frz.frozen = true → s.frz.lockedOut = false → s.frz.busy = false → ∃ t, exec (.unlockResponse k ⟨pk, sg⟩) s = .next t ∧ t.frz.busy = true ∧
      t.frz.verify = some (k, pk, sg) ∧ s.keeps t.toDev []) ∧
    ((s.frz.frozen = false ∨ s.frz.lockedOut = true ∨ s.frz.busy = true) → ∃ t, exec (.unlockResponse k ⟨pk, sg⟩) s = .next t ∧ t.frz.verify = s.frz.verify ∧
      t.frz.busy = s.frz.busy ∧ s.keeps t.toDev []) ∧
    (s.frz.verify = some (k, pk, sg) →
      (s.fuses.keyOk k.toNat pk = true → signatureOk pk sg (leBytes 64 (s.challenge s.fuses.uid)) = true → ∃ t, exec .unlockVerifyDone s = .next t ∧ t.frz.unlocked = true ∧ t.frz.busy = false ∧ t.frz.verify = none ∧
        t.frz.fails = s.frz.fails ∧ s.keeps t.toDev []) ∧
      (s.fuses.keyOk k.toNat pk = false ∨ signatureOk pk sg (leBytes 64 (s.challenge s.fuses.uid)) = false → ∃ t, exec .unlockVerifyDone s = .next t ∧ t.frz.unlocked = s.frz.unlocked ∧ t.frz.busy = false ∧
        t.frz.fails = s.frz.fails + 1 ∧ (t.frz.lockedOut = true ↔ 3 ≤ s.frz.fails + 1) ∧ s.keeps t.toDev []))) ∧
  (∀ (s : State) (l : List Bool) (b : Bool),
    (s.pins.resetN = true → ∃ t, exec (.extest l) s = .next t ∧ t.frz.extest = false ∧ t.frz.dr = (l.length, 0) ∧ t.frz.cells = s.frz.cells ∧ s.keeps t.toDev []) ∧
    (s.pins.resetN = false → ∃ t, exec (.extest l) s = .next t ∧ t.frz.extest = true ∧ t.frz.cells = l ∧ t.frz.dr.1 = l.length ∧ s.keeps t.toDev []) ∧
    (∃ t, exec (.samplePreload l) s = .next t ∧ t.frz.extest = false ∧ t.frz.cells = l ∧ t.frz.dr.1 = l.length ∧ s.keeps t.toDev []) ∧
    (∃ t, exec (.bypass b) s = .next t ∧ t.frz.bypass = b ∧ t.frz.dr = (1, s.frz.bypass.toNat) ∧ s.keeps t.toDev [])))
end

