-- ==== Sys2Proof/Laws/Dispatch.lean ====
section
/-! SUPPORT. What exec runs for each command, one lemma per arm, so that no proof unfolds the dispatch. -/

namespace Sys2Proof.Machine

theorem exec_resetNRise (bootsel : BitVec 2) (recoveryN : Bool) (s : State) :
    exec (.resetNRise bootsel recoveryN) s = execResetNRise bootsel recoveryN s := rfl
theorem exec_bootPllLock (s : State) :
    exec .bootPllLock s = execBootPllLock s := rfl
theorem exec_resetNLow (s : State) :
    exec .resetNLow s = execResetNLow s := rfl
theorem exec_atlasImageCheck (prim gold : List Byte) (clampHi clampLo mons : List Side) (temps : List (Option Int)) (refin : Bool) (corr : Int) (s : State) :
    exec (.atlasImageCheck prim gold clampHi clampLo mons temps refin corr) s = execAtlasImageCheck prim gold clampHi clampLo mons temps refin corr s := rfl
theorem exec_bootResurveyPass (failed : List Nat) (s : State) :
    exec (.bootResurveyPass failed) s = execBootResurveyPass failed s := rfl
theorem exec_release (s : State) :
    exec .release s = execRelease s := rfl
theorem exec_atlasLoad (s : State) :
    exec .atlasLoad s = execAtlasLoad s := rfl
theorem exec_atlasPartial (s : State) :
    exec .atlasPartial s = execAtlasPartial s := rfl
theorem exec_partialDone (s : State) :
    exec .partialDone s = execPartialDone s := rfl
theorem exec_programKeyHash0 (s : State) :
    exec .programKeyHash0 s = execProgramKeyHash0 s := rfl
theorem exec_programKeyHash1 (s : State) :
    exec .programKeyHash1 s = execProgramKeyHash1 s := rfl
theorem exec_revokeKey0 (s : State) :
    exec .revokeKey0 s = execRevokeKey0 s := rfl
theorem exec_revokeKey1 (s : State) :
    exec .revokeKey1 s = execRevokeKey1 s := rfl
theorem exec_blowServiceFuse (s : State) :
    exec .blowServiceFuse s = execBlowServiceFuse s := rfl
theorem exec_lifecycleCommandDone (s : State) :
    exec .lifecycleCommandDone s = execLifecycleCommandDone s := rfl
theorem exec_graveLatchClear (s : State) :
    exec .graveLatchClear s = execGraveLatchClear s := rfl
theorem exec_pwrfailNFall (s : State) :
    exec .pwrfailNFall s = execPwrfailNFall s := rfl
theorem exec_pwrfailNRise (s : State) :
    exec .pwrfailNRise s = execPwrfailNRise s := rfl
theorem exec_brownOut (rail : Fin 6) (s : State) :
    exec (.brownOut rail) s = execBrownOut rail s := rfl
theorem exec_interlockNFall (s : State) :
    exec .interlockNFall s = execInterlockNFall s := rfl
theorem exec_interlockNRise (s : State) :
    exec .interlockNRise s = execInterlockNRise s := rfl
theorem exec_perst (s : State) :
    exec .perst s = execPerst s := rfl
theorem exec_functionLevelReset (s : State) :
    exec .functionLevelReset s = execFunctionLevelReset s := rfl
theorem exec_sampleTick (g : GroupId) (s : State) :
    exec (.sampleTick g) s = execSampleTick g s := rfl
theorem exec_laneComputation (n : SliceId) (v ia ib : Code) (s : State) :
    exec (.laneComputation n v ia ib) s = execLaneComputation n v ia ib s := rfl
theorem exec_dieToDieParityError (n : SliceId) (w : D2dWord) (s : State) :
    exec (.dieToDieParityError n w) s = execDieToDieParityError n w s := rfl
theorem exec_fdacLatch (n : SliceId) (s : State) :
    exec (.fdacLatch n) s = execFdacLatch n s := rfl
theorem exec_queueFlush (n : SliceId) (s : State) :
    exec (.queueFlush n) s = execQueueFlush n s := rfl
theorem exec_loadInEdge (s : State) :
    exec .loadInEdge s = execLoadInEdge s := rfl
theorem exec_loadInTimeout (g : GroupId) (s : State) :
    exec (.loadInTimeout g) s = execLoadInTimeout g s := rfl
theorem exec_parkRgSafe (n : SliceId) (s : State) :
    exec (.parkRgSafe n) s = execParkRgSafe n s := rfl
theorem exec_parkComplete (n : SliceId) (s : State) :
    exec (.parkComplete n) s = execParkComplete n s := rfl
theorem exec_inductiveRampEnd (n : SliceId) (s : State) :
    exec (.inductiveRampEnd n) s = execInductiveRampEnd n s := rfl
theorem exec_unparkOutenLow (g : GroupId) (s : State) :
    exec (.unparkOutenLow g) s = execUnparkOutenLow g s := rfl
theorem exec_unparkClose (g : GroupId) (s : State) :
    exec (.unparkClose g) s = execUnparkClose g s := rfl
theorem exec_monitorSlot (n : SliceId) (reading : BitVec 18) (s : State) :
    exec (.monitorSlot n reading) s = execMonitorSlot n reading s := rfl
theorem exec_forceCfgWrite (n : SliceId) (v : Word) (s : State) :
    exec (.forceCfgWrite n v) s = execForceCfgWrite n v s := rfl
theorem exec_pairedValueWrite (rq : Requester) (offset : Nat) (v : Word) (full : Bool) (s : State) :
    exec (.pairedValueWrite rq offset v full) s = execPairedValueWrite rq offset v full s := rfl
theorem exec_pairedComplementWrite (rq : Requester) (offset : Nat) (v : Word) (full : Bool) (s : State) :
    exec (.pairedComplementWrite rq offset v full) s = execPairedComplementWrite rq offset v full s := rfl
theorem exec_recordWindowClose (n : SliceId) (s : State) :
    exec (.recordWindowClose n) s = execRecordWindowClose n s := rfl
theorem exec_recCfgWrite (g : GroupId) (v : Word) (s : State) :
    exec (.recCfgWrite g v) s = execRecCfgWrite g v s := rfl
theorem exec_rowWrite (s : State) :
    exec .rowWrite s = execRowWrite s := rfl
theorem exec_captureArm (h : Hdr) (p : ArmP) (s : State) :
    exec (.captureArm h p) s = execCaptureArm h p s := rfl
theorem exec_capRegionWrite (g : GroupId) (size : Bool) (v : Word) (s : State) :
    exec (.capRegionWrite g size v) s = execCapRegionWrite g size v s := rfl
theorem exec_capRdWrite (g : GroupId) (v : Word) (s : State) :
    exec (.capRdWrite g v) s = execCapRdWrite g v s := rfl
theorem exec_measCfgWrite (n : SliceId) (v : Word) (s : State) :
    exec (.measCfgWrite n v) s = execMeasCfgWrite n v s := rfl
theorem exec_corrArm (n : SliceId) (v : Word) (s : State) :
    exec (.corrArm n v) s = execCorrArm n v s := rfl
theorem exec_corrWindowOpen (n : SliceId) (s : State) :
    exec (.corrWindowOpen n) s = execCorrWindowOpen n s := rfl
theorem exec_corrWindowClose (n : SliceId) (s : State) :
    exec (.corrWindowClose n) s = execCorrWindowClose n s := rfl
theorem exec_range (h : Hdr) (p : RangeP) (s : State) :
    exec (.range h p) s = execRange h p s := rfl
theorem exec_handoverPrepareEnd (n : SliceId) (s : State) :
    exec (.handoverPrepareEnd n) s = execHandoverPrepareEnd n s := rfl
theorem exec_handoverEnd (n : SliceId) (s : State) :
    exec (.handoverEnd n) s = execHandoverEnd n s := rfl
theorem exec_soloSwitchEnd (n : SliceId) (s : State) :
    exec (.soloSwitchEnd n) s = execSoloSwitchEnd n s := rfl
theorem exec_vrangeHoldEnd (n : SliceId) (s : State) :
    exec (.vrangeHoldEnd n) s = execVrangeHoldEnd n s := rfl
theorem exec_rgPatternWrite (n : SliceId) (offset : Nat) (v : Word) (s : State) :
    exec (.rgPatternWrite n offset v) s = execRgPatternWrite n offset v s := rfl
theorem exec_limReload (n : SliceId) (s : State) :
    exec (.limReload n) s = execLimReload n s := rfl
theorem exec_clampTrip (n : SliceId) (high : Bool) (s : State) :
    exec (.clampTrip n high) s = execClampTrip n high s := rfl
theorem exec_clampAutoRelease (n : SliceId) (s : State) :
    exec (.clampAutoRelease n) s = execClampAutoRelease n s := rfl
theorem exec_clampClear (n : SliceId) (s : State) :
    exec (.clampClear n) s = execClampClear n s := rfl
theorem exec_winCrossing (n : SliceId) (above : Bool) (s : State) :
    exec (.winCrossing n above) s = execWinCrossing n above s := rfl
theorem exec_winCfgWrite (n : SliceId) (v : Word) (input : BitVec 12) (s : State) :
    exec (.winCfgWrite n v input) s = execWinCfgWrite n v input s := rfl
theorem exec_winSampledTick (n : SliceId) (value : BitVec 12) (s : State) :
    exec (.winSampledTick n value) s = execWinSampledTick n value s := rfl
theorem exec_smonTick (m : SliceId) (value : BitVec 12) (s : State) :
    exec (.smonTick m value) s = execSmonTick m value s := rfl
theorem exec_comparatorWrite (offset : Nat) (v : Word) (s : State) :
    exec (.comparatorWrite offset v) s = execComparatorWrite offset v s := rfl
theorem exec_prgPeriodStart (n : SliceId) (cs : List (Nat × Int)) (vs : BitVec 12) (s : State) :
    exec (.prgPeriodStart n cs vs) s = execPrgPeriodStart n cs vs s := rfl
theorem exec_headroomTick (n : SliceId) (s : State) :
    exec (.headroomTick n) s = execHeadroomTick n s := rfl
theorem exec_prgCfgWrite (n : SliceId) (v : Word) (s : State) :
    exec (.prgCfgWrite n v) s = execPrgCfgWrite n v s := rfl
theorem exec_laneParityError (l : LaneId) (s : State) :
    exec (.laneParityError l) s = execLaneParityError l s := rfl
theorem exec_laneRestoreDone (l : LaneId) (s : State) :
    exec (.laneRestoreDone l) s = execLaneRestoreDone l s := rfl
theorem exec_loopDivWrite (g : GroupId) (v : Word) (s : State) :
    exec (.loopDivWrite g v) s = execLoopDivWrite g v s := rfl
theorem exec_loopOuterWrite (n : SliceId) (v : Word) (s : State) :
    exec (.loopOuterWrite n v) s = execLoopOuterWrite n v s := rfl
theorem exec_outerTick (n : SliceId) (s : State) :
    exec (.outerTick n) s = execOuterTick n s := rfl
theorem exec_loopOpen (h : Hdr) (mask : Word) (s : State) :
    exec (.loopOpen h mask) s = execLoopOpen h mask s := rfl
theorem exec_loopOpenEffect (g : GroupId) (s : State) :
    exec (.loopOpenEffect g) s = execLoopOpenEffect g s := rfl
theorem exec_loopClose (h : Hdr) (mask : Word) (s : State) :
    exec (.loopClose h mask) s = execLoopClose h mask s := rfl
theorem exec_loopCloseEffect (g : GroupId) (s : State) :
    exec (.loopCloseEffect g) s = execLoopCloseEffect g s := rfl
theorem exec_coefSelectSelect (h : Hdr) (p : CoefP) (s : State) :
    exec (.coefSelectSelect h p) s = execCoefSelectSelect h p s := rfl
theorem exec_coefSelectWrite (h : Hdr) (p : CoefP) (s : State) :
    exec (.coefSelectWrite h p) s = execCoefSelectWrite h p s := rfl
theorem exec_coefSelectWriteOne (h : Hdr) (p : CoefP) (s : State) :
    exec (.coefSelectWriteOne h p) s = execCoefSelectWriteOne h p s := rfl
theorem exec_coefSwitch (n : SliceId) (s : State) :
    exec (.coefSwitch n) s = execCoefSwitch n s := rfl
theorem exec_contourSet (h : Hdr) (p : ContourP) (s : State) :
    exec (.contourSet h p) s = execContourSet h p s := rfl
theorem exec_genSet (h : Hdr) (p : GenP) (s : State) :
    exec (.genSet h p) s = execGenSet h p s := rfl
theorem exec_genSetEffect (g : GroupId) (s : State) :
    exec (.genSetEffect g) s = execGenSetEffect g s := rfl
theorem exec_genRegisterWrite (n : SliceId) (offset : Nat) (v : Word) (s : State) :
    exec (.genRegisterWrite n offset v) s = execGenRegisterWrite n offset v s := rfl
theorem exec_set (h : Hdr) (p : SetP) (s : State) :
    exec (.set h p) s = execSet h p s := rfl
theorem exec_setEffect (g : GroupId) (s : State) :
    exec (.setEffect g) s = execSetEffect g s := rfl
theorem exec_dwellBoundary (g : GroupId) (s : State) :
    exec (.dwellBoundary g) s = execDwellBoundary g s := rfl
theorem exec_markReached (g : GroupId) (s : State) :
    exec (.markReached g) s = execMarkReached g s := rfl
theorem exec_waitConditionMet (g : GroupId) (e : WaitEvent) (s : State) :
    exec (.waitConditionMet g e) s = execWaitConditionMet g e s := rfl
theorem exec_stepApply (g : GroupId) (s : State) :
    exec (.stepApply g) s = execStepApply g s := rfl
theorem exec_waitTimeout (g : GroupId) (s : State) :
    exec (.waitTimeout g) s = execWaitTimeout g s := rfl
theorem exec_doorbell (g : GroupId) (s : State) :
    exec (.doorbell g) s = execDoorbell g s := rfl
theorem exec_prefetchRead (g : GroupId) (s : State) :
    exec (.prefetchRead g) s = execPrefetchRead g s := rfl
theorem exec_segmentReady (h : Hdr) (segment : Byte) (s : State) :
    exec (.segmentReady h segment) s = execSegmentReady h segment s := rfl
theorem exec_segmentReadyKeep (h : Hdr) (segment : Byte) (s : State) :
    exec (.segmentReadyKeep h segment) s = execSegmentReadyKeep h segment s := rfl
theorem exec_segmentFree (h : Hdr) (segment : Byte) (s : State) :
    exec (.segmentFree h segment) s = execSegmentFree h segment s := rfl
theorem exec_underrunResume (g : GroupId) (s : State) :
    exec (.underrunResume g) s = execUnderrunResume g s := rfl
theorem exec_jumpRequest (g : GroupId) (src : JumpSource) (s : State) :
    exec (.jumpRequest g src) s = execJumpRequest g src s := rfl
theorem exec_jumpWindowFilled (g : GroupId) (command : Bool) (s : State) :
    exec (.jumpWindowFilled g command) s = execJumpWindowFilled g command s := rfl
theorem exec_jumpCfgWrite (g : GroupId) (v : Word) (s : State) :
    exec (.jumpCfgWrite g v) s = execJumpCfgWrite g v s := rfl
theorem exec_legJump (h : Hdr) (leg : BitVec 16) (s : State) :
    exec (.legJump h leg) s = execLegJump h leg s := rfl
theorem exec_legStart (h : Hdr) (p : StartP) (s : State) :
    exec (.legStart h p) s = execLegStart h p s := rfl
theorem exec_legStartFirstStep (g : GroupId) (s : State) :
    exec (.legStartFirstStep g) s = execLegStartFirstStep g s := rfl
theorem exec_legStopNow (h : Hdr) (s : State) :
    exec (.legStopNow h) s = execLegStopNow h s := rfl
theorem exec_legStopAtBoundary (h : Hdr) (s : State) :
    exec (.legStopAtBoundary h) s = execLegStopAtBoundary h s := rfl
theorem exec_timeSetNow (w : SetNow) (s : State) :
    exec (.timeSetNow w) s = execTimeSetNow w s := rfl
theorem exec_timeSetPps (cancel : Bool) (s : State) :
    exec (.timeSetPps cancel) s = execTimeSetPps cancel s := rfl
theorem exec_timeCancel (s : State) :
    exec .timeCancel s = execTimeCancel s := rfl
theorem exec_ppsEdge (s : State) :
    exec .ppsEdge s = execPpsEdge s := rfl
theorem exec_ppsLost (s : State) :
    exec .ppsLost s = execPpsLost s := rfl
theorem exec_slewDecrement (s : State) :
    exec .slewDecrement s = execSlewDecrement s := rfl
theorem exec_encoderEdge (e : Fin 2) (ab : Bool × Bool) (tooFast : Bool) (s : State) :
    exec (.encoderEdge e ab tooFast) s = execEncoderEdge e ab tooFast s := rfl
theorem exec_encoderZPulse (z : ZPulse) (s : State) :
    exec (.encoderZPulse z) s = execEncoderZPulse z s := rfl
theorem exec_encoderPreset (e : Fin 2) (s : State) :
    exec (.encoderPreset e) s = execEncoderPreset e s := rfl
theorem exec_serialPoll (e : Fin 2) (frame : BitVec 48) (stuck : Bool) (s : State) :
    exec (.serialPoll e frame stuck) s = execSerialPoll e frame stuck s := rfl
theorem exec_mainsCrossing (s : State) :
    exec .mainsCrossing s = execMainsCrossing s := rfl
theorem exec_mainsLost (s : State) :
    exec .mainsLost s = execMainsLost s := rfl
theorem exec_linkAxisLost (s : State) :
    exec .linkAxisLost s = execLinkAxisLost s := rfl
theorem exec_ptmRequest (s : State) :
    exec .ptmRequest s = execPtmRequest s := rfl
theorem exec_ptmResponse (master : Word64) (propagation : Word) (s : State) :
    exec (.ptmResponse master propagation) s = execPtmResponse master propagation s := rfl
theorem exec_ptmTimeout (s : State) :
    exec .ptmTimeout s = execPtmTimeout s := rfl
theorem exec_cleanerUpdate (phasePs : Int) (freqPpb : Int) (s : State) :
    exec (.cleanerUpdate phasePs freqPpb) s = execCleanerUpdate phasePs freqPpb s := rfl
theorem exec_refinLost (range : Bool) (s : State) :
    exec (.refinLost range) s = execRefinLost range s := rfl
theorem exec_forceCoast (on : Bool) (s : State) :
    exec (.forceCoast on) s = execForceCoast on s := rfl
theorem exec_refinRequalified (jumpPs : Int) (s : State) :
    exec (.refinRequalified jumpPs) s = execRefinRequalified jumpPs s := rfl
theorem exec_pllLocked (b : Bool) (s : State) :
    exec (.pllLocked b) s = execPllLocked b s := rfl
theorem exec_standbyLockLost (s : State) :
    exec .standbyLockLost s = execStandbyLockLost s := rfl
theorem exec_activePllLockLost (stepPs : BitVec 16) (s : State) :
    exec (.activePllLockLost stepPs) s = execActivePllLockLost stepPs s := rfl
theorem exec_clockSwitch (stepPs : BitVec 16) (s : State) :
    exec (.clockSwitch stepPs) s = execClockSwitch stepPs s := rfl
theorem exec_pllBothLost (s : State) :
    exec .pllBothLost s = execPllBothLost s := rfl
theorem exec_runaway (ppb : Int) (s : State) :
    exec (.runaway ppb) s = execRunaway ppb s := rfl
theorem exec_xinLost (s : State) :
    exec .xinLost s = execXinLost s := rfl
theorem exec_resurveyPaceTick (s : State) :
    exec .resurveyPaceTick s = execResurveyPaceTick s := rfl
theorem exec_resurveyTestDone (failed : Bool) (s : State) :
    exec (.resurveyTestDone failed) s = execResurveyTestDone failed s := rfl
theorem exec_scrubWrite (word : Nat) (stillBad : Bool) (s : State) :
    exec (.scrubWrite word stillBad) s = execScrubWrite word stillBad s := rfl
theorem exec_repairCommit (ok : Bool) (s : State) :
    exec (.repairCommit ok) s = execRepairCommit ok s := rfl
theorem exec_exclusionWrite (rq : Requester) (e : Fin 8) (len : Bool) (v : Word) (s : State) :
    exec (.exclusionWrite rq e len v) s = execExclusionWrite rq e len v s := rfl
theorem exec_datumServiceRun (temps : List (Option Int)) (s : State) :
    exec (.datumServiceRun temps) s = execDatumServiceRun temps s := rfl
theorem exec_datumRampStep (s : State) :
    exec .datumRampStep s = execDatumRampStep s := rfl
theorem exec_calibrateSelf (h : Hdr) (p : CalP) (s : State) :
    exec (.calibrateSelf h p) s = execCalibrateSelf h p s := rfl
theorem exec_calibrateExtRef (h : Hdr) (p : CalP) (s : State) :
    exec (.calibrateExtRef h p) s = execCalibrateExtRef h p s := rfl
theorem exec_calibrateExtRange (h : Hdr) (p : CalP) (s : State) :
    exec (.calibrateExtRange h p) s = execCalibrateExtRange h p s := rfl
theorem exec_calibrationDone (r : CalResult) (s : State) :
    exec (.calibrationDone r) s = execCalibrationDone r s := rfl
theorem exec_datumCommitUser (h : Hdr) (p : CommitP) (s : State) :
    exec (.datumCommitUser h p) s = execDatumCommitUser h p s := rfl
theorem exec_datumCommitFactory (h : Hdr) (p : CommitP) (s : State) :
    exec (.datumCommitFactory h p) s = execDatumCommitFactory h p s := rfl
theorem exec_datumCommitDone (readBackOk : Bool) (s : State) :
    exec (.datumCommitDone readBackOk) s = execDatumCommitDone readBackOk s := rfl
theorem exec_faultMessage (m : Msg) (s : State) :
    exec (.faultMessage m) s = execFaultMessage m s := rfl
theorem exec_graveWire (source : BitVec 10) (s : State) :
    exec (.graveWire source) s = execGraveWire source s := rfl
theorem exec_overflowSlotTake (s : State) :
    exec .overflowSlotTake s = execOverflowSlotTake s := rfl
theorem exec_blockResetEnd (target : BitVec 22) (s : State) :
    exec (.blockResetEnd target) s = execBlockResetEnd target s := rfl
theorem exec_faultClear (injBank : Bool) (w : Fin 32) (v : Word) (s : State) :
    exec (.faultClear injBank w v) s = execFaultClear injBank w v s := rfl
theorem exec_faultInject (v : Word) (s : State) :
    exec (.faultInject v) s = execFaultInject v s := rfl
theorem exec_irqRearm (s : State) :
    exec .irqRearm s = execIrqRearm s := rfl
theorem exec_watchdogKick (s : State) :
    exec .watchdogKick s = execWatchdogKick s := rfl
theorem exec_surveyorWatchdog (s : State) :
    exec .surveyorWatchdog s = execSurveyorWatchdog s := rfl
theorem exec_surveyorException (s : State) :
    exec .surveyorException s = execSurveyorException s := rfl
theorem exec_tempHigh (s : State) :
    exec .tempHigh s = execTempHigh s := rfl
theorem exec_tempCritical (s : State) :
    exec .tempCritical s = execTempCritical s := rfl
theorem exec_cmdTailWrite (r : RingId) (v : Word) (s : State) :
    exec (.cmdTailWrite r v) s = execCmdTailWrite r v s := rfl
theorem exec_commandFetch (r : RingId) (res : FetchResult) (s : State) :
    exec (.commandFetch r res) s = execCommandFetch r res s := rfl
theorem exec_reservedOpcode (h : Hdr) (opcode : Byte) (s : State) :
    exec (.reservedOpcode h opcode) s = execReservedOpcode h opcode s := rfl
theorem exec_park (h : Hdr) (s : State) :
    exec (.park h) s = execPark h s := rfl
theorem exec_unpark (h : Hdr) (s : State) :
    exec (.unpark h) s = execUnpark h s := rfl
theorem exec_barrier (h : Hdr) (p : BarrierP) (s : State) :
    exec (.barrier h p) s = execBarrier h p s := rfl
theorem exec_barrierTimeout (r : RingId) (s : State) :
    exec (.barrierTimeout r) s = execBarrierTimeout r s := rfl
theorem exec_fence (h : Hdr) (s : State) :
    exec (.fence h) s = execFence h s := rfl
theorem exec_ringCfgWrite (r : RingId) (v : Word) (s : State) :
    exec (.ringCfgWrite r v) s = execRingCfgWrite r v s := rfl
theorem exec_cplHeadWrite (r : RingId) (v : Word) (s : State) :
    exec (.cplHeadWrite r v) s = execCplHeadWrite r v s := rfl
theorem exec_captureStart (c : RingId) (list : Option (List SglEntry)) (s : State) :
    exec (.captureStart c list) s = execCaptureStart c list s := rfl
theorem exec_captureStop (c : RingId) (s : State) :
    exec (.captureStop c) s = execCaptureStop c s := rfl
theorem exec_consumedWrite (c : RingId) (v : Word) (s : State) :
    exec (.consumedWrite c v) s = execConsumedWrite c v s := rfl
theorem exec_captureRecordWrite (c : RingId) (s : State) :
    exec (.captureRecordWrite c) s = execCaptureRecordWrite c s := rfl
theorem exec_captureWriteback (c : RingId) (s : State) :
    exec (.captureWriteback c) s = execCaptureWriteback c s := rfl
theorem exec_msiXSend (v : Fin 40) (s : State) :
    exec (.msiXSend v) s = execMsiXSend v s := rfl
theorem exec_pcieLinkDown (s : State) :
    exec .pcieLinkDown s = execPcieLinkDown s := rfl
theorem exec_d3hotEntry (s : State) :
    exec .d3hotEntry s = execD3hotEntry s := rfl
theorem exec_bar2Write (rq : Requester) (offset : Nat) (data : List Byte) (poisoned : Bool) (other : Option (Nat × List Byte)) (s : State) :
    exec (.bar2Write rq offset data poisoned other) s = execBar2Write rq offset data poisoned other s := rfl
theorem exec_registerWrite (rq : Requester) (offset : Nat) (v : Word) (full : Bool) (s : State) :
    exec (.registerWrite rq offset v full) s = execRegisterWrite rq offset v full s := rfl
theorem exec_commandFrame (rx : Rx) (ring : Byte) (index : Byte) (xfer : Word) (h : Hdr) (cmd : RingCmd) (keyBlock : Option (List Byte × Bool)) (s : State) :
    exec (.commandFrame rx ring index xfer h cmd keyBlock) s = execCommandFrame rx ring index xfer h cmd keyBlock s := rfl
theorem exec_completionFrame (rx : Rx) (ring : Byte) (c : Cpl) (s : State) :
    exec (.completionFrame rx ring c) s = execCompletionFrame rx ring c s := rfl
theorem exec_recordFrame (rx : Rx) (group : GroupId) (first : Word64) (records : List Rec) (s : State) :
    exec (.recordFrame rx group first records) s = execRecordFrame rx group first records s := rfl
theorem exec_stationDataFrame (rx : Rx) (addr : Word) (data : List Byte) (boot last : Bool) (s : State) :
    exec (.stationDataFrame rx addr data boot last) s = execStationDataFrame rx addr data boot last s := rfl
theorem exec_timeSyncFrame (rx : Rx) (slewRate : BitVec 7) (second : Bool) (t : Word64) (rxTime : Word64) (s : State) :
    exec (.timeSyncFrame rx slewRate second t rxTime) s = execTimeSyncFrame rx slewRate second t rxTime s := rfl
theorem exec_timeStepFrame (rx : Rx) (t : Word64) (d : Word64) (s : State) :
    exec (.timeStepFrame rx t d) s = execTimeStepFrame rx t d s := rfl
theorem exec_timeAxisFrame (rx : Rx) (axis : Byte) (t : Word64) (v : Word64) (s : State) :
    exec (.timeAxisFrame rx axis t v) s = execTimeAxisFrame rx axis t v s := rfl
theorem exec_triggerFrame (rx : Rx) (engines : Word) (nodes : BitVec 16) (s : State) :
    exec (.triggerFrame rx engines nodes) s = execTriggerFrame rx engines nodes s := rfl
theorem exec_freezeFrame (rx : Rx) (origin : Byte) (s : State) :
    exec (.freezeFrame rx origin) s = execFreezeFrame rx origin s := rfl
theorem exec_faultFrame (rx : Rx) (m : Msg) (atlasError : Word) (state : Byte) (s : State) :
    exec (.faultFrame rx m atlasError state) s = execFaultFrame rx m atlasError state s := rfl
theorem exec_heartbeatFrame (rx : Rx) (b : Beat) (s : State) :
    exec (.heartbeatFrame rx b) s = execHeartbeatFrame rx b s := rfl
theorem exec_heartbeatSend (p : PortId) (s : State) :
    exec (.heartbeatSend p) s = execHeartbeatSend p s := rfl
theorem exec_timeSyncSend (s : State) :
    exec .timeSyncSend s = execTimeSyncSend s := rfl
theorem exec_axisSampleSend (s : State) :
    exec .axisSampleSend s = execAxisSampleSend s := rfl
theorem exec_retransmitTimeout (p : PortId) (vc : Fin 3) (s : State) :
    exec (.retransmitTimeout p vc) s = execRetransmitTimeout p vc s := rfl
theorem exec_partnerAbsent (p : PortId) (s : State) :
    exec (.partnerAbsent p) s = execPartnerAbsent p s := rfl
theorem exec_timeLinkLost (s : State) :
    exec .timeLinkLost s = execTimeLinkLost s := rfl
theorem exec_laneFailure (p : PortId) (lane : Fin 2) (s : State) :
    exec (.laneFailure p lane) s = execLaneFailure p lane s := rfl
theorem exec_portTrained (p : PortId) (session : Word64) (s : State) :
    exec (.portTrained p session) s = execPortTrained p session s := rfl
theorem exec_portRetrain (p : PortId) (s : State) :
    exec (.portRetrain p) s = execPortRetrain p s := rfl
theorem exec_portRelease (p : PortId) (s : State) :
    exec (.portRelease p) s = execPortRelease p s := rfl
theorem exec_quarantineEnd (p : PortId) (s : State) :
    exec (.quarantineEnd p) s = execQuarantineEnd p s := rfl
theorem exec_keyLoad (slot : Fin 8) (s : State) :
    exec (.keyLoad slot) s = execKeyLoad slot s := rfl
theorem exec_remoteKeySend (node : BitVec 4) (s : State) :
    exec (.remoteKeySend node) s = execRemoteKeySend node s := rfl
theorem exec_triggerSend (nodes : BitVec 9) (s : State) :
    exec (.triggerSend nodes) s = execTriggerSend nodes s := rfl
theorem exec_xferStart (node : BitVec 4) (boot last : Bool) (s : State) :
    exec (.xferStart node boot last) s = execXferStart node boot last s := rfl
theorem exec_xferCountTimeout (r : RingId) (s : State) :
    exec (.xferCountTimeout r) s = execXferCountTimeout r s := rfl
theorem exec_freezeNFall (s : State) :
    exec .freezeNFall s = execFreezeNFall s := rfl
theorem exec_jtagFreeze (s : State) :
    exec .jtagFreeze s = execJtagFreeze s := rfl
theorem exec_jtagThaw (freezeN : Bool) (s : State) :
    exec (.jtagThaw freezeN) s = execJtagThaw freezeN s := rfl
theorem exec_jtagStatus (freezeN : Bool) (s : State) :
    exec (.jtagStatus freezeN) s = execJtagStatus freezeN s := rfl
theorem exec_scanSelect (chain : Byte) (s : State) :
    exec (.scanSelect chain) s = execScanSelect chain s := rfl
theorem exec_scanRead (s : State) :
    exec .scanRead s = execScanRead s := rfl
theorem exec_memSelect (addr : Word) (s : State) :
    exec (.memSelect addr) s = execMemSelect addr s := rfl
theorem exec_memRead (s : State) :
    exec .memRead s = execMemRead s := rfl
theorem exec_unlockChallenge (s : State) :
    exec .unlockChallenge s = execUnlockChallenge s := rfl
theorem exec_unlockResponse (keyIndex : Word) (r : Response) (s : State) :
    exec (.unlockResponse keyIndex r) s = execUnlockResponse keyIndex r s := rfl
theorem exec_unlockVerifyDone (s : State) :
    exec .unlockVerifyDone s = execUnlockVerifyDone s := rfl
theorem exec_extest (cells : List Bool) (s : State) :
    exec (.extest cells) s = execExtest cells s := rfl
theorem exec_samplePreload (cells : List Bool) (s : State) :
    exec (.samplePreload cells) s = execSamplePreload cells s := rfl
theorem exec_bypass (tdi : Bool) (s : State) :
    exec (.bypass tdi) s = execBypass tdi s := rfl
theorem exec_powerOnReset (s : State) :
    exec .powerOnReset s = execPowerOnReset s := rfl
theorem exec_brownOutRelease (rail : Fin 6) (s : State) :
    exec (.brownOutRelease rail) s = execBrownOutRelease rail s := rfl
theorem exec_xinReturn (s : State) :
    exec .xinReturn s = execXinReturn s := rfl
theorem exec_clampInputReturn (n : SliceId) (high : Bool) (s : State) :
    exec (.clampInputReturn n high) s = execClampInputReturn n high s := rfl
theorem exec_laneRejoin (p : PortId) (lane : Fin 2) (s : State) :
    exec (.laneRejoin p lane) s = execLaneRejoin p lane s := rfl
theorem exec_perstDeassert (s : State) :
    exec .perstDeassert s = execPerstDeassert s := rfl
theorem exec_pcieLinkUp (speed : BitVec 3) (width : BitVec 5) (s : State) :
    exec (.pcieLinkUp speed width) s = execPcieLinkUp speed width s := rfl
theorem exec_configurationRequest (q : CfgReq) (s : State) :
    exec (.configurationRequest q) s = execConfigurationRequest q s := rfl
theorem exec_msiXUnmask (v : Option (Fin 40)) (s : State) :
    exec (.msiXUnmask v) s = execMsiXUnmask v s := rfl
theorem exec_bar2Read (rq : Requester) (offset : Nat) (wide : Bool) (s : State) :
    exec (.bar2Read rq offset wide) s = execBar2Read rq offset wide s := rfl
theorem exec_lowWordRead (rq : Requester) (offset : Nat) (s : State) :
    exec (.lowWordRead rq offset) s = execLowWordRead rq offset s := rfl

/-- A step with a command waiting is that command with the rest of the queue. -/
theorem step_cons (s : State) (c : Instr) (l : List Instr) (h : s.pending = c :: l) : step s = exec c { s with pending := l } := by
  simp [step, h]

end Sys2Proof.Machine
end

