-- ==== Sys2Proof/Laws/State.lean ====
section
/-! SUPPORT. What each named update of a device leaves as it was: one lemma per field per update, and the reads that
follow from them. -/

namespace Sys2Proof.Machine

/-! ## wr -/

@[simp] theorem Dev.wr_now (s : Dev) (a : Nat) (v : Word) : (s.wr a v).now = s.now := (rfl)
@[simp] theorem Dev.wr_time (s : Dev) (a : Nat) (v : Word) : (s.wr a v).time = s.time := (rfl)
@[simp] theorem Dev.wr_freeCtr (s : Dev) (a : Nat) (v : Word) : (s.wr a v).freeCtr = s.freeCtr := (rfl)
@[simp] theorem Dev.wr_mem (s : Dev) (a : Nat) (v : Word) : (s.wr a v).mem = s.mem := (rfl)
@[simp] theorem Dev.wr_nvm (s : Dev) (a : Nat) (v : Word) : (s.wr a v).nvm = s.nvm := (rfl)
@[simp] theorem Dev.wr_slices (s : Dev) (a : Nat) (v : Word) : (s.wr a v).slices = s.slices := (rfl)
@[simp] theorem Dev.wr_gens (s : Dev) (a : Nat) (v : Word) : (s.wr a v).gens = s.gens := (rfl)
@[simp] theorem Dev.wr_lanes (s : Dev) (a : Nat) (v : Word) : (s.wr a v).lanes = s.lanes := (rfl)
@[simp] theorem Dev.wr_engines (s : Dev) (a : Nat) (v : Word) : (s.wr a v).engines = s.engines := (rfl)
@[simp] theorem Dev.wr_rings (s : Dev) (a : Nat) (v : Word) : (s.wr a v).rings = s.rings := (rfl)
@[simp] theorem Dev.wr_chans (s : Dev) (a : Nat) (v : Word) : (s.wr a v).chans = s.chans := (rfl)
@[simp] theorem Dev.wr_vects (s : Dev) (a : Nat) (v : Word) : (s.wr a v).vects = s.vects := (rfl)
@[simp] theorem Dev.wr_sched (s : Dev) (a : Nat) (v : Word) : (s.wr a v).sched = s.sched := (rfl)
@[simp] theorem Dev.wr_col (s : Dev) (a : Nat) (v : Word) : (s.wr a v).col = s.col := (rfl)
@[simp] theorem Dev.wr_plates (s : Dev) (a : Nat) (v : Word) : (s.wr a v).plates = s.plates := (rfl)
@[simp] theorem Dev.wr_boot (s : Dev) (a : Nat) (v : Word) : (s.wr a v).boot = s.boot := (rfl)
@[simp] theorem Dev.wr_pins (s : Dev) (a : Nat) (v : Word) : (s.wr a v).pins = s.pins := (rfl)
@[simp] theorem Dev.wr_mer (s : Dev) (a : Nat) (v : Word) : (s.wr a v).mer = s.mer := (rfl)
@[simp] theorem Dev.wr_clk (s : Dev) (a : Nat) (v : Word) : (s.wr a v).clk = s.clk := (rfl)
@[simp] theorem Dev.wr_memst (s : Dev) (a : Nat) (v : Word) : (s.wr a v).memst = s.memst := (rfl)
@[simp] theorem Dev.wr_mons (s : Dev) (a : Nat) (v : Word) : (s.wr a v).mons = s.mons := (rfl)
@[simp] theorem Dev.wr_datum (s : Dev) (a : Nat) (v : Word) : (s.wr a v).datum = s.datum := (rfl)
@[simp] theorem Dev.wr_link (s : Dev) (a : Nat) (v : Word) : (s.wr a v).link = s.link := (rfl)
@[simp] theorem Dev.wr_frz (s : Dev) (a : Nat) (v : Word) : (s.wr a v).frz = s.frz := (rfl)
@[simp] theorem Dev.wr_cfg (s : Dev) (a : Nat) (v : Word) : (s.wr a v).cfg = s.cfg := (rfl)
@[simp] theorem Dev.wr_segs (s : Dev) (a : Nat) (v : Word) : (s.wr a v).segs = s.segs := (rfl)
@[simp] theorem Dev.wr_rowLast (s : Dev) (a : Nat) (v : Word) : (s.wr a v).rowLast = s.rowLast := (rfl)
@[simp] theorem Dev.wr_latches (s : Dev) (a : Nat) (v : Word) : (s.wr a v).latches = s.latches := (rfl)
@[simp] theorem Dev.wr_staged (s : Dev) (a : Nat) (v : Word) : (s.wr a v).staged = s.staged := (rfl)
@[simp] theorem Dev.wr_answer (s : Dev) (a : Nat) (v : Word) : (s.wr a v).answer = s.answer := (rfl)
@[simp] theorem Dev.wr_byte (s : Dev) (a : Nat) (v : Word) (x : Nat) : (s.wr a v).byte x = s.byte x := (rfl)
@[simp] theorem Dev.wr_sl (s : Dev) (a : Nat) (v : Word) (x : SliceId) : (s.wr a v).sl x = s.sl x := (rfl)
@[simp] theorem Dev.wr_eng (s : Dev) (a : Nat) (v : Word) (x : GroupId) : (s.wr a v).eng x = s.eng x := (rfl)

/-! ## setFld -/

@[simp] theorem Dev.setFld_now (s : Dev) (b : Nat) (f : Fld) (v : Nat) : (s.setFld b f v).now = s.now := (rfl)
@[simp] theorem Dev.setFld_time (s : Dev) (b : Nat) (f : Fld) (v : Nat) : (s.setFld b f v).time = s.time := (rfl)
@[simp] theorem Dev.setFld_freeCtr (s : Dev) (b : Nat) (f : Fld) (v : Nat) : (s.setFld b f v).freeCtr = s.freeCtr := (rfl)
@[simp] theorem Dev.setFld_mem (s : Dev) (b : Nat) (f : Fld) (v : Nat) : (s.setFld b f v).mem = s.mem := (rfl)
@[simp] theorem Dev.setFld_nvm (s : Dev) (b : Nat) (f : Fld) (v : Nat) : (s.setFld b f v).nvm = s.nvm := (rfl)
@[simp] theorem Dev.setFld_slices (s : Dev) (b : Nat) (f : Fld) (v : Nat) : (s.setFld b f v).slices = s.slices := (rfl)
@[simp] theorem Dev.setFld_gens (s : Dev) (b : Nat) (f : Fld) (v : Nat) : (s.setFld b f v).gens = s.gens := (rfl)
@[simp] theorem Dev.setFld_lanes (s : Dev) (b : Nat) (f : Fld) (v : Nat) : (s.setFld b f v).lanes = s.lanes := (rfl)
@[simp] theorem Dev.setFld_engines (s : Dev) (b : Nat) (f : Fld) (v : Nat) : (s.setFld b f v).engines = s.engines := (rfl)
@[simp] theorem Dev.setFld_rings (s : Dev) (b : Nat) (f : Fld) (v : Nat) : (s.setFld b f v).rings = s.rings := (rfl)
@[simp] theorem Dev.setFld_chans (s : Dev) (b : Nat) (f : Fld) (v : Nat) : (s.setFld b f v).chans = s.chans := (rfl)
@[simp] theorem Dev.setFld_vects (s : Dev) (b : Nat) (f : Fld) (v : Nat) : (s.setFld b f v).vects = s.vects := (rfl)
@[simp] theorem Dev.setFld_sched (s : Dev) (b : Nat) (f : Fld) (v : Nat) : (s.setFld b f v).sched = s.sched := (rfl)
@[simp] theorem Dev.setFld_col (s : Dev) (b : Nat) (f : Fld) (v : Nat) : (s.setFld b f v).col = s.col := (rfl)
@[simp] theorem Dev.setFld_plates (s : Dev) (b : Nat) (f : Fld) (v : Nat) : (s.setFld b f v).plates = s.plates := (rfl)
@[simp] theorem Dev.setFld_boot (s : Dev) (b : Nat) (f : Fld) (v : Nat) : (s.setFld b f v).boot = s.boot := (rfl)
@[simp] theorem Dev.setFld_pins (s : Dev) (b : Nat) (f : Fld) (v : Nat) : (s.setFld b f v).pins = s.pins := (rfl)
@[simp] theorem Dev.setFld_mer (s : Dev) (b : Nat) (f : Fld) (v : Nat) : (s.setFld b f v).mer = s.mer := (rfl)
@[simp] theorem Dev.setFld_clk (s : Dev) (b : Nat) (f : Fld) (v : Nat) : (s.setFld b f v).clk = s.clk := (rfl)
@[simp] theorem Dev.setFld_memst (s : Dev) (b : Nat) (f : Fld) (v : Nat) : (s.setFld b f v).memst = s.memst := (rfl)
@[simp] theorem Dev.setFld_mons (s : Dev) (b : Nat) (f : Fld) (v : Nat) : (s.setFld b f v).mons = s.mons := (rfl)
@[simp] theorem Dev.setFld_datum (s : Dev) (b : Nat) (f : Fld) (v : Nat) : (s.setFld b f v).datum = s.datum := (rfl)
@[simp] theorem Dev.setFld_link (s : Dev) (b : Nat) (f : Fld) (v : Nat) : (s.setFld b f v).link = s.link := (rfl)
@[simp] theorem Dev.setFld_frz (s : Dev) (b : Nat) (f : Fld) (v : Nat) : (s.setFld b f v).frz = s.frz := (rfl)
@[simp] theorem Dev.setFld_cfg (s : Dev) (b : Nat) (f : Fld) (v : Nat) : (s.setFld b f v).cfg = s.cfg := (rfl)
@[simp] theorem Dev.setFld_segs (s : Dev) (b : Nat) (f : Fld) (v : Nat) : (s.setFld b f v).segs = s.segs := (rfl)
@[simp] theorem Dev.setFld_rowLast (s : Dev) (b : Nat) (f : Fld) (v : Nat) : (s.setFld b f v).rowLast = s.rowLast := (rfl)
@[simp] theorem Dev.setFld_latches (s : Dev) (b : Nat) (f : Fld) (v : Nat) : (s.setFld b f v).latches = s.latches := (rfl)
@[simp] theorem Dev.setFld_staged (s : Dev) (b : Nat) (f : Fld) (v : Nat) : (s.setFld b f v).staged = s.staged := (rfl)
@[simp] theorem Dev.setFld_answer (s : Dev) (b : Nat) (f : Fld) (v : Nat) : (s.setFld b f v).answer = s.answer := (rfl)
@[simp] theorem Dev.setFld_byte (s : Dev) (b : Nat) (f : Fld) (v : Nat) (x : Nat) : (s.setFld b f v).byte x = s.byte x := (rfl)
@[simp] theorem Dev.setFld_sl (s : Dev) (b : Nat) (f : Fld) (v : Nat) (x : SliceId) : (s.setFld b f v).sl x = s.sl x := (rfl)
@[simp] theorem Dev.setFld_eng (s : Dev) (b : Nat) (f : Fld) (v : Nat) (x : GroupId) : (s.setFld b f v).eng x = s.eng x := (rfl)

/-! ## setFlag -/

@[simp] theorem Dev.setFlag_now (s : Dev) (b : Nat) (f : Fld) (v : Bool) : (s.setFlag b f v).now = s.now := (rfl)
@[simp] theorem Dev.setFlag_time (s : Dev) (b : Nat) (f : Fld) (v : Bool) : (s.setFlag b f v).time = s.time := (rfl)
@[simp] theorem Dev.setFlag_freeCtr (s : Dev) (b : Nat) (f : Fld) (v : Bool) : (s.setFlag b f v).freeCtr = s.freeCtr := (rfl)
@[simp] theorem Dev.setFlag_mem (s : Dev) (b : Nat) (f : Fld) (v : Bool) : (s.setFlag b f v).mem = s.mem := (rfl)
@[simp] theorem Dev.setFlag_nvm (s : Dev) (b : Nat) (f : Fld) (v : Bool) : (s.setFlag b f v).nvm = s.nvm := (rfl)
@[simp] theorem Dev.setFlag_slices (s : Dev) (b : Nat) (f : Fld) (v : Bool) : (s.setFlag b f v).slices = s.slices := (rfl)
@[simp] theorem Dev.setFlag_gens (s : Dev) (b : Nat) (f : Fld) (v : Bool) : (s.setFlag b f v).gens = s.gens := (rfl)
@[simp] theorem Dev.setFlag_lanes (s : Dev) (b : Nat) (f : Fld) (v : Bool) : (s.setFlag b f v).lanes = s.lanes := (rfl)
@[simp] theorem Dev.setFlag_engines (s : Dev) (b : Nat) (f : Fld) (v : Bool) : (s.setFlag b f v).engines = s.engines := (rfl)
@[simp] theorem Dev.setFlag_rings (s : Dev) (b : Nat) (f : Fld) (v : Bool) : (s.setFlag b f v).rings = s.rings := (rfl)
@[simp] theorem Dev.setFlag_chans (s : Dev) (b : Nat) (f : Fld) (v : Bool) : (s.setFlag b f v).chans = s.chans := (rfl)
@[simp] theorem Dev.setFlag_vects (s : Dev) (b : Nat) (f : Fld) (v : Bool) : (s.setFlag b f v).vects = s.vects := (rfl)
@[simp] theorem Dev.setFlag_sched (s : Dev) (b : Nat) (f : Fld) (v : Bool) : (s.setFlag b f v).sched = s.sched := (rfl)
@[simp] theorem Dev.setFlag_col (s : Dev) (b : Nat) (f : Fld) (v : Bool) : (s.setFlag b f v).col = s.col := (rfl)
@[simp] theorem Dev.setFlag_plates (s : Dev) (b : Nat) (f : Fld) (v : Bool) : (s.setFlag b f v).plates = s.plates := (rfl)
@[simp] theorem Dev.setFlag_boot (s : Dev) (b : Nat) (f : Fld) (v : Bool) : (s.setFlag b f v).boot = s.boot := (rfl)
@[simp] theorem Dev.setFlag_pins (s : Dev) (b : Nat) (f : Fld) (v : Bool) : (s.setFlag b f v).pins = s.pins := (rfl)
@[simp] theorem Dev.setFlag_mer (s : Dev) (b : Nat) (f : Fld) (v : Bool) : (s.setFlag b f v).mer = s.mer := (rfl)
@[simp] theorem Dev.setFlag_clk (s : Dev) (b : Nat) (f : Fld) (v : Bool) : (s.setFlag b f v).clk = s.clk := (rfl)
@[simp] theorem Dev.setFlag_memst (s : Dev) (b : Nat) (f : Fld) (v : Bool) : (s.setFlag b f v).memst = s.memst := (rfl)
@[simp] theorem Dev.setFlag_mons (s : Dev) (b : Nat) (f : Fld) (v : Bool) : (s.setFlag b f v).mons = s.mons := (rfl)
@[simp] theorem Dev.setFlag_datum (s : Dev) (b : Nat) (f : Fld) (v : Bool) : (s.setFlag b f v).datum = s.datum := (rfl)
@[simp] theorem Dev.setFlag_link (s : Dev) (b : Nat) (f : Fld) (v : Bool) : (s.setFlag b f v).link = s.link := (rfl)
@[simp] theorem Dev.setFlag_frz (s : Dev) (b : Nat) (f : Fld) (v : Bool) : (s.setFlag b f v).frz = s.frz := (rfl)
@[simp] theorem Dev.setFlag_cfg (s : Dev) (b : Nat) (f : Fld) (v : Bool) : (s.setFlag b f v).cfg = s.cfg := (rfl)
@[simp] theorem Dev.setFlag_segs (s : Dev) (b : Nat) (f : Fld) (v : Bool) : (s.setFlag b f v).segs = s.segs := (rfl)
@[simp] theorem Dev.setFlag_rowLast (s : Dev) (b : Nat) (f : Fld) (v : Bool) : (s.setFlag b f v).rowLast = s.rowLast := (rfl)
@[simp] theorem Dev.setFlag_latches (s : Dev) (b : Nat) (f : Fld) (v : Bool) : (s.setFlag b f v).latches = s.latches := (rfl)
@[simp] theorem Dev.setFlag_staged (s : Dev) (b : Nat) (f : Fld) (v : Bool) : (s.setFlag b f v).staged = s.staged := (rfl)
@[simp] theorem Dev.setFlag_answer (s : Dev) (b : Nat) (f : Fld) (v : Bool) : (s.setFlag b f v).answer = s.answer := (rfl)
@[simp] theorem Dev.setFlag_byte (s : Dev) (b : Nat) (f : Fld) (v : Bool) (x : Nat) : (s.setFlag b f v).byte x = s.byte x := (rfl)
@[simp] theorem Dev.setFlag_sl (s : Dev) (b : Nat) (f : Fld) (v : Bool) (x : SliceId) : (s.setFlag b f v).sl x = s.sl x := (rfl)
@[simp] theorem Dev.setFlag_eng (s : Dev) (b : Nat) (f : Fld) (v : Bool) (x : GroupId) : (s.setFlag b f v).eng x = s.eng x := (rfl)

/-! ## modSl -/

@[simp] theorem Dev.modSl_now (s : Dev) (n : SliceId) (f : Slice → Slice) : (s.modSl n f).now = s.now := (rfl)
@[simp] theorem Dev.modSl_time (s : Dev) (n : SliceId) (f : Slice → Slice) : (s.modSl n f).time = s.time := (rfl)
@[simp] theorem Dev.modSl_freeCtr (s : Dev) (n : SliceId) (f : Slice → Slice) : (s.modSl n f).freeCtr = s.freeCtr := (rfl)
@[simp] theorem Dev.modSl_regs (s : Dev) (n : SliceId) (f : Slice → Slice) : (s.modSl n f).regs = s.regs := (rfl)
@[simp] theorem Dev.modSl_mem (s : Dev) (n : SliceId) (f : Slice → Slice) : (s.modSl n f).mem = s.mem := (rfl)
@[simp] theorem Dev.modSl_nvm (s : Dev) (n : SliceId) (f : Slice → Slice) : (s.modSl n f).nvm = s.nvm := (rfl)
@[simp] theorem Dev.modSl_gens (s : Dev) (n : SliceId) (f : Slice → Slice) : (s.modSl n f).gens = s.gens := (rfl)
@[simp] theorem Dev.modSl_lanes (s : Dev) (n : SliceId) (f : Slice → Slice) : (s.modSl n f).lanes = s.lanes := (rfl)
@[simp] theorem Dev.modSl_engines (s : Dev) (n : SliceId) (f : Slice → Slice) : (s.modSl n f).engines = s.engines := (rfl)
@[simp] theorem Dev.modSl_rings (s : Dev) (n : SliceId) (f : Slice → Slice) : (s.modSl n f).rings = s.rings := (rfl)
@[simp] theorem Dev.modSl_chans (s : Dev) (n : SliceId) (f : Slice → Slice) : (s.modSl n f).chans = s.chans := (rfl)
@[simp] theorem Dev.modSl_vects (s : Dev) (n : SliceId) (f : Slice → Slice) : (s.modSl n f).vects = s.vects := (rfl)
@[simp] theorem Dev.modSl_sched (s : Dev) (n : SliceId) (f : Slice → Slice) : (s.modSl n f).sched = s.sched := (rfl)
@[simp] theorem Dev.modSl_col (s : Dev) (n : SliceId) (f : Slice → Slice) : (s.modSl n f).col = s.col := (rfl)
@[simp] theorem Dev.modSl_plates (s : Dev) (n : SliceId) (f : Slice → Slice) : (s.modSl n f).plates = s.plates := (rfl)
@[simp] theorem Dev.modSl_boot (s : Dev) (n : SliceId) (f : Slice → Slice) : (s.modSl n f).boot = s.boot := (rfl)
@[simp] theorem Dev.modSl_pins (s : Dev) (n : SliceId) (f : Slice → Slice) : (s.modSl n f).pins = s.pins := (rfl)
@[simp] theorem Dev.modSl_mer (s : Dev) (n : SliceId) (f : Slice → Slice) : (s.modSl n f).mer = s.mer := (rfl)
@[simp] theorem Dev.modSl_clk (s : Dev) (n : SliceId) (f : Slice → Slice) : (s.modSl n f).clk = s.clk := (rfl)
@[simp] theorem Dev.modSl_memst (s : Dev) (n : SliceId) (f : Slice → Slice) : (s.modSl n f).memst = s.memst := (rfl)
@[simp] theorem Dev.modSl_mons (s : Dev) (n : SliceId) (f : Slice → Slice) : (s.modSl n f).mons = s.mons := (rfl)
@[simp] theorem Dev.modSl_datum (s : Dev) (n : SliceId) (f : Slice → Slice) : (s.modSl n f).datum = s.datum := (rfl)
@[simp] theorem Dev.modSl_link (s : Dev) (n : SliceId) (f : Slice → Slice) : (s.modSl n f).link = s.link := (rfl)
@[simp] theorem Dev.modSl_frz (s : Dev) (n : SliceId) (f : Slice → Slice) : (s.modSl n f).frz = s.frz := (rfl)
@[simp] theorem Dev.modSl_cfg (s : Dev) (n : SliceId) (f : Slice → Slice) : (s.modSl n f).cfg = s.cfg := (rfl)
@[simp] theorem Dev.modSl_segs (s : Dev) (n : SliceId) (f : Slice → Slice) : (s.modSl n f).segs = s.segs := (rfl)
@[simp] theorem Dev.modSl_rowLast (s : Dev) (n : SliceId) (f : Slice → Slice) : (s.modSl n f).rowLast = s.rowLast := (rfl)
@[simp] theorem Dev.modSl_latches (s : Dev) (n : SliceId) (f : Slice → Slice) : (s.modSl n f).latches = s.latches := (rfl)
@[simp] theorem Dev.modSl_staged (s : Dev) (n : SliceId) (f : Slice → Slice) : (s.modSl n f).staged = s.staged := (rfl)
@[simp] theorem Dev.modSl_answer (s : Dev) (n : SliceId) (f : Slice → Slice) : (s.modSl n f).answer = s.answer := (rfl)
@[simp] theorem Dev.modSl_rd (s : Dev) (n : SliceId) (f : Slice → Slice) (x : Nat) : (s.modSl n f).rd x = s.rd x := (rfl)
@[simp] theorem Dev.modSl_fld (s : Dev) (n : SliceId) (f : Slice → Slice) (x : Nat) (y : Fld) : (s.modSl n f).fld x y = s.fld x y := (rfl)
@[simp] theorem Dev.modSl_flag (s : Dev) (n : SliceId) (f : Slice → Slice) (x : Nat) (y : Fld) : (s.modSl n f).flag x y = s.flag x y := (rfl)
@[simp] theorem Dev.modSl_byte (s : Dev) (n : SliceId) (f : Slice → Slice) (x : Nat) : (s.modSl n f).byte x = s.byte x := (rfl)
@[simp] theorem Dev.modSl_eng (s : Dev) (n : SliceId) (f : Slice → Slice) (x : GroupId) : (s.modSl n f).eng x = s.eng x := (rfl)

/-! ## modGen -/

@[simp] theorem Dev.modGen_now (s : Dev) (n : SliceId) (f : Gen → Gen) : (s.modGen n f).now = s.now := (rfl)
@[simp] theorem Dev.modGen_time (s : Dev) (n : SliceId) (f : Gen → Gen) : (s.modGen n f).time = s.time := (rfl)
@[simp] theorem Dev.modGen_freeCtr (s : Dev) (n : SliceId) (f : Gen → Gen) : (s.modGen n f).freeCtr = s.freeCtr := (rfl)
@[simp] theorem Dev.modGen_regs (s : Dev) (n : SliceId) (f : Gen → Gen) : (s.modGen n f).regs = s.regs := (rfl)
@[simp] theorem Dev.modGen_mem (s : Dev) (n : SliceId) (f : Gen → Gen) : (s.modGen n f).mem = s.mem := (rfl)
@[simp] theorem Dev.modGen_nvm (s : Dev) (n : SliceId) (f : Gen → Gen) : (s.modGen n f).nvm = s.nvm := (rfl)
@[simp] theorem Dev.modGen_slices (s : Dev) (n : SliceId) (f : Gen → Gen) : (s.modGen n f).slices = s.slices := (rfl)
@[simp] theorem Dev.modGen_lanes (s : Dev) (n : SliceId) (f : Gen → Gen) : (s.modGen n f).lanes = s.lanes := (rfl)
@[simp] theorem Dev.modGen_engines (s : Dev) (n : SliceId) (f : Gen → Gen) : (s.modGen n f).engines = s.engines := (rfl)
@[simp] theorem Dev.modGen_rings (s : Dev) (n : SliceId) (f : Gen → Gen) : (s.modGen n f).rings = s.rings := (rfl)
@[simp] theorem Dev.modGen_chans (s : Dev) (n : SliceId) (f : Gen → Gen) : (s.modGen n f).chans = s.chans := (rfl)
@[simp] theorem Dev.modGen_vects (s : Dev) (n : SliceId) (f : Gen → Gen) : (s.modGen n f).vects = s.vects := (rfl)
@[simp] theorem Dev.modGen_sched (s : Dev) (n : SliceId) (f : Gen → Gen) : (s.modGen n f).sched = s.sched := (rfl)
@[simp] theorem Dev.modGen_col (s : Dev) (n : SliceId) (f : Gen → Gen) : (s.modGen n f).col = s.col := (rfl)
@[simp] theorem Dev.modGen_plates (s : Dev) (n : SliceId) (f : Gen → Gen) : (s.modGen n f).plates = s.plates := (rfl)
@[simp] theorem Dev.modGen_boot (s : Dev) (n : SliceId) (f : Gen → Gen) : (s.modGen n f).boot = s.boot := (rfl)
@[simp] theorem Dev.modGen_pins (s : Dev) (n : SliceId) (f : Gen → Gen) : (s.modGen n f).pins = s.pins := (rfl)
@[simp] theorem Dev.modGen_mer (s : Dev) (n : SliceId) (f : Gen → Gen) : (s.modGen n f).mer = s.mer := (rfl)
@[simp] theorem Dev.modGen_clk (s : Dev) (n : SliceId) (f : Gen → Gen) : (s.modGen n f).clk = s.clk := (rfl)
@[simp] theorem Dev.modGen_memst (s : Dev) (n : SliceId) (f : Gen → Gen) : (s.modGen n f).memst = s.memst := (rfl)
@[simp] theorem Dev.modGen_mons (s : Dev) (n : SliceId) (f : Gen → Gen) : (s.modGen n f).mons = s.mons := (rfl)
@[simp] theorem Dev.modGen_datum (s : Dev) (n : SliceId) (f : Gen → Gen) : (s.modGen n f).datum = s.datum := (rfl)
@[simp] theorem Dev.modGen_link (s : Dev) (n : SliceId) (f : Gen → Gen) : (s.modGen n f).link = s.link := (rfl)
@[simp] theorem Dev.modGen_frz (s : Dev) (n : SliceId) (f : Gen → Gen) : (s.modGen n f).frz = s.frz := (rfl)
@[simp] theorem Dev.modGen_cfg (s : Dev) (n : SliceId) (f : Gen → Gen) : (s.modGen n f).cfg = s.cfg := (rfl)
@[simp] theorem Dev.modGen_segs (s : Dev) (n : SliceId) (f : Gen → Gen) : (s.modGen n f).segs = s.segs := (rfl)
@[simp] theorem Dev.modGen_rowLast (s : Dev) (n : SliceId) (f : Gen → Gen) : (s.modGen n f).rowLast = s.rowLast := (rfl)
@[simp] theorem Dev.modGen_latches (s : Dev) (n : SliceId) (f : Gen → Gen) : (s.modGen n f).latches = s.latches := (rfl)
@[simp] theorem Dev.modGen_staged (s : Dev) (n : SliceId) (f : Gen → Gen) : (s.modGen n f).staged = s.staged := (rfl)
@[simp] theorem Dev.modGen_answer (s : Dev) (n : SliceId) (f : Gen → Gen) : (s.modGen n f).answer = s.answer := (rfl)
@[simp] theorem Dev.modGen_rd (s : Dev) (n : SliceId) (f : Gen → Gen) (x : Nat) : (s.modGen n f).rd x = s.rd x := (rfl)
@[simp] theorem Dev.modGen_fld (s : Dev) (n : SliceId) (f : Gen → Gen) (x : Nat) (y : Fld) : (s.modGen n f).fld x y = s.fld x y := (rfl)
@[simp] theorem Dev.modGen_flag (s : Dev) (n : SliceId) (f : Gen → Gen) (x : Nat) (y : Fld) : (s.modGen n f).flag x y = s.flag x y := (rfl)
@[simp] theorem Dev.modGen_byte (s : Dev) (n : SliceId) (f : Gen → Gen) (x : Nat) : (s.modGen n f).byte x = s.byte x := (rfl)
@[simp] theorem Dev.modGen_sl (s : Dev) (n : SliceId) (f : Gen → Gen) (x : SliceId) : (s.modGen n f).sl x = s.sl x := (rfl)
@[simp] theorem Dev.modGen_eng (s : Dev) (n : SliceId) (f : Gen → Gen) (x : GroupId) : (s.modGen n f).eng x = s.eng x := (rfl)

/-! ## modEng -/

@[simp] theorem Dev.modEng_now (s : Dev) (g : GroupId) (f : Engine → Engine) : (s.modEng g f).now = s.now := (rfl)
@[simp] theorem Dev.modEng_time (s : Dev) (g : GroupId) (f : Engine → Engine) : (s.modEng g f).time = s.time := (rfl)
@[simp] theorem Dev.modEng_freeCtr (s : Dev) (g : GroupId) (f : Engine → Engine) : (s.modEng g f).freeCtr = s.freeCtr := (rfl)
@[simp] theorem Dev.modEng_regs (s : Dev) (g : GroupId) (f : Engine → Engine) : (s.modEng g f).regs = s.regs := (rfl)
@[simp] theorem Dev.modEng_mem (s : Dev) (g : GroupId) (f : Engine → Engine) : (s.modEng g f).mem = s.mem := (rfl)
@[simp] theorem Dev.modEng_nvm (s : Dev) (g : GroupId) (f : Engine → Engine) : (s.modEng g f).nvm = s.nvm := (rfl)
@[simp] theorem Dev.modEng_slices (s : Dev) (g : GroupId) (f : Engine → Engine) : (s.modEng g f).slices = s.slices := (rfl)
@[simp] theorem Dev.modEng_gens (s : Dev) (g : GroupId) (f : Engine → Engine) : (s.modEng g f).gens = s.gens := (rfl)
@[simp] theorem Dev.modEng_lanes (s : Dev) (g : GroupId) (f : Engine → Engine) : (s.modEng g f).lanes = s.lanes := (rfl)
@[simp] theorem Dev.modEng_rings (s : Dev) (g : GroupId) (f : Engine → Engine) : (s.modEng g f).rings = s.rings := (rfl)
@[simp] theorem Dev.modEng_chans (s : Dev) (g : GroupId) (f : Engine → Engine) : (s.modEng g f).chans = s.chans := (rfl)
@[simp] theorem Dev.modEng_vects (s : Dev) (g : GroupId) (f : Engine → Engine) : (s.modEng g f).vects = s.vects := (rfl)
@[simp] theorem Dev.modEng_sched (s : Dev) (g : GroupId) (f : Engine → Engine) : (s.modEng g f).sched = s.sched := (rfl)
@[simp] theorem Dev.modEng_col (s : Dev) (g : GroupId) (f : Engine → Engine) : (s.modEng g f).col = s.col := (rfl)
@[simp] theorem Dev.modEng_plates (s : Dev) (g : GroupId) (f : Engine → Engine) : (s.modEng g f).plates = s.plates := (rfl)
@[simp] theorem Dev.modEng_boot (s : Dev) (g : GroupId) (f : Engine → Engine) : (s.modEng g f).boot = s.boot := (rfl)
@[simp] theorem Dev.modEng_pins (s : Dev) (g : GroupId) (f : Engine → Engine) : (s.modEng g f).pins = s.pins := (rfl)
@[simp] theorem Dev.modEng_mer (s : Dev) (g : GroupId) (f : Engine → Engine) : (s.modEng g f).mer = s.mer := (rfl)
@[simp] theorem Dev.modEng_clk (s : Dev) (g : GroupId) (f : Engine → Engine) : (s.modEng g f).clk = s.clk := (rfl)
@[simp] theorem Dev.modEng_memst (s : Dev) (g : GroupId) (f : Engine → Engine) : (s.modEng g f).memst = s.memst := (rfl)
@[simp] theorem Dev.modEng_mons (s : Dev) (g : GroupId) (f : Engine → Engine) : (s.modEng g f).mons = s.mons := (rfl)
@[simp] theorem Dev.modEng_datum (s : Dev) (g : GroupId) (f : Engine → Engine) : (s.modEng g f).datum = s.datum := (rfl)
@[simp] theorem Dev.modEng_link (s : Dev) (g : GroupId) (f : Engine → Engine) : (s.modEng g f).link = s.link := (rfl)
@[simp] theorem Dev.modEng_frz (s : Dev) (g : GroupId) (f : Engine → Engine) : (s.modEng g f).frz = s.frz := (rfl)
@[simp] theorem Dev.modEng_cfg (s : Dev) (g : GroupId) (f : Engine → Engine) : (s.modEng g f).cfg = s.cfg := (rfl)
@[simp] theorem Dev.modEng_segs (s : Dev) (g : GroupId) (f : Engine → Engine) : (s.modEng g f).segs = s.segs := (rfl)
@[simp] theorem Dev.modEng_rowLast (s : Dev) (g : GroupId) (f : Engine → Engine) : (s.modEng g f).rowLast = s.rowLast := (rfl)
@[simp] theorem Dev.modEng_latches (s : Dev) (g : GroupId) (f : Engine → Engine) : (s.modEng g f).latches = s.latches := (rfl)
@[simp] theorem Dev.modEng_staged (s : Dev) (g : GroupId) (f : Engine → Engine) : (s.modEng g f).staged = s.staged := (rfl)
@[simp] theorem Dev.modEng_answer (s : Dev) (g : GroupId) (f : Engine → Engine) : (s.modEng g f).answer = s.answer := (rfl)
@[simp] theorem Dev.modEng_rd (s : Dev) (g : GroupId) (f : Engine → Engine) (x : Nat) : (s.modEng g f).rd x = s.rd x := (rfl)
@[simp] theorem Dev.modEng_fld (s : Dev) (g : GroupId) (f : Engine → Engine) (x : Nat) (y : Fld) : (s.modEng g f).fld x y = s.fld x y := (rfl)
@[simp] theorem Dev.modEng_flag (s : Dev) (g : GroupId) (f : Engine → Engine) (x : Nat) (y : Fld) : (s.modEng g f).flag x y = s.flag x y := (rfl)
@[simp] theorem Dev.modEng_byte (s : Dev) (g : GroupId) (f : Engine → Engine) (x : Nat) : (s.modEng g f).byte x = s.byte x := (rfl)
@[simp] theorem Dev.modEng_sl (s : Dev) (g : GroupId) (f : Engine → Engine) (x : SliceId) : (s.modEng g f).sl x = s.sl x := (rfl)

/-! ## modRing -/

@[simp] theorem Dev.modRing_now (s : Dev) (r : RingId) (f : Ring → Ring) : (s.modRing r f).now = s.now := (rfl)
@[simp] theorem Dev.modRing_time (s : Dev) (r : RingId) (f : Ring → Ring) : (s.modRing r f).time = s.time := (rfl)
@[simp] theorem Dev.modRing_freeCtr (s : Dev) (r : RingId) (f : Ring → Ring) : (s.modRing r f).freeCtr = s.freeCtr := (rfl)
@[simp] theorem Dev.modRing_regs (s : Dev) (r : RingId) (f : Ring → Ring) : (s.modRing r f).regs = s.regs := (rfl)
@[simp] theorem Dev.modRing_mem (s : Dev) (r : RingId) (f : Ring → Ring) : (s.modRing r f).mem = s.mem := (rfl)
@[simp] theorem Dev.modRing_nvm (s : Dev) (r : RingId) (f : Ring → Ring) : (s.modRing r f).nvm = s.nvm := (rfl)
@[simp] theorem Dev.modRing_slices (s : Dev) (r : RingId) (f : Ring → Ring) : (s.modRing r f).slices = s.slices := (rfl)
@[simp] theorem Dev.modRing_gens (s : Dev) (r : RingId) (f : Ring → Ring) : (s.modRing r f).gens = s.gens := (rfl)
@[simp] theorem Dev.modRing_lanes (s : Dev) (r : RingId) (f : Ring → Ring) : (s.modRing r f).lanes = s.lanes := (rfl)
@[simp] theorem Dev.modRing_engines (s : Dev) (r : RingId) (f : Ring → Ring) : (s.modRing r f).engines = s.engines := (rfl)
@[simp] theorem Dev.modRing_chans (s : Dev) (r : RingId) (f : Ring → Ring) : (s.modRing r f).chans = s.chans := (rfl)
@[simp] theorem Dev.modRing_vects (s : Dev) (r : RingId) (f : Ring → Ring) : (s.modRing r f).vects = s.vects := (rfl)
@[simp] theorem Dev.modRing_sched (s : Dev) (r : RingId) (f : Ring → Ring) : (s.modRing r f).sched = s.sched := (rfl)
@[simp] theorem Dev.modRing_col (s : Dev) (r : RingId) (f : Ring → Ring) : (s.modRing r f).col = s.col := (rfl)
@[simp] theorem Dev.modRing_plates (s : Dev) (r : RingId) (f : Ring → Ring) : (s.modRing r f).plates = s.plates := (rfl)
@[simp] theorem Dev.modRing_boot (s : Dev) (r : RingId) (f : Ring → Ring) : (s.modRing r f).boot = s.boot := (rfl)
@[simp] theorem Dev.modRing_pins (s : Dev) (r : RingId) (f : Ring → Ring) : (s.modRing r f).pins = s.pins := (rfl)
@[simp] theorem Dev.modRing_mer (s : Dev) (r : RingId) (f : Ring → Ring) : (s.modRing r f).mer = s.mer := (rfl)
@[simp] theorem Dev.modRing_clk (s : Dev) (r : RingId) (f : Ring → Ring) : (s.modRing r f).clk = s.clk := (rfl)
@[simp] theorem Dev.modRing_memst (s : Dev) (r : RingId) (f : Ring → Ring) : (s.modRing r f).memst = s.memst := (rfl)
@[simp] theorem Dev.modRing_mons (s : Dev) (r : RingId) (f : Ring → Ring) : (s.modRing r f).mons = s.mons := (rfl)
@[simp] theorem Dev.modRing_datum (s : Dev) (r : RingId) (f : Ring → Ring) : (s.modRing r f).datum = s.datum := (rfl)
@[simp] theorem Dev.modRing_link (s : Dev) (r : RingId) (f : Ring → Ring) : (s.modRing r f).link = s.link := (rfl)
@[simp] theorem Dev.modRing_frz (s : Dev) (r : RingId) (f : Ring → Ring) : (s.modRing r f).frz = s.frz := (rfl)
@[simp] theorem Dev.modRing_cfg (s : Dev) (r : RingId) (f : Ring → Ring) : (s.modRing r f).cfg = s.cfg := (rfl)
@[simp] theorem Dev.modRing_segs (s : Dev) (r : RingId) (f : Ring → Ring) : (s.modRing r f).segs = s.segs := (rfl)
@[simp] theorem Dev.modRing_rowLast (s : Dev) (r : RingId) (f : Ring → Ring) : (s.modRing r f).rowLast = s.rowLast := (rfl)
@[simp] theorem Dev.modRing_latches (s : Dev) (r : RingId) (f : Ring → Ring) : (s.modRing r f).latches = s.latches := (rfl)
@[simp] theorem Dev.modRing_staged (s : Dev) (r : RingId) (f : Ring → Ring) : (s.modRing r f).staged = s.staged := (rfl)
@[simp] theorem Dev.modRing_answer (s : Dev) (r : RingId) (f : Ring → Ring) : (s.modRing r f).answer = s.answer := (rfl)
@[simp] theorem Dev.modRing_rd (s : Dev) (r : RingId) (f : Ring → Ring) (x : Nat) : (s.modRing r f).rd x = s.rd x := (rfl)
@[simp] theorem Dev.modRing_fld (s : Dev) (r : RingId) (f : Ring → Ring) (x : Nat) (y : Fld) : (s.modRing r f).fld x y = s.fld x y := (rfl)
@[simp] theorem Dev.modRing_flag (s : Dev) (r : RingId) (f : Ring → Ring) (x : Nat) (y : Fld) : (s.modRing r f).flag x y = s.flag x y := (rfl)
@[simp] theorem Dev.modRing_byte (s : Dev) (r : RingId) (f : Ring → Ring) (x : Nat) : (s.modRing r f).byte x = s.byte x := (rfl)
@[simp] theorem Dev.modRing_sl (s : Dev) (r : RingId) (f : Ring → Ring) (x : SliceId) : (s.modRing r f).sl x = s.sl x := (rfl)
@[simp] theorem Dev.modRing_eng (s : Dev) (r : RingId) (f : Ring → Ring) (x : GroupId) : (s.modRing r f).eng x = s.eng x := (rfl)

/-! ## modChan -/

@[simp] theorem Dev.modChan_now (s : Dev) (c : RingId) (f : Chan → Chan) : (s.modChan c f).now = s.now := (rfl)
@[simp] theorem Dev.modChan_time (s : Dev) (c : RingId) (f : Chan → Chan) : (s.modChan c f).time = s.time := (rfl)
@[simp] theorem Dev.modChan_freeCtr (s : Dev) (c : RingId) (f : Chan → Chan) : (s.modChan c f).freeCtr = s.freeCtr := (rfl)
@[simp] theorem Dev.modChan_regs (s : Dev) (c : RingId) (f : Chan → Chan) : (s.modChan c f).regs = s.regs := (rfl)
@[simp] theorem Dev.modChan_mem (s : Dev) (c : RingId) (f : Chan → Chan) : (s.modChan c f).mem = s.mem := (rfl)
@[simp] theorem Dev.modChan_nvm (s : Dev) (c : RingId) (f : Chan → Chan) : (s.modChan c f).nvm = s.nvm := (rfl)
@[simp] theorem Dev.modChan_slices (s : Dev) (c : RingId) (f : Chan → Chan) : (s.modChan c f).slices = s.slices := (rfl)
@[simp] theorem Dev.modChan_gens (s : Dev) (c : RingId) (f : Chan → Chan) : (s.modChan c f).gens = s.gens := (rfl)
@[simp] theorem Dev.modChan_lanes (s : Dev) (c : RingId) (f : Chan → Chan) : (s.modChan c f).lanes = s.lanes := (rfl)
@[simp] theorem Dev.modChan_engines (s : Dev) (c : RingId) (f : Chan → Chan) : (s.modChan c f).engines = s.engines := (rfl)
@[simp] theorem Dev.modChan_rings (s : Dev) (c : RingId) (f : Chan → Chan) : (s.modChan c f).rings = s.rings := (rfl)
@[simp] theorem Dev.modChan_vects (s : Dev) (c : RingId) (f : Chan → Chan) : (s.modChan c f).vects = s.vects := (rfl)
@[simp] theorem Dev.modChan_sched (s : Dev) (c : RingId) (f : Chan → Chan) : (s.modChan c f).sched = s.sched := (rfl)
@[simp] theorem Dev.modChan_col (s : Dev) (c : RingId) (f : Chan → Chan) : (s.modChan c f).col = s.col := (rfl)
@[simp] theorem Dev.modChan_plates (s : Dev) (c : RingId) (f : Chan → Chan) : (s.modChan c f).plates = s.plates := (rfl)
@[simp] theorem Dev.modChan_boot (s : Dev) (c : RingId) (f : Chan → Chan) : (s.modChan c f).boot = s.boot := (rfl)
@[simp] theorem Dev.modChan_pins (s : Dev) (c : RingId) (f : Chan → Chan) : (s.modChan c f).pins = s.pins := (rfl)
@[simp] theorem Dev.modChan_mer (s : Dev) (c : RingId) (f : Chan → Chan) : (s.modChan c f).mer = s.mer := (rfl)
@[simp] theorem Dev.modChan_clk (s : Dev) (c : RingId) (f : Chan → Chan) : (s.modChan c f).clk = s.clk := (rfl)
@[simp] theorem Dev.modChan_memst (s : Dev) (c : RingId) (f : Chan → Chan) : (s.modChan c f).memst = s.memst := (rfl)
@[simp] theorem Dev.modChan_mons (s : Dev) (c : RingId) (f : Chan → Chan) : (s.modChan c f).mons = s.mons := (rfl)
@[simp] theorem Dev.modChan_datum (s : Dev) (c : RingId) (f : Chan → Chan) : (s.modChan c f).datum = s.datum := (rfl)
@[simp] theorem Dev.modChan_link (s : Dev) (c : RingId) (f : Chan → Chan) : (s.modChan c f).link = s.link := (rfl)
@[simp] theorem Dev.modChan_frz (s : Dev) (c : RingId) (f : Chan → Chan) : (s.modChan c f).frz = s.frz := (rfl)
@[simp] theorem Dev.modChan_cfg (s : Dev) (c : RingId) (f : Chan → Chan) : (s.modChan c f).cfg = s.cfg := (rfl)
@[simp] theorem Dev.modChan_segs (s : Dev) (c : RingId) (f : Chan → Chan) : (s.modChan c f).segs = s.segs := (rfl)
@[simp] theorem Dev.modChan_rowLast (s : Dev) (c : RingId) (f : Chan → Chan) : (s.modChan c f).rowLast = s.rowLast := (rfl)
@[simp] theorem Dev.modChan_latches (s : Dev) (c : RingId) (f : Chan → Chan) : (s.modChan c f).latches = s.latches := (rfl)
@[simp] theorem Dev.modChan_staged (s : Dev) (c : RingId) (f : Chan → Chan) : (s.modChan c f).staged = s.staged := (rfl)
@[simp] theorem Dev.modChan_answer (s : Dev) (c : RingId) (f : Chan → Chan) : (s.modChan c f).answer = s.answer := (rfl)
@[simp] theorem Dev.modChan_rd (s : Dev) (c : RingId) (f : Chan → Chan) (x : Nat) : (s.modChan c f).rd x = s.rd x := (rfl)
@[simp] theorem Dev.modChan_fld (s : Dev) (c : RingId) (f : Chan → Chan) (x : Nat) (y : Fld) : (s.modChan c f).fld x y = s.fld x y := (rfl)
@[simp] theorem Dev.modChan_flag (s : Dev) (c : RingId) (f : Chan → Chan) (x : Nat) (y : Fld) : (s.modChan c f).flag x y = s.flag x y := (rfl)
@[simp] theorem Dev.modChan_byte (s : Dev) (c : RingId) (f : Chan → Chan) (x : Nat) : (s.modChan c f).byte x = s.byte x := (rfl)
@[simp] theorem Dev.modChan_sl (s : Dev) (c : RingId) (f : Chan → Chan) (x : SliceId) : (s.modChan c f).sl x = s.sl x := (rfl)
@[simp] theorem Dev.modChan_eng (s : Dev) (c : RingId) (f : Chan → Chan) (x : GroupId) : (s.modChan c f).eng x = s.eng x := (rfl)

/-! ## modLane -/

@[simp] theorem Dev.modLane_now (s : Dev) (l : LaneId) (f : Lane → Lane) : (s.modLane l f).now = s.now := (rfl)
@[simp] theorem Dev.modLane_time (s : Dev) (l : LaneId) (f : Lane → Lane) : (s.modLane l f).time = s.time := (rfl)
@[simp] theorem Dev.modLane_freeCtr (s : Dev) (l : LaneId) (f : Lane → Lane) : (s.modLane l f).freeCtr = s.freeCtr := (rfl)
@[simp] theorem Dev.modLane_regs (s : Dev) (l : LaneId) (f : Lane → Lane) : (s.modLane l f).regs = s.regs := (rfl)
@[simp] theorem Dev.modLane_mem (s : Dev) (l : LaneId) (f : Lane → Lane) : (s.modLane l f).mem = s.mem := (rfl)
@[simp] theorem Dev.modLane_nvm (s : Dev) (l : LaneId) (f : Lane → Lane) : (s.modLane l f).nvm = s.nvm := (rfl)
@[simp] theorem Dev.modLane_slices (s : Dev) (l : LaneId) (f : Lane → Lane) : (s.modLane l f).slices = s.slices := (rfl)
@[simp] theorem Dev.modLane_gens (s : Dev) (l : LaneId) (f : Lane → Lane) : (s.modLane l f).gens = s.gens := (rfl)
@[simp] theorem Dev.modLane_engines (s : Dev) (l : LaneId) (f : Lane → Lane) : (s.modLane l f).engines = s.engines := (rfl)
@[simp] theorem Dev.modLane_rings (s : Dev) (l : LaneId) (f : Lane → Lane) : (s.modLane l f).rings = s.rings := (rfl)
@[simp] theorem Dev.modLane_chans (s : Dev) (l : LaneId) (f : Lane → Lane) : (s.modLane l f).chans = s.chans := (rfl)
@[simp] theorem Dev.modLane_vects (s : Dev) (l : LaneId) (f : Lane → Lane) : (s.modLane l f).vects = s.vects := (rfl)
@[simp] theorem Dev.modLane_sched (s : Dev) (l : LaneId) (f : Lane → Lane) : (s.modLane l f).sched = s.sched := (rfl)
@[simp] theorem Dev.modLane_col (s : Dev) (l : LaneId) (f : Lane → Lane) : (s.modLane l f).col = s.col := (rfl)
@[simp] theorem Dev.modLane_plates (s : Dev) (l : LaneId) (f : Lane → Lane) : (s.modLane l f).plates = s.plates := (rfl)
@[simp] theorem Dev.modLane_boot (s : Dev) (l : LaneId) (f : Lane → Lane) : (s.modLane l f).boot = s.boot := (rfl)
@[simp] theorem Dev.modLane_pins (s : Dev) (l : LaneId) (f : Lane → Lane) : (s.modLane l f).pins = s.pins := (rfl)
@[simp] theorem Dev.modLane_mer (s : Dev) (l : LaneId) (f : Lane → Lane) : (s.modLane l f).mer = s.mer := (rfl)
@[simp] theorem Dev.modLane_clk (s : Dev) (l : LaneId) (f : Lane → Lane) : (s.modLane l f).clk = s.clk := (rfl)
@[simp] theorem Dev.modLane_memst (s : Dev) (l : LaneId) (f : Lane → Lane) : (s.modLane l f).memst = s.memst := (rfl)
@[simp] theorem Dev.modLane_mons (s : Dev) (l : LaneId) (f : Lane → Lane) : (s.modLane l f).mons = s.mons := (rfl)
@[simp] theorem Dev.modLane_datum (s : Dev) (l : LaneId) (f : Lane → Lane) : (s.modLane l f).datum = s.datum := (rfl)
@[simp] theorem Dev.modLane_link (s : Dev) (l : LaneId) (f : Lane → Lane) : (s.modLane l f).link = s.link := (rfl)
@[simp] theorem Dev.modLane_frz (s : Dev) (l : LaneId) (f : Lane → Lane) : (s.modLane l f).frz = s.frz := (rfl)
@[simp] theorem Dev.modLane_cfg (s : Dev) (l : LaneId) (f : Lane → Lane) : (s.modLane l f).cfg = s.cfg := (rfl)
@[simp] theorem Dev.modLane_segs (s : Dev) (l : LaneId) (f : Lane → Lane) : (s.modLane l f).segs = s.segs := (rfl)
@[simp] theorem Dev.modLane_rowLast (s : Dev) (l : LaneId) (f : Lane → Lane) : (s.modLane l f).rowLast = s.rowLast := (rfl)
@[simp] theorem Dev.modLane_latches (s : Dev) (l : LaneId) (f : Lane → Lane) : (s.modLane l f).latches = s.latches := (rfl)
@[simp] theorem Dev.modLane_staged (s : Dev) (l : LaneId) (f : Lane → Lane) : (s.modLane l f).staged = s.staged := (rfl)
@[simp] theorem Dev.modLane_answer (s : Dev) (l : LaneId) (f : Lane → Lane) : (s.modLane l f).answer = s.answer := (rfl)
@[simp] theorem Dev.modLane_rd (s : Dev) (l : LaneId) (f : Lane → Lane) (x : Nat) : (s.modLane l f).rd x = s.rd x := (rfl)
@[simp] theorem Dev.modLane_fld (s : Dev) (l : LaneId) (f : Lane → Lane) (x : Nat) (y : Fld) : (s.modLane l f).fld x y = s.fld x y := (rfl)
@[simp] theorem Dev.modLane_flag (s : Dev) (l : LaneId) (f : Lane → Lane) (x : Nat) (y : Fld) : (s.modLane l f).flag x y = s.flag x y := (rfl)
@[simp] theorem Dev.modLane_byte (s : Dev) (l : LaneId) (f : Lane → Lane) (x : Nat) : (s.modLane l f).byte x = s.byte x := (rfl)
@[simp] theorem Dev.modLane_sl (s : Dev) (l : LaneId) (f : Lane → Lane) (x : SliceId) : (s.modLane l f).sl x = s.sl x := (rfl)
@[simp] theorem Dev.modLane_eng (s : Dev) (l : LaneId) (f : Lane → Lane) (x : GroupId) : (s.modLane l f).eng x = s.eng x := (rfl)

/-! ## modMon -/

@[simp] theorem Dev.modMon_now (s : Dev) (m : SliceId) (f : Mon → Mon) : (s.modMon m f).now = s.now := (rfl)
@[simp] theorem Dev.modMon_time (s : Dev) (m : SliceId) (f : Mon → Mon) : (s.modMon m f).time = s.time := (rfl)
@[simp] theorem Dev.modMon_freeCtr (s : Dev) (m : SliceId) (f : Mon → Mon) : (s.modMon m f).freeCtr = s.freeCtr := (rfl)
@[simp] theorem Dev.modMon_regs (s : Dev) (m : SliceId) (f : Mon → Mon) : (s.modMon m f).regs = s.regs := (rfl)
@[simp] theorem Dev.modMon_mem (s : Dev) (m : SliceId) (f : Mon → Mon) : (s.modMon m f).mem = s.mem := (rfl)
@[simp] theorem Dev.modMon_nvm (s : Dev) (m : SliceId) (f : Mon → Mon) : (s.modMon m f).nvm = s.nvm := (rfl)
@[simp] theorem Dev.modMon_slices (s : Dev) (m : SliceId) (f : Mon → Mon) : (s.modMon m f).slices = s.slices := (rfl)
@[simp] theorem Dev.modMon_gens (s : Dev) (m : SliceId) (f : Mon → Mon) : (s.modMon m f).gens = s.gens := (rfl)
@[simp] theorem Dev.modMon_lanes (s : Dev) (m : SliceId) (f : Mon → Mon) : (s.modMon m f).lanes = s.lanes := (rfl)
@[simp] theorem Dev.modMon_engines (s : Dev) (m : SliceId) (f : Mon → Mon) : (s.modMon m f).engines = s.engines := (rfl)
@[simp] theorem Dev.modMon_rings (s : Dev) (m : SliceId) (f : Mon → Mon) : (s.modMon m f).rings = s.rings := (rfl)
@[simp] theorem Dev.modMon_chans (s : Dev) (m : SliceId) (f : Mon → Mon) : (s.modMon m f).chans = s.chans := (rfl)
@[simp] theorem Dev.modMon_vects (s : Dev) (m : SliceId) (f : Mon → Mon) : (s.modMon m f).vects = s.vects := (rfl)
@[simp] theorem Dev.modMon_sched (s : Dev) (m : SliceId) (f : Mon → Mon) : (s.modMon m f).sched = s.sched := (rfl)
@[simp] theorem Dev.modMon_col (s : Dev) (m : SliceId) (f : Mon → Mon) : (s.modMon m f).col = s.col := (rfl)
@[simp] theorem Dev.modMon_plates (s : Dev) (m : SliceId) (f : Mon → Mon) : (s.modMon m f).plates = s.plates := (rfl)
@[simp] theorem Dev.modMon_boot (s : Dev) (m : SliceId) (f : Mon → Mon) : (s.modMon m f).boot = s.boot := (rfl)
@[simp] theorem Dev.modMon_pins (s : Dev) (m : SliceId) (f : Mon → Mon) : (s.modMon m f).pins = s.pins := (rfl)
@[simp] theorem Dev.modMon_mer (s : Dev) (m : SliceId) (f : Mon → Mon) : (s.modMon m f).mer = s.mer := (rfl)
@[simp] theorem Dev.modMon_clk (s : Dev) (m : SliceId) (f : Mon → Mon) : (s.modMon m f).clk = s.clk := (rfl)
@[simp] theorem Dev.modMon_memst (s : Dev) (m : SliceId) (f : Mon → Mon) : (s.modMon m f).memst = s.memst := (rfl)
@[simp] theorem Dev.modMon_datum (s : Dev) (m : SliceId) (f : Mon → Mon) : (s.modMon m f).datum = s.datum := (rfl)
@[simp] theorem Dev.modMon_link (s : Dev) (m : SliceId) (f : Mon → Mon) : (s.modMon m f).link = s.link := (rfl)
@[simp] theorem Dev.modMon_frz (s : Dev) (m : SliceId) (f : Mon → Mon) : (s.modMon m f).frz = s.frz := (rfl)
@[simp] theorem Dev.modMon_cfg (s : Dev) (m : SliceId) (f : Mon → Mon) : (s.modMon m f).cfg = s.cfg := (rfl)
@[simp] theorem Dev.modMon_segs (s : Dev) (m : SliceId) (f : Mon → Mon) : (s.modMon m f).segs = s.segs := (rfl)
@[simp] theorem Dev.modMon_rowLast (s : Dev) (m : SliceId) (f : Mon → Mon) : (s.modMon m f).rowLast = s.rowLast := (rfl)
@[simp] theorem Dev.modMon_latches (s : Dev) (m : SliceId) (f : Mon → Mon) : (s.modMon m f).latches = s.latches := (rfl)
@[simp] theorem Dev.modMon_staged (s : Dev) (m : SliceId) (f : Mon → Mon) : (s.modMon m f).staged = s.staged := (rfl)
@[simp] theorem Dev.modMon_answer (s : Dev) (m : SliceId) (f : Mon → Mon) : (s.modMon m f).answer = s.answer := (rfl)
@[simp] theorem Dev.modMon_rd (s : Dev) (m : SliceId) (f : Mon → Mon) (x : Nat) : (s.modMon m f).rd x = s.rd x := (rfl)
@[simp] theorem Dev.modMon_fld (s : Dev) (m : SliceId) (f : Mon → Mon) (x : Nat) (y : Fld) : (s.modMon m f).fld x y = s.fld x y := (rfl)
@[simp] theorem Dev.modMon_flag (s : Dev) (m : SliceId) (f : Mon → Mon) (x : Nat) (y : Fld) : (s.modMon m f).flag x y = s.flag x y := (rfl)
@[simp] theorem Dev.modMon_byte (s : Dev) (m : SliceId) (f : Mon → Mon) (x : Nat) : (s.modMon m f).byte x = s.byte x := (rfl)
@[simp] theorem Dev.modMon_sl (s : Dev) (m : SliceId) (f : Mon → Mon) (x : SliceId) : (s.modMon m f).sl x = s.sl x := (rfl)
@[simp] theorem Dev.modMon_eng (s : Dev) (m : SliceId) (f : Mon → Mon) (x : GroupId) : (s.modMon m f).eng x = s.eng x := (rfl)

/-! ## modVect -/

@[simp] theorem Dev.modVect_now (s : Dev) (v : Fin 40) (f : Vect → Vect) : (s.modVect v f).now = s.now := (rfl)
@[simp] theorem Dev.modVect_time (s : Dev) (v : Fin 40) (f : Vect → Vect) : (s.modVect v f).time = s.time := (rfl)
@[simp] theorem Dev.modVect_freeCtr (s : Dev) (v : Fin 40) (f : Vect → Vect) : (s.modVect v f).freeCtr = s.freeCtr := (rfl)
@[simp] theorem Dev.modVect_regs (s : Dev) (v : Fin 40) (f : Vect → Vect) : (s.modVect v f).regs = s.regs := (rfl)
@[simp] theorem Dev.modVect_mem (s : Dev) (v : Fin 40) (f : Vect → Vect) : (s.modVect v f).mem = s.mem := (rfl)
@[simp] theorem Dev.modVect_nvm (s : Dev) (v : Fin 40) (f : Vect → Vect) : (s.modVect v f).nvm = s.nvm := (rfl)
@[simp] theorem Dev.modVect_slices (s : Dev) (v : Fin 40) (f : Vect → Vect) : (s.modVect v f).slices = s.slices := (rfl)
@[simp] theorem Dev.modVect_gens (s : Dev) (v : Fin 40) (f : Vect → Vect) : (s.modVect v f).gens = s.gens := (rfl)
@[simp] theorem Dev.modVect_lanes (s : Dev) (v : Fin 40) (f : Vect → Vect) : (s.modVect v f).lanes = s.lanes := (rfl)
@[simp] theorem Dev.modVect_engines (s : Dev) (v : Fin 40) (f : Vect → Vect) : (s.modVect v f).engines = s.engines := (rfl)
@[simp] theorem Dev.modVect_rings (s : Dev) (v : Fin 40) (f : Vect → Vect) : (s.modVect v f).rings = s.rings := (rfl)
@[simp] theorem Dev.modVect_chans (s : Dev) (v : Fin 40) (f : Vect → Vect) : (s.modVect v f).chans = s.chans := (rfl)
@[simp] theorem Dev.modVect_sched (s : Dev) (v : Fin 40) (f : Vect → Vect) : (s.modVect v f).sched = s.sched := (rfl)
@[simp] theorem Dev.modVect_col (s : Dev) (v : Fin 40) (f : Vect → Vect) : (s.modVect v f).col = s.col := (rfl)
@[simp] theorem Dev.modVect_plates (s : Dev) (v : Fin 40) (f : Vect → Vect) : (s.modVect v f).plates = s.plates := (rfl)
@[simp] theorem Dev.modVect_boot (s : Dev) (v : Fin 40) (f : Vect → Vect) : (s.modVect v f).boot = s.boot := (rfl)
@[simp] theorem Dev.modVect_pins (s : Dev) (v : Fin 40) (f : Vect → Vect) : (s.modVect v f).pins = s.pins := (rfl)
@[simp] theorem Dev.modVect_mer (s : Dev) (v : Fin 40) (f : Vect → Vect) : (s.modVect v f).mer = s.mer := (rfl)
@[simp] theorem Dev.modVect_clk (s : Dev) (v : Fin 40) (f : Vect → Vect) : (s.modVect v f).clk = s.clk := (rfl)
@[simp] theorem Dev.modVect_memst (s : Dev) (v : Fin 40) (f : Vect → Vect) : (s.modVect v f).memst = s.memst := (rfl)
@[simp] theorem Dev.modVect_mons (s : Dev) (v : Fin 40) (f : Vect → Vect) : (s.modVect v f).mons = s.mons := (rfl)
@[simp] theorem Dev.modVect_datum (s : Dev) (v : Fin 40) (f : Vect → Vect) : (s.modVect v f).datum = s.datum := (rfl)
@[simp] theorem Dev.modVect_link (s : Dev) (v : Fin 40) (f : Vect → Vect) : (s.modVect v f).link = s.link := (rfl)
@[simp] theorem Dev.modVect_frz (s : Dev) (v : Fin 40) (f : Vect → Vect) : (s.modVect v f).frz = s.frz := (rfl)
@[simp] theorem Dev.modVect_cfg (s : Dev) (v : Fin 40) (f : Vect → Vect) : (s.modVect v f).cfg = s.cfg := (rfl)
@[simp] theorem Dev.modVect_segs (s : Dev) (v : Fin 40) (f : Vect → Vect) : (s.modVect v f).segs = s.segs := (rfl)
@[simp] theorem Dev.modVect_rowLast (s : Dev) (v : Fin 40) (f : Vect → Vect) : (s.modVect v f).rowLast = s.rowLast := (rfl)
@[simp] theorem Dev.modVect_latches (s : Dev) (v : Fin 40) (f : Vect → Vect) : (s.modVect v f).latches = s.latches := (rfl)
@[simp] theorem Dev.modVect_staged (s : Dev) (v : Fin 40) (f : Vect → Vect) : (s.modVect v f).staged = s.staged := (rfl)
@[simp] theorem Dev.modVect_answer (s : Dev) (v : Fin 40) (f : Vect → Vect) : (s.modVect v f).answer = s.answer := (rfl)
@[simp] theorem Dev.modVect_rd (s : Dev) (v : Fin 40) (f : Vect → Vect) (x : Nat) : (s.modVect v f).rd x = s.rd x := (rfl)
@[simp] theorem Dev.modVect_fld (s : Dev) (v : Fin 40) (f : Vect → Vect) (x : Nat) (y : Fld) : (s.modVect v f).fld x y = s.fld x y := (rfl)
@[simp] theorem Dev.modVect_flag (s : Dev) (v : Fin 40) (f : Vect → Vect) (x : Nat) (y : Fld) : (s.modVect v f).flag x y = s.flag x y := (rfl)
@[simp] theorem Dev.modVect_byte (s : Dev) (v : Fin 40) (f : Vect → Vect) (x : Nat) : (s.modVect v f).byte x = s.byte x := (rfl)
@[simp] theorem Dev.modVect_sl (s : Dev) (v : Fin 40) (f : Vect → Vect) (x : SliceId) : (s.modVect v f).sl x = s.sl x := (rfl)
@[simp] theorem Dev.modVect_eng (s : Dev) (v : Fin 40) (f : Vect → Vect) (x : GroupId) : (s.modVect v f).eng x = s.eng x := (rfl)

/-! ## modPort -/

@[simp] theorem Dev.modPort_now (s : Dev) (p : PortId) (f : Port → Port) : (s.modPort p f).now = s.now := (rfl)
@[simp] theorem Dev.modPort_time (s : Dev) (p : PortId) (f : Port → Port) : (s.modPort p f).time = s.time := (rfl)
@[simp] theorem Dev.modPort_freeCtr (s : Dev) (p : PortId) (f : Port → Port) : (s.modPort p f).freeCtr = s.freeCtr := (rfl)
@[simp] theorem Dev.modPort_regs (s : Dev) (p : PortId) (f : Port → Port) : (s.modPort p f).regs = s.regs := (rfl)
@[simp] theorem Dev.modPort_mem (s : Dev) (p : PortId) (f : Port → Port) : (s.modPort p f).mem = s.mem := (rfl)
@[simp] theorem Dev.modPort_nvm (s : Dev) (p : PortId) (f : Port → Port) : (s.modPort p f).nvm = s.nvm := (rfl)
@[simp] theorem Dev.modPort_slices (s : Dev) (p : PortId) (f : Port → Port) : (s.modPort p f).slices = s.slices := (rfl)
@[simp] theorem Dev.modPort_gens (s : Dev) (p : PortId) (f : Port → Port) : (s.modPort p f).gens = s.gens := (rfl)
@[simp] theorem Dev.modPort_lanes (s : Dev) (p : PortId) (f : Port → Port) : (s.modPort p f).lanes = s.lanes := (rfl)
@[simp] theorem Dev.modPort_engines (s : Dev) (p : PortId) (f : Port → Port) : (s.modPort p f).engines = s.engines := (rfl)
@[simp] theorem Dev.modPort_rings (s : Dev) (p : PortId) (f : Port → Port) : (s.modPort p f).rings = s.rings := (rfl)
@[simp] theorem Dev.modPort_chans (s : Dev) (p : PortId) (f : Port → Port) : (s.modPort p f).chans = s.chans := (rfl)
@[simp] theorem Dev.modPort_vects (s : Dev) (p : PortId) (f : Port → Port) : (s.modPort p f).vects = s.vects := (rfl)
@[simp] theorem Dev.modPort_sched (s : Dev) (p : PortId) (f : Port → Port) : (s.modPort p f).sched = s.sched := (rfl)
@[simp] theorem Dev.modPort_col (s : Dev) (p : PortId) (f : Port → Port) : (s.modPort p f).col = s.col := (rfl)
@[simp] theorem Dev.modPort_plates (s : Dev) (p : PortId) (f : Port → Port) : (s.modPort p f).plates = s.plates := (rfl)
@[simp] theorem Dev.modPort_boot (s : Dev) (p : PortId) (f : Port → Port) : (s.modPort p f).boot = s.boot := (rfl)
@[simp] theorem Dev.modPort_pins (s : Dev) (p : PortId) (f : Port → Port) : (s.modPort p f).pins = s.pins := (rfl)
@[simp] theorem Dev.modPort_mer (s : Dev) (p : PortId) (f : Port → Port) : (s.modPort p f).mer = s.mer := (rfl)
@[simp] theorem Dev.modPort_clk (s : Dev) (p : PortId) (f : Port → Port) : (s.modPort p f).clk = s.clk := (rfl)
@[simp] theorem Dev.modPort_memst (s : Dev) (p : PortId) (f : Port → Port) : (s.modPort p f).memst = s.memst := (rfl)
@[simp] theorem Dev.modPort_mons (s : Dev) (p : PortId) (f : Port → Port) : (s.modPort p f).mons = s.mons := (rfl)
@[simp] theorem Dev.modPort_datum (s : Dev) (p : PortId) (f : Port → Port) : (s.modPort p f).datum = s.datum := (rfl)
@[simp] theorem Dev.modPort_frz (s : Dev) (p : PortId) (f : Port → Port) : (s.modPort p f).frz = s.frz := (rfl)
@[simp] theorem Dev.modPort_cfg (s : Dev) (p : PortId) (f : Port → Port) : (s.modPort p f).cfg = s.cfg := (rfl)
@[simp] theorem Dev.modPort_segs (s : Dev) (p : PortId) (f : Port → Port) : (s.modPort p f).segs = s.segs := (rfl)
@[simp] theorem Dev.modPort_rowLast (s : Dev) (p : PortId) (f : Port → Port) : (s.modPort p f).rowLast = s.rowLast := (rfl)
@[simp] theorem Dev.modPort_latches (s : Dev) (p : PortId) (f : Port → Port) : (s.modPort p f).latches = s.latches := (rfl)
@[simp] theorem Dev.modPort_staged (s : Dev) (p : PortId) (f : Port → Port) : (s.modPort p f).staged = s.staged := (rfl)
@[simp] theorem Dev.modPort_answer (s : Dev) (p : PortId) (f : Port → Port) : (s.modPort p f).answer = s.answer := (rfl)
@[simp] theorem Dev.modPort_rd (s : Dev) (p : PortId) (f : Port → Port) (x : Nat) : (s.modPort p f).rd x = s.rd x := (rfl)
@[simp] theorem Dev.modPort_fld (s : Dev) (p : PortId) (f : Port → Port) (x : Nat) (y : Fld) : (s.modPort p f).fld x y = s.fld x y := (rfl)
@[simp] theorem Dev.modPort_flag (s : Dev) (p : PortId) (f : Port → Port) (x : Nat) (y : Fld) : (s.modPort p f).flag x y = s.flag x y := (rfl)
@[simp] theorem Dev.modPort_byte (s : Dev) (p : PortId) (f : Port → Port) (x : Nat) : (s.modPort p f).byte x = s.byte x := (rfl)
@[simp] theorem Dev.modPort_sl (s : Dev) (p : PortId) (f : Port → Port) (x : SliceId) : (s.modPort p f).sl x = s.sl x := (rfl)
@[simp] theorem Dev.modPort_eng (s : Dev) (p : PortId) (f : Port → Port) (x : GroupId) : (s.modPort p f).eng x = s.eng x := (rfl)

/-! ## setByte -/

@[simp] theorem Dev.setByte_now (s : Dev) (a : Nat) (v : Byte) : (s.setByte a v).now = s.now := (rfl)
@[simp] theorem Dev.setByte_time (s : Dev) (a : Nat) (v : Byte) : (s.setByte a v).time = s.time := (rfl)
@[simp] theorem Dev.setByte_freeCtr (s : Dev) (a : Nat) (v : Byte) : (s.setByte a v).freeCtr = s.freeCtr := (rfl)
@[simp] theorem Dev.setByte_regs (s : Dev) (a : Nat) (v : Byte) : (s.setByte a v).regs = s.regs := (rfl)
@[simp] theorem Dev.setByte_nvm (s : Dev) (a : Nat) (v : Byte) : (s.setByte a v).nvm = s.nvm := (rfl)
@[simp] theorem Dev.setByte_slices (s : Dev) (a : Nat) (v : Byte) : (s.setByte a v).slices = s.slices := (rfl)
@[simp] theorem Dev.setByte_gens (s : Dev) (a : Nat) (v : Byte) : (s.setByte a v).gens = s.gens := (rfl)
@[simp] theorem Dev.setByte_lanes (s : Dev) (a : Nat) (v : Byte) : (s.setByte a v).lanes = s.lanes := (rfl)
@[simp] theorem Dev.setByte_engines (s : Dev) (a : Nat) (v : Byte) : (s.setByte a v).engines = s.engines := (rfl)
@[simp] theorem Dev.setByte_rings (s : Dev) (a : Nat) (v : Byte) : (s.setByte a v).rings = s.rings := (rfl)
@[simp] theorem Dev.setByte_chans (s : Dev) (a : Nat) (v : Byte) : (s.setByte a v).chans = s.chans := (rfl)
@[simp] theorem Dev.setByte_vects (s : Dev) (a : Nat) (v : Byte) : (s.setByte a v).vects = s.vects := (rfl)
@[simp] theorem Dev.setByte_sched (s : Dev) (a : Nat) (v : Byte) : (s.setByte a v).sched = s.sched := (rfl)
@[simp] theorem Dev.setByte_col (s : Dev) (a : Nat) (v : Byte) : (s.setByte a v).col = s.col := (rfl)
@[simp] theorem Dev.setByte_plates (s : Dev) (a : Nat) (v : Byte) : (s.setByte a v).plates = s.plates := (rfl)
@[simp] theorem Dev.setByte_boot (s : Dev) (a : Nat) (v : Byte) : (s.setByte a v).boot = s.boot := (rfl)
@[simp] theorem Dev.setByte_pins (s : Dev) (a : Nat) (v : Byte) : (s.setByte a v).pins = s.pins := (rfl)
@[simp] theorem Dev.setByte_mer (s : Dev) (a : Nat) (v : Byte) : (s.setByte a v).mer = s.mer := (rfl)
@[simp] theorem Dev.setByte_clk (s : Dev) (a : Nat) (v : Byte) : (s.setByte a v).clk = s.clk := (rfl)
@[simp] theorem Dev.setByte_memst (s : Dev) (a : Nat) (v : Byte) : (s.setByte a v).memst = s.memst := (rfl)
@[simp] theorem Dev.setByte_mons (s : Dev) (a : Nat) (v : Byte) : (s.setByte a v).mons = s.mons := (rfl)
@[simp] theorem Dev.setByte_datum (s : Dev) (a : Nat) (v : Byte) : (s.setByte a v).datum = s.datum := (rfl)
@[simp] theorem Dev.setByte_link (s : Dev) (a : Nat) (v : Byte) : (s.setByte a v).link = s.link := (rfl)
@[simp] theorem Dev.setByte_frz (s : Dev) (a : Nat) (v : Byte) : (s.setByte a v).frz = s.frz := (rfl)
@[simp] theorem Dev.setByte_cfg (s : Dev) (a : Nat) (v : Byte) : (s.setByte a v).cfg = s.cfg := (rfl)
@[simp] theorem Dev.setByte_segs (s : Dev) (a : Nat) (v : Byte) : (s.setByte a v).segs = s.segs := (rfl)
@[simp] theorem Dev.setByte_rowLast (s : Dev) (a : Nat) (v : Byte) : (s.setByte a v).rowLast = s.rowLast := (rfl)
@[simp] theorem Dev.setByte_latches (s : Dev) (a : Nat) (v : Byte) : (s.setByte a v).latches = s.latches := (rfl)
@[simp] theorem Dev.setByte_staged (s : Dev) (a : Nat) (v : Byte) : (s.setByte a v).staged = s.staged := (rfl)
@[simp] theorem Dev.setByte_answer (s : Dev) (a : Nat) (v : Byte) : (s.setByte a v).answer = s.answer := (rfl)
@[simp] theorem Dev.setByte_rd (s : Dev) (a : Nat) (v : Byte) (x : Nat) : (s.setByte a v).rd x = s.rd x := (rfl)
@[simp] theorem Dev.setByte_fld (s : Dev) (a : Nat) (v : Byte) (x : Nat) (y : Fld) : (s.setByte a v).fld x y = s.fld x y := (rfl)
@[simp] theorem Dev.setByte_flag (s : Dev) (a : Nat) (v : Byte) (x : Nat) (y : Fld) : (s.setByte a v).flag x y = s.flag x y := (rfl)
@[simp] theorem Dev.setByte_sl (s : Dev) (a : Nat) (v : Byte) (x : SliceId) : (s.setByte a v).sl x = s.sl x := (rfl)
@[simp] theorem Dev.setByte_eng (s : Dev) (a : Nat) (v : Byte) (x : GroupId) : (s.setByte a v).eng x = s.eng x := (rfl)

/-! ## draw -/

@[simp] theorem Dev.draw_now (s : Dev) : (s.draw).now = s.now := (rfl)
@[simp] theorem Dev.draw_time (s : Dev) : (s.draw).time = s.time := (rfl)
@[simp] theorem Dev.draw_regs (s : Dev) : (s.draw).regs = s.regs := (rfl)
@[simp] theorem Dev.draw_mem (s : Dev) : (s.draw).mem = s.mem := (rfl)
@[simp] theorem Dev.draw_nvm (s : Dev) : (s.draw).nvm = s.nvm := (rfl)
@[simp] theorem Dev.draw_slices (s : Dev) : (s.draw).slices = s.slices := (rfl)
@[simp] theorem Dev.draw_gens (s : Dev) : (s.draw).gens = s.gens := (rfl)
@[simp] theorem Dev.draw_lanes (s : Dev) : (s.draw).lanes = s.lanes := (rfl)
@[simp] theorem Dev.draw_engines (s : Dev) : (s.draw).engines = s.engines := (rfl)
@[simp] theorem Dev.draw_rings (s : Dev) : (s.draw).rings = s.rings := (rfl)
@[simp] theorem Dev.draw_chans (s : Dev) : (s.draw).chans = s.chans := (rfl)
@[simp] theorem Dev.draw_vects (s : Dev) : (s.draw).vects = s.vects := (rfl)
@[simp] theorem Dev.draw_sched (s : Dev) : (s.draw).sched = s.sched := (rfl)
@[simp] theorem Dev.draw_col (s : Dev) : (s.draw).col = s.col := (rfl)
@[simp] theorem Dev.draw_plates (s : Dev) : (s.draw).plates = s.plates := (rfl)
@[simp] theorem Dev.draw_boot (s : Dev) : (s.draw).boot = s.boot := (rfl)
@[simp] theorem Dev.draw_pins (s : Dev) : (s.draw).pins = s.pins := (rfl)
@[simp] theorem Dev.draw_mer (s : Dev) : (s.draw).mer = s.mer := (rfl)
@[simp] theorem Dev.draw_clk (s : Dev) : (s.draw).clk = s.clk := (rfl)
@[simp] theorem Dev.draw_memst (s : Dev) : (s.draw).memst = s.memst := (rfl)
@[simp] theorem Dev.draw_mons (s : Dev) : (s.draw).mons = s.mons := (rfl)
@[simp] theorem Dev.draw_datum (s : Dev) : (s.draw).datum = s.datum := (rfl)
@[simp] theorem Dev.draw_link (s : Dev) : (s.draw).link = s.link := (rfl)
@[simp] theorem Dev.draw_frz (s : Dev) : (s.draw).frz = s.frz := (rfl)
@[simp] theorem Dev.draw_cfg (s : Dev) : (s.draw).cfg = s.cfg := (rfl)
@[simp] theorem Dev.draw_segs (s : Dev) : (s.draw).segs = s.segs := (rfl)
@[simp] theorem Dev.draw_rowLast (s : Dev) : (s.draw).rowLast = s.rowLast := (rfl)
@[simp] theorem Dev.draw_latches (s : Dev) : (s.draw).latches = s.latches := (rfl)
@[simp] theorem Dev.draw_staged (s : Dev) : (s.draw).staged = s.staged := (rfl)
@[simp] theorem Dev.draw_answer (s : Dev) : (s.draw).answer = s.answer := (rfl)
@[simp] theorem Dev.draw_rd (s : Dev) (x : Nat) : (s.draw).rd x = s.rd x := (rfl)
@[simp] theorem Dev.draw_fld (s : Dev) (x : Nat) (y : Fld) : (s.draw).fld x y = s.fld x y := (rfl)
@[simp] theorem Dev.draw_flag (s : Dev) (x : Nat) (y : Fld) : (s.draw).flag x y = s.flag x y := (rfl)
@[simp] theorem Dev.draw_byte (s : Dev) (x : Nat) : (s.draw).byte x = s.byte x := (rfl)
@[simp] theorem Dev.draw_sl (s : Dev) (x : SliceId) : (s.draw).sl x = s.sl x := (rfl)
@[simp] theorem Dev.draw_eng (s : Dev) (x : GroupId) : (s.draw).eng x = s.eng x := (rfl)

end Sys2Proof.Machine
end

