-- ==== Sys2Proof/Laws/Store.lean ====
section
/-! SUPPORT. The sparse stores: a read after a write, and the canonical form that every write keeps. -/

namespace Sys2Proof.Machine

variable {α : Type}

/-- A store read through an insertion of a key it does not hold. -/
theorem Store.find_insert (a b : Nat) (v : α) (l : List (Nat × α)) (h : ∀ c ∈ l, c.1 ≠ a) :
    (Store.insert a v l).find? (fun c => c.1 == b) = if a = b then some (a, v) else l.find? (fun c => c.1 == b) := by
  induction l with
  | nil => by_cases e : a = b <;> simp [Store.insert, List.find?, e]
  | cons c l ih =>
    have hc := h c (by simp)
    have ih := ih (fun x hx => h x (List.mem_cons_of_mem _ hx))
    unfold Store.insert
    by_cases k : a < c.1
    · rw [if_pos k]
      by_cases e : a = b <;> simp [e]
    · rw [if_neg k]
      by_cases e : a = b
      · subst e
        have : (c.1 == a) = false := by simpa using hc
        simp [this, ih]
      · cases hb : c.1 == b <;> simp [List.find?, hb, ih, e]

theorem Store.find_filter (a b : Nat) (l : List (Nat × α)) :
    (l.filter (fun c => !(c.1 == a))).find? (fun c => c.1 == b) = if a = b then none else l.find? (fun c => c.1 == b) := by
  induction l with
  | nil => simp
  | cons c l ih =>
    by_cases e : a = b
    · subst e; simp [List.find?_eq_none]
    · cases ha : c.1 == a <;> cases hb : c.1 == b <;> simp_all

/-- A read of the key written gives the value written. -/
@[simp] theorem Store.get_set_same [DecidableEq α] (d : α) (l : List (Nat × α)) (a : Nat) (v : α) :
    Store.get d (Store.set d l a v) a = v := by
  unfold Store.get Store.set
  by_cases hv : v = d
  · rw [if_pos hv, Store.find_filter]; simp [hv]
  · rw [if_neg hv, Store.find_insert _ _ _ _ (by simp)]; simp

/-- A write leaves every other key as it was. -/
theorem Store.get_set_other [DecidableEq α] (d e : α) (l : List (Nat × α)) (a b : Nat) (v : α) (h : a ≠ b) :
    Store.get e (Store.set d l a v) b = Store.get e l b := by
  unfold Store.get Store.set
  by_cases hv : v = d
  · rw [if_pos hv, Store.find_filter]; simp [h]
  · rw [if_neg hv, Store.find_insert _ _ _ _ (by simp), Store.find_filter]; simp [h]

theorem Store.mem_insert (a : Nat) (v : α) (l : List (Nat × α)) (c : Nat × α) :
    c ∈ Store.insert a v l ↔ c = (a, v) ∨ c ∈ l := by
  induction l with
  | nil => simp [Store.insert]
  | cons x l ih => unfold Store.insert; split <;> simp_all; tauto

/-- An insertion of a new key keeps the keys rising. -/
theorem Store.insert_rising (a : Nat) (v : α) (l : List (Nat × α)) (h : ∀ c ∈ l, c.1 ≠ a)
    (p : l.Pairwise (fun x y => x.1 < y.1)) : (Store.insert a v l).Pairwise (fun x y => x.1 < y.1) := by
  induction l with
  | nil => simp [Store.insert]
  | cons c l ih =>
    obtain ⟨p1, p2⟩ := List.pairwise_cons.mp p
    unfold Store.insert
    by_cases k : a < c.1
    · simp only [k, if_true]
      refine List.pairwise_cons.mpr ⟨?_, p⟩
      intro x hx
      rcases List.mem_cons.mp hx with rfl | hx
      · exact k
      · exact Nat.lt_trans k (p1 x hx)
    · simp only [k, if_false]
      refine List.pairwise_cons.mpr ⟨?_, ih (fun x hx => h x (List.mem_cons_of_mem _ hx)) p2⟩
      intro x hx
      have hc := h c (by simp)
      rcases (Store.mem_insert _ _ _ _).mp hx with rfl | hx
      · simp; omega
      · exact p1 x hx

/-- Every write keeps a store in canonical form. -/
theorem Store.set_wf [DecidableEq α] (d : Nat → α) (l : List (Nat × α)) (a : Nat) (v : α) (h : Store.wf d l = true) :
    Store.wf d (Store.set (d a) l a v) = true := by
  unfold Store.wf at *
  simp only [Bool.and_eq_true, List.all_eq_true, decide_eq_true_eq] at *
  obtain ⟨h1, h2⟩ := h
  have q := List.Pairwise.filter (fun c : Nat × α => !(c.1 == a)) h2
  unfold Store.set
  split
  · exact ⟨fun c hc => h1 c (List.mem_filter.mp hc).1, q⟩
  · next hv =>
    refine ⟨fun c hc => ?_, Store.insert_rising _ _ _ (by simp) q⟩
    rcases (Store.mem_insert _ _ _ _).mp hc with rfl | hc
    · exact hv
    · exact h1 c (List.mem_filter.mp hc).1

/-! ## The three stores of a device -/

/-- A register write keeps the register file canonical. -/
theorem Dev.wr_canonical (s : Dev) (a : Nat) (v : Word) (h : s.canonical) : (s.wr a v).canonical :=
  ⟨h.1, h.2.1, Store.set_wf regReset s.regs a v h.2.2⟩

/-- A field write keeps the register file canonical. -/
theorem Dev.setFld_canonical (s : Dev) (b : Nat) (f : Fld) (v : Nat) (h : s.canonical) : (s.setFld b f v).canonical :=
  Dev.wr_canonical _ _ _ h

/-- A write through a register's access bits keeps the register file canonical. -/
theorem Dev.store_canonical (s : Dev) (a : Nat) (v : Word) (h : s.canonical) : (s.store a v).canonical := by
  unfold Dev.store
  split
  · exact Dev.wr_canonical _ _ _ h
  · exact h

/-- A byte write keeps the memory canonical. -/
theorem Dev.setByte_canonical (s : Dev) (a : Nat) (v : Byte) (h : s.canonical) : (s.setByte a v).canonical :=
  ⟨Store.set_wf (fun _ => (0 : Byte)) s.mem a v h.1, h.2.1, h.2.2⟩

/-- A write of several bytes keeps the memory canonical. -/
theorem Dev.setBytes_canonical (l : List Byte) (s : Dev) (a : Nat) (h : s.canonical) : (s.setBytes a l).canonical := by
  induction l generalizing s a with
  | nil => exact h
  | cons b l ih => exact ih _ _ (Dev.setByte_canonical s a b h)

/-- A write of the Datum die keeps it canonical. -/
theorem Dev.setNv_canonical (l : List Byte) (s : Dev) (a : Nat) (h : s.canonical) : (s.setNv a l).canonical := by
  induction l generalizing s a with
  | nil => exact h
  | cons b l ih => exact ih _ _ ⟨h.1, Store.set_wf (fun _ => (0xFF : Byte)) s.nvm a b h.2.1, h.2.2⟩

/-- The stores are canonical at reset. -/
theorem State.reset_canonical : State.reset.toDev.canonical := ⟨rfl, rfl, rfl⟩

end Sys2Proof.Machine
end

