-- ==== Sys2Proof/Laws/Fields.lean ====
section
/-! SUPPORT. Register words and fields: a read after a write, bits beside those written, and words beside the word written;
units of slices, engines, generators and rings; and what a lifted command answers. -/

namespace Sys2Proof.Machine

/-! ## Bits of numbers -/

theorem getBits_lt (x lo w : Nat) : getBits x lo w < 2 ^ w := Nat.mod_lt _ (Nat.two_pow_pos w)

/-- Bit `i` of a field is bit `lo + i` of the number. -/
theorem getBits_testBit (x lo w i : Nat) : (getBits x lo w).testBit i = (decide (i < w) && x.testBit (lo + i)) := by
  simp [getBits, Nat.testBit_mod_two_pow, Nat.testBit_div_two_pow, Nat.add_comm]

/-- Splitting a number at a field. -/
theorem putBits_eq (x lo w v : Nat) :
    putBits x lo w v = x % 2 ^ lo + 2 ^ lo * (v % 2 ^ w + 2 ^ w * (x / 2 ^ lo / 2 ^ w)) := by
  have h1 := Nat.div_add_mod x (2 ^ lo)
  have h2 := Nat.div_add_mod (x / 2 ^ lo) (2 ^ w)
  have e1 : getBits x lo w = x / 2 ^ lo % 2 ^ w := (rfl)
  unfold putBits
  rw [e1]
  generalize hq : x / 2 ^ lo = q at *
  generalize hr : x % 2 ^ lo = r at *
  generalize hm : q % 2 ^ w = m at *
  generalize hd : q / 2 ^ w = d at *
  have h3 : x = r + 2 ^ lo * m + 2 ^ lo * (2 ^ w * d) := by rw [← h1, ← h2]; ring
  have h4 : x - m * 2 ^ lo = r + 2 ^ lo * (2 ^ w * d) := by rw [h3, Nat.mul_comm m]; omega
  rw [h4]; ring

/-- Every bit of a number after a field is put into it. -/
theorem putBits_testBit (x lo w v i : Nat) :
    (putBits x lo w v).testBit i = if lo ≤ i ∧ i < lo + w then v.testBit (i - lo) else x.testBit i := by
  rw [putBits_eq, Nat.add_comm (x % _), Nat.testBit_two_pow_mul_add _ (Nat.mod_lt _ (Nat.two_pow_pos lo))]
  by_cases h : i < lo
  · simp [h, Nat.testBit_mod_two_pow, show ¬ lo ≤ i by omega]
  · rw [if_neg h, Nat.add_comm (v % _), Nat.testBit_two_pow_mul_add _ (Nat.mod_lt _ (Nat.two_pow_pos w))]
    by_cases k : i - lo < w
    · simp [k, show lo ≤ i by omega, show i < lo + w by omega, Nat.testBit_mod_two_pow]
    · simp only [k, if_false, Nat.testBit_div_two_pow, show ¬ (lo ≤ i ∧ i < lo + w) by omega]
      congr 1; omega

/-- A field read from the place it was put. -/
theorem getBits_putBits_same (x lo w v : Nat) : getBits (putBits x lo w v) lo w = v % 2 ^ w := by
  apply Nat.eq_of_testBit_eq
  intro i
  rw [getBits_testBit, putBits_testBit, Nat.testBit_mod_two_pow]
  by_cases h : i < w <;> simp [h]

/-- A field beside the place one was put. -/
theorem getBits_putBits_other (x lo w v lo' w' : Nat) (h : lo' + w' ≤ lo ∨ lo + w ≤ lo') :
    getBits (putBits x lo w v) lo' w' = getBits x lo' w' := by
  apply Nat.eq_of_testBit_eq
  intro i
  rw [getBits_testBit, getBits_testBit, putBits_testBit]
  by_cases k : i < w'
  · rw [if_neg (by omega)]
  · simp [k]

theorem putBits_lt (x lo w v n : Nat) (hx : x < 2 ^ n) (h : lo + w ≤ n) : putBits x lo w v < 2 ^ n := by
  apply Nat.lt_pow_two_of_testBit
  intro i hi
  rw [putBits_testBit, if_neg (by omega)]
  exact Nat.testBit_lt_two_pow (Nat.lt_of_lt_of_le hx (Nat.pow_le_pow_right (by omega) hi))

/-! ## Register words -/

@[simp] theorem Dev.rd_wr_same (s : Dev) (a : Nat) (v : Word) : (s.wr a v).rd a = v := Store.get_set_same _ _ _ _

theorem Dev.rd_wr_other (s : Dev) (a b : Nat) (v : Word) (h : a ≠ b) : (s.wr a v).rd b = s.rd b :=
  Store.get_set_other _ _ _ _ _ _ h

theorem Dev.rd_wr (s : Dev) (a b : Nat) (v : Word) : (s.wr a v).rd b = if a = b then v else s.rd b := by
  by_cases h : a = b
  · subst h; simp
  · rw [if_neg h, Dev.rd_wr_other _ _ _ _ h]

/-! ## Fields -/

/-- A field reads as it was set, modulo its width. -/
theorem Dev.fld_setFld_same (s : Dev) (b : Nat) (f : Fld) (v : Nat) (h : f.lo + f.w ≤ 32) :
    (s.setFld b f v).fld b f = v % 2 ^ f.w := by
  unfold Dev.fld Dev.setFld
  rw [Dev.rd_wr_same, BitVec.toNat_ofNat, Nat.mod_eq_of_lt (putBits_lt _ _ _ _ _ (BitVec.isLt _) h), getBits_putBits_same]

/-- A field of another word is not touched. -/
theorem Dev.fld_setFld_word (s : Dev) (b b' : Nat) (f f' : Fld) (v : Nat) (h : b + f.off ≠ b' + f'.off) :
    (s.setFld b f v).fld b' f' = s.fld b' f' := by
  unfold Dev.fld Dev.setFld
  rw [Dev.rd_wr_other _ _ _ _ h]

/-- A field of the same word beside the one set is not touched. -/
theorem Dev.fld_setFld_bits (s : Dev) (b b' : Nat) (f f' : Fld) (v : Nat) (h : b + f.off = b' + f'.off)
    (hw : f.lo + f.w ≤ 32) (hd : f'.lo + f'.w ≤ f.lo ∨ f.lo + f.w ≤ f'.lo) : (s.setFld b f v).fld b' f' = s.fld b' f' := by
  unfold Dev.fld Dev.setFld
  rw [h, Dev.rd_wr_same, BitVec.toNat_ofNat, Nat.mod_eq_of_lt (putBits_lt _ _ _ _ _ (BitVec.isLt _) hw),
    getBits_putBits_other _ _ _ _ _ _ hd]

theorem Dev.rd_setFld_other (s : Dev) (b : Nat) (f : Fld) (v a : Nat) (h : b + f.off ≠ a) :
    (s.setFld b f v).rd a = s.rd a := Dev.rd_wr_other _ _ _ _ h

/-- A flag reads as it was set. -/
theorem Dev.flag_setFlag_same (s : Dev) (b : Nat) (f : Fld) (v : Bool) (h : f.lo + f.w ≤ 32) (hw : f.w = 1) :
    (s.setFlag b f v).flag b f = v := by
  unfold Dev.flag Dev.setFlag
  rw [Dev.fld_setFld_same _ _ _ _ h, hw]
  cases v <;> rfl

theorem Dev.flag_setFlag_word (s : Dev) (b b' : Nat) (f f' : Fld) (v : Bool) (h : b + f.off ≠ b' + f'.off) :
    (s.setFlag b f v).flag b' f' = s.flag b' f' := by
  unfold Dev.flag Dev.setFlag
  rw [Dev.fld_setFld_word _ _ _ _ _ _ h]

theorem Dev.flag_setFlag_bits (s : Dev) (b b' : Nat) (f f' : Fld) (v : Bool) (h : b + f.off = b' + f'.off)
    (hw : f.lo + f.w ≤ 32) (hd : f'.lo + f'.w ≤ f.lo ∨ f.lo + f.w ≤ f'.lo) : (s.setFlag b f v).flag b' f' = s.flag b' f' := by
  unfold Dev.flag Dev.setFlag
  rw [Dev.fld_setFld_bits _ _ _ _ _ _ h hw hd]

theorem Dev.flag_setFld_word (s : Dev) (b b' : Nat) (f f' : Fld) (v : Nat) (h : b + f.off ≠ b' + f'.off) :
    (s.setFld b f v).flag b' f' = s.flag b' f' := by
  unfold Dev.flag
  rw [Dev.fld_setFld_word _ _ _ _ _ _ h]

theorem Dev.fld_setFlag_word (s : Dev) (b b' : Nat) (f f' : Fld) (v : Bool) (h : b + f.off ≠ b' + f'.off) :
    (s.setFlag b f v).fld b' f' = s.fld b' f' := Dev.fld_setFld_word _ _ _ _ _ _ h

/-! ## Bytes -/

@[simp] theorem Dev.byte_setByte_same (s : Dev) (a : Nat) (v : Byte) : (s.setByte a v).byte a = v :=
  Store.get_set_same _ _ _ _

theorem Dev.byte_setByte_other (s : Dev) (a b : Nat) (v : Byte) (h : a ≠ b) : (s.setByte a v).byte b = s.byte b :=
  Store.get_set_other _ _ _ _ _ _ h

/-- A byte outside a write of several bytes is not touched; the i-th byte of it reads as written. -/
theorem Dev.byte_setBytes (l : List Byte) (s : Dev) (a b : Nat) :
    (s.setBytes a l).byte b = if a ≤ b ∧ b < a + l.length then l.getD (b - a) 0 else s.byte b := by
  induction l generalizing s a with
  | nil => rw [if_neg (by simp only [List.length_nil]; omega)]; rfl
  | cons x l ih =>
    unfold Dev.setBytes
    rw [ih]
    by_cases h : a + 1 ≤ b ∧ b < a + 1 + l.length
    · rw [if_pos h, if_pos (by simp only [List.length_cons]; omega)]
      obtain ⟨k, rfl⟩ : ∃ k, b = a + 1 + k := ⟨b - (a + 1), by omega⟩
      simp [show a + 1 + k - a = k + 1 by omega]
    · rw [if_neg h]
      by_cases e : a = b
      · subst e; simp
      · rw [Dev.byte_setByte_other _ _ _ _ e, if_neg (by simp only [List.length_cons]; omega)]

/-! ## Units -/

theorem vector_get_set {α : Type} {n : Nat} (v : Vector α n) (i j : Fin n) (x : α) :
    (v.set i.val x i.isLt).get j = if i = j then x else v.get j := by
  have h : ∀ (w : Vector α n) (k : Fin n), w.get k = w[k.val] := fun _ _ => rfl
  rw [h, h, Vector.getElem_set]
  simp [Fin.ext_iff]

@[simp] theorem Dev.sl_modSl_same (s : Dev) (n : SliceId) (f : Slice → Slice) : (s.modSl n f).sl n = f (s.sl n) := by
  simp [Dev.sl, Dev.modSl, Dev.setSl, vector_get_set]

theorem Dev.sl_modSl_other (s : Dev) (n m : SliceId) (f : Slice → Slice) (h : n ≠ m) : (s.modSl n f).sl m = s.sl m := by
  simp [Dev.sl, Dev.modSl, Dev.setSl, vector_get_set, h]

@[simp] theorem Dev.eng_modEng_same (s : Dev) (g : GroupId) (f : Engine → Engine) : (s.modEng g f).eng g = f (s.eng g) := by
  simp [Dev.eng, Dev.modEng, vector_get_set]

theorem Dev.eng_modEng_other (s : Dev) (g k : GroupId) (f : Engine → Engine) (h : g ≠ k) : (s.modEng g f).eng k = s.eng k := by
  simp [Dev.eng, Dev.modEng, vector_get_set, h]

@[simp] theorem Dev.gen_modGen_same (s : Dev) (n : SliceId) (f : Gen → Gen) : (s.modGen n f).gen n = f (s.gen n) := by
  simp [Dev.gen, Dev.modGen, vector_get_set]

@[simp] theorem Dev.ring_modRing_same (s : Dev) (r : RingId) (f : Ring → Ring) : (s.modRing r f).ring r = f (s.ring r) := by
  simp [Dev.ring, Dev.modRing, vector_get_set]

@[simp] theorem Dev.chan_modChan_same (s : Dev) (c : RingId) (f : Chan → Chan) : (s.modChan c f).chan c = f (s.chan c) := by
  simp [Dev.chan, Dev.modChan, vector_get_set]

@[simp] theorem Dev.port_modPort_same (s : Dev) (p : PortId) (f : Port → Port) : (s.modPort p f).port p = f (s.port p) := by
  simp [Dev.port, Dev.modPort, vector_get_set]

/-! ## Lifted commands -/

@[simp] theorem State.withDev_toDev (s : State) (d : Dev) : (s.withDev d).toDev = d := (rfl)
@[simp] theorem State.withDev_fuses (s : State) (d : Dev) : (s.withDev d).fuses = s.fuses := (rfl)
@[simp] theorem State.withDev_pending (s : State) (d : Dev) : (s.withDev d).pending = s.pending := (rfl)

/-- A lifted change answers a next state, the device changed and the rest of the block as it was. -/
theorem State.on_eq (s : State) (f : Dev → Dev) : s.on f = .next (s.withDev (f s.toDev)) := (rfl)

/-- With RESET_N high and no freeze in force a lifted event has its effect. -/
theorem State.onAwake_of_awake (s : State) (f : Dev → Dev) (h : s.awake = true) :
    s.onAwake f = .next (s.withDev (f s.toDev)) := by
  simp [State.onAwake, State.on, h, State.withDev]

/-- With RESET_N low or in freeze it does nothing. -/
theorem State.onAwake_of_not_awake (s : State) (f : Dev → Dev) (h : s.awake = false) : s.onAwake f = .next s := by
  simp [State.onAwake, State.on, h]

end Sys2Proof.Machine
end

