-- ==== Sys2Proof/Laws/Time.lean ====
section
/-! SUPPORT. The passing of cycles: what it moves, and everything it leaves as it was. -/

namespace Sys2Proof.Machine

@[simp] theorem Dev.pass_freeCtr (s : Dev) (k : Nat) : (s.pass k).freeCtr = s.freeCtr := by unfold Dev.pass; split <;> rfl
@[simp] theorem Dev.pass_regs (s : Dev) (k : Nat) : (s.pass k).regs = s.regs := by unfold Dev.pass; split <;> rfl
@[simp] theorem Dev.pass_mem (s : Dev) (k : Nat) : (s.pass k).mem = s.mem := by unfold Dev.pass; split <;> rfl
@[simp] theorem Dev.pass_nvm (s : Dev) (k : Nat) : (s.pass k).nvm = s.nvm := by unfold Dev.pass; split <;> rfl
@[simp] theorem Dev.pass_slices (s : Dev) (k : Nat) : (s.pass k).slices = s.slices := by unfold Dev.pass; split <;> rfl
@[simp] theorem Dev.pass_gens (s : Dev) (k : Nat) : (s.pass k).gens = s.gens := by unfold Dev.pass; split <;> rfl
@[simp] theorem Dev.pass_lanes (s : Dev) (k : Nat) : (s.pass k).lanes = s.lanes := by unfold Dev.pass; split <;> rfl
@[simp] theorem Dev.pass_engines (s : Dev) (k : Nat) : (s.pass k).engines = s.engines := by unfold Dev.pass; split <;> rfl
@[simp] theorem Dev.pass_rings (s : Dev) (k : Nat) : (s.pass k).rings = s.rings := by unfold Dev.pass; split <;> rfl
@[simp] theorem Dev.pass_chans (s : Dev) (k : Nat) : (s.pass k).chans = s.chans := by unfold Dev.pass; split <;> rfl
@[simp] theorem Dev.pass_vects (s : Dev) (k : Nat) : (s.pass k).vects = s.vects := by unfold Dev.pass; split <;> rfl
@[simp] theorem Dev.pass_sched (s : Dev) (k : Nat) : (s.pass k).sched = s.sched := by unfold Dev.pass; split <;> rfl
@[simp] theorem Dev.pass_col (s : Dev) (k : Nat) : (s.pass k).col = s.col := by unfold Dev.pass; split <;> rfl
@[simp] theorem Dev.pass_plates (s : Dev) (k : Nat) : (s.pass k).plates = s.plates := by unfold Dev.pass; split <;> rfl
@[simp] theorem Dev.pass_boot (s : Dev) (k : Nat) : (s.pass k).boot = s.boot := by unfold Dev.pass; split <;> rfl
@[simp] theorem Dev.pass_pins (s : Dev) (k : Nat) : (s.pass k).pins = s.pins := by unfold Dev.pass; split <;> rfl
@[simp] theorem Dev.pass_mer (s : Dev) (k : Nat) : (s.pass k).mer = s.mer := by unfold Dev.pass; split <;> rfl
@[simp] theorem Dev.pass_clk (s : Dev) (k : Nat) : (s.pass k).clk = s.clk := by unfold Dev.pass; split <;> rfl
@[simp] theorem Dev.pass_memst (s : Dev) (k : Nat) : (s.pass k).memst = s.memst := by unfold Dev.pass; split <;> rfl
@[simp] theorem Dev.pass_mons (s : Dev) (k : Nat) : (s.pass k).mons = s.mons := by unfold Dev.pass; split <;> rfl
@[simp] theorem Dev.pass_datum (s : Dev) (k : Nat) : (s.pass k).datum = s.datum := by unfold Dev.pass; split <;> rfl
@[simp] theorem Dev.pass_link (s : Dev) (k : Nat) : (s.pass k).link = s.link := by unfold Dev.pass; split <;> rfl
@[simp] theorem Dev.pass_cfg (s : Dev) (k : Nat) : (s.pass k).cfg = s.cfg := by unfold Dev.pass; split <;> rfl
@[simp] theorem Dev.pass_segs (s : Dev) (k : Nat) : (s.pass k).segs = s.segs := by unfold Dev.pass; split <;> rfl
@[simp] theorem Dev.pass_rowLast (s : Dev) (k : Nat) : (s.pass k).rowLast = s.rowLast := by unfold Dev.pass; split <;> rfl
@[simp] theorem Dev.pass_latches (s : Dev) (k : Nat) : (s.pass k).latches = s.latches := by unfold Dev.pass; split <;> rfl
@[simp] theorem Dev.pass_staged (s : Dev) (k : Nat) : (s.pass k).staged = s.staged := by unfold Dev.pass; split <;> rfl
@[simp] theorem Dev.pass_answer (s : Dev) (k : Nat) : (s.pass k).answer = s.answer := by unfold Dev.pass; split <;> rfl
@[simp] theorem Dev.pass_rd (s : Dev) (k : Nat) (x : Nat) : (s.pass k).rd x = s.rd x := by simp only [Dev.rd, Dev.pass_regs]
@[simp] theorem Dev.pass_fld (s : Dev) (k : Nat) (x : Nat) (y : Fld) : (s.pass k).fld x y = s.fld x y := by simp only [Dev.fld, Dev.rd, Dev.pass_regs]
@[simp] theorem Dev.pass_flag (s : Dev) (k : Nat) (x : Nat) (y : Fld) : (s.pass k).flag x y = s.flag x y := by simp only [Dev.flag, Dev.fld, Dev.rd, Dev.pass_regs]
@[simp] theorem Dev.pass_byte (s : Dev) (k : Nat) (x : Nat) : (s.pass k).byte x = s.byte x := by simp only [Dev.byte, Dev.pass_mem]
@[simp] theorem Dev.pass_sl (s : Dev) (k : Nat) (x : SliceId) : (s.pass k).sl x = s.sl x := by simp only [Dev.sl, Dev.pass_slices]
@[simp] theorem Dev.pass_eng (s : Dev) (k : Nat) (x : GroupId) : (s.pass k).eng x = s.eng x := by simp only [Dev.eng, Dev.pass_engines]
@[simp] theorem Dev.upTo_freeCtr (s : Dev) (k : Nat) : (s.upTo k).freeCtr = s.freeCtr := Dev.pass_freeCtr _ _
@[simp] theorem Dev.upTo_regs (s : Dev) (k : Nat) : (s.upTo k).regs = s.regs := Dev.pass_regs _ _
@[simp] theorem Dev.upTo_mem (s : Dev) (k : Nat) : (s.upTo k).mem = s.mem := Dev.pass_mem _ _
@[simp] theorem Dev.upTo_nvm (s : Dev) (k : Nat) : (s.upTo k).nvm = s.nvm := Dev.pass_nvm _ _
@[simp] theorem Dev.upTo_slices (s : Dev) (k : Nat) : (s.upTo k).slices = s.slices := Dev.pass_slices _ _
@[simp] theorem Dev.upTo_gens (s : Dev) (k : Nat) : (s.upTo k).gens = s.gens := Dev.pass_gens _ _
@[simp] theorem Dev.upTo_lanes (s : Dev) (k : Nat) : (s.upTo k).lanes = s.lanes := Dev.pass_lanes _ _
@[simp] theorem Dev.upTo_engines (s : Dev) (k : Nat) : (s.upTo k).engines = s.engines := Dev.pass_engines _ _
@[simp] theorem Dev.upTo_rings (s : Dev) (k : Nat) : (s.upTo k).rings = s.rings := Dev.pass_rings _ _
@[simp] theorem Dev.upTo_chans (s : Dev) (k : Nat) : (s.upTo k).chans = s.chans := Dev.pass_chans _ _
@[simp] theorem Dev.upTo_vects (s : Dev) (k : Nat) : (s.upTo k).vects = s.vects := Dev.pass_vects _ _
@[simp] theorem Dev.upTo_sched (s : Dev) (k : Nat) : (s.upTo k).sched = s.sched := Dev.pass_sched _ _
@[simp] theorem Dev.upTo_col (s : Dev) (k : Nat) : (s.upTo k).col = s.col := Dev.pass_col _ _
@[simp] theorem Dev.upTo_plates (s : Dev) (k : Nat) : (s.upTo k).plates = s.plates := Dev.pass_plates _ _
@[simp] theorem Dev.upTo_boot (s : Dev) (k : Nat) : (s.upTo k).boot = s.boot := Dev.pass_boot _ _
@[simp] theorem Dev.upTo_pins (s : Dev) (k : Nat) : (s.upTo k).pins = s.pins := Dev.pass_pins _ _
@[simp] theorem Dev.upTo_mer (s : Dev) (k : Nat) : (s.upTo k).mer = s.mer := Dev.pass_mer _ _
@[simp] theorem Dev.upTo_clk (s : Dev) (k : Nat) : (s.upTo k).clk = s.clk := Dev.pass_clk _ _
@[simp] theorem Dev.upTo_memst (s : Dev) (k : Nat) : (s.upTo k).memst = s.memst := Dev.pass_memst _ _
@[simp] theorem Dev.upTo_mons (s : Dev) (k : Nat) : (s.upTo k).mons = s.mons := Dev.pass_mons _ _
@[simp] theorem Dev.upTo_datum (s : Dev) (k : Nat) : (s.upTo k).datum = s.datum := Dev.pass_datum _ _
@[simp] theorem Dev.upTo_link (s : Dev) (k : Nat) : (s.upTo k).link = s.link := Dev.pass_link _ _
@[simp] theorem Dev.upTo_cfg (s : Dev) (k : Nat) : (s.upTo k).cfg = s.cfg := Dev.pass_cfg _ _
@[simp] theorem Dev.upTo_segs (s : Dev) (k : Nat) : (s.upTo k).segs = s.segs := Dev.pass_segs _ _
@[simp] theorem Dev.upTo_rowLast (s : Dev) (k : Nat) : (s.upTo k).rowLast = s.rowLast := Dev.pass_rowLast _ _
@[simp] theorem Dev.upTo_latches (s : Dev) (k : Nat) : (s.upTo k).latches = s.latches := Dev.pass_latches _ _
@[simp] theorem Dev.upTo_staged (s : Dev) (k : Nat) : (s.upTo k).staged = s.staged := Dev.pass_staged _ _
@[simp] theorem Dev.upTo_answer (s : Dev) (k : Nat) : (s.upTo k).answer = s.answer := Dev.pass_answer _ _
@[simp] theorem Dev.upTo_rd (s : Dev) (k : Nat) (x : Nat) : (s.upTo k).rd x = s.rd x := by simp only [Dev.rd, Dev.upTo_regs]
@[simp] theorem Dev.upTo_fld (s : Dev) (k : Nat) (x : Nat) (y : Fld) : (s.upTo k).fld x y = s.fld x y := by simp only [Dev.fld, Dev.rd, Dev.upTo_regs]
@[simp] theorem Dev.upTo_flag (s : Dev) (k : Nat) (x : Nat) (y : Fld) : (s.upTo k).flag x y = s.flag x y := by simp only [Dev.flag, Dev.fld, Dev.rd, Dev.upTo_regs]
@[simp] theorem Dev.upTo_byte (s : Dev) (k : Nat) (x : Nat) : (s.upTo k).byte x = s.byte x := by simp only [Dev.byte, Dev.upTo_mem]
@[simp] theorem Dev.upTo_sl (s : Dev) (k : Nat) (x : SliceId) : (s.upTo k).sl x = s.sl x := by simp only [Dev.sl, Dev.upTo_slices]
@[simp] theorem Dev.upTo_eng (s : Dev) (k : Nat) (x : GroupId) : (s.upTo k).eng x = s.eng x := by simp only [Dev.eng, Dev.upTo_engines]

/-- A device that is awake is not frozen. -/
theorem Dev.frozen_of_awake (s : Dev) (h : s.awake = true) : s.frz.frozen = false := by
  simp [Dev.awake] at h; exact h.2

/-- Time runs on to a later cycle, and never back. -/
theorem Dev.upTo_now (s : Dev) (c : Nat) (h : s.awake = true) : (s.upTo c).now = max s.now c := by
  have f := s.frozen_of_awake h
  unfold Dev.upTo Dev.pass
  simp [f]
  omega

@[simp] theorem Dev.pass_awake (s : Dev) (k : Nat) : (s.pass k).awake = s.awake := by
  unfold Dev.pass Dev.awake; split <;> rfl
@[simp] theorem Dev.upTo_awake (s : Dev) (k : Nat) : (s.upTo k).awake = s.awake := Dev.pass_awake _ _

end Sys2Proof.Machine
end

