-- ==== Sys2Proof/Laws/Mods.lean ====
section
/-! SUPPORT. What the further named updates leave as it was: one lemma per field per update. -/

namespace Sys2Proof.Machine

/-! ## modBoot -/

@[simp] theorem Dev.modBoot_now (s : Dev) (f : Boot → Boot) : (s.modBoot f).now = s.now := (rfl)
@[simp] theorem Dev.modBoot_time (s : Dev) (f : Boot → Boot) : (s.modBoot f).time = s.time := (rfl)
@[simp] theorem Dev.modBoot_freeCtr (s : Dev) (f : Boot → Boot) : (s.modBoot f).freeCtr = s.freeCtr := (rfl)
@[simp] theorem Dev.modBoot_regs (s : Dev) (f : Boot → Boot) : (s.modBoot f).regs = s.regs := (rfl)
@[simp] theorem Dev.modBoot_mem (s : Dev) (f : Boot → Boot) : (s.modBoot f).mem = s.mem := (rfl)
@[simp] theorem Dev.modBoot_nvm (s : Dev) (f : Boot → Boot) : (s.modBoot f).nvm = s.nvm := (rfl)
@[simp] theorem Dev.modBoot_slices (s : Dev) (f : Boot → Boot) : (s.modBoot f).slices = s.slices := (rfl)
@[simp] theorem Dev.modBoot_gens (s : Dev) (f : Boot → Boot) : (s.modBoot f).gens = s.gens := (rfl)
@[simp] theorem Dev.modBoot_lanes (s : Dev) (f : Boot → Boot) : (s.modBoot f).lanes = s.lanes := (rfl)
@[simp] theorem Dev.modBoot_engines (s : Dev) (f : Boot → Boot) : (s.modBoot f).engines = s.engines := (rfl)
@[simp] theorem Dev.modBoot_rings (s : Dev) (f : Boot → Boot) : (s.modBoot f).rings = s.rings := (rfl)
@[simp] theorem Dev.modBoot_chans (s : Dev) (f : Boot → Boot) : (s.modBoot f).chans = s.chans := (rfl)
@[simp] theorem Dev.modBoot_vects (s : Dev) (f : Boot → Boot) : (s.modBoot f).vects = s.vects := (rfl)
@[simp] theorem Dev.modBoot_sched (s : Dev) (f : Boot → Boot) : (s.modBoot f).sched = s.sched := (rfl)
@[simp] theorem Dev.modBoot_col (s : Dev) (f : Boot → Boot) : (s.modBoot f).col = s.col := (rfl)
@[simp] theorem Dev.modBoot_plates (s : Dev) (f : Boot → Boot) : (s.modBoot f).plates = s.plates := (rfl)
@[simp] theorem Dev.modBoot_pins (s : Dev) (f : Boot → Boot) : (s.modBoot f).pins = s.pins := (rfl)
@[simp] theorem Dev.modBoot_mer (s : Dev) (f : Boot → Boot) : (s.modBoot f).mer = s.mer := (rfl)
@[simp] theorem Dev.modBoot_clk (s : Dev) (f : Boot → Boot) : (s.modBoot f).clk = s.clk := (rfl)
@[simp] theorem Dev.modBoot_memst (s : Dev) (f : Boot → Boot) : (s.modBoot f).memst = s.memst := (rfl)
@[simp] theorem Dev.modBoot_mons (s : Dev) (f : Boot → Boot) : (s.modBoot f).mons = s.mons := (rfl)
@[simp] theorem Dev.modBoot_datum (s : Dev) (f : Boot → Boot) : (s.modBoot f).datum = s.datum := (rfl)
@[simp] theorem Dev.modBoot_link (s : Dev) (f : Boot → Boot) : (s.modBoot f).link = s.link := (rfl)
@[simp] theorem Dev.modBoot_frz (s : Dev) (f : Boot → Boot) : (s.modBoot f).frz = s.frz := (rfl)
@[simp] theorem Dev.modBoot_cfg (s : Dev) (f : Boot → Boot) : (s.modBoot f).cfg = s.cfg := (rfl)
@[simp] theorem Dev.modBoot_segs (s : Dev) (f : Boot → Boot) : (s.modBoot f).segs = s.segs := (rfl)
@[simp] theorem Dev.modBoot_rowLast (s : Dev) (f : Boot → Boot) : (s.modBoot f).rowLast = s.rowLast := (rfl)
@[simp] theorem Dev.modBoot_latches (s : Dev) (f : Boot → Boot) : (s.modBoot f).latches = s.latches := (rfl)
@[simp] theorem Dev.modBoot_staged (s : Dev) (f : Boot → Boot) : (s.modBoot f).staged = s.staged := (rfl)
@[simp] theorem Dev.modBoot_answer (s : Dev) (f : Boot → Boot) : (s.modBoot f).answer = s.answer := (rfl)
@[simp] theorem Dev.modBoot_rd (s : Dev) (f : Boot → Boot) (x : Nat) : (s.modBoot f).rd x = s.rd x := (rfl)
@[simp] theorem Dev.modBoot_fld (s : Dev) (f : Boot → Boot) (x : Nat) (y : Fld) : (s.modBoot f).fld x y = s.fld x y := (rfl)
@[simp] theorem Dev.modBoot_flag (s : Dev) (f : Boot → Boot) (x : Nat) (y : Fld) : (s.modBoot f).flag x y = s.flag x y := (rfl)
@[simp] theorem Dev.modBoot_byte (s : Dev) (f : Boot → Boot) (y : Nat) : (s.modBoot f).byte y = s.byte y := (rfl)
@[simp] theorem Dev.modBoot_sl (s : Dev) (f : Boot → Boot) (y : SliceId) : (s.modBoot f).sl y = s.sl y := (rfl)
@[simp] theorem Dev.modBoot_eng (s : Dev) (f : Boot → Boot) (y : GroupId) : (s.modBoot f).eng y = s.eng y := (rfl)
@[simp] theorem Dev.modBoot_boot (s : Dev) (f : Boot → Boot) : (s.modBoot f).boot = f s.boot := (rfl)

/-! ## modPins -/

@[simp] theorem Dev.modPins_now (s : Dev) (f : Pins → Pins) : (s.modPins f).now = s.now := (rfl)
@[simp] theorem Dev.modPins_time (s : Dev) (f : Pins → Pins) : (s.modPins f).time = s.time := (rfl)
@[simp] theorem Dev.modPins_freeCtr (s : Dev) (f : Pins → Pins) : (s.modPins f).freeCtr = s.freeCtr := (rfl)
@[simp] theorem Dev.modPins_regs (s : Dev) (f : Pins → Pins) : (s.modPins f).regs = s.regs := (rfl)
@[simp] theorem Dev.modPins_mem (s : Dev) (f : Pins → Pins) : (s.modPins f).mem = s.mem := (rfl)
@[simp] theorem Dev.modPins_nvm (s : Dev) (f : Pins → Pins) : (s.modPins f).nvm = s.nvm := (rfl)
@[simp] theorem Dev.modPins_slices (s : Dev) (f : Pins → Pins) : (s.modPins f).slices = s.slices := (rfl)
@[simp] theorem Dev.modPins_gens (s : Dev) (f : Pins → Pins) : (s.modPins f).gens = s.gens := (rfl)
@[simp] theorem Dev.modPins_lanes (s : Dev) (f : Pins → Pins) : (s.modPins f).lanes = s.lanes := (rfl)
@[simp] theorem Dev.modPins_engines (s : Dev) (f : Pins → Pins) : (s.modPins f).engines = s.engines := (rfl)
@[simp] theorem Dev.modPins_rings (s : Dev) (f : Pins → Pins) : (s.modPins f).rings = s.rings := (rfl)
@[simp] theorem Dev.modPins_chans (s : Dev) (f : Pins → Pins) : (s.modPins f).chans = s.chans := (rfl)
@[simp] theorem Dev.modPins_vects (s : Dev) (f : Pins → Pins) : (s.modPins f).vects = s.vects := (rfl)
@[simp] theorem Dev.modPins_sched (s : Dev) (f : Pins → Pins) : (s.modPins f).sched = s.sched := (rfl)
@[simp] theorem Dev.modPins_col (s : Dev) (f : Pins → Pins) : (s.modPins f).col = s.col := (rfl)
@[simp] theorem Dev.modPins_plates (s : Dev) (f : Pins → Pins) : (s.modPins f).plates = s.plates := (rfl)
@[simp] theorem Dev.modPins_boot (s : Dev) (f : Pins → Pins) : (s.modPins f).boot = s.boot := (rfl)
@[simp] theorem Dev.modPins_mer (s : Dev) (f : Pins → Pins) : (s.modPins f).mer = s.mer := (rfl)
@[simp] theorem Dev.modPins_clk (s : Dev) (f : Pins → Pins) : (s.modPins f).clk = s.clk := (rfl)
@[simp] theorem Dev.modPins_memst (s : Dev) (f : Pins → Pins) : (s.modPins f).memst = s.memst := (rfl)
@[simp] theorem Dev.modPins_mons (s : Dev) (f : Pins → Pins) : (s.modPins f).mons = s.mons := (rfl)
@[simp] theorem Dev.modPins_datum (s : Dev) (f : Pins → Pins) : (s.modPins f).datum = s.datum := (rfl)
@[simp] theorem Dev.modPins_link (s : Dev) (f : Pins → Pins) : (s.modPins f).link = s.link := (rfl)
@[simp] theorem Dev.modPins_frz (s : Dev) (f : Pins → Pins) : (s.modPins f).frz = s.frz := (rfl)
@[simp] theorem Dev.modPins_cfg (s : Dev) (f : Pins → Pins) : (s.modPins f).cfg = s.cfg := (rfl)
@[simp] theorem Dev.modPins_segs (s : Dev) (f : Pins → Pins) : (s.modPins f).segs = s.segs := (rfl)
@[simp] theorem Dev.modPins_rowLast (s : Dev) (f : Pins → Pins) : (s.modPins f).rowLast = s.rowLast := (rfl)
@[simp] theorem Dev.modPins_latches (s : Dev) (f : Pins → Pins) : (s.modPins f).latches = s.latches := (rfl)
@[simp] theorem Dev.modPins_staged (s : Dev) (f : Pins → Pins) : (s.modPins f).staged = s.staged := (rfl)
@[simp] theorem Dev.modPins_answer (s : Dev) (f : Pins → Pins) : (s.modPins f).answer = s.answer := (rfl)
@[simp] theorem Dev.modPins_rd (s : Dev) (f : Pins → Pins) (x : Nat) : (s.modPins f).rd x = s.rd x := (rfl)
@[simp] theorem Dev.modPins_fld (s : Dev) (f : Pins → Pins) (x : Nat) (y : Fld) : (s.modPins f).fld x y = s.fld x y := (rfl)
@[simp] theorem Dev.modPins_flag (s : Dev) (f : Pins → Pins) (x : Nat) (y : Fld) : (s.modPins f).flag x y = s.flag x y := (rfl)
@[simp] theorem Dev.modPins_byte (s : Dev) (f : Pins → Pins) (y : Nat) : (s.modPins f).byte y = s.byte y := (rfl)
@[simp] theorem Dev.modPins_sl (s : Dev) (f : Pins → Pins) (y : SliceId) : (s.modPins f).sl y = s.sl y := (rfl)
@[simp] theorem Dev.modPins_eng (s : Dev) (f : Pins → Pins) (y : GroupId) : (s.modPins f).eng y = s.eng y := (rfl)
@[simp] theorem Dev.modPins_pins (s : Dev) (f : Pins → Pins) : (s.modPins f).pins = f s.pins := (rfl)

/-! ## modMer -/

@[simp] theorem Dev.modMer_now (s : Dev) (f : Mer → Mer) : (s.modMer f).now = s.now := (rfl)
@[simp] theorem Dev.modMer_time (s : Dev) (f : Mer → Mer) : (s.modMer f).time = s.time := (rfl)
@[simp] theorem Dev.modMer_freeCtr (s : Dev) (f : Mer → Mer) : (s.modMer f).freeCtr = s.freeCtr := (rfl)
@[simp] theorem Dev.modMer_regs (s : Dev) (f : Mer → Mer) : (s.modMer f).regs = s.regs := (rfl)
@[simp] theorem Dev.modMer_mem (s : Dev) (f : Mer → Mer) : (s.modMer f).mem = s.mem := (rfl)
@[simp] theorem Dev.modMer_nvm (s : Dev) (f : Mer → Mer) : (s.modMer f).nvm = s.nvm := (rfl)
@[simp] theorem Dev.modMer_slices (s : Dev) (f : Mer → Mer) : (s.modMer f).slices = s.slices := (rfl)
@[simp] theorem Dev.modMer_gens (s : Dev) (f : Mer → Mer) : (s.modMer f).gens = s.gens := (rfl)
@[simp] theorem Dev.modMer_lanes (s : Dev) (f : Mer → Mer) : (s.modMer f).lanes = s.lanes := (rfl)
@[simp] theorem Dev.modMer_engines (s : Dev) (f : Mer → Mer) : (s.modMer f).engines = s.engines := (rfl)
@[simp] theorem Dev.modMer_rings (s : Dev) (f : Mer → Mer) : (s.modMer f).rings = s.rings := (rfl)
@[simp] theorem Dev.modMer_chans (s : Dev) (f : Mer → Mer) : (s.modMer f).chans = s.chans := (rfl)
@[simp] theorem Dev.modMer_vects (s : Dev) (f : Mer → Mer) : (s.modMer f).vects = s.vects := (rfl)
@[simp] theorem Dev.modMer_sched (s : Dev) (f : Mer → Mer) : (s.modMer f).sched = s.sched := (rfl)
@[simp] theorem Dev.modMer_col (s : Dev) (f : Mer → Mer) : (s.modMer f).col = s.col := (rfl)
@[simp] theorem Dev.modMer_plates (s : Dev) (f : Mer → Mer) : (s.modMer f).plates = s.plates := (rfl)
@[simp] theorem Dev.modMer_boot (s : Dev) (f : Mer → Mer) : (s.modMer f).boot = s.boot := (rfl)
@[simp] theorem Dev.modMer_pins (s : Dev) (f : Mer → Mer) : (s.modMer f).pins = s.pins := (rfl)
@[simp] theorem Dev.modMer_clk (s : Dev) (f : Mer → Mer) : (s.modMer f).clk = s.clk := (rfl)
@[simp] theorem Dev.modMer_memst (s : Dev) (f : Mer → Mer) : (s.modMer f).memst = s.memst := (rfl)
@[simp] theorem Dev.modMer_mons (s : Dev) (f : Mer → Mer) : (s.modMer f).mons = s.mons := (rfl)
@[simp] theorem Dev.modMer_datum (s : Dev) (f : Mer → Mer) : (s.modMer f).datum = s.datum := (rfl)
@[simp] theorem Dev.modMer_link (s : Dev) (f : Mer → Mer) : (s.modMer f).link = s.link := (rfl)
@[simp] theorem Dev.modMer_frz (s : Dev) (f : Mer → Mer) : (s.modMer f).frz = s.frz := (rfl)
@[simp] theorem Dev.modMer_cfg (s : Dev) (f : Mer → Mer) : (s.modMer f).cfg = s.cfg := (rfl)
@[simp] theorem Dev.modMer_segs (s : Dev) (f : Mer → Mer) : (s.modMer f).segs = s.segs := (rfl)
@[simp] theorem Dev.modMer_rowLast (s : Dev) (f : Mer → Mer) : (s.modMer f).rowLast = s.rowLast := (rfl)
@[simp] theorem Dev.modMer_latches (s : Dev) (f : Mer → Mer) : (s.modMer f).latches = s.latches := (rfl)
@[simp] theorem Dev.modMer_staged (s : Dev) (f : Mer → Mer) : (s.modMer f).staged = s.staged := (rfl)
@[simp] theorem Dev.modMer_answer (s : Dev) (f : Mer → Mer) : (s.modMer f).answer = s.answer := (rfl)
@[simp] theorem Dev.modMer_rd (s : Dev) (f : Mer → Mer) (x : Nat) : (s.modMer f).rd x = s.rd x := (rfl)
@[simp] theorem Dev.modMer_fld (s : Dev) (f : Mer → Mer) (x : Nat) (y : Fld) : (s.modMer f).fld x y = s.fld x y := (rfl)
@[simp] theorem Dev.modMer_flag (s : Dev) (f : Mer → Mer) (x : Nat) (y : Fld) : (s.modMer f).flag x y = s.flag x y := (rfl)
@[simp] theorem Dev.modMer_byte (s : Dev) (f : Mer → Mer) (y : Nat) : (s.modMer f).byte y = s.byte y := (rfl)
@[simp] theorem Dev.modMer_sl (s : Dev) (f : Mer → Mer) (y : SliceId) : (s.modMer f).sl y = s.sl y := (rfl)
@[simp] theorem Dev.modMer_eng (s : Dev) (f : Mer → Mer) (y : GroupId) : (s.modMer f).eng y = s.eng y := (rfl)
@[simp] theorem Dev.modMer_mer (s : Dev) (f : Mer → Mer) : (s.modMer f).mer = f s.mer := (rfl)

/-! ## modClk -/

@[simp] theorem Dev.modClk_now (s : Dev) (f : Clk → Clk) : (s.modClk f).now = s.now := (rfl)
@[simp] theorem Dev.modClk_time (s : Dev) (f : Clk → Clk) : (s.modClk f).time = s.time := (rfl)
@[simp] theorem Dev.modClk_freeCtr (s : Dev) (f : Clk → Clk) : (s.modClk f).freeCtr = s.freeCtr := (rfl)
@[simp] theorem Dev.modClk_regs (s : Dev) (f : Clk → Clk) : (s.modClk f).regs = s.regs := (rfl)
@[simp] theorem Dev.modClk_mem (s : Dev) (f : Clk → Clk) : (s.modClk f).mem = s.mem := (rfl)
@[simp] theorem Dev.modClk_nvm (s : Dev) (f : Clk → Clk) : (s.modClk f).nvm = s.nvm := (rfl)
@[simp] theorem Dev.modClk_slices (s : Dev) (f : Clk → Clk) : (s.modClk f).slices = s.slices := (rfl)
@[simp] theorem Dev.modClk_gens (s : Dev) (f : Clk → Clk) : (s.modClk f).gens = s.gens := (rfl)
@[simp] theorem Dev.modClk_lanes (s : Dev) (f : Clk → Clk) : (s.modClk f).lanes = s.lanes := (rfl)
@[simp] theorem Dev.modClk_engines (s : Dev) (f : Clk → Clk) : (s.modClk f).engines = s.engines := (rfl)
@[simp] theorem Dev.modClk_rings (s : Dev) (f : Clk → Clk) : (s.modClk f).rings = s.rings := (rfl)
@[simp] theorem Dev.modClk_chans (s : Dev) (f : Clk → Clk) : (s.modClk f).chans = s.chans := (rfl)
@[simp] theorem Dev.modClk_vects (s : Dev) (f : Clk → Clk) : (s.modClk f).vects = s.vects := (rfl)
@[simp] theorem Dev.modClk_sched (s : Dev) (f : Clk → Clk) : (s.modClk f).sched = s.sched := (rfl)
@[simp] theorem Dev.modClk_col (s : Dev) (f : Clk → Clk) : (s.modClk f).col = s.col := (rfl)
@[simp] theorem Dev.modClk_plates (s : Dev) (f : Clk → Clk) : (s.modClk f).plates = s.plates := (rfl)
@[simp] theorem Dev.modClk_boot (s : Dev) (f : Clk → Clk) : (s.modClk f).boot = s.boot := (rfl)
@[simp] theorem Dev.modClk_pins (s : Dev) (f : Clk → Clk) : (s.modClk f).pins = s.pins := (rfl)
@[simp] theorem Dev.modClk_mer (s : Dev) (f : Clk → Clk) : (s.modClk f).mer = s.mer := (rfl)
@[simp] theorem Dev.modClk_memst (s : Dev) (f : Clk → Clk) : (s.modClk f).memst = s.memst := (rfl)
@[simp] theorem Dev.modClk_mons (s : Dev) (f : Clk → Clk) : (s.modClk f).mons = s.mons := (rfl)
@[simp] theorem Dev.modClk_datum (s : Dev) (f : Clk → Clk) : (s.modClk f).datum = s.datum := (rfl)
@[simp] theorem Dev.modClk_link (s : Dev) (f : Clk → Clk) : (s.modClk f).link = s.link := (rfl)
@[simp] theorem Dev.modClk_frz (s : Dev) (f : Clk → Clk) : (s.modClk f).frz = s.frz := (rfl)
@[simp] theorem Dev.modClk_cfg (s : Dev) (f : Clk → Clk) : (s.modClk f).cfg = s.cfg := (rfl)
@[simp] theorem Dev.modClk_segs (s : Dev) (f : Clk → Clk) : (s.modClk f).segs = s.segs := (rfl)
@[simp] theorem Dev.modClk_rowLast (s : Dev) (f : Clk → Clk) : (s.modClk f).rowLast = s.rowLast := (rfl)
@[simp] theorem Dev.modClk_latches (s : Dev) (f : Clk → Clk) : (s.modClk f).latches = s.latches := (rfl)
@[simp] theorem Dev.modClk_staged (s : Dev) (f : Clk → Clk) : (s.modClk f).staged = s.staged := (rfl)
@[simp] theorem Dev.modClk_answer (s : Dev) (f : Clk → Clk) : (s.modClk f).answer = s.answer := (rfl)
@[simp] theorem Dev.modClk_rd (s : Dev) (f : Clk → Clk) (x : Nat) : (s.modClk f).rd x = s.rd x := (rfl)
@[simp] theorem Dev.modClk_fld (s : Dev) (f : Clk → Clk) (x : Nat) (y : Fld) : (s.modClk f).fld x y = s.fld x y := (rfl)
@[simp] theorem Dev.modClk_flag (s : Dev) (f : Clk → Clk) (x : Nat) (y : Fld) : (s.modClk f).flag x y = s.flag x y := (rfl)
@[simp] theorem Dev.modClk_byte (s : Dev) (f : Clk → Clk) (y : Nat) : (s.modClk f).byte y = s.byte y := (rfl)
@[simp] theorem Dev.modClk_sl (s : Dev) (f : Clk → Clk) (y : SliceId) : (s.modClk f).sl y = s.sl y := (rfl)
@[simp] theorem Dev.modClk_eng (s : Dev) (f : Clk → Clk) (y : GroupId) : (s.modClk f).eng y = s.eng y := (rfl)
@[simp] theorem Dev.modClk_clk (s : Dev) (f : Clk → Clk) : (s.modClk f).clk = f s.clk := (rfl)

/-! ## modFrz -/

@[simp] theorem Dev.modFrz_now (s : Dev) (f : Frz → Frz) : (s.modFrz f).now = s.now := (rfl)
@[simp] theorem Dev.modFrz_time (s : Dev) (f : Frz → Frz) : (s.modFrz f).time = s.time := (rfl)
@[simp] theorem Dev.modFrz_freeCtr (s : Dev) (f : Frz → Frz) : (s.modFrz f).freeCtr = s.freeCtr := (rfl)
@[simp] theorem Dev.modFrz_regs (s : Dev) (f : Frz → Frz) : (s.modFrz f).regs = s.regs := (rfl)
@[simp] theorem Dev.modFrz_mem (s : Dev) (f : Frz → Frz) : (s.modFrz f).mem = s.mem := (rfl)
@[simp] theorem Dev.modFrz_nvm (s : Dev) (f : Frz → Frz) : (s.modFrz f).nvm = s.nvm := (rfl)
@[simp] theorem Dev.modFrz_slices (s : Dev) (f : Frz → Frz) : (s.modFrz f).slices = s.slices := (rfl)
@[simp] theorem Dev.modFrz_gens (s : Dev) (f : Frz → Frz) : (s.modFrz f).gens = s.gens := (rfl)
@[simp] theorem Dev.modFrz_lanes (s : Dev) (f : Frz → Frz) : (s.modFrz f).lanes = s.lanes := (rfl)
@[simp] theorem Dev.modFrz_engines (s : Dev) (f : Frz → Frz) : (s.modFrz f).engines = s.engines := (rfl)
@[simp] theorem Dev.modFrz_rings (s : Dev) (f : Frz → Frz) : (s.modFrz f).rings = s.rings := (rfl)
@[simp] theorem Dev.modFrz_chans (s : Dev) (f : Frz → Frz) : (s.modFrz f).chans = s.chans := (rfl)
@[simp] theorem Dev.modFrz_vects (s : Dev) (f : Frz → Frz) : (s.modFrz f).vects = s.vects := (rfl)
@[simp] theorem Dev.modFrz_sched (s : Dev) (f : Frz → Frz) : (s.modFrz f).sched = s.sched := (rfl)
@[simp] theorem Dev.modFrz_col (s : Dev) (f : Frz → Frz) : (s.modFrz f).col = s.col := (rfl)
@[simp] theorem Dev.modFrz_plates (s : Dev) (f : Frz → Frz) : (s.modFrz f).plates = s.plates := (rfl)
@[simp] theorem Dev.modFrz_boot (s : Dev) (f : Frz → Frz) : (s.modFrz f).boot = s.boot := (rfl)
@[simp] theorem Dev.modFrz_pins (s : Dev) (f : Frz → Frz) : (s.modFrz f).pins = s.pins := (rfl)
@[simp] theorem Dev.modFrz_mer (s : Dev) (f : Frz → Frz) : (s.modFrz f).mer = s.mer := (rfl)
@[simp] theorem Dev.modFrz_clk (s : Dev) (f : Frz → Frz) : (s.modFrz f).clk = s.clk := (rfl)
@[simp] theorem Dev.modFrz_memst (s : Dev) (f : Frz → Frz) : (s.modFrz f).memst = s.memst := (rfl)
@[simp] theorem Dev.modFrz_mons (s : Dev) (f : Frz → Frz) : (s.modFrz f).mons = s.mons := (rfl)
@[simp] theorem Dev.modFrz_datum (s : Dev) (f : Frz → Frz) : (s.modFrz f).datum = s.datum := (rfl)
@[simp] theorem Dev.modFrz_link (s : Dev) (f : Frz → Frz) : (s.modFrz f).link = s.link := (rfl)
@[simp] theorem Dev.modFrz_cfg (s : Dev) (f : Frz → Frz) : (s.modFrz f).cfg = s.cfg := (rfl)
@[simp] theorem Dev.modFrz_segs (s : Dev) (f : Frz → Frz) : (s.modFrz f).segs = s.segs := (rfl)
@[simp] theorem Dev.modFrz_rowLast (s : Dev) (f : Frz → Frz) : (s.modFrz f).rowLast = s.rowLast := (rfl)
@[simp] theorem Dev.modFrz_latches (s : Dev) (f : Frz → Frz) : (s.modFrz f).latches = s.latches := (rfl)
@[simp] theorem Dev.modFrz_staged (s : Dev) (f : Frz → Frz) : (s.modFrz f).staged = s.staged := (rfl)
@[simp] theorem Dev.modFrz_answer (s : Dev) (f : Frz → Frz) : (s.modFrz f).answer = s.answer := (rfl)
@[simp] theorem Dev.modFrz_rd (s : Dev) (f : Frz → Frz) (x : Nat) : (s.modFrz f).rd x = s.rd x := (rfl)
@[simp] theorem Dev.modFrz_fld (s : Dev) (f : Frz → Frz) (x : Nat) (y : Fld) : (s.modFrz f).fld x y = s.fld x y := (rfl)
@[simp] theorem Dev.modFrz_flag (s : Dev) (f : Frz → Frz) (x : Nat) (y : Fld) : (s.modFrz f).flag x y = s.flag x y := (rfl)
@[simp] theorem Dev.modFrz_byte (s : Dev) (f : Frz → Frz) (y : Nat) : (s.modFrz f).byte y = s.byte y := (rfl)
@[simp] theorem Dev.modFrz_sl (s : Dev) (f : Frz → Frz) (y : SliceId) : (s.modFrz f).sl y = s.sl y := (rfl)
@[simp] theorem Dev.modFrz_eng (s : Dev) (f : Frz → Frz) (y : GroupId) : (s.modFrz f).eng y = s.eng y := (rfl)
@[simp] theorem Dev.modFrz_frz (s : Dev) (f : Frz → Frz) : (s.modFrz f).frz = f s.frz := (rfl)

/-! ## modCol -/

@[simp] theorem Dev.modCol_now (s : Dev) (f : Collector → Collector) : (s.modCol f).now = s.now := (rfl)
@[simp] theorem Dev.modCol_time (s : Dev) (f : Collector → Collector) : (s.modCol f).time = s.time := (rfl)
@[simp] theorem Dev.modCol_freeCtr (s : Dev) (f : Collector → Collector) : (s.modCol f).freeCtr = s.freeCtr := (rfl)
@[simp] theorem Dev.modCol_regs (s : Dev) (f : Collector → Collector) : (s.modCol f).regs = s.regs := (rfl)
@[simp] theorem Dev.modCol_mem (s : Dev) (f : Collector → Collector) : (s.modCol f).mem = s.mem := (rfl)
@[simp] theorem Dev.modCol_nvm (s : Dev) (f : Collector → Collector) : (s.modCol f).nvm = s.nvm := (rfl)
@[simp] theorem Dev.modCol_slices (s : Dev) (f : Collector → Collector) : (s.modCol f).slices = s.slices := (rfl)
@[simp] theorem Dev.modCol_gens (s : Dev) (f : Collector → Collector) : (s.modCol f).gens = s.gens := (rfl)
@[simp] theorem Dev.modCol_lanes (s : Dev) (f : Collector → Collector) : (s.modCol f).lanes = s.lanes := (rfl)
@[simp] theorem Dev.modCol_engines (s : Dev) (f : Collector → Collector) : (s.modCol f).engines = s.engines := (rfl)
@[simp] theorem Dev.modCol_rings (s : Dev) (f : Collector → Collector) : (s.modCol f).rings = s.rings := (rfl)
@[simp] theorem Dev.modCol_chans (s : Dev) (f : Collector → Collector) : (s.modCol f).chans = s.chans := (rfl)
@[simp] theorem Dev.modCol_vects (s : Dev) (f : Collector → Collector) : (s.modCol f).vects = s.vects := (rfl)
@[simp] theorem Dev.modCol_sched (s : Dev) (f : Collector → Collector) : (s.modCol f).sched = s.sched := (rfl)
@[simp] theorem Dev.modCol_plates (s : Dev) (f : Collector → Collector) : (s.modCol f).plates = s.plates := (rfl)
@[simp] theorem Dev.modCol_boot (s : Dev) (f : Collector → Collector) : (s.modCol f).boot = s.boot := (rfl)
@[simp] theorem Dev.modCol_pins (s : Dev) (f : Collector → Collector) : (s.modCol f).pins = s.pins := (rfl)
@[simp] theorem Dev.modCol_mer (s : Dev) (f : Collector → Collector) : (s.modCol f).mer = s.mer := (rfl)
@[simp] theorem Dev.modCol_clk (s : Dev) (f : Collector → Collector) : (s.modCol f).clk = s.clk := (rfl)
@[simp] theorem Dev.modCol_memst (s : Dev) (f : Collector → Collector) : (s.modCol f).memst = s.memst := (rfl)
@[simp] theorem Dev.modCol_mons (s : Dev) (f : Collector → Collector) : (s.modCol f).mons = s.mons := (rfl)
@[simp] theorem Dev.modCol_datum (s : Dev) (f : Collector → Collector) : (s.modCol f).datum = s.datum := (rfl)
@[simp] theorem Dev.modCol_link (s : Dev) (f : Collector → Collector) : (s.modCol f).link = s.link := (rfl)
@[simp] theorem Dev.modCol_frz (s : Dev) (f : Collector → Collector) : (s.modCol f).frz = s.frz := (rfl)
@[simp] theorem Dev.modCol_cfg (s : Dev) (f : Collector → Collector) : (s.modCol f).cfg = s.cfg := (rfl)
@[simp] theorem Dev.modCol_segs (s : Dev) (f : Collector → Collector) : (s.modCol f).segs = s.segs := (rfl)
@[simp] theorem Dev.modCol_rowLast (s : Dev) (f : Collector → Collector) : (s.modCol f).rowLast = s.rowLast := (rfl)
@[simp] theorem Dev.modCol_latches (s : Dev) (f : Collector → Collector) : (s.modCol f).latches = s.latches := (rfl)
@[simp] theorem Dev.modCol_staged (s : Dev) (f : Collector → Collector) : (s.modCol f).staged = s.staged := (rfl)
@[simp] theorem Dev.modCol_answer (s : Dev) (f : Collector → Collector) : (s.modCol f).answer = s.answer := (rfl)
@[simp] theorem Dev.modCol_rd (s : Dev) (f : Collector → Collector) (x : Nat) : (s.modCol f).rd x = s.rd x := (rfl)
@[simp] theorem Dev.modCol_fld (s : Dev) (f : Collector → Collector) (x : Nat) (y : Fld) : (s.modCol f).fld x y = s.fld x y := (rfl)
@[simp] theorem Dev.modCol_flag (s : Dev) (f : Collector → Collector) (x : Nat) (y : Fld) : (s.modCol f).flag x y = s.flag x y := (rfl)
@[simp] theorem Dev.modCol_byte (s : Dev) (f : Collector → Collector) (y : Nat) : (s.modCol f).byte y = s.byte y := (rfl)
@[simp] theorem Dev.modCol_sl (s : Dev) (f : Collector → Collector) (y : SliceId) : (s.modCol f).sl y = s.sl y := (rfl)
@[simp] theorem Dev.modCol_eng (s : Dev) (f : Collector → Collector) (y : GroupId) : (s.modCol f).eng y = s.eng y := (rfl)
@[simp] theorem Dev.modCol_col (s : Dev) (f : Collector → Collector) : (s.modCol f).col = f s.col := (rfl)

/-! ## modLink -/

@[simp] theorem Dev.modLink_now (s : Dev) (f : LinkSt → LinkSt) : (s.modLink f).now = s.now := (rfl)
@[simp] theorem Dev.modLink_time (s : Dev) (f : LinkSt → LinkSt) : (s.modLink f).time = s.time := (rfl)
@[simp] theorem Dev.modLink_freeCtr (s : Dev) (f : LinkSt → LinkSt) : (s.modLink f).freeCtr = s.freeCtr := (rfl)
@[simp] theorem Dev.modLink_regs (s : Dev) (f : LinkSt → LinkSt) : (s.modLink f).regs = s.regs := (rfl)
@[simp] theorem Dev.modLink_mem (s : Dev) (f : LinkSt → LinkSt) : (s.modLink f).mem = s.mem := (rfl)
@[simp] theorem Dev.modLink_nvm (s : Dev) (f : LinkSt → LinkSt) : (s.modLink f).nvm = s.nvm := (rfl)
@[simp] theorem Dev.modLink_slices (s : Dev) (f : LinkSt → LinkSt) : (s.modLink f).slices = s.slices := (rfl)
@[simp] theorem Dev.modLink_gens (s : Dev) (f : LinkSt → LinkSt) : (s.modLink f).gens = s.gens := (rfl)
@[simp] theorem Dev.modLink_lanes (s : Dev) (f : LinkSt → LinkSt) : (s.modLink f).lanes = s.lanes := (rfl)
@[simp] theorem Dev.modLink_engines (s : Dev) (f : LinkSt → LinkSt) : (s.modLink f).engines = s.engines := (rfl)
@[simp] theorem Dev.modLink_rings (s : Dev) (f : LinkSt → LinkSt) : (s.modLink f).rings = s.rings := (rfl)
@[simp] theorem Dev.modLink_chans (s : Dev) (f : LinkSt → LinkSt) : (s.modLink f).chans = s.chans := (rfl)
@[simp] theorem Dev.modLink_vects (s : Dev) (f : LinkSt → LinkSt) : (s.modLink f).vects = s.vects := (rfl)
@[simp] theorem Dev.modLink_sched (s : Dev) (f : LinkSt → LinkSt) : (s.modLink f).sched = s.sched := (rfl)
@[simp] theorem Dev.modLink_col (s : Dev) (f : LinkSt → LinkSt) : (s.modLink f).col = s.col := (rfl)
@[simp] theorem Dev.modLink_plates (s : Dev) (f : LinkSt → LinkSt) : (s.modLink f).plates = s.plates := (rfl)
@[simp] theorem Dev.modLink_boot (s : Dev) (f : LinkSt → LinkSt) : (s.modLink f).boot = s.boot := (rfl)
@[simp] theorem Dev.modLink_pins (s : Dev) (f : LinkSt → LinkSt) : (s.modLink f).pins = s.pins := (rfl)
@[simp] theorem Dev.modLink_mer (s : Dev) (f : LinkSt → LinkSt) : (s.modLink f).mer = s.mer := (rfl)
@[simp] theorem Dev.modLink_clk (s : Dev) (f : LinkSt → LinkSt) : (s.modLink f).clk = s.clk := (rfl)
@[simp] theorem Dev.modLink_memst (s : Dev) (f : LinkSt → LinkSt) : (s.modLink f).memst = s.memst := (rfl)
@[simp] theorem Dev.modLink_mons (s : Dev) (f : LinkSt → LinkSt) : (s.modLink f).mons = s.mons := (rfl)
@[simp] theorem Dev.modLink_datum (s : Dev) (f : LinkSt → LinkSt) : (s.modLink f).datum = s.datum := (rfl)
@[simp] theorem Dev.modLink_frz (s : Dev) (f : LinkSt → LinkSt) : (s.modLink f).frz = s.frz := (rfl)
@[simp] theorem Dev.modLink_cfg (s : Dev) (f : LinkSt → LinkSt) : (s.modLink f).cfg = s.cfg := (rfl)
@[simp] theorem Dev.modLink_segs (s : Dev) (f : LinkSt → LinkSt) : (s.modLink f).segs = s.segs := (rfl)
@[simp] theorem Dev.modLink_rowLast (s : Dev) (f : LinkSt → LinkSt) : (s.modLink f).rowLast = s.rowLast := (rfl)
@[simp] theorem Dev.modLink_latches (s : Dev) (f : LinkSt → LinkSt) : (s.modLink f).latches = s.latches := (rfl)
@[simp] theorem Dev.modLink_staged (s : Dev) (f : LinkSt → LinkSt) : (s.modLink f).staged = s.staged := (rfl)
@[simp] theorem Dev.modLink_answer (s : Dev) (f : LinkSt → LinkSt) : (s.modLink f).answer = s.answer := (rfl)
@[simp] theorem Dev.modLink_rd (s : Dev) (f : LinkSt → LinkSt) (x : Nat) : (s.modLink f).rd x = s.rd x := (rfl)
@[simp] theorem Dev.modLink_fld (s : Dev) (f : LinkSt → LinkSt) (x : Nat) (y : Fld) : (s.modLink f).fld x y = s.fld x y := (rfl)
@[simp] theorem Dev.modLink_flag (s : Dev) (f : LinkSt → LinkSt) (x : Nat) (y : Fld) : (s.modLink f).flag x y = s.flag x y := (rfl)
@[simp] theorem Dev.modLink_byte (s : Dev) (f : LinkSt → LinkSt) (y : Nat) : (s.modLink f).byte y = s.byte y := (rfl)
@[simp] theorem Dev.modLink_sl (s : Dev) (f : LinkSt → LinkSt) (y : SliceId) : (s.modLink f).sl y = s.sl y := (rfl)
@[simp] theorem Dev.modLink_eng (s : Dev) (f : LinkSt → LinkSt) (y : GroupId) : (s.modLink f).eng y = s.eng y := (rfl)
@[simp] theorem Dev.modLink_link (s : Dev) (f : LinkSt → LinkSt) : (s.modLink f).link = f s.link := (rfl)

/-! ## modMem -/

@[simp] theorem Dev.modMem_now (s : Dev) (f : MemSt → MemSt) : (s.modMem f).now = s.now := (rfl)
@[simp] theorem Dev.modMem_time (s : Dev) (f : MemSt → MemSt) : (s.modMem f).time = s.time := (rfl)
@[simp] theorem Dev.modMem_freeCtr (s : Dev) (f : MemSt → MemSt) : (s.modMem f).freeCtr = s.freeCtr := (rfl)
@[simp] theorem Dev.modMem_regs (s : Dev) (f : MemSt → MemSt) : (s.modMem f).regs = s.regs := (rfl)
@[simp] theorem Dev.modMem_mem (s : Dev) (f : MemSt → MemSt) : (s.modMem f).mem = s.mem := (rfl)
@[simp] theorem Dev.modMem_nvm (s : Dev) (f : MemSt → MemSt) : (s.modMem f).nvm = s.nvm := (rfl)
@[simp] theorem Dev.modMem_slices (s : Dev) (f : MemSt → MemSt) : (s.modMem f).slices = s.slices := (rfl)
@[simp] theorem Dev.modMem_gens (s : Dev) (f : MemSt → MemSt) : (s.modMem f).gens = s.gens := (rfl)
@[simp] theorem Dev.modMem_lanes (s : Dev) (f : MemSt → MemSt) : (s.modMem f).lanes = s.lanes := (rfl)
@[simp] theorem Dev.modMem_engines (s : Dev) (f : MemSt → MemSt) : (s.modMem f).engines = s.engines := (rfl)
@[simp] theorem Dev.modMem_rings (s : Dev) (f : MemSt → MemSt) : (s.modMem f).rings = s.rings := (rfl)
@[simp] theorem Dev.modMem_chans (s : Dev) (f : MemSt → MemSt) : (s.modMem f).chans = s.chans := (rfl)
@[simp] theorem Dev.modMem_vects (s : Dev) (f : MemSt → MemSt) : (s.modMem f).vects = s.vects := (rfl)
@[simp] theorem Dev.modMem_sched (s : Dev) (f : MemSt → MemSt) : (s.modMem f).sched = s.sched := (rfl)
@[simp] theorem Dev.modMem_col (s : Dev) (f : MemSt → MemSt) : (s.modMem f).col = s.col := (rfl)
@[simp] theorem Dev.modMem_plates (s : Dev) (f : MemSt → MemSt) : (s.modMem f).plates = s.plates := (rfl)
@[simp] theorem Dev.modMem_boot (s : Dev) (f : MemSt → MemSt) : (s.modMem f).boot = s.boot := (rfl)
@[simp] theorem Dev.modMem_pins (s : Dev) (f : MemSt → MemSt) : (s.modMem f).pins = s.pins := (rfl)
@[simp] theorem Dev.modMem_mer (s : Dev) (f : MemSt → MemSt) : (s.modMem f).mer = s.mer := (rfl)
@[simp] theorem Dev.modMem_clk (s : Dev) (f : MemSt → MemSt) : (s.modMem f).clk = s.clk := (rfl)
@[simp] theorem Dev.modMem_mons (s : Dev) (f : MemSt → MemSt) : (s.modMem f).mons = s.mons := (rfl)
@[simp] theorem Dev.modMem_datum (s : Dev) (f : MemSt → MemSt) : (s.modMem f).datum = s.datum := (rfl)
@[simp] theorem Dev.modMem_link (s : Dev) (f : MemSt → MemSt) : (s.modMem f).link = s.link := (rfl)
@[simp] theorem Dev.modMem_frz (s : Dev) (f : MemSt → MemSt) : (s.modMem f).frz = s.frz := (rfl)
@[simp] theorem Dev.modMem_cfg (s : Dev) (f : MemSt → MemSt) : (s.modMem f).cfg = s.cfg := (rfl)
@[simp] theorem Dev.modMem_segs (s : Dev) (f : MemSt → MemSt) : (s.modMem f).segs = s.segs := (rfl)
@[simp] theorem Dev.modMem_rowLast (s : Dev) (f : MemSt → MemSt) : (s.modMem f).rowLast = s.rowLast := (rfl)
@[simp] theorem Dev.modMem_latches (s : Dev) (f : MemSt → MemSt) : (s.modMem f).latches = s.latches := (rfl)
@[simp] theorem Dev.modMem_staged (s : Dev) (f : MemSt → MemSt) : (s.modMem f).staged = s.staged := (rfl)
@[simp] theorem Dev.modMem_answer (s : Dev) (f : MemSt → MemSt) : (s.modMem f).answer = s.answer := (rfl)
@[simp] theorem Dev.modMem_rd (s : Dev) (f : MemSt → MemSt) (x : Nat) : (s.modMem f).rd x = s.rd x := (rfl)
@[simp] theorem Dev.modMem_fld (s : Dev) (f : MemSt → MemSt) (x : Nat) (y : Fld) : (s.modMem f).fld x y = s.fld x y := (rfl)
@[simp] theorem Dev.modMem_flag (s : Dev) (f : MemSt → MemSt) (x : Nat) (y : Fld) : (s.modMem f).flag x y = s.flag x y := (rfl)
@[simp] theorem Dev.modMem_byte (s : Dev) (f : MemSt → MemSt) (y : Nat) : (s.modMem f).byte y = s.byte y := (rfl)
@[simp] theorem Dev.modMem_sl (s : Dev) (f : MemSt → MemSt) (y : SliceId) : (s.modMem f).sl y = s.sl y := (rfl)
@[simp] theorem Dev.modMem_eng (s : Dev) (f : MemSt → MemSt) (y : GroupId) : (s.modMem f).eng y = s.eng y := (rfl)
@[simp] theorem Dev.modMem_memst (s : Dev) (f : MemSt → MemSt) : (s.modMem f).memst = f s.memst := (rfl)

/-! ## modDatum -/

@[simp] theorem Dev.modDatum_now (s : Dev) (f : DatumSt → DatumSt) : (s.modDatum f).now = s.now := (rfl)
@[simp] theorem Dev.modDatum_time (s : Dev) (f : DatumSt → DatumSt) : (s.modDatum f).time = s.time := (rfl)
@[simp] theorem Dev.modDatum_freeCtr (s : Dev) (f : DatumSt → DatumSt) : (s.modDatum f).freeCtr = s.freeCtr := (rfl)
@[simp] theorem Dev.modDatum_regs (s : Dev) (f : DatumSt → DatumSt) : (s.modDatum f).regs = s.regs := (rfl)
@[simp] theorem Dev.modDatum_mem (s : Dev) (f : DatumSt → DatumSt) : (s.modDatum f).mem = s.mem := (rfl)
@[simp] theorem Dev.modDatum_nvm (s : Dev) (f : DatumSt → DatumSt) : (s.modDatum f).nvm = s.nvm := (rfl)
@[simp] theorem Dev.modDatum_slices (s : Dev) (f : DatumSt → DatumSt) : (s.modDatum f).slices = s.slices := (rfl)
@[simp] theorem Dev.modDatum_gens (s : Dev) (f : DatumSt → DatumSt) : (s.modDatum f).gens = s.gens := (rfl)
@[simp] theorem Dev.modDatum_lanes (s : Dev) (f : DatumSt → DatumSt) : (s.modDatum f).lanes = s.lanes := (rfl)
@[simp] theorem Dev.modDatum_engines (s : Dev) (f : DatumSt → DatumSt) : (s.modDatum f).engines = s.engines := (rfl)
@[simp] theorem Dev.modDatum_rings (s : Dev) (f : DatumSt → DatumSt) : (s.modDatum f).rings = s.rings := (rfl)
@[simp] theorem Dev.modDatum_chans (s : Dev) (f : DatumSt → DatumSt) : (s.modDatum f).chans = s.chans := (rfl)
@[simp] theorem Dev.modDatum_vects (s : Dev) (f : DatumSt → DatumSt) : (s.modDatum f).vects = s.vects := (rfl)
@[simp] theorem Dev.modDatum_sched (s : Dev) (f : DatumSt → DatumSt) : (s.modDatum f).sched = s.sched := (rfl)
@[simp] theorem Dev.modDatum_col (s : Dev) (f : DatumSt → DatumSt) : (s.modDatum f).col = s.col := (rfl)
@[simp] theorem Dev.modDatum_plates (s : Dev) (f : DatumSt → DatumSt) : (s.modDatum f).plates = s.plates := (rfl)
@[simp] theorem Dev.modDatum_boot (s : Dev) (f : DatumSt → DatumSt) : (s.modDatum f).boot = s.boot := (rfl)
@[simp] theorem Dev.modDatum_pins (s : Dev) (f : DatumSt → DatumSt) : (s.modDatum f).pins = s.pins := (rfl)
@[simp] theorem Dev.modDatum_mer (s : Dev) (f : DatumSt → DatumSt) : (s.modDatum f).mer = s.mer := (rfl)
@[simp] theorem Dev.modDatum_clk (s : Dev) (f : DatumSt → DatumSt) : (s.modDatum f).clk = s.clk := (rfl)
@[simp] theorem Dev.modDatum_memst (s : Dev) (f : DatumSt → DatumSt) : (s.modDatum f).memst = s.memst := (rfl)
@[simp] theorem Dev.modDatum_mons (s : Dev) (f : DatumSt → DatumSt) : (s.modDatum f).mons = s.mons := (rfl)
@[simp] theorem Dev.modDatum_link (s : Dev) (f : DatumSt → DatumSt) : (s.modDatum f).link = s.link := (rfl)
@[simp] theorem Dev.modDatum_frz (s : Dev) (f : DatumSt → DatumSt) : (s.modDatum f).frz = s.frz := (rfl)
@[simp] theorem Dev.modDatum_cfg (s : Dev) (f : DatumSt → DatumSt) : (s.modDatum f).cfg = s.cfg := (rfl)
@[simp] theorem Dev.modDatum_segs (s : Dev) (f : DatumSt → DatumSt) : (s.modDatum f).segs = s.segs := (rfl)
@[simp] theorem Dev.modDatum_rowLast (s : Dev) (f : DatumSt → DatumSt) : (s.modDatum f).rowLast = s.rowLast := (rfl)
@[simp] theorem Dev.modDatum_latches (s : Dev) (f : DatumSt → DatumSt) : (s.modDatum f).latches = s.latches := (rfl)
@[simp] theorem Dev.modDatum_staged (s : Dev) (f : DatumSt → DatumSt) : (s.modDatum f).staged = s.staged := (rfl)
@[simp] theorem Dev.modDatum_answer (s : Dev) (f : DatumSt → DatumSt) : (s.modDatum f).answer = s.answer := (rfl)
@[simp] theorem Dev.modDatum_rd (s : Dev) (f : DatumSt → DatumSt) (x : Nat) : (s.modDatum f).rd x = s.rd x := (rfl)
@[simp] theorem Dev.modDatum_fld (s : Dev) (f : DatumSt → DatumSt) (x : Nat) (y : Fld) : (s.modDatum f).fld x y = s.fld x y := (rfl)
@[simp] theorem Dev.modDatum_flag (s : Dev) (f : DatumSt → DatumSt) (x : Nat) (y : Fld) : (s.modDatum f).flag x y = s.flag x y := (rfl)
@[simp] theorem Dev.modDatum_byte (s : Dev) (f : DatumSt → DatumSt) (y : Nat) : (s.modDatum f).byte y = s.byte y := (rfl)
@[simp] theorem Dev.modDatum_sl (s : Dev) (f : DatumSt → DatumSt) (y : SliceId) : (s.modDatum f).sl y = s.sl y := (rfl)
@[simp] theorem Dev.modDatum_eng (s : Dev) (f : DatumSt → DatumSt) (y : GroupId) : (s.modDatum f).eng y = s.eng y := (rfl)
@[simp] theorem Dev.modDatum_datum (s : Dev) (f : DatumSt → DatumSt) : (s.modDatum f).datum = f s.datum := (rfl)

/-! ## vector -/

@[simp] theorem Dev.vector_now (s : Dev) (v : Fin 40) : (s.vector v).now = s.now := (rfl)
@[simp] theorem Dev.vector_time (s : Dev) (v : Fin 40) : (s.vector v).time = s.time := (rfl)
@[simp] theorem Dev.vector_freeCtr (s : Dev) (v : Fin 40) : (s.vector v).freeCtr = s.freeCtr := (rfl)
@[simp] theorem Dev.vector_regs (s : Dev) (v : Fin 40) : (s.vector v).regs = s.regs := (rfl)
@[simp] theorem Dev.vector_mem (s : Dev) (v : Fin 40) : (s.vector v).mem = s.mem := (rfl)
@[simp] theorem Dev.vector_nvm (s : Dev) (v : Fin 40) : (s.vector v).nvm = s.nvm := (rfl)
@[simp] theorem Dev.vector_slices (s : Dev) (v : Fin 40) : (s.vector v).slices = s.slices := (rfl)
@[simp] theorem Dev.vector_gens (s : Dev) (v : Fin 40) : (s.vector v).gens = s.gens := (rfl)
@[simp] theorem Dev.vector_lanes (s : Dev) (v : Fin 40) : (s.vector v).lanes = s.lanes := (rfl)
@[simp] theorem Dev.vector_engines (s : Dev) (v : Fin 40) : (s.vector v).engines = s.engines := (rfl)
@[simp] theorem Dev.vector_rings (s : Dev) (v : Fin 40) : (s.vector v).rings = s.rings := (rfl)
@[simp] theorem Dev.vector_chans (s : Dev) (v : Fin 40) : (s.vector v).chans = s.chans := (rfl)
@[simp] theorem Dev.vector_sched (s : Dev) (v : Fin 40) : (s.vector v).sched = s.sched := (rfl)
@[simp] theorem Dev.vector_col (s : Dev) (v : Fin 40) : (s.vector v).col = s.col := (rfl)
@[simp] theorem Dev.vector_plates (s : Dev) (v : Fin 40) : (s.vector v).plates = s.plates := (rfl)
@[simp] theorem Dev.vector_boot (s : Dev) (v : Fin 40) : (s.vector v).boot = s.boot := (rfl)
@[simp] theorem Dev.vector_pins (s : Dev) (v : Fin 40) : (s.vector v).pins = s.pins := (rfl)
@[simp] theorem Dev.vector_mer (s : Dev) (v : Fin 40) : (s.vector v).mer = s.mer := (rfl)
@[simp] theorem Dev.vector_clk (s : Dev) (v : Fin 40) : (s.vector v).clk = s.clk := (rfl)
@[simp] theorem Dev.vector_memst (s : Dev) (v : Fin 40) : (s.vector v).memst = s.memst := (rfl)
@[simp] theorem Dev.vector_mons (s : Dev) (v : Fin 40) : (s.vector v).mons = s.mons := (rfl)
@[simp] theorem Dev.vector_datum (s : Dev) (v : Fin 40) : (s.vector v).datum = s.datum := (rfl)
@[simp] theorem Dev.vector_link (s : Dev) (v : Fin 40) : (s.vector v).link = s.link := (rfl)
@[simp] theorem Dev.vector_frz (s : Dev) (v : Fin 40) : (s.vector v).frz = s.frz := (rfl)
@[simp] theorem Dev.vector_cfg (s : Dev) (v : Fin 40) : (s.vector v).cfg = s.cfg := (rfl)
@[simp] theorem Dev.vector_segs (s : Dev) (v : Fin 40) : (s.vector v).segs = s.segs := (rfl)
@[simp] theorem Dev.vector_rowLast (s : Dev) (v : Fin 40) : (s.vector v).rowLast = s.rowLast := (rfl)
@[simp] theorem Dev.vector_latches (s : Dev) (v : Fin 40) : (s.vector v).latches = s.latches := (rfl)
@[simp] theorem Dev.vector_staged (s : Dev) (v : Fin 40) : (s.vector v).staged = s.staged := (rfl)
@[simp] theorem Dev.vector_answer (s : Dev) (v : Fin 40) : (s.vector v).answer = s.answer := (rfl)
@[simp] theorem Dev.vector_rd (s : Dev) (v : Fin 40) (x : Nat) : (s.vector v).rd x = s.rd x := (rfl)
@[simp] theorem Dev.vector_fld (s : Dev) (v : Fin 40) (x : Nat) (y : Fld) : (s.vector v).fld x y = s.fld x y := (rfl)
@[simp] theorem Dev.vector_flag (s : Dev) (v : Fin 40) (x : Nat) (y : Fld) : (s.vector v).flag x y = s.flag x y := (rfl)
@[simp] theorem Dev.vector_byte (s : Dev) (v : Fin 40) (y : Nat) : (s.vector v).byte y = s.byte y := (rfl)
@[simp] theorem Dev.vector_sl (s : Dev) (v : Fin 40) (y : SliceId) : (s.vector v).sl y = s.sl y := (rfl)
@[simp] theorem Dev.vector_eng (s : Dev) (v : Fin 40) (y : GroupId) : (s.vector v).eng y = s.eng y := (rfl)

/-! ## wr64 -/

@[simp] theorem Dev.wr64_now (s : Dev) (lo hi : Nat) (v : Word64) : (s.wr64 lo hi v).now = s.now := (rfl)
@[simp] theorem Dev.wr64_time (s : Dev) (lo hi : Nat) (v : Word64) : (s.wr64 lo hi v).time = s.time := (rfl)
@[simp] theorem Dev.wr64_freeCtr (s : Dev) (lo hi : Nat) (v : Word64) : (s.wr64 lo hi v).freeCtr = s.freeCtr := (rfl)
@[simp] theorem Dev.wr64_mem (s : Dev) (lo hi : Nat) (v : Word64) : (s.wr64 lo hi v).mem = s.mem := (rfl)
@[simp] theorem Dev.wr64_nvm (s : Dev) (lo hi : Nat) (v : Word64) : (s.wr64 lo hi v).nvm = s.nvm := (rfl)
@[simp] theorem Dev.wr64_slices (s : Dev) (lo hi : Nat) (v : Word64) : (s.wr64 lo hi v).slices = s.slices := (rfl)
@[simp] theorem Dev.wr64_gens (s : Dev) (lo hi : Nat) (v : Word64) : (s.wr64 lo hi v).gens = s.gens := (rfl)
@[simp] theorem Dev.wr64_lanes (s : Dev) (lo hi : Nat) (v : Word64) : (s.wr64 lo hi v).lanes = s.lanes := (rfl)
@[simp] theorem Dev.wr64_engines (s : Dev) (lo hi : Nat) (v : Word64) : (s.wr64 lo hi v).engines = s.engines := (rfl)
@[simp] theorem Dev.wr64_rings (s : Dev) (lo hi : Nat) (v : Word64) : (s.wr64 lo hi v).rings = s.rings := (rfl)
@[simp] theorem Dev.wr64_chans (s : Dev) (lo hi : Nat) (v : Word64) : (s.wr64 lo hi v).chans = s.chans := (rfl)
@[simp] theorem Dev.wr64_vects (s : Dev) (lo hi : Nat) (v : Word64) : (s.wr64 lo hi v).vects = s.vects := (rfl)
@[simp] theorem Dev.wr64_sched (s : Dev) (lo hi : Nat) (v : Word64) : (s.wr64 lo hi v).sched = s.sched := (rfl)
@[simp] theorem Dev.wr64_col (s : Dev) (lo hi : Nat) (v : Word64) : (s.wr64 lo hi v).col = s.col := (rfl)
@[simp] theorem Dev.wr64_plates (s : Dev) (lo hi : Nat) (v : Word64) : (s.wr64 lo hi v).plates = s.plates := (rfl)
@[simp] theorem Dev.wr64_boot (s : Dev) (lo hi : Nat) (v : Word64) : (s.wr64 lo hi v).boot = s.boot := (rfl)
@[simp] theorem Dev.wr64_pins (s : Dev) (lo hi : Nat) (v : Word64) : (s.wr64 lo hi v).pins = s.pins := (rfl)
@[simp] theorem Dev.wr64_mer (s : Dev) (lo hi : Nat) (v : Word64) : (s.wr64 lo hi v).mer = s.mer := (rfl)
@[simp] theorem Dev.wr64_clk (s : Dev) (lo hi : Nat) (v : Word64) : (s.wr64 lo hi v).clk = s.clk := (rfl)
@[simp] theorem Dev.wr64_memst (s : Dev) (lo hi : Nat) (v : Word64) : (s.wr64 lo hi v).memst = s.memst := (rfl)
@[simp] theorem Dev.wr64_mons (s : Dev) (lo hi : Nat) (v : Word64) : (s.wr64 lo hi v).mons = s.mons := (rfl)
@[simp] theorem Dev.wr64_datum (s : Dev) (lo hi : Nat) (v : Word64) : (s.wr64 lo hi v).datum = s.datum := (rfl)
@[simp] theorem Dev.wr64_link (s : Dev) (lo hi : Nat) (v : Word64) : (s.wr64 lo hi v).link = s.link := (rfl)
@[simp] theorem Dev.wr64_frz (s : Dev) (lo hi : Nat) (v : Word64) : (s.wr64 lo hi v).frz = s.frz := (rfl)
@[simp] theorem Dev.wr64_cfg (s : Dev) (lo hi : Nat) (v : Word64) : (s.wr64 lo hi v).cfg = s.cfg := (rfl)
@[simp] theorem Dev.wr64_segs (s : Dev) (lo hi : Nat) (v : Word64) : (s.wr64 lo hi v).segs = s.segs := (rfl)
@[simp] theorem Dev.wr64_rowLast (s : Dev) (lo hi : Nat) (v : Word64) : (s.wr64 lo hi v).rowLast = s.rowLast := (rfl)
@[simp] theorem Dev.wr64_latches (s : Dev) (lo hi : Nat) (v : Word64) : (s.wr64 lo hi v).latches = s.latches := (rfl)
@[simp] theorem Dev.wr64_staged (s : Dev) (lo hi : Nat) (v : Word64) : (s.wr64 lo hi v).staged = s.staged := (rfl)
@[simp] theorem Dev.wr64_answer (s : Dev) (lo hi : Nat) (v : Word64) : (s.wr64 lo hi v).answer = s.answer := (rfl)
@[simp] theorem Dev.wr64_byte (s : Dev) (lo hi : Nat) (v : Word64) (y : Nat) : (s.wr64 lo hi v).byte y = s.byte y := (rfl)
@[simp] theorem Dev.wr64_sl (s : Dev) (lo hi : Nat) (v : Word64) (y : SliceId) : (s.wr64 lo hi v).sl y = s.sl y := (rfl)
@[simp] theorem Dev.wr64_eng (s : Dev) (lo hi : Nat) (v : Word64) (y : GroupId) : (s.wr64 lo hi v).eng y = s.eng y := (rfl)

/-! ## addFld -/

@[simp] theorem Dev.addFld_now (s : Dev) (b : Nat) (f : Fld) (k : Nat) : (s.addFld b f k).now = s.now := (rfl)
@[simp] theorem Dev.addFld_time (s : Dev) (b : Nat) (f : Fld) (k : Nat) : (s.addFld b f k).time = s.time := (rfl)
@[simp] theorem Dev.addFld_freeCtr (s : Dev) (b : Nat) (f : Fld) (k : Nat) : (s.addFld b f k).freeCtr = s.freeCtr := (rfl)
@[simp] theorem Dev.addFld_mem (s : Dev) (b : Nat) (f : Fld) (k : Nat) : (s.addFld b f k).mem = s.mem := (rfl)
@[simp] theorem Dev.addFld_nvm (s : Dev) (b : Nat) (f : Fld) (k : Nat) : (s.addFld b f k).nvm = s.nvm := (rfl)
@[simp] theorem Dev.addFld_slices (s : Dev) (b : Nat) (f : Fld) (k : Nat) : (s.addFld b f k).slices = s.slices := (rfl)
@[simp] theorem Dev.addFld_gens (s : Dev) (b : Nat) (f : Fld) (k : Nat) : (s.addFld b f k).gens = s.gens := (rfl)
@[simp] theorem Dev.addFld_lanes (s : Dev) (b : Nat) (f : Fld) (k : Nat) : (s.addFld b f k).lanes = s.lanes := (rfl)
@[simp] theorem Dev.addFld_engines (s : Dev) (b : Nat) (f : Fld) (k : Nat) : (s.addFld b f k).engines = s.engines := (rfl)
@[simp] theorem Dev.addFld_rings (s : Dev) (b : Nat) (f : Fld) (k : Nat) : (s.addFld b f k).rings = s.rings := (rfl)
@[simp] theorem Dev.addFld_chans (s : Dev) (b : Nat) (f : Fld) (k : Nat) : (s.addFld b f k).chans = s.chans := (rfl)
@[simp] theorem Dev.addFld_vects (s : Dev) (b : Nat) (f : Fld) (k : Nat) : (s.addFld b f k).vects = s.vects := (rfl)
@[simp] theorem Dev.addFld_sched (s : Dev) (b : Nat) (f : Fld) (k : Nat) : (s.addFld b f k).sched = s.sched := (rfl)
@[simp] theorem Dev.addFld_col (s : Dev) (b : Nat) (f : Fld) (k : Nat) : (s.addFld b f k).col = s.col := (rfl)
@[simp] theorem Dev.addFld_plates (s : Dev) (b : Nat) (f : Fld) (k : Nat) : (s.addFld b f k).plates = s.plates := (rfl)
@[simp] theorem Dev.addFld_boot (s : Dev) (b : Nat) (f : Fld) (k : Nat) : (s.addFld b f k).boot = s.boot := (rfl)
@[simp] theorem Dev.addFld_pins (s : Dev) (b : Nat) (f : Fld) (k : Nat) : (s.addFld b f k).pins = s.pins := (rfl)
@[simp] theorem Dev.addFld_mer (s : Dev) (b : Nat) (f : Fld) (k : Nat) : (s.addFld b f k).mer = s.mer := (rfl)
@[simp] theorem Dev.addFld_clk (s : Dev) (b : Nat) (f : Fld) (k : Nat) : (s.addFld b f k).clk = s.clk := (rfl)
@[simp] theorem Dev.addFld_memst (s : Dev) (b : Nat) (f : Fld) (k : Nat) : (s.addFld b f k).memst = s.memst := (rfl)
@[simp] theorem Dev.addFld_mons (s : Dev) (b : Nat) (f : Fld) (k : Nat) : (s.addFld b f k).mons = s.mons := (rfl)
@[simp] theorem Dev.addFld_datum (s : Dev) (b : Nat) (f : Fld) (k : Nat) : (s.addFld b f k).datum = s.datum := (rfl)
@[simp] theorem Dev.addFld_link (s : Dev) (b : Nat) (f : Fld) (k : Nat) : (s.addFld b f k).link = s.link := (rfl)
@[simp] theorem Dev.addFld_frz (s : Dev) (b : Nat) (f : Fld) (k : Nat) : (s.addFld b f k).frz = s.frz := (rfl)
@[simp] theorem Dev.addFld_cfg (s : Dev) (b : Nat) (f : Fld) (k : Nat) : (s.addFld b f k).cfg = s.cfg := (rfl)
@[simp] theorem Dev.addFld_segs (s : Dev) (b : Nat) (f : Fld) (k : Nat) : (s.addFld b f k).segs = s.segs := (rfl)
@[simp] theorem Dev.addFld_rowLast (s : Dev) (b : Nat) (f : Fld) (k : Nat) : (s.addFld b f k).rowLast = s.rowLast := (rfl)
@[simp] theorem Dev.addFld_latches (s : Dev) (b : Nat) (f : Fld) (k : Nat) : (s.addFld b f k).latches = s.latches := (rfl)
@[simp] theorem Dev.addFld_staged (s : Dev) (b : Nat) (f : Fld) (k : Nat) : (s.addFld b f k).staged = s.staged := (rfl)
@[simp] theorem Dev.addFld_answer (s : Dev) (b : Nat) (f : Fld) (k : Nat) : (s.addFld b f k).answer = s.answer := (rfl)
@[simp] theorem Dev.addFld_byte (s : Dev) (b : Nat) (f : Fld) (k : Nat) (y : Nat) : (s.addFld b f k).byte y = s.byte y := (rfl)
@[simp] theorem Dev.addFld_sl (s : Dev) (b : Nat) (f : Fld) (k : Nat) (y : SliceId) : (s.addFld b f k).sl y = s.sl y := (rfl)
@[simp] theorem Dev.addFld_eng (s : Dev) (b : Nat) (f : Fld) (k : Nat) (y : GroupId) : (s.addFld b f k).eng y = s.eng y := (rfl)

/-! ## setBit -/

@[simp] theorem Dev.setBit_now (s : Dev) (a i : Nat) (v : Bool) : (s.setBit a i v).now = s.now := (rfl)
@[simp] theorem Dev.setBit_time (s : Dev) (a i : Nat) (v : Bool) : (s.setBit a i v).time = s.time := (rfl)
@[simp] theorem Dev.setBit_freeCtr (s : Dev) (a i : Nat) (v : Bool) : (s.setBit a i v).freeCtr = s.freeCtr := (rfl)
@[simp] theorem Dev.setBit_mem (s : Dev) (a i : Nat) (v : Bool) : (s.setBit a i v).mem = s.mem := (rfl)
@[simp] theorem Dev.setBit_nvm (s : Dev) (a i : Nat) (v : Bool) : (s.setBit a i v).nvm = s.nvm := (rfl)
@[simp] theorem Dev.setBit_slices (s : Dev) (a i : Nat) (v : Bool) : (s.setBit a i v).slices = s.slices := (rfl)
@[simp] theorem Dev.setBit_gens (s : Dev) (a i : Nat) (v : Bool) : (s.setBit a i v).gens = s.gens := (rfl)
@[simp] theorem Dev.setBit_lanes (s : Dev) (a i : Nat) (v : Bool) : (s.setBit a i v).lanes = s.lanes := (rfl)
@[simp] theorem Dev.setBit_engines (s : Dev) (a i : Nat) (v : Bool) : (s.setBit a i v).engines = s.engines := (rfl)
@[simp] theorem Dev.setBit_rings (s : Dev) (a i : Nat) (v : Bool) : (s.setBit a i v).rings = s.rings := (rfl)
@[simp] theorem Dev.setBit_chans (s : Dev) (a i : Nat) (v : Bool) : (s.setBit a i v).chans = s.chans := (rfl)
@[simp] theorem Dev.setBit_vects (s : Dev) (a i : Nat) (v : Bool) : (s.setBit a i v).vects = s.vects := (rfl)
@[simp] theorem Dev.setBit_sched (s : Dev) (a i : Nat) (v : Bool) : (s.setBit a i v).sched = s.sched := (rfl)
@[simp] theorem Dev.setBit_col (s : Dev) (a i : Nat) (v : Bool) : (s.setBit a i v).col = s.col := (rfl)
@[simp] theorem Dev.setBit_plates (s : Dev) (a i : Nat) (v : Bool) : (s.setBit a i v).plates = s.plates := (rfl)
@[simp] theorem Dev.setBit_boot (s : Dev) (a i : Nat) (v : Bool) : (s.setBit a i v).boot = s.boot := (rfl)
@[simp] theorem Dev.setBit_pins (s : Dev) (a i : Nat) (v : Bool) : (s.setBit a i v).pins = s.pins := (rfl)
@[simp] theorem Dev.setBit_mer (s : Dev) (a i : Nat) (v : Bool) : (s.setBit a i v).mer = s.mer := (rfl)
@[simp] theorem Dev.setBit_clk (s : Dev) (a i : Nat) (v : Bool) : (s.setBit a i v).clk = s.clk := (rfl)
@[simp] theorem Dev.setBit_memst (s : Dev) (a i : Nat) (v : Bool) : (s.setBit a i v).memst = s.memst := (rfl)
@[simp] theorem Dev.setBit_mons (s : Dev) (a i : Nat) (v : Bool) : (s.setBit a i v).mons = s.mons := (rfl)
@[simp] theorem Dev.setBit_datum (s : Dev) (a i : Nat) (v : Bool) : (s.setBit a i v).datum = s.datum := (rfl)
@[simp] theorem Dev.setBit_link (s : Dev) (a i : Nat) (v : Bool) : (s.setBit a i v).link = s.link := (rfl)
@[simp] theorem Dev.setBit_frz (s : Dev) (a i : Nat) (v : Bool) : (s.setBit a i v).frz = s.frz := (rfl)
@[simp] theorem Dev.setBit_cfg (s : Dev) (a i : Nat) (v : Bool) : (s.setBit a i v).cfg = s.cfg := (rfl)
@[simp] theorem Dev.setBit_segs (s : Dev) (a i : Nat) (v : Bool) : (s.setBit a i v).segs = s.segs := (rfl)
@[simp] theorem Dev.setBit_rowLast (s : Dev) (a i : Nat) (v : Bool) : (s.setBit a i v).rowLast = s.rowLast := (rfl)
@[simp] theorem Dev.setBit_latches (s : Dev) (a i : Nat) (v : Bool) : (s.setBit a i v).latches = s.latches := (rfl)
@[simp] theorem Dev.setBit_staged (s : Dev) (a i : Nat) (v : Bool) : (s.setBit a i v).staged = s.staged := (rfl)
@[simp] theorem Dev.setBit_answer (s : Dev) (a i : Nat) (v : Bool) : (s.setBit a i v).answer = s.answer := (rfl)
@[simp] theorem Dev.setBit_byte (s : Dev) (a i : Nat) (v : Bool) (y : Nat) : (s.setBit a i v).byte y = s.byte y := (rfl)
@[simp] theorem Dev.setBit_sl (s : Dev) (a i : Nat) (v : Bool) (y : SliceId) : (s.setBit a i v).sl y = s.sl y := (rfl)
@[simp] theorem Dev.setBit_eng (s : Dev) (a i : Nat) (v : Bool) (y : GroupId) : (s.setBit a i v).eng y = s.eng y := (rfl)

/-! ## cause -/

@[simp] theorem Dev.cause_now (s : Dev) (x : Nat) (v : Bool) : (s.cause x v).now = s.now := (rfl)
@[simp] theorem Dev.cause_time (s : Dev) (x : Nat) (v : Bool) : (s.cause x v).time = s.time := (rfl)
@[simp] theorem Dev.cause_freeCtr (s : Dev) (x : Nat) (v : Bool) : (s.cause x v).freeCtr = s.freeCtr := (rfl)
@[simp] theorem Dev.cause_mem (s : Dev) (x : Nat) (v : Bool) : (s.cause x v).mem = s.mem := (rfl)
@[simp] theorem Dev.cause_nvm (s : Dev) (x : Nat) (v : Bool) : (s.cause x v).nvm = s.nvm := (rfl)
@[simp] theorem Dev.cause_slices (s : Dev) (x : Nat) (v : Bool) : (s.cause x v).slices = s.slices := (rfl)
@[simp] theorem Dev.cause_gens (s : Dev) (x : Nat) (v : Bool) : (s.cause x v).gens = s.gens := (rfl)
@[simp] theorem Dev.cause_lanes (s : Dev) (x : Nat) (v : Bool) : (s.cause x v).lanes = s.lanes := (rfl)
@[simp] theorem Dev.cause_engines (s : Dev) (x : Nat) (v : Bool) : (s.cause x v).engines = s.engines := (rfl)
@[simp] theorem Dev.cause_rings (s : Dev) (x : Nat) (v : Bool) : (s.cause x v).rings = s.rings := (rfl)
@[simp] theorem Dev.cause_chans (s : Dev) (x : Nat) (v : Bool) : (s.cause x v).chans = s.chans := (rfl)
@[simp] theorem Dev.cause_vects (s : Dev) (x : Nat) (v : Bool) : (s.cause x v).vects = s.vects := (rfl)
@[simp] theorem Dev.cause_sched (s : Dev) (x : Nat) (v : Bool) : (s.cause x v).sched = s.sched := (rfl)
@[simp] theorem Dev.cause_col (s : Dev) (x : Nat) (v : Bool) : (s.cause x v).col = s.col := (rfl)
@[simp] theorem Dev.cause_plates (s : Dev) (x : Nat) (v : Bool) : (s.cause x v).plates = s.plates := (rfl)
@[simp] theorem Dev.cause_boot (s : Dev) (x : Nat) (v : Bool) : (s.cause x v).boot = s.boot := (rfl)
@[simp] theorem Dev.cause_pins (s : Dev) (x : Nat) (v : Bool) : (s.cause x v).pins = s.pins := (rfl)
@[simp] theorem Dev.cause_mer (s : Dev) (x : Nat) (v : Bool) : (s.cause x v).mer = s.mer := (rfl)
@[simp] theorem Dev.cause_clk (s : Dev) (x : Nat) (v : Bool) : (s.cause x v).clk = s.clk := (rfl)
@[simp] theorem Dev.cause_memst (s : Dev) (x : Nat) (v : Bool) : (s.cause x v).memst = s.memst := (rfl)
@[simp] theorem Dev.cause_mons (s : Dev) (x : Nat) (v : Bool) : (s.cause x v).mons = s.mons := (rfl)
@[simp] theorem Dev.cause_datum (s : Dev) (x : Nat) (v : Bool) : (s.cause x v).datum = s.datum := (rfl)
@[simp] theorem Dev.cause_link (s : Dev) (x : Nat) (v : Bool) : (s.cause x v).link = s.link := (rfl)
@[simp] theorem Dev.cause_frz (s : Dev) (x : Nat) (v : Bool) : (s.cause x v).frz = s.frz := (rfl)
@[simp] theorem Dev.cause_cfg (s : Dev) (x : Nat) (v : Bool) : (s.cause x v).cfg = s.cfg := (rfl)
@[simp] theorem Dev.cause_segs (s : Dev) (x : Nat) (v : Bool) : (s.cause x v).segs = s.segs := (rfl)
@[simp] theorem Dev.cause_rowLast (s : Dev) (x : Nat) (v : Bool) : (s.cause x v).rowLast = s.rowLast := (rfl)
@[simp] theorem Dev.cause_latches (s : Dev) (x : Nat) (v : Bool) : (s.cause x v).latches = s.latches := (rfl)
@[simp] theorem Dev.cause_staged (s : Dev) (x : Nat) (v : Bool) : (s.cause x v).staged = s.staged := (rfl)
@[simp] theorem Dev.cause_answer (s : Dev) (x : Nat) (v : Bool) : (s.cause x v).answer = s.answer := (rfl)
@[simp] theorem Dev.cause_byte (s : Dev) (x : Nat) (v : Bool) (y : Nat) : (s.cause x v).byte y = s.byte y := (rfl)
@[simp] theorem Dev.cause_sl (s : Dev) (x : Nat) (v : Bool) (y : SliceId) : (s.cause x v).sl y = s.sl y := (rfl)
@[simp] theorem Dev.cause_eng (s : Dev) (x : Nat) (v : Bool) (y : GroupId) : (s.cause x v).eng y = s.eng y := (rfl)

/-! ## taken -/

/-- Commands of a ring execute 16 cycles apart at least (R370). -/
theorem Dev.taken_now (s : Dev) (r : RingId) (h : s.awake = true) : (s.taken r).now = max s.now (s.ring r).next :=
  Dev.upTo_now _ _ h

@[simp] theorem Dev.taken_freeCtr (s : Dev) (r : RingId) : (s.taken r).freeCtr = s.freeCtr := Dev.upTo_freeCtr _ _
@[simp] theorem Dev.taken_regs (s : Dev) (r : RingId) : (s.taken r).regs = s.regs := Dev.upTo_regs _ _
@[simp] theorem Dev.taken_mem (s : Dev) (r : RingId) : (s.taken r).mem = s.mem := Dev.upTo_mem _ _
@[simp] theorem Dev.taken_nvm (s : Dev) (r : RingId) : (s.taken r).nvm = s.nvm := Dev.upTo_nvm _ _
@[simp] theorem Dev.taken_slices (s : Dev) (r : RingId) : (s.taken r).slices = s.slices := Dev.upTo_slices _ _
@[simp] theorem Dev.taken_gens (s : Dev) (r : RingId) : (s.taken r).gens = s.gens := Dev.upTo_gens _ _
@[simp] theorem Dev.taken_lanes (s : Dev) (r : RingId) : (s.taken r).lanes = s.lanes := Dev.upTo_lanes _ _
@[simp] theorem Dev.taken_engines (s : Dev) (r : RingId) : (s.taken r).engines = s.engines := Dev.upTo_engines _ _
@[simp] theorem Dev.taken_chans (s : Dev) (r : RingId) : (s.taken r).chans = s.chans := Dev.upTo_chans _ _
@[simp] theorem Dev.taken_vects (s : Dev) (r : RingId) : (s.taken r).vects = s.vects := Dev.upTo_vects _ _
@[simp] theorem Dev.taken_sched (s : Dev) (r : RingId) : (s.taken r).sched = s.sched := Dev.upTo_sched _ _
@[simp] theorem Dev.taken_col (s : Dev) (r : RingId) : (s.taken r).col = s.col := Dev.upTo_col _ _
@[simp] theorem Dev.taken_plates (s : Dev) (r : RingId) : (s.taken r).plates = s.plates := Dev.upTo_plates _ _
@[simp] theorem Dev.taken_boot (s : Dev) (r : RingId) : (s.taken r).boot = s.boot := Dev.upTo_boot _ _
@[simp] theorem Dev.taken_pins (s : Dev) (r : RingId) : (s.taken r).pins = s.pins := Dev.upTo_pins _ _
@[simp] theorem Dev.taken_mer (s : Dev) (r : RingId) : (s.taken r).mer = s.mer := Dev.upTo_mer _ _
@[simp] theorem Dev.taken_clk (s : Dev) (r : RingId) : (s.taken r).clk = s.clk := Dev.upTo_clk _ _
@[simp] theorem Dev.taken_memst (s : Dev) (r : RingId) : (s.taken r).memst = s.memst := Dev.upTo_memst _ _
@[simp] theorem Dev.taken_mons (s : Dev) (r : RingId) : (s.taken r).mons = s.mons := Dev.upTo_mons _ _
@[simp] theorem Dev.taken_datum (s : Dev) (r : RingId) : (s.taken r).datum = s.datum := Dev.upTo_datum _ _
@[simp] theorem Dev.taken_link (s : Dev) (r : RingId) : (s.taken r).link = s.link := Dev.upTo_link _ _
@[simp] theorem Dev.taken_cfg (s : Dev) (r : RingId) : (s.taken r).cfg = s.cfg := Dev.upTo_cfg _ _
@[simp] theorem Dev.taken_segs (s : Dev) (r : RingId) : (s.taken r).segs = s.segs := Dev.upTo_segs _ _
@[simp] theorem Dev.taken_rowLast (s : Dev) (r : RingId) : (s.taken r).rowLast = s.rowLast := Dev.upTo_rowLast _ _
@[simp] theorem Dev.taken_latches (s : Dev) (r : RingId) : (s.taken r).latches = s.latches := Dev.upTo_latches _ _
@[simp] theorem Dev.taken_staged (s : Dev) (r : RingId) : (s.taken r).staged = s.staged := Dev.upTo_staged _ _
@[simp] theorem Dev.taken_answer (s : Dev) (r : RingId) : (s.taken r).answer = s.answer := Dev.upTo_answer _ _
@[simp] theorem Dev.taken_rd (s : Dev) (r : RingId) (x : Nat) : (s.taken r).rd x = s.rd x := Dev.upTo_rd _ _ _
@[simp] theorem Dev.taken_fld (s : Dev) (r : RingId) (x : Nat) (y : Fld) : (s.taken r).fld x y = s.fld x y := Dev.upTo_fld _ _ _ _
@[simp] theorem Dev.taken_flag (s : Dev) (r : RingId) (x : Nat) (y : Fld) : (s.taken r).flag x y = s.flag x y := Dev.upTo_flag _ _ _ _
@[simp] theorem Dev.taken_byte (s : Dev) (r : RingId) (y : Nat) : (s.taken r).byte y = s.byte y := Dev.upTo_byte _ _ _
@[simp] theorem Dev.taken_sl (s : Dev) (r : RingId) (y : SliceId) : (s.taken r).sl y = s.sl y := Dev.upTo_sl _ _ _
@[simp] theorem Dev.taken_eng (s : Dev) (r : RingId) (y : GroupId) : (s.taken r).eng y = s.eng y := Dev.upTo_eng _ _ _

end Sys2Proof.Machine
end

