-- ==== Sys2Proof/Laws/Keeps.lean ====
section
/-! SUPPORT. The frame `Dev.keeps`, update by update: a register write inside the frame and a change of anything that is
no register, store or plate keep it. -/

namespace Sys2Proof.Machine

theorem Dev.keeps_refl (s : Dev) (l : List Nat) : s.keeps s l := ⟨fun _ _ => rfl, rfl, rfl, rfl⟩

theorem Dev.keeps.trans {s t u : Dev} {l : List Nat} (h : s.keeps t l) (k : t.keeps u l) : s.keeps u l :=
  ⟨fun a ha => (k.1 a ha).trans (h.1 a ha), k.2.1.trans h.2.1, k.2.2.1.trans h.2.2.1, k.2.2.2.trans h.2.2.2⟩

theorem Dev.keeps.mono {s t : Dev} {l m : List Nat} (h : s.keeps t l) (k : l ⊆ m) : s.keeps t m := ⟨fun a ha => h.1 a (fun e => ha (k e)), h.2⟩

theorem Dev.keeps.wr {s t : Dev} {l : List Nat} (h : s.keeps t l) (a : Nat) (v : Word) (ha : a ∈ l) : s.keeps (t.wr a v) l :=
  ⟨fun x hx => (Dev.rd_wr_other t a x v (fun e => hx (e ▸ ha))).trans (h.1 x hx), (Dev.wr_mem _ _ _).trans h.2.1, (Dev.wr_nvm _ _ _).trans h.2.2.1,
   (Dev.wr_plates _ _ _).trans h.2.2.2⟩

theorem Dev.keeps.setFld {s t : Dev} {l : List Nat} (h : s.keeps t l) (b : Nat) (f : Fld) (v : Nat) (ha : b + f.off ∈ l) :
    s.keeps (t.setFld b f v) l := h.wr _ _ ha

theorem Dev.keeps.setFlag {s t : Dev} {l : List Nat} (h : s.keeps t l) (b : Nat) (f : Fld) (v : Bool) (ha : b + f.off ∈ l) :
    s.keeps (t.setFlag b f v) l := h.wr _ _ ha

theorem Dev.keeps.addFld {s t : Dev} {l : List Nat} (h : s.keeps t l) (b : Nat) (f : Fld) (v : Nat) (ha : b + f.off ∈ l) :
    s.keeps (t.addFld b f v) l := h.wr _ _ ha

theorem Dev.keeps.store {s t : Dev} {l : List Nat} (h : s.keeps t l) (a : Nat) (v : Word) (ha : a ∈ l) : s.keeps (t.store a v) l := by
  unfold Dev.store
  split
  · exact h.wr _ _ ha
  · exact h

theorem Dev.keeps.wr64 {s t : Dev} {l : List Nat} (h : s.keeps t l) (a b : Nat) (v : Word64) (ha : a ∈ l) (hb : b ∈ l) : s.keeps (t.wr64 a b v) l :=
  (h.wr _ _ ha).wr _ _ hb

theorem Dev.keeps.cause {s t : Dev} {l : List Nat} (h : s.keeps t l) (x : Nat) (v : Bool) (ha : FAULT_CAUSE + 4 * (x / 32) ∈ l) :
    s.keeps (t.cause x v) l := h.setFld _ _ _ (by simpa using ha)

theorem Dev.keeps.upTo {s t : Dev} {l : List Nat} (h : s.keeps t l) (c : Nat) : s.keeps (t.upTo c) l :=
  ⟨fun a ha => (by simpa using h.1 a ha), by simpa using h.2.1, by simpa using h.2.2.1, by simpa using h.2.2.2⟩

theorem Dev.keeps.modSl {s t : Dev} {l : List Nat} (h : s.keeps t l) (n : SliceId) (f : Slice → Slice) : s.keeps (t.modSl n f) l := ⟨h.1, h.2⟩

theorem Dev.keeps.modGen {s t : Dev} {l : List Nat} (h : s.keeps t l) (n : SliceId) (f : Gen → Gen) : s.keeps (t.modGen n f) l := ⟨h.1, h.2⟩

theorem Dev.keeps.modEng {s t : Dev} {l : List Nat} (h : s.keeps t l) (g : GroupId) (f : Engine → Engine) : s.keeps (t.modEng g f) l := ⟨h.1, h.2⟩

theorem Dev.keeps.modRing {s t : Dev} {l : List Nat} (h : s.keeps t l) (r : RingId) (f : Ring → Ring) : s.keeps (t.modRing r f) l := ⟨h.1, h.2⟩

theorem Dev.keeps.modChan {s t : Dev} {l : List Nat} (h : s.keeps t l) (c : RingId) (f : Chan → Chan) : s.keeps (t.modChan c f) l := ⟨h.1, h.2⟩

theorem Dev.keeps.modLane {s t : Dev} {l : List Nat} (h : s.keeps t l) (k : LaneId) (f : Lane → Lane) : s.keeps (t.modLane k f) l := ⟨h.1, h.2⟩

theorem Dev.keeps.modVect {s t : Dev} {l : List Nat} (h : s.keeps t l) (v : Fin 40) (f : Vect → Vect) : s.keeps (t.modVect v f) l := ⟨h.1, h.2⟩

theorem Dev.keeps.modPort {s t : Dev} {l : List Nat} (h : s.keeps t l) (p : PortId) (f : Port → Port) : s.keeps (t.modPort p f) l := ⟨h.1, h.2⟩

theorem Dev.keeps.draw {s t : Dev} {l : List Nat} (h : s.keeps t l)  : s.keeps (t.draw ) l := ⟨h.1, h.2⟩

theorem Dev.keeps.modBoot {s t : Dev} {l : List Nat} (h : s.keeps t l) (f : Boot → Boot) : s.keeps (t.modBoot f) l := ⟨h.1, h.2⟩

theorem Dev.keeps.modPins {s t : Dev} {l : List Nat} (h : s.keeps t l) (f : Pins → Pins) : s.keeps (t.modPins f) l := ⟨h.1, h.2⟩

theorem Dev.keeps.modMer {s t : Dev} {l : List Nat} (h : s.keeps t l) (f : Mer → Mer) : s.keeps (t.modMer f) l := ⟨h.1, h.2⟩

theorem Dev.keeps.modClk {s t : Dev} {l : List Nat} (h : s.keeps t l) (f : Clk → Clk) : s.keeps (t.modClk f) l := ⟨h.1, h.2⟩

theorem Dev.keeps.modFrz {s t : Dev} {l : List Nat} (h : s.keeps t l) (f : Frz → Frz) : s.keeps (t.modFrz f) l := ⟨h.1, h.2⟩

theorem Dev.keeps.modCol {s t : Dev} {l : List Nat} (h : s.keeps t l) (f : Collector → Collector) : s.keeps (t.modCol f) l := ⟨h.1, h.2⟩

theorem Dev.keeps.modLink {s t : Dev} {l : List Nat} (h : s.keeps t l) (f : LinkSt → LinkSt) : s.keeps (t.modLink f) l := ⟨h.1, h.2⟩

theorem Dev.keeps.modMem {s t : Dev} {l : List Nat} (h : s.keeps t l) (f : MemSt → MemSt) : s.keeps (t.modMem f) l := ⟨h.1, h.2⟩

theorem Dev.keeps.modDatum {s t : Dev} {l : List Nat} (h : s.keeps t l) (f : DatumSt → DatumSt) : s.keeps (t.modDatum f) l := ⟨h.1, h.2⟩

theorem Dev.keeps.vector {s t : Dev} {l : List Nat} (h : s.keeps t l) (v : Fin 40) : s.keeps (t.vector v) l := ⟨h.1, h.2⟩

theorem Dev.keeps.taken {s t : Dev} {l : List Nat} (h : s.keeps t l) (r : RingId) : s.keeps (t.taken r) l :=
  ⟨fun a ha => (by simpa using h.1 a ha), by simpa using h.2.1, by simpa using h.2.2.1, by simpa using h.2.2.2⟩

end Sys2Proof.Machine
end

