-- ==== Sys2Proof/Laws/Reply.lean ====
section
/-! SUPPORT. What a completion can do: it touches the rings, the vectors, the link and the HOST registers, and nothing
else; and what it posts. -/

namespace Sys2Proof.Machine

/-- A change that leaves everything but rings, vectors, link and HOST registers as it was. -/
structure Dev.SameButHost (s t : Dev) : Prop where
  now    : t.now = s.now
  time   : t.time = s.time
  mem    : t.mem = s.mem
  nvm    : t.nvm = s.nvm
  slices : t.slices = s.slices
  gens   : t.gens = s.gens
  engines : t.engines = s.engines
  sched  : t.sched = s.sched
  col    : t.col = s.col
  plates : t.plates = s.plates
  boot   : t.boot = s.boot
  pins   : t.pins = s.pins
  frz    : t.frz = s.frz
  datum  : t.datum = s.datum
  memst  : t.memst = s.memst
  segs   : t.segs = s.segs
  rd     : ∀ a, a < 0x70000 ∨ 0x80000 ≤ a → t.rd a = s.rd a

theorem Dev.SameButHost.refl (s : Dev) : s.SameButHost s :=
  ⟨rfl, rfl, rfl, rfl, rfl, rfl, rfl, rfl, rfl, rfl, rfl, rfl, rfl, rfl, rfl, rfl, fun _ _ => rfl⟩

theorem Dev.SameButHost.trans {s t u : Dev} (h : s.SameButHost t) (k : t.SameButHost u) : s.SameButHost u :=
  ⟨k.now.trans h.now, k.time.trans h.time, k.mem.trans h.mem, k.nvm.trans h.nvm, k.slices.trans h.slices, k.gens.trans h.gens,
   k.engines.trans h.engines, k.sched.trans h.sched, k.col.trans h.col, k.plates.trans h.plates, k.boot.trans h.boot,
   k.pins.trans h.pins, k.frz.trans h.frz, k.datum.trans h.datum, k.memst.trans h.memst, k.segs.trans h.segs,
   fun a ha => (k.rd a ha).trans (h.rd a ha)⟩

theorem Dev.SameButHost.ofRing (s : Dev) (r : RingId) (f : Ring → Ring) : s.SameButHost (s.modRing r f) :=
  ⟨rfl, rfl, rfl, rfl, rfl, rfl, rfl, rfl, rfl, rfl, rfl, rfl, rfl, rfl, rfl, rfl, fun _ _ => rfl⟩

theorem Dev.SameButHost.ofPort (s : Dev) (p : PortId) (f : Port → Port) : s.SameButHost (s.modPort p f) :=
  ⟨rfl, rfl, rfl, rfl, rfl, rfl, rfl, rfl, rfl, rfl, rfl, rfl, rfl, rfl, rfl, rfl, fun _ _ => rfl⟩

theorem Dev.SameButHost.ofVector (s : Dev) (v : Fin 40) : s.SameButHost (s.vector v) :=
  ⟨rfl, rfl, rfl, rfl, rfl, rfl, rfl, rfl, rfl, rfl, rfl, rfl, rfl, rfl, rfl, rfl, fun _ _ => rfl⟩

/-- A field of a ring pair's registers lies in the HOST block. -/
theorem Dev.SameButHost.ofRingFld (s : Dev) (r : RingId) (f : Fld) (v : Nat) (h : f.off < 0x40) : s.SameButHost (s.setFld (rB r) f v) :=
  ⟨rfl, rfl, rfl, rfl, rfl, rfl, rfl, rfl, rfl, rfl, rfl, rfl, rfl, rfl, rfl, rfl, fun a ha =>
    Dev.rd_setFld_other _ _ _ _ _ (by have := r.isLt; simp only [rB, ringBase]; omega)⟩

theorem Dev.SameButHost.ofRingFlag (s : Dev) (r : RingId) (f : Fld) (v : Bool) (h : f.off < 0x40) : s.SameButHost (s.setFlag (rB r) f v) :=
  Dev.SameButHost.ofRingFld _ _ _ _ h

theorem Dev.pumpVc_same (s : Dev) (p : PortId) (k : Fin 3) : s.SameButHost (s.pumpVc p k) := by
  unfold Dev.pumpVc
  split
  · exact .ofPort _ _ _
  · exact .refl _

theorem Dev.sendFrom_same (s : Dev) (p : PortId) (k : Fin 3) (src dst : Nat) (b : Body) : s.SameButHost (s.sendFrom p k src dst b) :=
  (Dev.SameButHost.ofPort s p _).trans (Dev.pumpVc_same _ _ _)

theorem Dev.postCpl_same (s : Dev) (r : RingId) (c : Cpl) (irq : Bool) : s.SameButHost (s.postCpl r c irq) := by
  unfold Dev.postCpl
  have h := ((((Dev.SameButHost.ofRing s r (fun x =>
    { x with cpl := x.cpl ++ [{ c with phase := x.phase }]
             phase := if s.fld (rB r) HOST_CPL_TAIL_TAIL % 128 == 127 then !x.phase else x.phase })).trans
    (.ofRingFld _ r HOST_CPL_TAIL_TAIL (s.fld (rB r) HOST_CPL_TAIL_TAIL + 1) (by decide))).trans
    (.ofRingFld _ r HOST_RING_STATUS_IN_FLIGHT (s.fld (rB r) HOST_RING_STATUS_IN_FLIGHT - 1) (by decide))).trans
    (.ofRingFlag _ r HOST_RING_STATUS_RUNNING
      (s.flag (rB r) HOST_RING_CFG_ENABLE || decide (0 < s.fld (rB r) HOST_RING_STATUS_IN_FLIGHT - 1)) (by decide)))
  dsimp only
  split
  · exact (h.trans (.ofRingFlag _ r HOST_RING_CAUSE_COMPLETION true (by decide))).trans (.ofVector _ _)
  · exact h

theorem Dev.unhold_same (s : Dev) (r : RingId) : s.SameButHost (s.unhold r) :=
  ((Dev.SameButHost.ofRing s r _).trans (.ofRingFlag _ r HOST_RING_STATUS_BARRIER_WAIT false (by decide))).trans
    (.ofRingFlag _ r HOST_RING_STATUS_FENCE_WAIT false (by decide))

theorem Dev.relay_same (s : Dev) (c : Ctx) (k i : Nat) (cmd : RingCmd) : s.SameButHost (s.relay c k i cmd) :=
  (Dev.SameButHost.ofRing s c.hdr.ring _).trans (Dev.sendFrom_same _ _ _ _ _ _)

theorem Dev.fencePass_same (s : Dev) (r : RingId) : s.SameButHost (s.fencePass r) := by
  unfold Dev.fencePass
  split
  · split
    · split
      · exact (Dev.unhold_same s r).trans (Dev.postCpl_same _ _ _ _)
      · exact Dev.relay_same _ _ _ _ _
    · exact .refl _
  · exact .refl _

/-- A completion touches nothing but rings, vectors, the link and HOST registers. -/
theorem Dev.completeAt_same (s : Dev) (c : Ctx) (status off : Nat) (t : Word64) : s.SameButHost (s.completeAt c status off t) := by
  unfold Dev.completeAt
  dsimp only
  split
  · exact .refl _
  · split
    · refine Dev.SameButHost.trans ?_ (Dev.sendFrom_same _ _ _ _ _ _)
      exact ⟨rfl, rfl, rfl, rfl, rfl, rfl, rfl, rfl, rfl, rfl, rfl, rfl, rfl, rfl, rfl, rfl, fun _ _ => rfl⟩
    · exact (Dev.postCpl_same _ _ _ _).trans (Dev.fencePass_same _ _)

theorem Dev.complete_same (s : Dev) (c : Ctx) (status : Nat) : s.SameButHost (s.complete c status) :=
  Dev.completeAt_same _ _ _ _ _

/-- A change of registers outside HOST shows the same fields. -/
theorem Dev.SameButHost.fld {s t : Dev} (h : s.SameButHost t) (b : Nat) (f : Fld) (k : b + f.off < 0x70000 ∨ 0x80000 ≤ b + f.off) :
    t.fld b f = s.fld b f := by
  unfold Dev.fld; rw [h.rd _ k]

theorem Dev.SameButHost.flag {s t : Dev} (h : s.SameButHost t) (b : Nat) (f : Fld) (k : b + f.off < 0x70000 ∨ 0x80000 ≤ b + f.off) :
    t.flag b f = s.flag b f := by
  unfold Dev.flag; rw [h.fld _ _ k]

theorem Dev.SameButHost.sl {s t : Dev} (h : s.SameButHost t) (n : SliceId) : t.sl n = s.sl n := by
  unfold Dev.sl; rw [h.slices]

theorem Dev.SameButHost.each {α : Type} (l : List α) (f : Dev → α → Dev) (hf : ∀ (d : Dev) (x : α), d.SameButHost (f d x)) (s : Dev) :
    s.SameButHost (s.each l f) := by
  unfold Dev.each
  induction l generalizing s with
  | nil => exact .refl _
  | cons x l ih => exact (hf s x).trans (ih _)

/-- Scheduled commands that complete leave the schedule; beside it, only what a completion touches changes. -/
theorem Dev.settle_same (s : Dev) (p : Sched → Bool) (f : Sched → Nat × Word64) :
    Dev.SameButHost { s with sched := s.sched.filter (fun x => !p x) } (s.settle p f) :=
  Dev.SameButHost.each _ _ (fun _ _ => Dev.completeAt_same _ _ _ _ _) _

/-- Where nothing is scheduled nothing completes. -/
theorem Dev.settle_none (s : Dev) (p : Sched → Bool) (f : Sched → Nat × Word64) (h : s.sched = []) : s.settle p f = s := by
  unfold Dev.settle
  simp [h, Dev.each]
  rw [← h]

/-! ## What a completion posts -/

theorem Dev.postCpl_cpl (s : Dev) (r : RingId) (c : Cpl) (irq : Bool) :
    ((s.postCpl r c irq).ring r).cpl = (s.ring r).cpl ++ [{ c with phase := (s.ring r).phase }] := by
  unfold Dev.postCpl
  dsimp only
  split <;> simp [Dev.ring, Dev.vector, Dev.modVect, Dev.modRing, vector_get_set, Dev.setFlag, Dev.setFld, Dev.wr]

theorem Dev.postCpl_held (s : Dev) (r : RingId) (c : Cpl) (irq : Bool) : ((s.postCpl r c irq).ring r).held = (s.ring r).held := by
  unfold Dev.postCpl
  dsimp only
  split <;> simp [Dev.ring, Dev.vector, Dev.modVect, Dev.modRing, vector_get_set, Dev.setFlag, Dev.setFld, Dev.wr]

/-- On a hub's ring that nothing holds, a completion posts one entry with its status, offset and TIME. -/
theorem Dev.completeAt_cpl (s : Dev) (c : Ctx) (status off : Nat) (t : Word64) (hd : c.drop = false) (hr : c.remote = false)
    (hh : (s.ring c.hdr.ring).held = none) :
    ((s.completeAt c status off t).ring c.hdr.ring).cpl = (s.ring c.hdr.ring).cpl ++
      [{ tag := c.hdr.tag, status := status, phase := (s.ring c.hdr.ring).phase, relayed := false, opcode := c.opcode
         group := c.hdr.group.toNat % 32, node := s.fld (rB c.hdr.ring) HOST_RING_CFG_NODE, faultOff := off, time := t }] := by
  unfold Dev.completeAt
  simp only [hd, hr, Bool.false_eq_true, if_false]
  unfold Dev.fencePass
  rw [Dev.postCpl_held, hh]
  simp only [Dev.postCpl_cpl]

end Sys2Proof.Machine
end

