-- ==== Sys2Proof/Laws/Events.lean ====
section
/-! SUPPORT. Events of the Meridian, the clocking system and the link: a Meridian event changes its cause bit and at most a
vector, the others at most a vector. -/

namespace Sys2Proof.Machine

theorem Dev.merEvent_cases (s : Dev) (b : Nat) : s.merEvent b = s.setFld 0 ⟨MER_IRQ_CAUSE, b, 1⟩ 1 ∨
    s.merEvent b = (s.setFld 0 ⟨MER_IRQ_CAUSE, b, 1⟩ 1).vector 3 := by
  unfold Dev.merEvent; dsimp only; split
  · exact .inr rfl
  · exact .inl rfl

theorem Dev.keeps.merEvent {s t : Dev} {l : List Nat} (h : s.keeps t l) (b : Nat) (ha : MER_IRQ_CAUSE ∈ l) : s.keeps (t.merEvent b) l := by
  rcases Dev.merEvent_cases t b with e | e <;> rw [e]
  · exact h.setFld _ _ _ (by simpa using ha)
  · exact (h.setFld _ _ _ (by simpa using ha)).vector _

theorem Dev.merEvent_fld (s : Dev) (b b' : Nat) (f : Fld) (h : MER_IRQ_CAUSE ≠ b' + f.off) : (s.merEvent b).fld b' f = s.fld b' f := by
  rcases Dev.merEvent_cases s b with e | e <;> rw [e]
  · exact Dev.fld_setFld_word _ _ _ _ _ _ (by simpa using h)
  · rw [Dev.vector_fld]; exact Dev.fld_setFld_word _ _ _ _ _ _ (by simpa using h)

theorem Dev.merEvent_flag (s : Dev) (b b' : Nat) (f : Fld) (h : MER_IRQ_CAUSE ≠ b' + f.off) : (s.merEvent b).flag b' f = s.flag b' f := by
  unfold Dev.flag; rw [Dev.merEvent_fld s b b' f h]

theorem Dev.merEvent_rd (s : Dev) (b a : Nat) (h : a ≠ MER_IRQ_CAUSE) : (s.merEvent b).rd a = s.rd a :=
  ((Dev.keeps_refl s [MER_IRQ_CAUSE]).merEvent b (by simp)).1 a (by simpa using h)

@[simp] theorem Dev.merEvent_time (s : Dev) (b : Nat) : (s.merEvent b).time = s.time := by
  rcases Dev.merEvent_cases s b with e | e <;> rw [e] <;> simp
@[simp] theorem Dev.merEvent_now (s : Dev) (b : Nat) : (s.merEvent b).now = s.now := by
  rcases Dev.merEvent_cases s b with e | e <;> rw [e] <;> simp
@[simp] theorem Dev.merEvent_mer (s : Dev) (b : Nat) : (s.merEvent b).mer = s.mer := by
  rcases Dev.merEvent_cases s b with e | e <;> rw [e] <;> simp
@[simp] theorem Dev.merEvent_mem (s : Dev) (b : Nat) : (s.merEvent b).mem = s.mem := by
  rcases Dev.merEvent_cases s b with e | e <;> rw [e] <;> simp

theorem Dev.clkEvent_cases (s old : Dev) : s.clkEvent old = s ∨ s.clkEvent old = s.vector 3 := by
  unfold Dev.clkEvent; dsimp only; split
  · exact .inr rfl
  · exact .inl rfl

theorem Dev.keeps.clkEvent {s t : Dev} {l : List Nat} (h : s.keeps t l) (o : Dev) : s.keeps (t.clkEvent o) l := by
  rcases Dev.clkEvent_cases t o with e | e <;> rw [e]
  · exact h
  · exact h.vector _

@[simp] theorem Dev.clkEvent_rd (s o : Dev) (a : Nat) : (s.clkEvent o).rd a = s.rd a := by
  rcases Dev.clkEvent_cases s o with e | e <;> rw [e]; exact Dev.vector_rd _ _ _
@[simp] theorem Dev.clkEvent_fld (s o : Dev) (b : Nat) (f : Fld) : (s.clkEvent o).fld b f = s.fld b f := by
  rcases Dev.clkEvent_cases s o with e | e <;> rw [e]; exact Dev.vector_fld _ _ _ _
@[simp] theorem Dev.clkEvent_flag (s o : Dev) (b : Nat) (f : Fld) : (s.clkEvent o).flag b f = s.flag b f := by
  rcases Dev.clkEvent_cases s o with e | e <;> rw [e]; exact Dev.vector_flag _ _ _ _
@[simp] theorem Dev.clkEvent_now (s o : Dev) : (s.clkEvent o).now = s.now := by
  rcases Dev.clkEvent_cases s o with e | e <;> rw [e]; simp
@[simp] theorem Dev.clkEvent_time (s o : Dev) : (s.clkEvent o).time = s.time := by
  rcases Dev.clkEvent_cases s o with e | e <;> rw [e]; simp
@[simp] theorem Dev.clkEvent_clk (s o : Dev) : (s.clkEvent o).clk = s.clk := by
  rcases Dev.clkEvent_cases s o with e | e <;> rw [e]; simp
@[simp] theorem Dev.clkEvent_col (s o : Dev) : (s.clkEvent o).col = s.col := by
  rcases Dev.clkEvent_cases s o with e | e <;> rw [e]; simp

/-- A group event is a cause of the pair bound to the group, and its vector; a group that no pair is bound to has none. -/
theorem Dev.groupEvent_same (s : Dev) (g : Nat) : s.SameButHost (s.groupEvent g) := by
  unfold Dev.groupEvent
  split
  · exact (Dev.SameButHost.ofRingFlag _ _ _ _ (by decide)).trans (Dev.SameButHost.ofVector _ _)
  · exact .refl _

theorem Dev.sliceEvent_same (s : Dev) (n : SliceId) : s.SameButHost (s.sliceEvent n) := Dev.groupEvent_same _ _

theorem Dev.linkEvent_cases (s : Dev) : s.linkEvent = s ∨ s.linkEvent = s.vector 2 := by
  unfold Dev.linkEvent; split
  · exact .inr rfl
  · exact .inl rfl

theorem Dev.keeps.linkEvent {s t : Dev} {l : List Nat} (h : s.keeps t l) : s.keeps t.linkEvent l := by
  rcases Dev.linkEvent_cases t with e | e <;> rw [e]
  · exact h
  · exact h.vector _

end Sys2Proof.Machine
end

