-- ==== Sys2Proof/Laws/Ring.lean ====
section
/-! SUPPORT. What the shared entry of every ring command does with one that is ready to execute on this device. -/

namespace Sys2Proof.Machine

@[simp] theorem Dev.taken_group (s : Dev) (r : RingId) (g : Nat) : (s.taken r).group g = s.group g := by
  simp only [Dev.group, Dev.taken_plates]
@[simp] theorem Dev.taken_reloading (s : Dev) (r : RingId) (g : Nat) : (s.taken r).reloading g = s.reloading g := by
  simp only [Dev.reloading, Dev.flag, Dev.fld, Dev.taken_rd, Dev.taken_boot]

/-- The ring a command is taken from: it counts one less as fetched, and is otherwise as it was but for its pace. -/
theorem Dev.taken_ring (s : Dev) (r : RingId) : (s.taken r).ring r =
    { s.ring r with fetched := (s.ring r).fetched - 1, bound := (s.ring r).bound.tail
                    next := (s.upTo (s.ring r).next).now + 16 } := by
  simp [Dev.taken, Dev.paced, Dev.ring, Dev.modRing, vector_get_set, Dev.upTo_rings]

@[simp] theorem Dev.taken_fetched (s : Dev) (r : RingId) : ((s.taken r).ring r).fetched = (s.ring r).fetched - 1 := by
  rw [Dev.taken_ring]
@[simp] theorem Dev.taken_held (s : Dev) (r : RingId) : ((s.taken r).ring r).held = (s.ring r).held := by rw [Dev.taken_ring]
@[simp] theorem Dev.taken_cpl (s : Dev) (r : RingId) : ((s.taken r).ring r).cpl = (s.ring r).cpl := by rw [Dev.taken_ring]
@[simp] theorem Dev.taken_phase (s : Dev) (r : RingId) : ((s.taken r).ring r).phase = (s.ring r).phase := by rw [Dev.taken_ring]

/-- A ready command is taken from its ring, and its opcode acts. -/
theorem Dev.ringCmd_ready {s : Dev} {h : Hdr} {r : GroupRec} (k : s.ready h r) (op : Byte) (cmd : RingCmd)
    (body : Dev → Ctx → GroupRec → Dev) : s.ringCmd h op cmd body = body (s.taken h.ring) (ownCtx h op) r := by
  obtain ⟨-, h2, h3, h4, h5, h6, h7, h8, h9, h10, h11⟩ := k
  have e1 : ((s.ring h.ring).fetched == 0) = false := by simpa using h3
  have e2 : decide (1 < h.flags.toNat) = false := by simpa using h6
  have e3 : (h.group.toNat != (s.binding h.ring).2) = false := by simp [Dev.binding, h5, h8]
  have e6 : ((s.binding h.ring).1 == 0) = true := by simp [Dev.binding, h5, h9]
  have e4 : (s.taken h.ring).group (h.group.toNat % 32) = some r := by simp [h10]
  have e5 : (s.taken h.ring).reloading r.first = false := by simp [h11]
  simp only [Dev.ringCmd, Dev.perform, h2, e1, h4, h5, e2, e3, e6, h7, Bool.not_true, Bool.false_or, Option.isSome_none,
    Bool.false_eq_true, if_false, if_true, List.isEmpty_nil]
  rw [show (s.paced h.ring).modRing h.ring (fun x => { x with fetched := x.fetched - 1, bound := x.bound.tail }) = s.taken h.ring from rfl,
    e4]
  simp only [e5, Bool.false_eq_true, if_false]
  rfl

/-- A ready command that holds its ring is taken from it, and its opcode acts. -/
theorem Dev.ringHold_ready {s : Dev} {h : Hdr} {r : GroupRec} (k : s.ready h r) (op : Byte) (body : Dev → Ctx → Dev) :
    s.ringHold h op body = body (s.taken h.ring) (ownCtx h op) := by
  obtain ⟨-, h2, h3, h4, h5, h6, h7, h8, h9, h10, h11⟩ := k
  have e1 : ((s.ring h.ring).fetched == 0) = false := by simpa using h3
  have e2 : decide (1 < h.flags.toNat) = false := by simpa using h6
  have e3 : (h.group.toNat != (s.binding h.ring).2) = false := by simp [Dev.binding, h5, h8]
  have e6 : ((s.binding h.ring).1 == 0) = true := by simp [Dev.binding, h5, h9]
  have e4 : (s.taken h.ring).group (h.group.toNat % 32) = some r := by simp [h10]
  have e5 : (s.taken h.ring).reloading r.first = false := by simp [h11]
  simp only [Dev.ringHold, h2, e1, h4, h5, e2, e3, e6, h7, Bool.not_true, Bool.false_or, Option.isSome_none,
    Bool.false_eq_true, if_false, if_true, List.isEmpty_nil]
  rw [show (s.paced h.ring).modRing h.ring (fun x => { x with fetched := x.fetched - 1, bound := x.bound.tail }) = s.taken h.ring from rfl,
    e4]
  simp only [e5, Bool.false_eq_true, if_false]
  rfl

end Sys2Proof.Machine
end

