-- ==== Sys2Proof/WellFormed.lean ====
section
/-! DEFINITION. Which commands are well formed: operands that lie within what the spec lets the outside send. A meaning
is total on every command; these checks say which terms stand for a real event. -/

namespace Sys2Proof

/-- An offset of a 32-bit word of BAR0 (R362). -/
def wordOffset (a : Nat) : Bool := a < 0x1000000 && a % 4 == 0

/-- A BAR2 access of `n` bytes at `a` (R361). -/
def bar2Range (a n : Nat) : Bool := decide (0 < n) && decide (a + n ≤ 0x4000000)

/-- A flash image has at most 8 MiB (R17, R20). -/
def imageSize (l : List Byte) : Bool := decide (l.length ≤ 0x800000)

/-- A command entry's ring command, whose reserved opcodes are those of R373 without a name. -/
def RingCmd.wf : RingCmd → Bool
  | .reserved o => o == 0 || decide (0x13 ≤ o.toNat)
  | _ => true

/-- A COMMAND frame carries a key block of 40 bytes exactly when its RING is 0xFF (R395, R406). -/
def keyOk (ring : Byte) (k : Option (List Byte × Bool)) : Bool :=
  match k with
  | none => ring != 0xFF
  | some b => ring == 0xFF && b.1.length == 40

/-- The HEARTBEAT payload: three acks and three credit returns of at most 32 (R395, R396). -/
def Beat.wf (b : Beat) : Bool := b.ack.length == 3 && b.credit.length == 3 && b.credit.all (fun c => decide (c.toNat ≤ 32))

/-- Well-formed commands. -/
def Instr.wf : Instr → Bool
  | .atlasImageCheck p g h l m t _ _ => imageSize p && imageSize g && decide (h.length ≤ 32) && decide (l.length ≤ 32)
    && decide (m.length ≤ 32) && t.length == 4
  | .bootResurveyPass l => l.all (fun t => decide (288 * 520 ≤ t) && decide (t < 319 * 520) && decide (t % 520 < 512))
  | .rgPatternWrite _ o _ => decide (0x220 ≤ o) && decide (o ≤ 0x24C) && o % 4 == 0
  | .genRegisterWrite _ o _ => decide (o < 0x1000) && o % 4 == 0
  | .pairedValueWrite _ o _ _ => wordOffset o
  | .pairedComplementWrite _ o _ _ => wordOffset o
  | .comparatorWrite o _ => wordOffset o
  | .registerWrite _ o _ _ => wordOffset o
  | .lowWordRead _ o => wordOffset o
  | .bar2Write _ o d _ x => bar2Range o d.length && (match x with
      | none => true
      | some y => (y.2.length == 4 || y.2.length == 8) && decide (y.1 + y.2.length ≤ 8))
  | .bar2Read _ o w => bar2Range o (if w then 8 else 4)
  | .datumServiceRun t => t.length == 4
  | .captureStart _ l => (match l with
      | none => true
      | some e => decide (e.length ≤ 4096))
  | .commandFetch _ r => (match r with
      | .ok n => decide (n ≤ 128)
      | .error => true)
  | .reservedOpcode _ o => RingCmd.wf (.reserved o)
  | .commandFrame _ ring _ _ _ c k => keyOk ring k && c.wf
  | .recordFrame _ _ _ l => decide (1 ≤ l.length) && decide (l.length ≤ 15)
  | .stationDataFrame _ _ d _ _ => decide (4 ≤ d.length) && decide (d.length ≤ 248) && d.length % 4 == 0
  | .heartbeatFrame _ b => b.wf
  | .unlockResponse _ r => r.publicKey.length == 96 && r.signature.length == 96
  | .prgPeriodStart _ cs _ => cs.all (fun p => decide (p.1 < 4000))
  | _ => true

end Sys2Proof
end

