-- ==== Sys2Proof/Tests/Slice0.lean ====
section
/-! SUPPORT. Small checks: `WellFormed` refuses an ill-formed command of each check; worked examples of the manual; and for
every statement with hypotheses a concrete state that meets them (`test_hyp_…`, clause by clause). -/

open Sys2Proof Sys2Proof.Machine

namespace Sys2Proof.Tests

set_option Elab.async false

/-- A group of `size` slices from slice 3 on. -/
def grp (size : Nat) : GroupRec := ⟨3, size, 0, false, 0, 0⟩
/-- A gang of `size` slices from slice 3 on. -/
def ganged (size : Nat) : GroupRec := ⟨3, size, 1, false, 0, 0⟩

/-- A released device with the one group `r`, its ring bound to it, and one command fetched on ring 3. -/
def devOf (r : GroupRec) : Dev :=
  ((({ State.reset.toDev with
        pins := { State.reset.pins with resetN := true, pwrfailN := true, interlockN := true, freezeN := true, perstN := true }
        boot := { Boot.atReset with step := 10 }
        plates := { Plates.none with groups := [r] } }).setFlag 0 GLOBAL_STATUS_READY true).setFld (rB 3) HOST_RING_CFG_GROUP 3).modRing
          3 (fun q => { q with fetched := 1 })

/-- The same device with a group of one slice, number 3. -/
def dev : Dev := devOf (grp 1)
def st (d : Dev) : State := State.reset.withDev d
def hdr : Hdr := { ring := 3, group := 3, flags := 0, tag := 7, rsv := none }
def up (d : Dev) (k : Nat) : Dev := { d with boot := { d.boot with step := k } }
/-- The slice 3 of `d` in operation. -/
def runs (d : Dev) : Dev :=
  (d.modSl 3 (fun x => { x with phase := .running, enabled := true })).setFlag (sB 3) SLICE_FORCE_STATUS_PARKED false

theorem test_ready : dev.ready hdr (grp 1) ∧ (devOf (grp 2)).ready hdr (grp 2) := by unfold Dev.ready; decide +kernel
theorem test_hyp_StepRunsTheFrontCommand : ({ State.reset with pending := [.release] } : State).pending = .release :: [] := by decide +kernel

theorem test_hyp_EmptyQueueIsOneCycle :
    ((st dev).pending = [] ∧ (st dev).col.queue = [] ∧ (st dev).col.slots = [] ∧ dev.frz.frozen = false ∧ dev.awake = true ∧ 4 ≤ dev.boot.step) ∧
    (State.reset.pending = [] ∧ State.reset.awake = false) ∧
    ({ dev with frz := { dev.frz with frozen := true } } : Dev).frz.frozen = true := by decide +kernel

theorem test_hyp_StoppedDeviceIgnoresCommands :
    State.reset.awake = false ∧ ({ dev with frz := { dev.frz with frozen := true } } : Dev).awake = false := by decide +kernel



theorem test_hyp_ResetsClearTheDevice : dev.pins.resetN = true ∧ dev.boot.fuseCmd = 0 := by decide +kernel

theorem test_hyp_StartUpAdvances :
    State.reset.pins.resetN = false ∧
    (let s := (up dev 3).setFlag 0 CLK_STATUS_XIN_OK true
     s.awake = true ∧ s.boot.step = 3 ∧ s.flag 0 CLK_STATUS_XIN_OK = true ∧ s.pins.pwrfailN = true ∧ s.pins.brown = [] ∧ s.pins.interlockN = true) ∧
    ((up dev 8).awake = true ∧ (up dev 8).boot.step = 8 ∧ (up dev 8).memst.bad = []) ∧
    ((up dev 9).awake = true ∧ (up dev 9).boot.step = 9 ∧ (up dev 9).pins.pwrfailN = true ∧ (up dev 9).pins.brown = [] ∧
      (up dev 9).flag 0 GLOBAL_STATUS_GRAVE_LATCH = false) := by decide +kernel

/-- A device that waits for an image in step 4. -/
def booting : Dev := (up dev 4).setFlag 0 GLOBAL_STATUS_READY false

theorem test_hyp_AtlasImagesAreRequestedAndTaken :
    (let s := booting.setFlag 0 GLOBAL_STATUS_PUSH_OPEN true
     s.awake = true ∧ s.boot.push = false ∧ s.released = false ∧ s.flag 0 GLOBAL_STATUS_PUSH_OPEN = true) ∧
    (dev.awake = true ∧ dev.boot.push = false ∧ dev.released = true ∧ dev.flag 0 ATLAS_STATUS_PARTIAL_BUSY = false) ∧
    (dev.setFlag 0 ATLAS_STATUS_PARTIAL_BUSY true).flag 0 ATLAS_STATUS_PARTIAL_BUSY = true ∧
    ({ dev with boot := { dev.boot with papply := true } } : Dev).boot.papply = true ∧
    (∀ k, k = 4 ∨ k = 7 → (up booting k).awake = true ∧ (up booting k).boot.partial_ = false ∧ 4 ≤ (up booting k).boot.step ∧ (up booting k).boot.step < 8 ∧
      (up booting k).boot.push = false ∧ (up booting k).fld 0 GLOBAL_STATUS_BOOTSEL = 0 ∧ (up booting k).flag 0 GLOBAL_STATUS_PUSH_OPEN = false) := by
  refine ⟨by decide +kernel, by decide +kernel, by decide +kernel, by decide +kernel, ?_⟩
  rintro k (rfl | rfl) <;> decide +kernel

theorem test_hyp_FuseCommandsAreCheckedAndBlowFuses :
    (dev.awake = true ∧ dev.boot.fuseCmd = 0 ∧ dev.fuseOk State.reset.fuses 1 = true ∧
      dev.fuseOk { State.reset.fuses with blown0 := true } 1 = false ∧ dev.fuseOk State.reset.fuses 3 = false) ∧
    (∀ k ∈ [1, 3, 5], ({ dev with boot := { dev.boot with fuseCmd := k } } : Dev).boot.fuseCmd ≠ 0) := by decide +kernel

/-- A device with its PWRFAIL_N, INTERLOCK_N low and rail 5 browned out. -/
def failing : Dev := { dev with pins := { dev.pins with pwrfailN := false, interlockN := false, brown := [5] } }

theorem test_hyp_FusesAreOneWay : ∃ t, step { State.reset with pending := [.release] } = .next t := ⟨_, rfl⟩

theorem test_hyp_OnlyThreeCommandsChangeFuses :
    (Instr.release ≠ .lifecycleCommandDone ∧ Instr.release ≠ .resetNLow ∧ Instr.release ≠ .powerOnReset) ∧ ∃ t, exec .release State.reset = .next t :=
  ⟨by decide, _, rfl⟩

theorem test_hyp_PowerAndInterlockPinsPark :
    (dev.pins.pwrfailN = true ∧ dev.pins.interlockN = true ∧ dev.pins.resetN = true ∧ dev.frz.frozen = false ∧ (0 : Fin 6).val ∉ dev.pins.brown) ∧
    (let s : Dev := { dev with frz := { dev.frz with frozen := true } }
     s.pins.pwrfailN = true ∧ s.pins.interlockN = true ∧ s.pins.resetN = true ∧ (0 : Fin 6).val ∉ s.pins.brown) ∧
    (let s : Dev := { dev with pins := { dev.pins with resetN := false } }
     s.pins.pwrfailN = true ∧ s.pins.interlockN = true ∧ (0 : Fin 6).val ∉ s.pins.brown) ∧
    (failing.pins.pwrfailN = false ∧ failing.pins.interlockN = false ∧ (∀ n, (failing.sl n).gate = false) ∧ (5 : Fin 6).val ∈ failing.pins.brown) ∧
    ((up failing 9).pins.pwrfailN = false ∧ (5 : Fin 6).val ∈ (up failing 9).pins.brown ∧ (up failing 9).boot.step = 9) := by decide +kernel

/-- The link to the host is up. -/
def linked : Dev := { dev with cfg := { dev.cfg with link := true } }

theorem test_hyp_HostResetsAndLinkStates :
    (linked.awake = true ∧ linked.released = true ∧ linked.plates.link.remote = false ∧ linked.cfg.link = true ∧ linked.plates.parkOnReset = false) ∧
    ({ dev with plates := { dev.plates with link := { dev.plates.link with remote := true } } } : Dev).plates.link.remote = true ∧
    (State.reset.awake = false ∧ State.reset.plates.link.remote = false) ∧
    (let s := linked.setFlag 0 GLOBAL_STATUS_READY false; s.awake = true ∧ s.released = false ∧ s.cfg.link = true) ∧
    (let s : Dev := { dev with plates := { dev.plates with parkOnReset := true } }; s.released = true ∧ s.plates.parkOnReset = true) ∧
    (dev.awake = true ∧ dev.pins.perstN = true ∧ dev.plates.link.remote = false ∧ dev.fld 0 GLOBAL_STATUS_BOOTSEL ≠ 2 ∧
      (1 ≤ (1 : BitVec 3).toNat ∧ (5 : BitVec 3).toNat ≤ 5 ∧ (8 : BitVec 5).toNat ∈ [1, 2, 4, 8])) ∧
    (let s := (linked.setFlag (cB 4) HOST_CAP_STATUS_RUNNING true).wr (cB 4 + HOST_CAP_WB_LO) 64
     s.cfg.d3 = false ∧ s.flag (cB 4) HOST_CAP_STATUS_RUNNING = true ∧ s.rd64 (cB 4 + HOST_CAP_WB_LO) (cB 4 + HOST_CAP_WB_HI) ≠ 0) := by
  decide +kernel

theorem test_hyp_CodesLatchInTurn :
    let s := dev.modSl 3 (fun x => { x with pendCode := some 5, latchAt := some 0 })
    (s.awake = true ∧ (s.sl 3).pendCode = some 5 ∧ (s.sl 3).latchAt = some 0 ∧ (s.sl 3).flight = [] ∧
      s.flag (sB 3) SLICE_FORCE_STATUS_CLAMP_HOLD = false) ∧
    (∀ f ∈ [Drive.direct 5, Drive.holding], let d := dev.modSl 3 (fun x => { x with latchAt := some 10, holding := 5, flight := [(30, f)] })
     d.awake = true ∧ (d.sl 3).pendCode = none ∧ ((d.sl 3).latchAt = some 10 ∧ 10 + 20 ≤ 30) ∧
       ((d.sl 3).flight = [(30, .direct 5)] ∨ ((d.sl 3).flight = [(30, .holding)] ∧ (d.sl 3).holding = 5)) ∧ (d.sl 3).dropCode = false ∧
       d.flag (sB 3) SLICE_FORCE_STATUS_CLAMP_HOLD = false) ∧
    ((dev.sl 3).flight = [] ∧ (dev.sl 3).pendCode = none) := by decide +kernel

/-- UNPARK of group 3 in progress. -/
def unp (m : Word) : Sched :=
  { ctx := ownCtx hdr 0x0D, cmd := .unpark, group := 3, mask := m, after := 0, at_ := 0, status := OK, vmask := 0, wmask := 0, time := 0 }

theorem test_hyp_ParkAndUnparkTables :
    (let s := dev.modSl 3 (fun x => { x with phase := .parking 0 false })
     s.awake = true ∧ (s.sl 3).phase = .parking 0 false ∧ (s.sl 3).parkMis = false ∧ (s.sl 3).dropRg = false) ∧
    (let s := dev.modSl 3 (fun x => { x with phase := .parking 0 true }); s.awake = true ∧ (s.sl 3).phase = .parking 0 true) ∧
    (let s := dev.modSl 3 (fun x => { x with phase := .ramp true }); s.awake = true ∧ s.rampOver 3 = true) ∧
    (let s := dev.modSl 3 (fun x => { x with phase := .unparking 7 false })
     s.awake = true ∧ s.group 3 = some (grp 1) ∧ (grp 1).first = 3 ∧ (grp 1).size = 1 ∧ (s.sl 3).phase = .unparking 7 false) ∧
    (let s := { (dev.modSl 3 (fun x => { x with phase := .unparking 0 true, enabled := true })).modEng 3 (fun e => { e with tickAt := 3000 }) with
        sched := [unp 8] }
     s.domains = true ∧ s.group 3 = some (grp 1) ∧ s.groupOf 3 = some (grp 1) ∧ (grp 1).gang = 0 ∧ s.unparkOf 3 = some (unp 8) ∧
       (unp 8).status = OK ∧ (unp 8).mask = bit32 3 ∧ s.closeDue 3 (s.eng 3).tickAt = true ∧
       (grp 1).slices.any (fun n => s.closeDue n (s.eng 3).tickAt) = true ∧ s.direct 3 = false ∧ (s.sl 3).enabled = true ∧
       s.sched = [unp 8]) := by decide +kernel

theorem test_hyp_ForceRegisterWrites :
    (dev.awake = true ∧ dev.parked 3 = true) ∧ ((runs dev).parked 3 = false ∧ (1 : Word).getLsbD 0 ≠ (runs dev).direct 3) ∧
    (dev.cfg.d3 = false ∧ dev.isRemote = false ∧ dev.released = true ∧ dev.flag 0 ATLAS_STATUS_PARTIAL_BUSY = false ∧
      ({ dev with staged := [(.host, sB 3 + SLICE_OUTER_SP_V, 9)] } : Dev).stagedAt .host (sB 3 + SLICE_OUTER_SP_V) = some 9) := by decide +kernel

/-- A group of four slices whose samples come from the strobe. -/
def strobed : GroupRec := ⟨3, 4, 0, true, 0, 0⟩

theorem test_hyp_StrobeTimeoutIsReported :
    (let s := ((devOf strobed).setFld (sB 3) SLICE_STROBE_CFG_TIMEOUT_US 1).modSl 3 (fun x => { x with enabled := true })
     let t := s.setFlag (sB 4) SLICE_FORCE_CFG_DIRECT true
     t.domains = true ∧ t.group 3 = some strobed ∧ strobed.strobed = true ∧ strobed.strobe = true ∧ t.fld (sliceBase 3) SLICE_STROBE_CFG_TIMEOUT_US ≠ 0 ∧
       (t.sl 3).enabled = true ∧ strobed.slices.any (fun n => t.direct n) = true) ∧
    (let s := { devOf strobed with plates := { (devOf strobed).plates with loadCfg := 1 } }
     s.domains = true ∧ bitOf s.plates.loadCfg 0 = true ∧ s.plates.groups = [strobed] ∧ s.sched = [] ∧ (s.eng (sid 3)).next = none ∧
       strobed.slices.any (fun n => s.direct n) = false) ∧
    ((devOf strobed).fld (sliceBase 3) SLICE_STROBE_CFG_TIMEOUT_US = 0) := by decide +kernel
theorem test_hyp_MonitorAndRawWords :
    (let s := dev.setFld (sB 3) SLICE_MON_CFG_COUNT 0
     s.domains = true ∧ s.fld (sB 3) SLICE_MON_CFG_COUNT = 0 ∧ (s.sl 3).flight = [] ∧ (s.sl 3).pendCode = none) ∧
    ((0x7FFFF : Code) = 0x7FFFF ∨ (0x7FFFF : Code) = 0x80000) := by decide +kernel

theorem test_hyp_NextTickIsTheFirstMultiple :
    0 < 100 ∧ dev.now ≤ 200 ∧ (dev.eng 3).tickAt < 200 ∧ (dev.eng 3).tickMin ≤ 200 ∧ (dev.time.toNat + (200 - dev.now)) % 100 = 0 := by decide +kernel

/-- Lane 3 serves slice 3 alone. -/
def laned (d : Dev) : Dev := { d with plates := { d.plates with lanes := (List.range 32).map (fun n => ⟨n, 0, false, false, 0, 0⟩) } }

theorem test_hyp_SamplesAreTakenAndComputed :
    (let s := dev.setFld (sliceBase 3) SLICE_LOOP_DIV_DIVIDER 100
     s.domains = true ∧ s.group 3 = some (grp 1) ∧ (s.newDivider 3).period 3 ≠ 0) ∧
    (((runs dev).sl 3).phase = .running ∧ ((runs dev).sl 3).vhold = none ∧ ((runs dev).sl 3).vWait = none ∧ ((runs dev).sl 3).holdEnds = false) ∧
    (let s := (runs (laned dev)).modSl 3 (fun x => { x with awaits := true })
     s.domains = true ∧ (s.sl 3).awaits = true ∧
       (((s.upTo ((s.eng (s.low 3)).tickAt + s.slotDelay 3 + 64)).each (s.gang 3) Dev.land).words 3 1 2 3).owner 3 = 3) ∧
    (let s := (laned (devOf (ganged 2))).modSl 4 (fun x => { x with awaits := true })
     s.domains = true ∧ (s.sl 4).awaits = true ∧
       (((s.upTo ((s.eng (s.low 4)).tickAt + s.slotDelay 4 + 64)).each (s.gang 4) Dev.land).words 4 1 2 3).owner 4 ≠ 4) := by decide +kernel

def win : WinRes := ⟨1, 2, 0, 3, false, 0, 0, true, 0⟩
/-- A capture region of one page at the start of the store. -/
def region (d : Dev) (wr : Nat) : Dev := (d.wr (sB 3 + SLICE_CAP_SIZE) 4096).wr (sB 3 + SLICE_CAP_WR) (BitVec.ofNat 32 wr)

theorem test_hyp_RowsAreRecorded :
    (let s := (dev.modSl 3 (fun x => { x with wDone := [win] })).setFlag (sB 3) SLICE_REC_CTRL_ENABLE true
     s.awake = true ∧ s.groupOf 3 = some (grp 1) ∧ (grp 1).first = 3 ∧ (grp 1).size = 1 ∧ (s.sl 3).wDone = [win] ∧ (s.sl 3).recDone = none ∧
       s.flag (sB 3) SLICE_REC_CTRL_ENABLE = true ∧ (s.eng 3).arm = none) ∧
    (dev.modSl 3 (fun x => { x with wDone := [win] })).flag (sB 3) SLICE_REC_CTRL_ENABLE = false ∧
    (let s := (devOf (grp 2)).modSl 4 (fun x => { x with wDone := [win] })
     s.awake = true ∧ s.groupOf 4 = some (grp 2) ∧ 2 ≤ (grp 2).size ∧ (grp 2).size ≤ 32 ∧ (s.sl 4).wDone = [win] ∧ (s.sl 4).recDone = none ∧
       ∀ m, m ≠ 4 → (s.sl m).recDone = none) ∧
    (let s := (region dev 4048).modEng 3 (fun e => { e with rows := [[5]] })
     s.awake = true ∧ s.nextRowGroup = some 3 ∧ (s.eng 3).rows = [5] :: [] ∧ (s.eng 3).gap = none ∧ s.capSize 3 ≠ 0 ∧ s.capSize 3 < 2 ^ 32 ∧
       s.capUsed 3 + 16 * s.size 3 + 16 ≤ s.capSize 3 ∧ s.plates.link.remote = false) ∧
    (let q : Gap := ⟨1, 3, 0, 0⟩
     let s := (region dev 4064).modEng 3 (fun e => { e with rows := [[5]], gap := some q })
     s.awake = true ∧ s.nextRowGroup = some 3 ∧ (s.eng 3).rows = [5] :: [] ∧ (s.eng 3).gap = some q ∧ s.capSize 3 ≠ 0 ∧
       s.capSize 3 < s.capUsed 3 + 16 * s.size 3 + 32 ∧ s.plates.link.remote = false) ∧
    ((dev.eng (sid 3)).arm = none ∧ ((dev.modEng 3 (fun e => { e with arm := some (ownCtx hdr 9) })).eng (sid 3)).arm ≠ none) := by decide +kernel

theorem test_ready_again : (dev.modEng 3 (fun e => { e with arm := some (ownCtx hdr 9) })).ready hdr (grp 1) := by unfold Dev.ready; decide +kernel

theorem test_hyp_MeasureRegistersKeepTheirRules :
    (dev.awake = true ∧ dev.group 3 ≠ none ∧ dev.regionOk 3 0xFFF000 4096 = true ∧ (dev.wr (sB 3 + SLICE_CAP_BASE) 0xFFF000).regionOk 3 0xFFF000 4096 = true ∧
      dev.flag (sB 3) SLICE_REC_CTRL_ENABLE = false ∧ (dev.eng 3).arm = none ∧ dev.dmaRuns 3 = false ∧ (1 : Word).toNat % 4096 ≠ 0) ∧
    (let s := region dev 32
     (32 : Word).toNat % 16 = 0 ∧ (32 : Word).toNat < s.capSize 3 ∧ ((32 : Word).toNat + s.capSize 3 - s.capRd 3) % s.capSize 3 ≤ s.capUsed 3 ∧
       s.dmaRuns 3 = false ∧ (8 : Word).toNat % 16 ≠ 0) ∧
    (getBits (0 : Word).toNat 0 2 = 0 ∧ getBits (0 : Word).toNat 8 24 = 0) ∧ (getBits (0x101 : Word).toNat 0 2 = 1 ∧ getBits (0x101 : Word).toNat 8 24 < 2) ∧
    (getBits (0x100101 : Word).toNat 0 2 = 1 ∧ 4096 < getBits (0x100101 : Word).toNat 8 24) ∧
    ¬ (getBits (0x100001 : Word).toNat 0 2 = 0 ∧ getBits (0x100001 : Word).toNat 8 24 = 0) ∧
    ¬ (getBits (0x100001 : Word).toNat 0 2 = 1 ∧ (getBits (0x100001 : Word).toNat 8 24 < 2 ∨ 4096 < getBits (0x100001 : Word).toNat 8 24)) ∧
    (∀ n, (dev.sl n).wOpen = false) ∧ dev.stationRuns 3 = false ∧
    ((runs dev).parked 3 = false ∧ (0 : Word).getLsbD 0 ≠ (runs dev).flag (sB 3) SLICE_MEAS_CFG_IB_EN ∧ dev.parked 3 = true) ∧
    (let v : Word := 0x1011501
     v.getLsbD 0 = true ∧ (dev.store (sB 3 + SLICE_CORR_CTRL) v).fld (sB 3) SLICE_CORR_CTRL_START = 0 ∧
       (dev.store (sB 3 + SLICE_CORR_CTRL) v).fld (sB 3) SLICE_CORR_CTRL_SRC0 < 6 ∧ (dev.store (sB 3 + SLICE_CORR_CTRL) v).fld (sB 3) SLICE_CORR_CTRL_SRC1 < 6 ∧
       (dev.store (sB 3 + SLICE_CORR_CTRL) v).fld (sB 3) SLICE_CORR_CTRL_PERIODS ≠ 0) ∧
    (let s := dev.modSl 3 (fun x => { x with corr := { Corr.idle with st := 2, wrapped := true } }); (s.sl 3).corr.st = 2 ∧ (s.sl 3).corr.wrapped = true) ∧
    (let s := dev.modSl 3 (fun x => { x with corr := { Corr.idle with st := 3, periods := 1 } })
     (s.sl 3).corr.st = 3 ∧ s.fld (sB 3) SLICE_CORR_CTRL_PERIODS ≤ (s.sl 3).corr.periods ∧ s.flag (sB 3) SLICE_CORR_CTRL_IRQ_EN = false) := by decide +kernel

/-- Slice 3 may use current ranges up to 9 and voltage ranges up to 3. -/
def ranged (d : Dev) : Dev := { d with plates := { d.plates with irMax := List.replicate 32 9, vrMax := List.replicate 32 3 } }

theorem test_hyp_RangeCommandStartsAChain :
    (15 < (16 : Byte).toNat ∧ (15 : Byte).toNat ≤ 15 ∧ 2 < (3 : Byte).toNat ∧ (2 : Byte).toNat ≤ 2 ∧ 2 ^ (grp 1).size ≤ (2 : Word).toNat ∧
      ((ganged 2).gang ≠ 0 ∧ 1 < (3 : Word).toNat) ∧ (grp 1).maskOk 1 = true) ∧
    ((∃ n ∈ (grp 1).masked 1, (ranged dev).irMax n < (10 : Byte).toNat)) ∧
    ((∃ n ∈ (grp 1).masked 1, (ranged dev).vrMax n < (4 : Byte).toNat) ∧ (4 : Byte).toNat < 15) ∧
    ((10 : Byte).toNat < 15 ∧ (9 : Byte).toNat ≤ (ranged dev).irMax 3 ∧ (ranged dev).irange 3 ≠ (9 : Byte).toNat ∧ ((ranged dev).sl 3).rstep = none ∧
      (ranged dev).inPark 3 = true ∧ (runs (ranged dev)).inPark 3 = false ∧ ((runs (ranged dev)).sl 3).rstep = none ∧ (ranged dev).groupOf 3 = some (grp 1) ∧ (grp 1).gang = 0) := by decide +kernel

theorem test_ready_ranged : (runs (ranged dev)).ready hdr (grp 1) ∧ (ranged dev).ready hdr (grp 1) ∧ (devOf (ganged 2)).ready hdr (ganged 2) := by
  unfold Dev.ready; decide +kernel

def stp (solo : Bool) : RStep := ⟨4, true, true, 5, 16, 0, 0, 0, 0, 17, solo⟩
/-- Slice 3 in the phase `p` of the step `stp solo`. -/
def stepping (solo : Bool) (p : Nat) : Dev := ((runs dev).modSl 3 (fun x => { x with rstep := some (stp solo) })).setFld (sB 3) SLICE_RANGE_STATUS_PHASE p
/-- A limit set of ±(2²⁴ − 1) nV and fA with its complements at address 0. -/
def limBytes : List Host.Cell := Id.run do
  let pos := [0xFF, 0xFF, 0xFF, 0, 0, 0, 0, 0]; let neg := [0, 0, 0, 0xFF, 0xFF, 0xFF, 0xFF, 0xFF]
  let bs := pos ++ neg ++ neg ++ pos ++ pos ++ neg ++ neg ++ pos ++ [0, 0, 0, 0, 0xFF, 0xFF, 0xFF, 0xFF]
  return (((List.range 72).zip bs).filter (fun c => c.2 != 0)).map (fun c => (c.1, BitVec.ofNat 8 c.2))
def limSt : Dev := { dev with mem := limBytes, plates := { dev.plates with limits := List.replicate 32 (({ dev with mem := limBytes } : Dev).limAt 0) } }

theorem test_hyp_HandoverAndLimitReload :
    ((stepping false 1).stepOf 3 = some (stp false) ∧ (stp false).solo = false ∧ (stepping false 1).phase ((stepping false 1).owner 3) = 1) ∧
    (((stepping false 4).sl ((stepping false 4).owner 3)).rstep = some (stp false) ∧ (stepping false 4).phase ((stepping false 4).owner 3) = 4 ∧ (stp false).len < (stp false).fade) ∧
    (let s := (stepping true 1).modEng 3 (fun e => { e with tickAt := 5 })
     s.owner 3 = 3 ∧ s.gang 3 = [3] ∧ (s.sl 3).rstep = some (stp true) ∧ (stp true).solo = true ∧ (stp true).endAt ≤ (s.eng (s.low 3)).tickAt + s.slotDelay 3 ∧
       s.mode 3 ≠ 1 ∧ (s.sl 3).spWait = none) ∧
    (let s := ((((stepping true 1).setFld (sB 3) SLICE_RANGE_STATUS_TARGET 4).setFld (sB 3) SLICE_FORCE_STATUS_MODE 1).modEng 3 (fun e => { e with tickAt := 5 })).modSl 3
       (fun x => { x with spWait := some 9 })
     s.owner 3 = 3 ∧ s.gang 3 = [3] ∧ (s.sl 3).rstep = some (stp true) ∧ (stp true).endAt ≤ (s.eng (s.low 3)).tickAt + s.slotDelay 3 ∧
       (s.sl 3).spWait = some 9 ∧ s.mode 3 = 1 ∧ (stp true).into < 16 ∧ s.fld (sB 3) SLICE_RANGE_STATUS_TARGET = (stp true).into) ∧
    (let s := stepping false 4
     s.gang 3 = [3] ∧ s.owner 3 = 3 ∧ s.fld (sB 3) SLICE_RANGE_STATUS_TARGET = s.irange 3 ∧ (s.sl 3).spWait = none ∧ (s.sl 3).rstep.isSome = true ∧ s.sched = []) ∧
    (let s := (runs dev).modSl 3 (fun x => { x with vhold := some 3 })
     s.owner 3 = 3 ∧ s.gang 3 = [3] ∧ (s.sl 3).vhold = some 3 ∧ s.fld (sB 3) SLICE_RANGE_CFG_VHOLD ≤ 3 ∧ (s.sl 3).spWait = none) ∧
    (let s := (runs dev).modSl 3 (fun x => { x with vhold := some 3, spWait := some 9 })
     s.owner 3 = 3 ∧ s.gang 3 = [3] ∧ (s.sl 3).vhold = some 3 ∧ s.fld (sB 3) SLICE_RANGE_CFG_VHOLD ≤ 3 ∧ (s.sl 3).spWait = some 9 ∧ s.mode 3 = 0 ∧
       (s.sl 3).vWait = none) ∧
    (let s := (runs dev).modSl 3 (fun x => { x with vhold := some 2 })
     (s.sl (s.owner 3)).vhold = some 2 ∧ 2 < s.fld (sB (s.owner 3)) SLICE_RANGE_CFG_VHOLD) ∧
    (dev.parked 3 = true ∧ (runs dev).parked 3 = false) ∧
    (let s := { dev with memst := { dev.memst with bad := [(0, true)] } }
     0 = (s.rd (sB 3 + SLICE_LIM_BASE)).toNat + 96 * s.fld (sB 3) SLICE_LIM_STATUS_ACTIVE ∧ (s.eccRead 0 96 rdSet).uncorrectable 0 72 = true) ∧
    (limSt.awake = true ∧ limSt.memst.bad = [] ∧ 0 = (limSt.rd (sB 3 + SLICE_LIM_BASE)).toNat + 96 * limSt.fld (sB 3) SLICE_LIM_STATUS_ACTIVE ∧
      (limSt.limAt 0).ok = true ∧ limSt.word 0x44 = ~~~limSt.word 0x40 ∧ (limSt.limAt 0).within (limSt.hard 3) = true ∧
      ({ limSt with plates := dev.plates } : Dev).hard 3 = .atReset ∧ (limSt.limAt 0).within .atReset = false ∧ (dev.limAt 0).ok = false) := by decide +kernel

/-- Slice 3 held by its clamp, with the CLAMP_STATUS mode `m`. -/
def clamped (m : Nat) : Dev := ((runs dev).setFlag (sB 3) SLICE_FORCE_STATUS_CLAMP_HOLD true).setFld (sB 3) SLICE_CLAMP_CFG_MODE m

theorem test_hyp_ClampsTripHoldAndRelease :
    (let s := dev.setFld (sB 3) SLICE_CMP_STATUS_LEVEL 2
     s.awake = true ∧ 8 ≤ s.boot.step ∧ s.gang 3 = [3] ∧ s.clampOn 3 true = false ∧ s.clampOn 3 false = false ∧ s.clampActive 3 = false) ∧
    (let s := dev.setFld (sB 3) SLICE_CMP_STATUS_LEVEL 3; s.clampOn 3 true = true ∧ s.clampOn 3 (!true) = false ∧ s.clampActive 3 = true) ∧
    (let s := dev.setFld (sB 3) SLICE_CMP_STATUS_LEVEL 0; s.clampOn 3 false = true ∧ s.clampOn 3 (!false) = false) ∧
    (let s := { dev with frz := { dev.frz with frozen := true } }.setFld (sB 3) SLICE_CMP_STATUS_LEVEL 2
     s.pins.resetN = true ∧ 8 ≤ s.boot.step ∧ s.frz.frozen = true ∧ s.clampOn 3 true = false) ∧
    ((4 : SliceId) ∈ (devOf (ganged 2)).gang 3 ∧ (runs dev).inPark 3 = false) ∧
    (∀ m ∈ [0, 1, 3], let s := (clamped m).setFld (sB 3) SLICE_CMP_STATUS_LEVEL 2
      s.flag (sB 3) SLICE_FORCE_STATUS_CLAMP_HOLD = true ∧ s.fld (sB 3) SLICE_CLAMP_CFG_MODE = m ∧ s.clampActive 3 = false) := by decide +kernel

/-- WIN of slice 3 enabled, continuous or sampled, with the level of WIN. -/
def winDev (sampled level : Bool) : Dev :=
  ((dev.setFlag (sB 3) SLICE_WIN_CFG_ENABLE true).setFlag (sB 3) SLICE_WIN_CFG_MODE sampled).setFld (sB 3) SLICE_CMP_STATUS_LEVEL (if level then 8 else 0)

theorem test_hyp_WindowComparator :
    (∀ b : Bool, (winDev false (!b)).flag (sB 3) SLICE_WIN_CFG_ENABLE = true ∧ (winDev false (!b)).flag (sB 3) SLICE_WIN_CFG_MODE = false ∧
      (winDev false (!b)).fld (sB 3) SLICE_WIN_CFG_EDGE = 0 ∧ (winDev false (!b)).cmpLevel 3 3 = !b ∧ ((winDev false (!b)).sl 3).dropEdge = false) ∧
    ((winDev true false).domains = true ∧ (winDev true false).flag (sB 3) SLICE_WIN_CFG_ENABLE = true ∧ (winDev true false).flag (sB 3) SLICE_WIN_CFG_MODE = true ∧
      (winDev true false).fld (sB 3) SLICE_WIN_CFG_EDGE = 0 ∧ (winDev true false).flag (sB 3) SLICE_CMP_STATUS_UNDEC_WIN = false) ∧
    (getBits (0x1000C : Word).toNat 2 2 = 3 ∧ getBits (0 : Word).toNat 16 10 = 0 ∧ 1000 < getBits (0x3E90000 : Word).toNat 16 10) ∧
    (getBits (0x3E80000 : Word).toNat 2 2 ≠ 3 ∧ getBits (0x3E80000 : Word).toNat 16 10 ≠ 0 ∧ getBits (0x3E80000 : Word).toNat 16 10 ≤ 1000) ∧
    ((0 : Int) ≤ 0 ∧ (0 : Int) < 1) := by decide +kernel

/-- Monitor 3 enabled, reporting only. -/
def mon : Dev := { dev with plates := { dev.plates with smon := List.replicate 32 1 } }

theorem test_hyp_MonitorsAndThresholds :
    (mon.domains = true ∧ mon.monOn 3 = true ∧ mon.flag (monBase 3) MON_STATUS_UNDECIDED = false ∧ (0x7FE : BitVec 12) ≠ 0x800 ∧ (0x7FE : BitVec 12) ≠ 0x7FF ∧
      mon.monAction 3 ≠ 2 ∧ windowState (mon.monState 3) (2 * (0x7FE : BitVec 12).toInt) (2 * signed 12 (mon.fld (monBase 3) MON_THR_LO))
        (2 * signed 12 (mon.fld (monBase 3) MON_THR_HI)) (mon.fld (monBase 3) MON_CFG_HYST) = mon.monState 3) ∧
    (let s := (runs { mon with plates := { mon.plates with smon := List.replicate 32 9 } }).setFld (monBase 3) MON_STATUS_STATE 2
     s.domains = true ∧ s.monOn 3 = true ∧ s.monAction 3 = 2 ∧ s.flag (monBase 3) MON_STATUS_UNDECIDED = false ∧
       windowState (s.monState 3) (2 * (0x7FE : BitVec 12).toInt) (2 * signed 12 (s.fld (monBase 3) MON_THR_LO))
         (2 * signed 12 (s.fld (monBase 3) MON_THR_HI)) (s.fld (monBase 3) MON_CFG_HYST) = 2 ∧
       (let c := s.convTick (s.mons.get 3).at_ (1000 * s.fld (monBase 3) MON_CFG_TICK_US)
        let d := ((((s.upTo (c + 202)).setFld (monBase 3) MON_STATUS_VALUE 0x7FE).modMon 3 (fun x =>
          { x with ticks := (x.ticks + 1) % 256, at_ := c })).setFlag (monBase 3) MON_STATUS_UNDECIDED false).monMove 3 2
        d.monAction 3 = 2 ∧ d.monState 3 ≠ 0 ∧ d.parked 3 = false)) ∧
    (mon.monState 3 = 0 ∧ mon.flag (monBase 3) MON_CFG_IRQ_EN = false) ∧
    (getBits (0x323232 : Word).toNat 0 6 ≤ 50 ∧ getBits (0x323232 : Word).toNat 8 6 ≤ 50 ∧ getBits (0x323232 : Word).toNat 16 6 ≤ 50 ∧ 50 < getBits (0x33 : Word).toNat 0 6) ∧
    (getBits (0x50005 : Word).toNat 0 12 ≤ getBits (0x50005 : Word).toNat 16 12 ∧ getBits (0x40005 : Word).toNat 16 12 < getBits (0x40005 : Word).toNat 0 12) ∧
    (getBits (0 : Word).toNat 0 10 = 0 ∧ 1000 < getBits (0x3E9 : Word).toNat 0 10 ∧
      signed 12 (getBits (0x7FF0800 : Word).toNat 0 12) < signed 12 (getBits (0x7FF0800 : Word).toNat 16 12)) := by decide +kernel
/-- The pre-regulator of slice 3 runs with the control code `c`. -/
def prg (c : Nat) : Dev := ((runs dev).setFlag (sB 3) SLICE_PRG_STATUS_RUNNING true).setFld (sB 3) SLICE_PRG_STATUS_CTRL c

theorem test_hyp_PreRegulator :
    ((prg 0).domains = true ∧ (prg 0).flag (sB 3) SLICE_PRG_STATUS_RUNNING = true ∧ (prg 0).fld (sB 3) SLICE_PRG_STATUS_CTRL = 0) ∧
    (let s := (prg 1023).modSl 3 (fun x => { x with prgOc := 3 })
     let k := s.fld (sB 3) SLICE_PRG_CFG_PERIOD
     let act := fun cs => prgActive cs (s.fld (sB 3) SLICE_PRG_STATUS_CTRL) (s.fld (sB 3) SLICE_PRG_CFG_SLOPE) k
     s.domains = true ∧ s.flag (sB 3) SLICE_PRG_STATUS_RUNNING = true ∧ s.fld (sB 3) SLICE_PRG_STATUS_CTRL ≠ 0 ∧ s.fld (sB 3) SLICE_PRG_CFG_FAULT_COUNT ≠ 0 ∧
       s.fld (sB 3) SLICE_PRG_CFG_FAULT_COUNT ≤ (s.sl 3).prgOc + 1 ∧ 500 ≤ k ∧ (s.sl 3).dropEdge = false ∧
       act [] = none ∧ act [(31, 10000000)] = some 31 ∧ act [(32, 10000000)] = some 32 ∧ 10 * max (32 + 5) 41 ≤ 10 + 9 * k ∧
       act [(100, 10000000)] = some 100 ∧ 10 * max (100 + 5) 41 ≤ 10 + 9 * k) ∧
    (let s := (prg 5).modSl 3 (fun x => { x with prgTick := 4096, prgStop := true })
     let t := (s.setFlag (sB 3) SLICE_PRG_STATUS_RUNNING false).setFld (sB 3) SLICE_PRG_RATE_M_H 0
     t.domains = true ∧ (t.sl 3).prgStop = true ∧ t.fld (sB 3) SLICE_PRG_RATE_M_H = 0 ∧ 4096 ≤ (t.sl 3).prgTick) ∧
    (let s := (prg 5).modSl 3 (fun x => { x with prgTick := 10, vhold := some 1 })
     s.domains = true ∧ s.flag (sB 3) SLICE_PRG_STATUS_RUNNING = true ∧ s.fld (sB 3) SLICE_PRG_RATE_M_H ≠ 0 ∧ s.fld (sB 3) SLICE_PRG_RATE_M_H ≤ (s.sl 3).prgTick ∧
       s.owner 3 = 3 ∧ (s.sl 3).vhold.isSome = true) ∧
    (let s := (prg 5).modSl 3 (fun x => { x with prgTick := 10 })
     s.fld (sB 3) SLICE_PRG_RATE_M_H ≤ (s.sl 3).prgTick ∧ s.owner 3 = 3 ∧ (s.sl 3).vhold = none ∧ s.loopState 3 ≠ 2 ∧
       s.fld (sB 3) SLICE_FB_STATUS_STALE_RUN = 0 ∧ s.rd (sB 3 + SLICE_PRG_HEAD_C) = ~~~s.rd (sB 3 + SLICE_PRG_HEAD_V) ∧
       (s.wr (sB 3 + SLICE_PRG_HEAD_C) 5).rd (sB 3 + SLICE_PRG_HEAD_C) ≠ ~~~(s.wr (sB 3 + SLICE_PRG_HEAD_C) 5).rd (sB 3 + SLICE_PRG_HEAD_V)) ∧
    (((prg 5).setFlag (sB 3) SLICE_PRG_STATUS_SOFT true).flag (sB 3) SLICE_PRG_STATUS_SOFT = true ∧ 0 ≤ ((prg 5).sl 3).prgU) ∧
    (getBits (0x1F300 : Word).toNat 8 12 < 500 ∧ 4000 < getBits (0xFA100 : Word).toNat 8 12 ∧
      (bitOf (0x1F401 : Word).toNat 0 ≠ (runs dev).flag (sB 3) SLICE_PRG_CFG_EN ∧ (runs dev).parked 3 = false) ∧
      500 ≤ getBits (0x1F401 : Word).toNat 8 12 ∧ getBits (0x1F401 : Word).toNat 8 12 ≤ 4000 ∧ dev.parked 3 = true ∧
      getBits (0xFA000 : Word).toNat 8 12 ≤ 4000 ∧ bitOf (0xFA000 : Word).toNat 0 = (runs dev).flag (sB 3) SLICE_PRG_CFG_EN) := by decide +kernel

/-- A device that UNPARK takes: a valid Datum bank, sets and limits in the system store. -/
def fit : Dev := ((dev.setFld 0 DATUM_STATUS_BANK 1).wr (sB 3 + SLICE_COEF_BASE) 0x2400000).wr (sB 3 + SLICE_LIM_BASE) 0x2400800

theorem test_hyp_ParkAndUnparkCommands :
    (dev.sched = [] ∧ (∀ n ∈ (grp 1).slices, (dev.sl n).phase = .parked ∧ dev.parked n = true)) ∧
    (((grp 1).slices.foldl Dev.parkBegin ((runs dev).taken 3)).parked (sid 3) = false ∧ 1 ≤ (grp 1).size) ∧
    (({ dev with sched := [unp 8] } : Dev).unparkOf 3 = some (unp 8)) ∧ (failing.unparkOf 3 = none ∧ failing.pins.interlockN = false) ∧
    ((dev.setFlag 0 GLOBAL_STATUS_GRAVE_LATCH true).flag 0 GLOBAL_STATUS_GRAVE_LATCH = true) ∧
    (fit.taken 3).unparkStatus (grp 1) = none := by decide +kernel

theorem test_ready_more : (runs dev).ready hdr (grp 1) ∧ ({ dev with sched := [unp 8] } : Dev).ready hdr (grp 1) ∧ failing.ready hdr (grp 1) ∧
    (dev.setFlag 0 GLOBAL_STATUS_GRAVE_LATCH true).ready hdr (grp 1) ∧ fit.ready hdr (grp 1) := by unfold Dev.ready; decide +kernel

/-- A command of group 3 that waits, for the slices of `m`. -/
def waits (op : Byte) (c : RingCmd) (m : Word) : Sched :=
  { ctx := ownCtx hdr op, cmd := c, group := 3, mask := m, after := 0, at_ := 0, status := 0, vmask := 0, wmask := 0, time := 0 }
/-- Slice 3 of `d` with its loop in the state `k`. -/
def loopIn (d : Dev) (k : Nat) : Dev := (runs d).setFld (sB 3) SLICE_LOOP_STATUS_STATE k

theorem test_hyp_LoopsOpenAndClose :
    ((grp 1).maskOk 2 = false ∧ (ganged 2).maskOk 2 = false ∧ (grp 1).maskOk 0 = true ∧ (grp 1).maskOk 1 = true ∧ (∀ n ∈ (grp 1).masked 1, dev.loopState n = 0) ∧
      maskOf (((grp 1).masked 1).filter (fun n => (loopIn dev 1).loopState n != 0)) ≠ 0) ∧
    ((∃ n ∈ (grp 1).masked 1, (dev.setFlag (sB 3) SLICE_FORCE_CFG_DIRECT true).direct n = true) ∧
      (∀ n ∈ (grp 1).masked 1, dev.direct n = false) ∧ ∃ n ∈ (grp 1).masked 1, dev.running n = false) ∧
    ((∀ n ∈ (grp 1).masked 1, (loopIn fit 0).direct n = false ∧ (loopIn fit 0).running n = true ∧ (loopIn fit 0).coefBaseOk n = true) ∧
      (loopIn fit 0).pins.interlockN = true ∧ maskOf (((grp 1).masked 1).filter (fun n => (loopIn fit 0).loopState n == 0)) ≠ 0) := by decide +kernel

theorem test_hyp_LoopsOpenAndClose_effects :
    (let x := waits 3 (.loopOpen 1) 8; let s := { loopIn dev 1 with sched := [x] }
     s.domains = true ∧ s.group 3 = some (grp 1) ∧ s.gang 3 = [3] ∧ s.sched = [x] ∧ x.cmd = .loopOpen 1 ∧ x.group = 3 ∧ x.mask = bit32 3 ∧
       x.due (s.effectAt (grp 1)).1 (s.effectAt (grp 1)).2 = true ∧ (s.sl 3).phase = .running) ∧
    (let x := waits 4 (.loopClose 1) 8; let s := { loopIn fit 0 with sched := [x] }
     s.domains = true ∧ s.group 3 = some (grp 1) ∧ s.sched = [x] ∧ x.cmd = .loopClose 1 ∧ x.group = 3 ∧ x.mask = bit32 3 ∧
       x.due (s.effectAt (grp 1)).1 (s.effectAt (grp 1)).2 = true ∧ s.running 3 = true ∧ s.loopState 3 = 0 ∧ s.direct 3 = false) := by decide +kernel

def sel (set : Byte) : CoefP := ⟨set, 0, 0, 1, 0, ~~~0⟩
def wrt (set : Byte) : CoefP := ⟨set, 2, 0, 1, 0x00112233445566778899AABBCCDDEEFF, ~~~0x00112233445566778899AABBCCDDEEFF⟩
def wrOne (set : Byte) : CoefP := ⟨set, 0, 6, 1, 0xFFFF, ~~~0xFFFF⟩

theorem test_hyp_CoefficientSets :
    ((grp 1).masked (sel 3).mask = [3] ∧ coefFault (sel 3) 0 (grp 1) = none ∧ (sel 3).imageC = ~~~(sel 3).image ∧
      ({ sel 3 with imageC := 1 } : CoefP).imageC ≠ ~~~({ sel 3 with imageC := 1 } : CoefP).image ∧ coefFault { sel 3 with imageC := 1 } 0 (grp 1) = none) ∧
    (dev.fld (sB 3) SLICE_LOOP_STATUS_COEF_SET = (sel 0).set.toNat ∧ dev.fld (sB 3) SLICE_LOOP_STATUS_COEF_SET ≠ (sel 3).set.toNat ∧ dev.loopState 3 = 0 ∧ dev.sched = []) ∧
    ((loopIn dev 1).loopState 3 ≠ 0 ∧ (loopIn dev 1).fld (sB 3) SLICE_LOOP_STATUS_COEF_SET ≠ (sel 3).set.toNat ∧ (loopIn dev 1).sched = []) ∧
    ((grp 1).masked (wrt 3).mask = [3] ∧ (wrt 3).imageC = ~~~(wrt 3).image ∧ dev.flag (sB 3) SLICE_COEF_WSTATUS_AGILE_BUSY = false ∧
      coefFault (wrt 3) 1 (grp 1) = none ∧ (wrt 3).image.extractLsb' 120 8 = 0 ∧ coefFault (wrOne 3) 2 (grp 1) = none ∧ (wrOne 3).field.toNat < 7 ∧
      (wrOne 3).imageC = ~~~(wrOne 3).image ∧ (grp 1).masked (wrOne 3).mask = [3]) ∧
    ((loopIn dev 1).fld (sB 3) SLICE_LOOP_STATUS_COEF_SET = (wrt 0).set.toNat ∧ coefFault (wrt 0) 1 (grp 1) = none ∧
      (loopIn dev 1).flag (sB 3) SLICE_LOOP_CFG_AGILE = false ∧ (loopIn dev 1).flag (sB 3) SLICE_COEF_WSTATUS_AGILE_BUSY = false) ∧
    (let x := waits 5 (.coefSelect 0 (sel 3)) 8; let s := { loopIn dev 1 with sched := [x] }
     s.domains = true ∧ s.group (s.low 3).val = some (grp 1) ∧ s.sched = [x] ∧ x.mask.getLsbD 3 = true ∧ x.due (s.effectAt (grp 1)).1 (s.effectAt (grp 1)).2 = true) ∧
    (let s := laned dev
     getBits (99 : Word).toNat 0 16 < 100 ∧ 100 ≤ getBits (100 : Word).toNat 0 16 ∧ s.awake = true ∧ s.group 3 = some (grp 1) ∧ s.groupOpen (grp 1) = true ∧
       (grp 1).slices = [3] ∧ s.groupOf 3 = some (grp 1) ∧ s.laneOf 3 = 3 ∧
       ((List.range 32).zip s.plates.lanes).filter (fun x => x.2.lane == 3) = [(3, ⟨3, 0, false, false, 0, 0⟩)]) ∧
    (getBits (1 : Word).toNat 0 13 < 2 ∧ 4096 < getBits (0x1001 : Word).toNat 0 13 ∧ (dev.route 3).kind = 0) ∧
    (let s := { dev with plates := { dev.plates with routes := List.replicate 32 ⟨3, 3, 1, 3, false⟩ } }
     s.groupOf 3 = some (grp 1) ∧ s.groupOpen (grp 1) = true ∧ 2 ≤ getBits (0x0FFF1000 : Word).toNat 0 13 ∧ getBits (0x0FFF1000 : Word).toNat 0 13 ≤ 4096 ∧
       getBits (0x0FFF1000 : Word).toNat 16 12 < getBits (0x0FFF1000 : Word).toNat 0 13 ∧ (s.route 3).kind ≠ 0) := by decide +kernel

theorem test_hyp_OuterLawAndLaneRestore :
    (let s := { (dev.modSl 3 (fun x => { x with outerWait := some (64, 70) })) with plates := { dev.plates with routes := List.replicate 32 ⟨3, 3, 1, 3, false⟩ } }
     let stale := (s.setFld (sB 3) SLICE_LOOP_CFG_HOLD_LIMIT 2).modSl 3 (fun x => { x with outTags := s.outerTags 3 })
     s.awake = true ∧ (s.sl 3).outerWait = some (64, 70) ∧ ((s.sl 3).outTags.zip (s.outerTags 3)).any (fun p => p.1 == p.2) = false ∧
     (stale.sl 3).outTags.length = (stale.outerTags 3).length ∧ ((stale.sl 3).outTags.zip (stale.outerTags 3)).any (fun p => p.1 == p.2) = true ∧
     (stale.sl 3).closing = false ∧ (stale.sl 3).reinit = false ∧
     min 255 (stale.fld (sB 3) SLICE_OUTER_STATUS_STALE_RUN + 1) < stale.fld (sB 3) SLICE_LOOP_CFG_HOLD_LIMIT ∧
     (let last := stale.setFld (sB 3) SLICE_OUTER_STATUS_STALE_RUN 1
      last.fld (sB 3) SLICE_LOOP_CFG_HOLD_LIMIT ≤ min 255 (last.fld (sB 3) SLICE_OUTER_STATUS_STALE_RUN + 1))) ∧
    (dev.sl 3).outerWait = none ∧ (dev.served 3 = [] ∧ dev.col.queue = []) ∧ (laned dev).served 3 = [3] ∧
    (((runs dev).setFld (sB 3) SLICE_LOOP_STATUS_STATE 1).fld (sB 3) SLICE_LOOP_STATUS_STATE = 1 ∧ ((runs dev).sl 3).phase = .running) ∧
    (dev.modCol (fun c => { c with resets := [⟨target 0 3, 0, none, []⟩] })).resetting (target 0 3) = true := by decide +kernel

def setP (value valueC : Word) (mode limitSet contour : Byte) : SetP := ⟨1, value, valueC, mode, limitSet, contour, 5⟩

theorem test_hyp_SetChecksThenWaits :
    ((setP 0 0 0 0xFF 15).valueC ≠ ~~~(setP 0 0 0 0xFF 15).value ∧
      ((setP 1 (~~~1) 0 0xFF 15).valueC = ~~~(setP 1 (~~~1) 0 0xFF 15).value ∧ ∃ n ∈ (grp 1).masked 1, dev.setValueOk n (setP 1 (~~~1) 0 0xFF 15) = false)) ∧
    (∀ m ∈ [(4 : Byte), 3], (∀ n ∈ (grp 1).masked 1, dev.setValueOk n (setP 0 (~~~0) m 0xFF 15) = true ∧ dev.setLimitsOk n (setP 0 (~~~0) m 0xFF 15) = true) ∧
      (grp 1).maskOk (setP 0 (~~~0) m 0xFF 15).mask = true ∧ (setP 0 (~~~0) m 0xFF 15).valueC = ~~~(setP 0 (~~~0) m 0xFF 15).value) ∧
    (3 < (4 : Byte).toNat ∧ (3 : Byte).toNat ≤ 3 ∧ (15 : Byte).toNat ≤ 15) ∧
    (let p : SetP := { setP 0 (~~~0) 3 0xFF 15 with at_ := 0 }; let x := waits 1 (.set p) 8; let s := { runs dev with sched := [x] }
     s.domains = true ∧ s.group 3 = some (grp 1) ∧ s.sched = [x] ∧ x.cmd = .set p ∧ x.group = 3 ∧ x.due (s.effectAt (grp 1)).1 (s.effectAt (grp 1)).2 = true) ∧
    (dev.mode 3 = 0 ∧ (dev.sl 3).vhold = none ∧ (dev.sl 3).vWait = none ∧ dev.chainRuns 3 = false) := by decide +kernel

def con (set : Byte) (vel : Word) (c : BitVec 96) : ContourP := ⟨set, 1, vel, 2, 3, c⟩

theorem test_hyp_GeneratorsAndContours :
    ((grp 1).masked (con 14 1 0).mask = [3] ∧ 14 < (con 15 1 0).set.toNat ∧ (con 14 1 0).set.toNat ≤ 14 ∧ (grp 1).maskOk (con 14 0 0).mask = true ∧ (con 14 0 0).vel = 0 ∧
      (con 14 1 0).vel ≠ 0 ∧ (con 14 1 0).acc ≠ 0 ∧ (con 14 1 0).jerk ≠ 0 ∧ (con 14 1 0).imageC ≠ ~~~((con 14 1 0).jerk ++ (con 14 1 0).acc ++ (con 14 1 0).vel) ∧
      (con 14 1 0xFFFFFFFCFFFFFFFDFFFFFFFE).imageC = ~~~((con 14 1 0).jerk ++ (con 14 1 0).acc ++ (con 14 1 0).vel)) ∧
    (let p : GenP := ⟨15, 1, 1, 0⟩
     (grp 1).masked p.mask = [3] ∧ p.profile.toNat ≤ 15 ∧ p.flags.toNat ≤ 1 ∧ (grp 1).maskOk p.mask = true ∧ dev.flag (gB 3) GEN_STATUS_PENDING = false ∧
       (dev.setFlag (gB 3) GEN_STATUS_PENDING true).flag (gB 3) GEN_STATUS_PENDING = true) ∧
    (let p : GenP := ⟨0, 1, 1, 0⟩; let x := waits 10 (.genSet p) 8; let s := { runs dev with sched := [x] }
     s.domains = true ∧ s.group 3 = some (grp 1) ∧ s.sched = [x] ∧ x.cmd = .genSet p ∧ x.group = 3 ∧ x.due (s.effectAt (grp 1)).1 (s.effectAt (grp 1)).2 = true) ∧
    (dev.fld (gB 3) GEN_MODE_SHAPE = 0 ∧ dev.fld (gB 3) GEN_MODE_NOISE = 0) ∧
    ((1 : Word) ≠ 0 ∧ (63 : Word).toNat % 64 ≠ 0 ∧ getBits (1 : Word).toNat 0 17 = 1 ∧ (0x2400000 : Word).toNat % 64 = 0 ∧
      inSystem (0x2400000 : Word).toNat 960 = true ∧ dev.flag (gB 3) GEN_STATUS_PENDING = false ∧ (dev.eng (sid 3)).due = false) := by decide +kernel

theorem test_ready_gen : (dev.setFlag (gB 3) GEN_STATUS_PENDING true).ready hdr (grp 1) ∧ (loopIn dev 1).ready hdr (grp 1) ∧ (loopIn fit 0).ready hdr (grp 1) ∧
    (dev.setFlag (sB 3) SLICE_FORCE_CFG_DIRECT true).ready hdr (grp 1) := by unfold Dev.ready; decide +kernel
/-- Memory with the words `ws` from the byte address `a` on. -/
def wordsAt (a : Nat) (ws : List Nat) : List Host.Cell :=
  (((List.range ws.length).zip ws).flatMap (fun p => (List.range 4).map (fun i => (a + 4 * p.1 + i, BitVec.ofNat 8 (p.2 / 256 ^ i))))).filter
    (fun c => c.2 != 0)

def legD : Leg := ⟨0, 2, 1, 0, 0x2401000, 0xFFFF, 2⟩
/-- The first step of a leg of two. -/
def pos0 : PathPos := ⟨0, legD, 0, 0, 1⟩
/-- Engine 3 in the state `t`, with `e` what it holds. -/
def engD (t : Nat) (e : Engine → Engine) : Dev := ((runs dev).setFld (tB 3) TRAV_STATUS_STATE t).modEng 3 e
/-- Engine 3 waits for the condition `w`. -/
def engW (w : Nat) : Dev := (engD 2 (fun e => { e with next := some pos0 })).setFld (tB 3) TRAV_STATUS_WAIT w
/-- The first step of the leg as the engine holds it, with the bytes of its station. -/
def heldD (b : List Byte) : HeldStep := ⟨pos0, 0, 0, [(0, b)]⟩
def wordBytes (ws : List Nat) : List Byte := (ws ++ List.replicate (4 - ws.length) 0).flatMap (fun w => leBytes 4 w)
/-- A mark table at 0x2401000: one mark, at 5,000 ns, period 7. -/
def marks : List Host.Cell := wordsAt 0x2401000 [1, 0, 7, 0, 5000, 0]

theorem test_hyp_PathsFollowTheirLegs :
    (pos0.step + 1 < pos0.desc.count) ∧
    (let p : PathPos := { pos0 with step := 1 }; p.desc.count ≤ p.step + 1 ∧ p.desc.rep < 0xFFFFFFFF ∧ p.pass + 1 = p.desc.rep) ∧
    (let p : PathPos := { pos0 with step := 1, desc := { legD with rep := 3 } }; p.desc.count ≤ p.step + 1 ∧ p.desc.rep < 0xFFFFFFFF ∧ p.pass + 1 < p.desc.rep) ∧
    (let p : PathPos := { pos0 with step := 1, desc := { legD with rep := 0xFFFFFFFF } }; p.desc.count ≤ p.step + 1 ∧ p.desc.rep = 0xFFFFFFFF) := by decide +kernel

theorem test_hyp_WaitsAreMetAndStepsApply :
    (let s := { engW 1 with mem := marks }
     s.domains = true ∧ s.group 3 = some (grp 1) ∧ (grp 1).axis = 0 ∧ s.wantedMark 3 = some 5000 ∧ s.reachedMark 3 5000 = false ∧ s.travState 3 = 2 ∧
       (s.eng 3).metAt = none ∧ (s.eng 3).late = false ∧ (s.eng 3).due = false) ∧
    (let s := { engW 2 with plates := { (engW 2).plates with trig := [1] } }; s.trigOn 0 = true ∧ s.awaiting 3 (2 + 0) = true ∧ (s.eng 3).due = false) ∧
    (let s := { engW 5 with plates := { (engW 5).plates with trig := [0, 0, 0, 1] } }; s.trigOn 3 = true ∧ s.awaiting 3 (2 + 3) = true) ∧
    ((engW 7).awaiting 3 7 = true ∧ (engW 8).awaiting 3 8 = true ∧ (engW 8).awaiting 3 7 = false ∧ (engW 8).awaiting 3 6 = false ∧ (engW 6).awaiting 3 6 = true ∧ ((engW 6).eng 3).due = false ∧
      (engW 9).awaiting 3 9 = true ∧ ((engW 8).modSl 3 (fun x => { x with winOffer := some 0 }) |>.sl (Fin.ofNat 32 (3 + (engW 8).fld (tB 3) TRAV_WAIT_CFG_WIN_SLICE))).winOffer =
        some (engW 8).now) ∧
    (let s := { engW 1 with mem := marks, now := 6000, time := 6000 }; s.wantedMark 3 = some 5000 ∧ s.reachedMark 3 5000 = true ∧ s.travState 3 = 2 ∧ (s.eng 3).metAt = none ∧
      (let t : Dev := { (engW 1).setFld (tB 3) TRAV_STATUS_STATE 3 with mem := wordsAt 0 [0, 0, 0, 0x100] ++ marks, time := 6000 }
       t.wantedMark 3 = some 5007 ∧ t.reachedMark 3 5007 = true ∧ t.travState 3 = 3)) ∧
    (∀ w ∈ [[0], [5]], let s := (engW 6).modEng 3 (fun e => { e with metAt := some 0, held := some (heldD (wordBytes w)) })
     (grp 1).first = 3 ∧ s.travState 3 = 2 ∧ (s.eng 3).applied = false ∧ (s.eng 3).next = some pos0 ∧ (s.eng 3).held = some (heldD (wordBytes w)) ∧
       (s.eng 3).metAt = some 0 ∧ ((s.upTo (0 + waitLatency 6)).holding (heldD (wordBytes w))).stepFieldsOk (grp 1) (pos0.index 1) = (w == [0])) := by decide +kernel

theorem test_hyp_EngineEventsAndPrefetch :
    (let s := engD 1 (fun e => { e with due := true, stops := [ownCtx hdr 8] })
     s.domains = true ∧ s.group 3 = some (grp 1) ∧ (grp 1).first = 3 ∧ s.travState 3 = 1 ∧ (s.eng 3).due = true ∧ (s.eng 3).applied = false ∧ (s.eng 3).stops ≠ []) ∧
    (let s := engD 1 (fun e => { e with due := true, pos := some pos0 }); (s.eng 3).stops = [] ∧ (s.eng 3).sampled = none ∧ (s.eng 3).pos = some pos0 ∧ (s.eng 3).due = true) ∧
    (let s := engD 1 (fun e => { e with due := true, latch := some ⟨none, 4, 0, 0⟩, tickAt := 100 })
     (s.eng 3).stops = [] ∧ (s.eng 3).sampled = some ⟨none, 4, 0, 0⟩ ∧ (s.eng 3).applied = false) ∧
    (let s := engD 2 (fun e => { e with due := true, next := some pos0 })
     s.travState 3 = 2 ∧ (s.eng 3).due = true ∧ (s.eng 3).metAt = none ∧ (s.eng 3).next = some pos0 ∧ getBits pos0.desc.flags 1 2 = 1 ∧
       s.fld (tB 3) TRAV_STATUS_WAIT ≠ 1 ∧ getBits legD.flags 1 2 = 1 ∧ getBits ({ legD with flags := 0 } : Leg).flags 1 2 = 0 ∧
       2 ≤ getBits ({ legD with flags := 4 } : Leg).flags 1 2 ∧ ((s.modEng 3 (fun e => { e with due := false })).travFault 3 4 (pos0.index 1)).travState 3 = 2) ∧
    (let s := engD 0 (fun e => { e with due := true, start := some (ownCtx hdr 6, 0, 0, 0) })
     (s.eng 3).start = some (ownCtx hdr 6, 0, 0, 0) ∧ (s.eng 3).due = true ∧ 0 ≤ (s.eng 3).tickAt ∧ (0 : Word64).toNat ≤ (s.eng 3).tickTime.toNat ∧
       (s.eng 3).window.place = none ∧ ((s.modEng 3 (fun e => { e with window := ⟨[], some (.step pos0)⟩ })).eng 3).window.place = some (.step pos0)) := by
  decide +kernel

theorem test_hyp_EngineEventsAndPrefetch_window :
    (let s := { engD 1 (fun e => { e with pos := some pos0 }) with segs := dev.segs.set 0 (1, false) }
     s.memst.bad = [] ∧ (s.eng 3).window = .none ∧ (s.eng 3).next = none ∧ (s.eng 3).pos = some pos0 ∧ s.travState 3 = 1 ∧ (grp 1).size ≤ 32 ∧
       pos0.next = some { pos0 with step := 1 } ∧ s.mayEnter 3 (({ pos0 with step := 1 } : PathPos).index 1) = true ∧
       (let t := s.modEng 3 (fun e => { e with window := ⟨[heldD []], some (.step pos0)⟩ })
        (t.eng 3).window.last = some (.step pos0) ∧ ((t.eng 3).window.steps.length + 2) * 1 ≤ 256 ∧ t.mayEnter 3 (pos0.index 1) = true)) ∧
    (∀ k ∈ [0, 1], let p : PathPos := { pos0 with desc := { legD with flags := k } }
     let s := { engD 3 (fun e => { e with next := some p }) with segs := dev.segs.set 0 (2, false) }
     (s.eng 3).next = some p ∧ s.travState 3 = 3 ∧ (s.eng 3).resume = none ∧ s.mayEnter 3 (p.index 1) = true ∧ bitOf p.desc.flags 0 = (k == 1) ∧
       (Dev.skipOn 3 (grp 1) 1048576 s p false).2.2 = false ∧ (Dev.skipOn 3 (grp 1) 1048576 s p false).2.1.place = some (.step p)) := by decide +kernel

theorem test_hyp_SegmentsAndJumps :
    (63 < (64 : Byte).toNat ∧ (63 : Byte).toNat ≤ 63 ∧ dev.plates.segOwner.getD 63 0xFF = 0xFF ∧ (dev.seg 63).1 ≠ 2 ∧
      (({ dev with segs := dev.segs.set 63 (2, false) } : Dev).seg 63).1 = 2) ∧
    (let s := { ((dev.setFlag (tB 3) TRAV_JUMP_CFG_TRIG_EN true).setFld (tB 3) TRAV_JUMP_CFG_TRIG_SEL 2).modEng 3 (fun e => { e with armed := some .none }) with
        plates := { dev.plates with trig := [0, 0, 1] } }
     s.domains = true ∧ s.group 3 = some (grp 1) ∧ s.flag (tB 3) TRAV_JUMP_CFG_TRIG_EN = true ∧ s.fld (tB 3) TRAV_JUMP_CFG_TRIG_SEL = 2 ∧ s.trigOn 2 = true ∧
       (s.eng 3).armed.isSome = true ∧ (grp 1).first = 3 ∧ (s.eng 3).latch = none) ∧
    (let s := ((dev.setFlag (tB 3) TRAV_JUMP_CFG_CMP_EN true).modEng 3 (fun e => { e with armed := some .none })).modSl 3 (fun x => { x with winOffer := some 0 })
     s.flag (tB 3) TRAV_JUMP_CFG_CMP_EN = true ∧ (grp 1).first + s.fld (tB 3) TRAV_JUMP_CFG_CMP_SLICE = (3 : SliceId).val ∧ (s.sl 3).winOffer.isSome = true ∧
       (s.eng 3).armed.isSome = true ∧ (s.eng 3).latch = none) ∧
    dev.flag (tB 3) TRAV_JUMP_CFG_TRIG_EN = false ∧
    (dev.modEng 3 (fun e => { e with filling := some ⟨none, 4, 0, 2⟩ }) |>.eng 3).filling = some ⟨none, 4, 0, 2⟩ ∧
    ((dev.eng 3).armed = none ∧ ((dev.fillWindow (grp 1) (dev.fld (tB 3) TRAV_JUMP_CFG_TARGET) false).eng 3).armWait = none) ∧
    ((grp 1).size ≤ getBits (0x10 : Word).toNat 4 5 ∧ getBits (2 : Word).toNat 4 5 < (grp 1).size ∧ dev.trigOn (getBits (2 : Word).toNat 1 2) = false ∧
      ({ dev with plates := { dev.plates with trig := [0, 1] } } : Dev).trigOn (getBits (2 : Word).toNat 1 2) = true ∧ (dev.eng 3).latch = none) := by decide +kernel

/-- Leg 0 stands at 0x2400000: two steps from station 0 on, once. -/
def leggy : Dev := { fit.wr (tB 3 + TRAV_LEG_BASE) 0x2400000 with mem := wordsAt 0x2400000 [0, 2, 1, 0, 0, 0xFFFF, 0, 0x8851cc76] }

theorem test_hyp_LegCommands :
    (4095 < (4096 : BitVec 16).toNat) ∧
    (leggy.legStatus (sid 3) 0 1 = OK ∧ leggy.nothingToFill (sid 3) 0 = true ∧ ({ leggy with segs := leggy.segs.set 0 (1, false) } : Dev).nothingToFill (sid 3) 0 = false ∧
      (leggy.eng (sid 3)).latch = none ∧ (leggy.eng (sid 3)).filling = none) ∧
    (∀ k ∈ [1, 2, 3], (engD k id).travState (sid 3) = k) ∧
    (leggy.travState (sid 3) = 0 ∧ (leggy.eng (sid 3)).start = none ∧ leggy.pins.interlockN = true ∧ leggy.fld 0 DATUM_STATUS_BANK ≠ 3 ∧
      leggy.powerFailing = false ∧ leggy.enter (sid 3) 0 = .step ⟨0, ⟨0, 2, 1, 0, 0, 0xFFFF, 0⟩, 0, 0, 0⟩ ∧
      leggy.memst.bad = [] ∧ leggy.mayEnter (sid 3) 0 = false ∧ (leggy.enterRead (sid 3) 0).2 ≠ .idle) ∧
    (let s := { leggy with mem := wordsAt 0x2400000 [0, 0, 1, 0, 0, 0xFFFF, 0, 0x516a0079] }
     s.legStatus (sid 3) 0 1 = OK ∧ (s.enterRead (sid 3) 0).2 = .idle ∧ s.travState (sid 3) = 0) ∧
    (({ leggy with pins := failing.pins } : Dev).legStatus (sid 3) 0 1 = OK ∧ ({ leggy with pins := failing.pins } : Dev).pins.interlockN = false) := by decide +kernel

theorem test_ready_leg : leggy.ready hdr (grp 1) ∧ (engD 1 id).ready hdr (grp 1) ∧ ({ leggy with pins := failing.pins } : Dev).ready hdr (grp 1) := by
  unfold Dev.ready; decide +kernel

/-- A released hub whose TIME is disciplined by PPS. -/
def ppsDev (t : Word64) : Dev := { dev with time := t }

theorem test_hyp_TimeIsSetAndDisciplined :
    (dev.timeFromLink = false ∧ (dev.setFld 0 MER_TIME_STATUS_SRC 2).timeFromLink = true ∧ dev.epoch.toNat % 1000000000 = 0 ∧ dev.plates.ppsEdge ≠ 0 ∧
      (dev.wr MER_EPOCH_LO 1).epoch.toNat % 1000000000 ≠ 0) ∧
    (dev.domains = true ∧ dev.released = true ∧ dev.mer.firstEdge = true ∧ (dev.setFlag 0 MER_TIME_STATUS_SET_PENDING true).flag 0 MER_TIME_STATUS_SET_PENDING = true) ∧
    (let s := { dev with now := 1000000000, mer := { dev.mer with firstEdge := false, ppsAt := some 0, outliers := [] } }
     s.mer.ppsAt = some 0 ∧ oneSecond 0 s.now = true ∧ s.flag 0 MER_TIME_STATUS_SET_PENDING = false ∧ s.flag 0 MER_TIME_STATUS_TIME_SET = false) ∧
    (let s := { dev.setFlag 0 MER_TIME_STATUS_TIME_SET true with
        now := 2000000000, time := 2000000002, mer := { dev.mer with firstEdge := false, ppsAt := none, outliers := [1000000000, 0] } }
     s.mer.outliers = [1000000000, 0] ∧ oneSecond 1000000000 s.now = true ∧ oneSecond 0 1000000000 = true ∧ s.mer.stepPending = false ∧
       s.flag 0 MER_TIME_STATUS_SLEWING = false ∧ offsetOfTime (s.time.toNat - signed 16 (s.fld 0 MER_PPS_CFG_DELAY_NS)) = 2) ∧
    (let s := { dev with now := 500000000, mer := { dev.mer with firstEdge := false, ppsAt := some 0 } }
     s.mer.firstEdge = false ∧ s.mer.ppsAt = some 0 ∧ oneSecond 0 s.now = false ∧ s.mer.outliers = []) ∧
    (let s := dev.setFlag 0 MER_TIME_STATUS_TIME_SET true
     s.flag 0 MER_TIME_STATUS_TIME_SET = true ∧ s.mer.stepPending = false ∧ s.flag 0 MER_TIME_STATUS_SLEWING = false ∧ s.flag 0 MER_PPS_CFG_JUMP_POLICY = false ∧
       (s.setFlag 0 MER_PPS_CFG_JUMP_POLICY true).flag 0 MER_PPS_CFG_JUMP_POLICY = true ∧ ((2 : Int) < 3) ∧ ((-3 : Int) < -2) ∧
       ({ s with mer := { s.mer with stepPending := true } } : Dev).mer.stepPending = true) ∧
    (∀ x ∈ [2, 1, 0xFFFFFFFF, 0xFFFFFFFE], let s := (dev.setFld 0 MER_PPS_CFG_SLEW_RATE 100).wr MER_SLEW_LEFT (BitVec.ofNat 32 x)
      s.awake = true ∧ s.slewRate ≠ 0 ∧ (s.rd MER_SLEW_LEFT).toNat = x) ∧ (1 < (2 : Word).toInt ∧ (0xFFFFFFFE : Word).toInt < -1) := by decide +kernel

/-- Axis 1 an encoder, axis 2 a serial encoder of 16 bits at 100 ns, axes 3 and 4 on. -/
def axed : Dev :=
  { dev with plates := { dev.plates with axes := [⟨true, 0, 1024, 0⟩, ⟨true, 1, 4096, 0x6410⟩, ⟨true, 0, 100, 0⟩, ⟨true, 0, 0, 0⟩] } }

theorem test_hyp_AxesFollowTheirInputs :
    (axed.pins.resetN = true ∧ axed.awake = true ∧ (axed.axisRec (encAxis 0)).en = true ∧ (axed.axisRec (encAxis 0)).kind = 0 ∧
      (axed.axisRec (encAxis 1)).en = true ∧ (axed.axisRec (encAxis 1)).kind = 1 ∧ (axed.axisSt (encAxis 1)).pollAt = none ∧
      ((axed.modAxis 2 (fun x => { x with pollAt := some 5 })).axisSt (encAxis 1)).pollAt = some 5 ∧ (axed.encLevels 0 (true, true) false).awake = true) ∧
    ([(true, false), (true, true), (false, true)].map (fun l => (quadPlace l + 4 - quadPlace (axed.pins.encoder.getD 0 (false, false))) % 4) = [1, 2, 3]) ∧
    (let x : AxisSt := { AxisSt.atReset with seen := true, edgeAt := some 3 }; x.seen = true ∧ x.dirUp ≠ false ∧ x.dirUp = true ∧ x.edgeAt = some 3) ∧
    (let s := axed.setFlag (axBase 1) MER_AX_CFG_Z_EN true
     s.flag (axBase (encAxis 0)) MER_AX_CFG_Z_EN = true ∧ s.flag (axBase (encAxis 0)) MER_AX_STATUS_ZSEEN = false ∧
     (let t := s.setFlag (axBase 1) MER_AX_STATUS_ZSEEN true
      t.flag (axBase (encAxis 0)) MER_AX_STATUS_ZSEEN = true ∧ t.axisPos (encAxis 0) ≤ 256 ∧
      (let u := t.modAxis 1 (fun x => { x with value := 1000 })
       256 < u.axisPos (encAxis 0) ∧ u.axisPos (encAxis 0) + 256 < u.revolution (encAxis 0)))) ∧
    (let s := { (axed.modAxis 3 (fun x => { x with seen := true })) with now := 10000000 }
     s.domains = true ∧ (s.axisRec 3).en = true ∧ (s.axisSt 3).seen = true ∧ s.flag (axBase 3) MER_AX_STATUS_LOST = false ∧
       7 * s.mainsNominal ≤ 10 * (s.now - (s.axisSt 3).at_) ∧ 10 * (s.now - (s.axisSt 3).at_) ≤ 14 * s.mainsNominal ∧
       10 * (({ s with now := 1000 } : Dev).now - (s.axisSt 3).at_) < 7 * s.mainsNominal) ∧
    (let s := axed.modAxis 4 (fun x => { x with samples := [(1, 2)] })
     (s.axisRec 4).en = true ∧ (s.axisSt 4).samples = [(1, 2)] ∧ s.flag (axBase 4) MER_AX_STATUS_LOST = false) ∧
    (let s := { linked with cfg := { linked.cfg with ptm := true } }; s.isRemote = false ∧ s.cfg.ptm = true ∧ s.cfg.link = true ∧ s.mer.ptmOpen = none ∧
      s.fld 0 MER_PTM_CTRL_INTERVAL_MS = 0 ∧ (s.setFld 0 MER_PTM_CTRL_INTERVAL_MS 1).fld 0 MER_PTM_CTRL_INTERVAL_MS ≠ 0) ∧
    ({ dev with mer := { dev.mer with ptmOpen := some 9 } } : Dev).mer.ptmOpen = some 9 := by decide +kernel
theorem test_hyp_CleanerCoastsAndReturns :
    (let s := dev.setFld 0 CLK_STATUS_CLEANER_SRC 1
     s.awake = true ∧ 8 ≤ s.boot.step ∧ s.fld 0 CLK_STATUS_CLEANER_SRC ≠ 0 ∧ s.flag 0 CLK_STATUS_COASTING = false ∧ s.flag 0 CLK_STATUS_REF_LOCKED = false ∧
       (s.rd CLK_CORR).toInt ≤ 1759218604 ∧ -1759218604 ≤ (s.rd CLK_CORR).toInt ∧ smallPhase 2001 = false ∧ smallPhase (-2000) = true) ∧
    (let s := (dev.setFld 0 CLK_CFG_REFIN_FREQ 1).setFlag 0 CLK_STATUS_REF_QUALIFIED true
     s.fld 0 CLK_CFG_REFIN_FREQ ≠ 0 ∧ s.clk.refLost = false ∧ s.awake = true ∧ 8 ≤ s.boot.step ∧ s.flag 0 CLK_STATUS_REF_QUALIFIED = true ∧ (s.setFlag 0 CLK_CTRL_FORCE_COAST true).flag 0 CLK_CTRL_FORCE_COAST = true ∧
       (s.setFlag 0 CLK_CTRL_FORCE_COAST true).flag 0 CLK_STATUS_REF_QUALIFIED = true) ∧
    (let s := (dev.setFld 0 CLK_CFG_REFIN_FREQ 1).setFlag 0 CLK_STATUS_COASTING true
     s.fld 0 CLK_CFG_REFIN_FREQ ≠ 0 ∧ s.flag 0 CLK_STATUS_REF_QUALIFIED = false ∧ s.flag 0 CLK_CTRL_FORCE_COAST = false ∧ s.clk.refSeen = false ∧
       (s.modClk (fun c => { c with refSeen := true })).clk.refSeen = true ∧
       smallPhase (s.reduceJump 2000) = true ∧ smallPhase (s.reduceJump 98000) = true ∧ smallPhase (s.reduceJump 2001) = false) := by decide +kernel

/-- Both PLLs locked, XIN there, the standby ready or not. -/
def clocked (ready : Bool) : Dev :=
  (((dev.setFlag 0 CLK_STATUS_XIN_OK true).setFlag 0 CLK_PLL_A_LOCKED true).setFlag 0 CLK_PLL_B_LOCKED true).setFlag 0 CLK_STATUS_STANDBY_READY ready

theorem test_hyp_PllsLockAndSwitch :
    ((clocked false).awake = true ∧ 4 ≤ (clocked false).boot.step ∧ (clocked false).flag 0 CLK_STATUS_XIN_OK = true ∧ (clocked false).pllIsLocked (!false) = true) ∧
    ((clocked true).pins.resetN = true ∧ (clocked true).pllIsLocked (!(clocked true).active) = true ∧ (clocked true).pllIsLocked (clocked true).active = true ∧
      (clocked true).fallback = false ∧ (clocked true).flag 0 CLK_STATUS_STANDBY_READY = true ∧
      ((clocked true).setFlag 0 CLK_STATUS_FALLBACK true).fallback = true ∧
      ((clocked true).setFlag 0 CLK_STATUS_FALLBACK true).pllIsLocked ((clocked true).setFlag 0 CLK_STATUS_FALLBACK true).active = true) ∧
    ((clocked false).frz.frozen = false ∧ (clocked false).fallback = false ∧ (clocked false).flag 0 CLK_STATUS_STANDBY_READY = false) ∧
    ((-200000 : Int) ≤ 200000 ∧ (200000 : Int) < 200001 ∧ (-200001 : Int) < -200000) ∧ dev.boot.chip = false := by decide +kernel

theorem test_hyp_PllsLockAndSwitch_ramp : ∀ n k, (dev.sl n).phase ≠ .ramp k := by
  have h : ∀ n : SliceId, (dev.sl n).phase = .parked := by decide +kernel
  intro n k; rw [h n]; exact nofun

theorem test_hyp_ManualSwitchIsTheSameSwitch :
    ((clocked true).awake = true ∧ (clocked true).flag 0 CLK_STATUS_STANDBY_READY = true ∧ (clocked true).fallback = false) ∧
    (4 ≤ (clocked false).boot.step ∧ (clocked false).pllIsLocked (clocked false).active = true ∧ (clocked false).flag 0 CLK_STATUS_XIN_OK = true) ∧
    ((clocked false).flag 0 CLK_STATUS_STANDBY_READY = false ∧ ((clocked true).setFlag 0 CLK_STATUS_FALLBACK true).fallback = true) := by decide +kernel

def memD (m : MemSt → MemSt) : Dev := { dev with memst := m dev.memst }

theorem test_hyp_MemoryRepairsItself :
    ((memD (fun m => { m with scrub := [7], bad := [(7, false)] })).memst.scrub.contains 7 = true ∧ dev.memst.scrub.contains 7 = false ∧
      (memD (fun m => { m with scrub := [7] })).memst.retest.length < 4) ∧
    (exclusionOk (0x100 : Word).toNat (dev.rd (MEM_EXCL_LEN + 8 * 7)).toNat = true ∧ exclusionOk (dev.rd (MEM_EXCL_START + 8 * 7)).toNat (0x400000 : Word).toNat = true ∧
      exclusionOk (0x80 : Word).toNat (dev.rd (MEM_EXCL_LEN + 8 * 0)).toNat = false) ∧
    (9 ≤ (up dev 9).boot.step ∧ (up dev 9).flag 0 MEM_RS_CFG_ENABLE = true ∧ (up dev 9).memst.test = none ∧
      (memD (fun m => { m with test := some ⟨0, 0, false⟩ })).memst.test ≠ none ∧ (dev.setFlag 0 MEM_RS_CFG_ENABLE false).flag 0 MEM_RS_CFG_ENABLE = false) ∧
    ((memD (fun m => { m with test := some ⟨0, 0, false⟩ })).memst.test = some ⟨0, 0, false⟩ ∧ dev.memst.due = false) ∧
    (511 % 520 < 512 ∧ dev.memst.freeSpare (511 / 520) = some 0 ∧ (memD (fun m => { m with commit := some 5 })).memst.commit.isSome = true ∧
      (memD (fun m => { m with commit := some 5 })).memst.commit = some 5 ∧ (memD (fun m => { m with commit := some 5 })).memst.waiting = false) := by decide +kernel

/-- One bit of the CRC-32 on numbers, which Lean's kernel counts fast. -/
def bitN (c : Nat) : Nat := if c % 2 = 1 then Nat.xor (c / 2) 0xEDB88320 else c / 2

theorem bitN_eq (c : Word) : (crc32Bit c).toNat = bitN c.toNat := by
  unfold crc32Bit bitN
  have h : c.getLsbD 0 = decide (c.toNat % 2 = 1) := by simp [BitVec.getLsbD, Nat.testBit_zero]
  rw [h]
  by_cases e : c.toNat % 2 = 1
  · rw [if_pos (decide_eq_true e), if_pos e, BitVec.toNat_xor, BitVec.toNat_ushiftRight, Nat.shiftRight_eq_div_pow]; rfl
  · rw [if_neg (by simp [e]), if_neg e, BitVec.toNat_ushiftRight, Nat.shiftRight_eq_div_pow]

def byteN (c : Nat) (b : Nat) : Nat := bitN (bitN (bitN (bitN (bitN (bitN (bitN (bitN (Nat.xor c b))))))))

theorem byteN_eq (c : Word) (b : Byte) : (crc32Byte c b).toNat = byteN c.toNat b.toNat := by
  unfold crc32Byte byteN
  have h : (c ^^^ b.setWidth 32).toNat = Nat.xor c.toNat b.toNat := by
    rw [BitVec.toNat_xor, BitVec.toNat_setWidth, Nat.mod_eq_of_lt (by omega)]; rfl
  simp only [bitN_eq, h]

/-- CRC-32 on numbers, each intermediate value worked out before the next. -/
def crcN : List Byte → Nat → Nat
  | [], c => c
  | b :: l, c => if c = 0 then crcN l (byteN c b.toNat) else crcN l (byteN c b.toNat)

theorem crcN_eq (l : List Byte) (c : Word) : (l.foldl crc32Byte c).toNat = crcN l c.toNat := by
  induction l generalizing c with
  | nil => rfl
  | cons b l ih => simp [crcN, ih, byteN_eq]

theorem imgRecOk_crcN (g : Nat → Byte) (o : Nat) :
    imgRecOk g o = (~~~BitVec.ofNat 32 (crcN (imgBytes g o 0xFFC) 0xFFFFFFFF) == BitVec.ofNat 32 (imgNum g (o + 0xFFC) 4)) := by
  have h := crcN_eq (imgBytes g o 0xFFC) 0xFFFFFFFF
  unfold imgRecOk crc32
  rw [show (0xFFFFFFFF : Nat) = (0xFFFFFFFF : Word).toNat from rfl, ← h, BitVec.ofNat_toNat, BitVec.setWidth_eq]

/-- The record of slice 3 in set 0 of the working copy: zeros and their CRC. -/
def datumD : Dev := { dev with mem := wordsAt (0x2640000 + recOff 0 3 + 0xFFC) [0x603b0489] }

theorem test_hyp_DatumServiceRampsToItsTargets :
    ((-641 : Int) < -640 ∧ (dev.sl 3).cS = 0 ∧ (1520 : Int) ≤ 1520 ∧ (-640 : Int) ≤ -640 ∧ (-640 : Int) < 1520 ∧ (-640 : Int) ≤ 1519 ∧ (1519 : Int) < 1520) ∧
    (dev.awake = true ∧ 8 ≤ (up dev 8).boot.step) ∧
    (pickSet (-641) = (0, none) ∧ (dev.sl 3).cT ≠ [1] ∧ (dev.sl 3).cS = 0) ∧
    (let s := dev.modSl 3 (fun x => { x with cK := 1, cS := 3, cAt := 5, cLen := 300 })
     (s.sl 3).cK + 1 < (s.sl 3).cS ∧ (s.sl 3).rampDue ≤ max s.now s.rampNext ∧ (s.sl 3).cS ≠ 0) ∧
    (let s := dev.modSl 3 (fun x => { x with cK := 2, cS := 3 }); (s.sl 3).cS ≠ 0 ∧ (s.sl 3).cS ≤ (s.sl 3).cK + 1 ∧ (s.sl 3).rampDue ≤ max s.now s.rampNext) ∧
    (let s := (dev.modSl 3 (fun x => { x with cK := 2, cS := 3, cAt := 5, cLen := 300 })).modSl 4 (fun x => { x with cK := 0, cS := 3 })
     max s.now s.rampNext < (s.sl 3).rampDue) := by decide +kernel

theorem zero_crc : crcN (imgBytes datumD.workByte (recOff 0 3) 0xFFC) 0xFFFFFFFF = 0x9fc4fb76 := by decide +kernel

theorem test_hyp_DatumServiceRampsToItsTargets_record :
    imgRecOk datumD.workByte (recOff (pickSet (-641)).1 3) = true ∧ imgRecOk dev.workByte (recOff (pickSet (-641)).1 3) = false := by
  have e : imgBytes dev.workByte (recOff 0 3) 0xFFC = imgBytes datumD.workByte (recOff 0 3) 0xFFC := by
    unfold imgBytes
    refine List.map_congr_left fun i hi => ?_
    have hi := List.mem_range.1 hi
    have m : datumD.mem = [(0x2644FFC, 0x89), (0x2644FFD, 0x04), (0x2644FFE, 0x3B), (0x2644FFF, 0x60)] := by decide +kernel
    have n : dev.mem = [] := by decide +kernel
    have w : datumD.workBase = 0x2640000 := by decide +kernel
    simp only [Dev.workByte, Dev.byte, m, n, w, Store.get, List.find?_nil]
    rw [List.find?_eq_none.2]
    intro c hc h
    simp only [List.mem_cons, List.not_mem_nil, or_false] at hc
    simp only [beq_iff_eq] at h
    rcases hc with rfl | rfl | rfl | rfl <;> simp only [recOff] at h <;> omega
  have p : (pickSet (-641)).1 = 0 := by decide
  rw [p, imgRecOk_crcN, imgRecOk_crcN, e, zero_crc]; decide +kernel

def calP : CalP := ⟨0, 0, 0, 1, 31, 0, 0⟩
def calC : CalRun := ⟨ownCtx hdr 14, 0, calP, 3, 8, 0, false, []⟩
def comC (b : Nat) : CommitRun := ⟨ownCtx hdr 15, b, none, 0, 0, true⟩

theorem test_hyp_CalibrationAndCommit :
    (dev.calFault (grp 1) 0 calP = none ∧ dev.calFault (grp 1) 1 { calP with scope := 1, items := 0, standard := 1000000000 } = none ∧
      (dev.datum.cal.isSome || dev.datum.commit.isSome) = false ∧ fit.fld 0 DATUM_STATUS_BANK ≠ 3 ∧ calP.scope ≠ 1 ∧
      ((dev.setFld 0 DATUM_LAST_PRECOND 0).setFld 0 DATUM_LAST_SLICE 0).calPrecond ⟨ownCtx hdr 14, 0, calP, 3, (grp 1).devMask calP.mask, dev.now, false, (List.range 4).map (fun o => dev.octantTemp (sid (8 * o)))⟩ = none) ∧
    (({ dev with datum := { dev.datum with cal := some calC } } : Dev).datum.cal = some calC ∧ dev.domains = true) ∧
    (1 < (2 : Byte).toNat ∧ (fit.rd (DATUM_CYCLES_F + 4 * fit.userTarget)).toNat < 89999 ∧ fit.datum.commit = none ∧ fit.datum.cal = none ∧ fit.noCommit = false ∧ fit.memst.commit = none ∧
      (({ fit with datum := { fit.datum with cal := some calC } } : Dev).datum.commit.isSome || ({ fit with datum := { fit.datum with cal := some calC } } : Dev).datum.cal.isSome) = true) ∧
    (∀ b ∈ [1, 2], let s := { dev with datum := { dev.datum with commit := some (comC b) } }
      s.datum.commit = some (comC b) ∧ s.memst.commit = none ∧ (comC b).begun = true ∧ (comC b).staged = none ∧ 1 ≤ (comC b).bank ∧ (comC b).bank ≤ 2) := by decide +kernel

theorem all_false (p : Nat → Bool) (n : Nat) (h : p 0 = false) : (List.range (n + 1)).all p = false :=
  List.all_eq_false.2 ⟨0, List.mem_range.2 (Nat.succ_pos n), by rw [h]; exact nofun⟩

theorem test_hyp_CalibrationAndCommit_differs : fit.sameSets fit.workByte = false := by
  have h : (fit.workByte (0x1000 + 0) == fit.bankByte 1 (0x1000 + 0)) = false := by decide +kernel
  have b : fit.fld 0 DATUM_STATUS_BANK = 1 := by decide +kernel
  unfold Dev.sameSets
  rw [b, Bool.and_eq_false_iff]
  exact .inr (all_false _ 0xFFFFF h)
theorem test_hyp_EffectiveClassHasAFloor : 31 < 32 ∧ 319 < 320 ∧ 0x100 ≤ 0x13F ∧ 0x13F < 0x140 ∧ 0x280 ≤ 0x280 ∧ (7 < 8 ∧ 7 ≠ 1 ∧ 7 ≠ 2 ∧ 7 ≠ 3) := by decide

def note (x : BitVec 10) (inj : Bool) : Msg := ⟨x, 0, 0, 0xFF, inj⟩
def colD (c : Collector → Collector) : Dev := { dev with col := c dev.col }
/-- A full queue. -/
def full : Dev := colD (fun c => { c with queue := List.replicate 64 (note 1 false) })

theorem test_hyp_CollectorRecordsMessages :
    dev.isRemote = false ∧ dev.col.queue.length < 63 ∧ 64 ≤ full.col.queue.length ∧ full.col.slots.find? (fun q => q.source == (note 9 false).source) = none ∧
    full.sticky false 9 = false ∧ (full.setSticky false 9).sticky false 9 = true ∧
    ((full.setSticky false 9).setFld (srcBase 9) FAULT_SRC_SEEN 3).effClass (note 9 false) ≤
      ((full.setSticky false 9).setFld (srcBase 9) FAULT_SRC_SEEN 3).fld (srcBase 9) FAULT_SRC_SEEN := by decide +kernel

theorem test_hyp_CollectorCommands :
    (dev.awake = true ∧ dev.col.wired.contains (note 9 false).source.toNat = false ∧ (colD (fun c => { c with wired := [9] })).col.wired.contains (note 9 false).source.toNat = true) ∧
    (dev.pins.resetN = true ∧ dev.srcClass 0x284 = 3 ∧ dev.frz.frozen = false ∧ ({ dev with frz := { dev.frz with frozen := true } } : Dev).srcClass 0x284 = 3 ∧
      dev.srcClass 9 ≠ 3) ∧
    ((colD (fun c => { c with slots := [note 9 false, note 8 false] })).lowSlot = some (note 8 false) ∧ dev.col.queue.length < 64) ∧
    ((colD (fun c => { c with resets := [⟨target 1 5, 0, none, []⟩] })).resetting (target 1 5) = true ∧ target 1 5 / 262144 ≠ 0) ∧
    ((0x1FFFFFF : Word).toNat < 2 ^ 25 ∧ dev.col.queue = [] ∧ full.col.queue = note 1 false :: List.replicate 63 (note 1 false) ∧
      (note 1 false).source ≠ (msgOf (full.rd FAULT_INJECT_LO) 9).source) := by decide +kernel

theorem test_hyp_CollectorCommands_clear :
    dev.refreshLock = dev ∧ (dev.setSticky false 1023).sticky false (32 * 31 + 31) = true ∧ (dev.setSticky false 1023).clearRefused false (32 * 31 + 31) = false ∧
    ((dev.setSticky false 0x3E0).wr (FAULT_CAUSE + 4 * 31) 1).clearRefused false (32 * 31 + 0) = true ∧ (dev.setSticky true 0).sticky true (32 * 0 + 0) = true := by
  decide +kernel

theorem test_hyp_CollectorCommands_rest :
    ((∀ x, x < 1024 → dev.irqSource x = false) ∧
      ∃ x, x < 1024 ∧ ((dev.setSticky false 9).setFlag (srcBase 9) FAULT_SRC_IRQ true).irqSource x = true) ∧
    (let s := (colD (fun c => { c with surveyor := true })).setFld 0 FAULT_WDOG_PERIOD_US 10
     s.fld 0 FAULT_WDOG_PERIOD_US ≠ 0 ∧ s.col.surveyor = true ∧ dev.fld 0 FAULT_WDOG_PERIOD_US = 0) ∧
    ((dev.setFld 0 GLOBAL_STATUS_STATE 3).fld 0 GLOBAL_STATUS_STATE = 3 ∧ (dev.setFld 0 GLOBAL_STATUS_STATE 3).refreshLock.graveCause = false ∧
      dev.fld 0 GLOBAL_STATUS_STATE ≠ 3) := by
  have w : ∀ i : Fin 32, dev.rd (FAULT_REAL + 4 * i.val) = 0 := by decide +kernel
  have c : ∀ i : Fin 32, (dev.setFld 0 GLOBAL_STATUS_STATE 3).refreshLock.rd (FAULT_CAUSE + 4 * i.val) = 0 := by decide +kernel
  refine ⟨⟨?_, 9, by decide +kernel⟩, by decide +kernel, by decide +kernel, ?_, by decide +kernel⟩
  · intro x hx
    have h := w ⟨x / 32, by omega⟩
    simp only at h
    have e : bankWord false x = FAULT_REAL + 4 * (x / 32) := rfl
    simp [Dev.irqSource, Dev.sticky, e, h]
  · unfold Dev.graveCause
    refine List.any_eq_false.2 fun x hx => ?_
    have h := c ⟨x / 32, by have := List.mem_range.1 hx; omega⟩
    simp only at h
    rw [h]; simp

theorem test_hyp_RealMessageWinsOverInjected :
    (let s := (colD (fun c => { c with queue := [note 9 false] })).wr FAULT_INJECT_LO 9
     s.awake = true ∧ (9 : Word).toNat < 2 ^ 25 ∧ s.col.queue = note 9 false :: [] ∧ (note 9 false).injected = false ∧
       (note 9 false).source = (msgOf (s.rd FAULT_INJECT_LO) 9).source) ∧
    dev.consequential (note 9 false) = false := by decide +kernel

/-- Ring 3 enabled and running, with commands up to the index `t` to fetch. -/
def ringD (t : Nat) : Dev :=
  (((linked.setFlag (rB 3) HOST_RING_CFG_ENABLE true).setFlag (rB 3) HOST_RING_STATUS_RUNNING true).setFld (rB 3) HOST_CMD_TAIL_TAIL t)

theorem test_hyp_RingPointers :
    (ringDist ((ringD 5).ringFld 3 HOST_CMD_HEAD_HEAD) (128 % 256) ≤ 128 ∧
      ringDist ((ringD 5).ringFld 3 HOST_CMD_HEAD_HEAD) ((ringD 5).ringFld 3 HOST_CMD_TAIL_TAIL) ≤ ringDist ((ringD 5).ringFld 3 HOST_CMD_HEAD_HEAD) (128 % 256) ∧
      128 < ringDist ((ringD 5).ringFld 3 HOST_CMD_HEAD_HEAD) (129 % 256) ∧
      ringDist ((ringD 5).ringFld 3 HOST_CMD_HEAD_HEAD) (4 % 256) < ringDist ((ringD 5).ringFld 3 HOST_CMD_HEAD_HEAD) ((ringD 5).ringFld 3 HOST_CMD_TAIL_TAIL)) ∧
    ((ringD 5).awake = true ∧ (ringD 5).released = true ∧ (ringD 5).hostUp = true ∧ (ringD 5).flag (rB 3) HOST_RING_CFG_ENABLE = true ∧
      ((ringD 5).ring 3).stopped = false ∧ (ringD 5).fetchRoom 3 ≠ 0) ∧
    ((0 : Byte) = 0 ∧ 0x13 ≤ (0x13 : Byte).toNat) ∧
    (let s := dev.setFld (rB 3) HOST_CPL_TAIL_TAIL 2
     ringDist (s.ringFld 3 HOST_CPL_HEAD_HEAD) (2 % 256) ≤ ringDist (s.ringFld 3 HOST_CPL_HEAD_HEAD) (s.ringFld 3 HOST_CPL_TAIL_TAIL) ∧
       ringDist (s.ringFld 3 HOST_CPL_HEAD_HEAD) (s.ringFld 3 HOST_CPL_TAIL_TAIL) < ringDist (s.ringFld 3 HOST_CPL_HEAD_HEAD) (3 % 256)) ∧
    (8 < getBits (0x12 : Word).toNat 1 4 ∧ bitOf (1 : Word).toNat 0 = true ∧ dev.rd64 (rB 3 + HOST_CMD_BASE_LO) (rB 3 + HOST_CMD_BASE_HI) = 0) ∧
    (let s := (dev.wr (rB 3 + HOST_CMD_BASE_LO) 4096).wr (rB 3 + HOST_CPL_BASE_LO) 8192
     s.flag (rB 3) HOST_RING_STATUS_RUNNING = false ∧ s.flag (rB 3) HOST_RING_CFG_ENABLE = false ∧ getBits (0xD1 : Word).toNat 1 4 ≤ 8 ∧ bitOf (0xD1 : Word).toNat 0 = true ∧
       s.rd64 (rB 3 + HOST_CMD_BASE_LO) (rB 3 + HOST_CMD_BASE_HI) ≠ 0 ∧ s.rd64 (rB 3 + HOST_CPL_BASE_LO) (rB 3 + HOST_CPL_BASE_HI) ≠ 0 ∧
       ∀ q, q ≠ 3 → s.flag (rB q) HOST_RING_CFG_ENABLE = false) := by decide +kernel

theorem test_hyp_CompletionsAndGroupEvents :
    (dev.setFlag (rB 3) HOST_RING_CFG_IRQ_EN true).flag (rB 3) HOST_RING_CFG_IRQ_EN = true ∧ dev.boundRing 0 3 = none ∧ (ringD 5).boundRing 0 3 = some 3 ∧
    (((dev.wr (cB 3 + HOST_CAP_IRQ_BYTES) 64).rd (cB 3 + HOST_CAP_IRQ_BYTES)).toNat ≠ 0 ∧
      (let s := { dev.wr (cB 3 + HOST_CAP_IRQ_BYTES) 64 with chans := dev.chans.set 3 { Chan.atReset with written := 48 } }
       (s.chan 3).written / (s.rd (cB 3 + HOST_CAP_IRQ_BYTES)).toNat ≠ ((s.chan 3).written + 16) / (s.rd (cB 3 + HOST_CAP_IRQ_BYTES)).toNat)) := by decide +kernel

def barD : Dev := (ringD 5).setFlag (rB 4) HOST_RING_CFG_ENABLE true
def barC : Ctx := ownCtx hdr 0x11

theorem test_hyp_BarrierAndFence :
    ((0x10 : Word).getLsbD 3 = false ∧ (0x18 : Word).getLsbD 3 = true ∧ 10000000 < (10000001 : Word).toNat ∧ (10000000 : Word).toNat ≤ 10000000 ∧ (10000000 : Word) ≠ 0) ∧
    (∃ q : RingId, q ≠ barC.hdr.ring ∧ (0x18 : Word).getLsbD q.val = true ∧ barD.atBarrier q = false) ∧
    ((8 : Word) = BitVec.twoPow 32 barC.hdr.ring.val ∧ barC.opcode = 0x11) ∧
    ((dev.modRing 3 (fun q => { q with held := some (barC, 8, some 50) })).ring 3).held = some (barC, 8, some 50) ∧
    ((ownCtx hdr 0x12).opcode = 0x12 ∧ dev.ringFld 3 HOST_RING_CFG_NODE = 0 ∧ dev.open_ 3 ≠ 1 ∧ (dev.setFld (rB 3) HOST_RING_STATUS_IN_FLIGHT 2).open_ 3 = 1 ∧
      (dev.ring 3).relayed = []) := by decide +kernel

theorem test_hyp_BarrierAndFence_mask : ∀ i, (0x18 : Word).getLsbD i = true → barD.flag (rB (sid i)) HOST_RING_CFG_ENABLE = true := by
  have h : ∀ i : Fin 32, (0x18 : Word).getLsbD i.val = true → barD.flag (rB (sid i.val)) HOST_RING_CFG_ENABLE = true := by decide +kernel
  intro i hi
  exact h ⟨i, BitVec.lt_of_getLsbD hi⟩ hi

/-- Channel 3 runs, with `x` in it. -/
def capD (x : Chan) : Dev := { linked.setFlag (cB 3) HOST_CAP_STATUS_RUNNING true with chans := dev.chans.set 3 x }

theorem test_hyp_CaptureDmaAndVectors :
    (dev.flag (cB 3) HOST_CAP_STATUS_RUNNING = false ∧ dev.fld (cB 3) HOST_SGL_COUNT_COUNT = 0 ∧ (dev.setFld (cB 3) HOST_SGL_COUNT_COUNT 1).fld (cB 3) HOST_SGL_COUNT_COUNT = 1 ∧
      sglOk [⟨64, 2147483584, true⟩] = true ∧ (dev.setFld (cB 3) HOST_SGL_COUNT_COUNT 4096).fld (cB 3) HOST_SGL_COUNT_COUNT ≤ 4096) ∧
    ((capD .atReset).flag (cB 3) HOST_CAP_STATUS_RUNNING = true ∧ (capD .atReset).hostUp = true ∧
      ((capD .atReset).wr (cB 3 + HOST_CAP_WB_LO) 64).rd64 (cB 3 + HOST_CAP_WB_LO) (cB 3 + HOST_CAP_WB_HI) ≠ 0) ∧
    (let s := (capD { Chan.atReset with size := 16, queue := [5] }).setFld (rB 3) HOST_RING_CFG_NODE 1
     (s.chan 3).written - (s.chan 3).consumed + 16 ≤ (s.chan 3).size ∧ s.ringFld 3 HOST_RING_CFG_NODE ≠ 0 ∧ (s.chan 3).queue = [5]) ∧
    (let s := region (capD { Chan.atReset with size := 16 }) 16
     s.ringFld 3 HOST_RING_CFG_NODE = 0 ∧ s.capSize (sid (s.ringFld 3 HOST_RING_CFG_GROUP)) ≠ 0 ∧ s.capUsed (sid (s.ringFld 3 HOST_RING_CFG_GROUP)) ≠ 0 ∧
       s.flag (cB 3) HOST_CAP_STATUS_RUNNING = true ∧ s.hostUp = true) ∧
    (let s := capD { Chan.atReset with written := 32 }
     (s.chan 3).written < (s.rd (cB 3 + HOST_CAP_CONSUMED_HI) ++ (33 : Word)).toNat ∧ (s.rd (cB 3 + HOST_CAP_CONSUMED_HI) ++ (32 : Word)).toNat ≤ (s.chan 3).written ∧
       (s.chan 3).consumed ≤ (s.rd (cB 3 + HOST_CAP_CONSUMED_HI) ++ (32 : Word)).toNat ∧ (s.rd (cB 3 + HOST_CAP_CONSUMED_HI) ++ (32 : Word)).toNat % 16 = 0) ∧
    (let s := { linked with vects := dev.vects.set 39 ⟨false, false, true, 0, 0⟩, cfg := { linked.cfg with msix := true } }
     (s.vects.get 39).due = true ∧ (s.vects.get 39).masked = false ∧ s.cfg.fmask = false ∧ s.cfg.msix = true ∧ s.hostUp = true) ∧
    (let s := { linked with vects := dev.vects.set 39 ⟨false, true, false, 0, 0⟩, cfg := { linked.cfg with msix := true } }
     s.awake = true ∧ s.cfg.msix = true ∧ s.cfg.fmask = false ∧ (s.vects.get 39).masked = false ∧ (s.vects.get 39).pending = true) ∧
    (let s := { linked with vects := dev.vects.set 0 ⟨true, true, true, 0, 0⟩, cfg := { linked.cfg with msix := true } }
     (s.vects.get 0).due = true ∧ (s.vects.get 0).masked = true ∧ (s.vects.get 0).pending = true ∧ s.cfg.msix = true ∧ s.cfg.fmask = false) ∧
    ((linked.setFlag 0 GLOBAL_STATUS_READY false).cfgRetry = true ∧ linked.cfgRetry = false ∧ linked.cfg.link = true ∧ linked.cfg.d3 = false ∧
      ({ linked with cfg := { linked.cfg with d3 := true } } : Dev).cfgRetry = false) := by decide +kernel
theorem test_hyp_BarAccesses :
    ([1, 2, 3, 4, 5, 6, 7, (8 : Byte)].length = 8 ∧ 0x27DFFF8 % 8 = 0 ∧ dev.reach2 .host 0x27DFFF8 = true ∧ backed 0x27DFFF8 = true ∧ dev.readOnly2 0x27DFFF8 = false ∧
      dev.setsHit 0x27DFFF8 8 = [] ∧ (loopIn dev 1).setsHit 0 8 ≠ [] ∧ backed 0 = true ∧ dev.readOnly2 0 = false ∧
      0x1000000 ≤ 0x27DFFF8 ∧ (dev.segs.toList.getD (0xFFFFF8 / 262144) (0, false)).1 ≠ 2) ∧
    (backed 0x27E0000 = false ∧ dev.readOnly2 0x2000000 = true ∧ dev.reach2 .surveyor 0x2000000 = true) ∧
    (let s := { dev with segs := dev.segs.set 63 (2, false) }
     backed 0xFFFFF8 = true ∧ s.readOnly2 0xFFFFF8 = false ∧ 0xFFFFF8 < 0x1000000 ∧ (s.segs.toList.getD (0xFFFFF8 / 262144) (0, false)).1 = 2 ∧
       s.reach2 .host 0xFFFFF8 = true ∧ s.setsHit 0xFFFFF8 8 = []) ∧
    (accessOk 0x2800000 4 = true ∧ accessOk 0x2800004 4 = true ∧ accessOk 0x2800000 8 = true ∧ 0x2800004 / 8 = 0x2800000 / 8 ∧ dev.reach2 .host 0x2800000 = true ∧
      dev.reach2 .surveyor 0x2800004 = true ∧ bytesClash 0x2800000 [1, 2, 3, 4] 0x2800004 [5, 6, 7, 8] = false ∧
      bytesClash 0x2800000 [1, 2, 3, 4, 5, 6, 7, 8] 0x2800004 [5, 6, 7, 9] = true) ∧
    (({ dev with cfg := { dev.cfg with d3 := true } } : Dev).reach2 .host 8 = false ∧ 0x27DFFFC % 4 = 0 ∧ dev.memst.bad = [] ∧ dev.cfg.d3 = false ∧ dev.released = true ∧ dev.isRemote = false) ∧
    (0x100000 % 4 = 0 ∧ latchBase 0x100000 = none ∧ ({ dev with latches := [(.host, MER_TIME_LO, 9)] } : Dev).latches = (.host, MER_TIME_LO, 9) :: []) ∧
    (dev.reloadBars .host (sB 3 + SLICE_FORCE_CFG) = false ∧ (sB 3 + SLICE_FORCE_CFG) % 4 = 0 ∧ pairOf (sB 3 + SLICE_FORCE_CFG) = none ∧
      (regRow (sB 3 + SLICE_FORCE_CFG)).isSome = true ∧ ({ dev with cfg := { dev.cfg with d3 := true } } : Dev).reloadBars .host 0 = true ∧
      pairOf 0xFFFFC = none ∧ (regRow 0xFFFFC).isNone = true) := by decide +kernel

/-- A link whose port 0 is up with a partner: node `k`, a remote or the hub with two nodes. -/
def linkD (remote : Bool) (k : Nat) : Dev :=
  ((({ dev with plates := { dev.plates with link := { dev.plates.link with remote := remote, ports := 3, node := k, count := 2 } } }.setFlag (pB 0)
    LINK_PORT_STATUS_UP true).setFld (pB 0) LINK_PORT_STATUS_LANES 3).modPort 0 (fun x => { x with peer := some 1, session := 5, heardAt := 100 }))

def rx (src dst : BitVec 4) (n : Word64) : Rx :=
  { port := 0, crcOk := true, tagOk := true, formOk := true, auth := false, key := 0, dst := dst, src := src, seq := 0, ack := 0, credit := 0, counter := n }

theorem test_hyp_FramesAreAcceptedAndActOn_accept :
    ((linkD true 1).receiving 0 = true ∧ (linkD true 1).bootListen = false ∧ ({ rx 0 1 1 with crcOk := false } : Rx).crcOk = false ∧ (rx 0 1 1).crcOk = true ∧
      (rx 0 1 1).seq.toNat = (((linkD true 1).port 0).vcs.get 0).rxSeq) ∧
    ((linkD true 1).authKind (rx 0 1 0) (((linkD true 1).port 0).vcs.get 0).rxCount ≠ 0 ∧
      (linkD true 1).authKind (rx 0 1 1) (((linkD true 1).port 0).vcs.get 0).rxCount = 0 ∧ (rx 0 1 1).formOk = true ∧ (linkD true 1).isFor (rx 0 1 1) = true ∧ (rx 0 1 1).src.toNat ≠ (linkD true 1).node ∧
      (linkD true 1).memst.bad = []) := by decide +kernel

/-- What a frame leaves once it is accepted. -/
def got (s : Dev) (r : Rx) (k : Fin 3) (ex form : Bool) : Dev := (s.accept r k ex form).1

theorem test_hyp_FramesAreAcceptedAndActOn_remote :
    (let s := linkD true 1
     s.awake = true ∧ (31 : Byte).toNat < 32 ∧ s.node = (rx 0 1 1).dst.toNat ∧
     let form := s.isRemote || s.bootListen || s.cameRound (rx 0 1 1)
     (s.accept (rx 0 1 1) 0 (s.untagged false false) form).2 = true ∧ (s.accept (rx 0 1 1) 0 (s.untagged false true) form).2 = true ∧
     (s.accept (rx 0 1 1) 2 (s.untagged false false) form).2 = true ∧ (s.accept (rx 0 1 1) 1 false (s.isRemote || s.plates.link.ring)).2 = true ∧
     (s.accept (rx 0 1 1) 1 false form).2 = true ∧
     (let s1 := if s.receiving (rx 0 1 1).port && !s.bootListen then s.relayFrame (rx 0 1 1) 1 (.freeze 0) else s
      (s1.accept (rx 0 1 1) 1 (s1.untagged true true) (s1.isRemote || s1.bootListen || s1.cameRound (rx 0 1 1))).2 = true ∧
      (got s1 (rx 0 1 1) 1 (s1.untagged true true) true).isFor (rx 0 1 1) = true) ∧
     (got s (rx 0 1 1) 0 (s.untagged false false) true).released = true ∧ (got s (rx 0 1 1) 0 (s.untagged false false) true).isFor (rx 0 1 1) = true ∧
     (got s (rx 0 1 1) 0 (s.untagged false true) true).isFor (rx 0 1 1) = true ∧ (got s (rx 0 1 1) 2 (s.untagged false false) true).released = true ∧
     (got s (rx 0 1 1) 1 false true).isFor (rx 0 1 1) = true ∧ (got (s.setFld 0 MER_TIME_STATUS_SRC 2) (rx 0 1 1) 1 false true).timeFromLink = true) := by decide +kernel

theorem test_hyp_FramesAreAcceptedAndActOn_hub :
    (let s := linkD false 0
     s.node = (rx 1 0 1).dst.toNat ∧ (s.accept (rx 1 0 1) 0 false (!s.isRemote || (rx 1 0 1).dst.toNat != s.node)).2 = true ∧
     (s.accept (rx 1 0 1) 2 false (!s.isRemote || (rx 1 0 1).dst.toNat != s.node)).2 = true ∧ (got s (rx 1 0 1) 0 false true).isFor (rx 1 0 1) = true ∧ (got s (rx 1 0 1) 2 false true).isFor (rx 1 0 1) = true ∧
     1 ≤ (rx 1 0 1).src.toNat ∧ (rx 1 0 1).src.toNat ≠ 14 ∧ (rx 1 0 1).src.toNat ≤ (got s (rx 1 0 1) 0 false true).plates.link.count) ∧
    (let s := (up (linkD false 15) 5).setFld 0 GLOBAL_STATUS_BOOTSEL 2
     (s.accept (rx 0 15 1) 2 (s.untagged true false) (s.isRemote || s.bootListen || s.cameRound (rx 0 15 1))).2 = true ∧ (got s (rx 0 15 1) 2 (s.untagged true false) true).bootListen = true ∧
       (got s (rx 0 15 1) 2 (s.untagged true false) true).isFor (rx 0 15 1) = true) := by decide +kernel

def cpl : Cpl := ⟨7, 0, false, true, 0x0C, 3, 1, 0xFF, 0⟩
def xw : XferWait := ⟨3, 0, 0, hdr, .park, 0⟩
def linkS (d : Dev) (f : LinkSt → LinkSt) : Dev := { d with link := f d.link }

theorem test_hyp_FrameContentsTakeEffect :
    ((linkS dev (fun l => { l with done := [(3, 0, cpl)] })).link.done.find? (fun y => y.1 == xw.ring && y.2.1 == xw.index) = some (xw.ring, xw.index, cpl)) ∧
    (dev.link.done.find? (fun y => y.1 == xw.ring && y.2.1 == xw.index) = none ∧ dev.link.xferWait = [] ∧ dev.xferMet xw = true) ∧
    (31 < 32 ∧ (dev.ring (sid 31)).relayed = []) ∧
    (((dev.modRing 3 (fun q => { q with relayed := [(0, 0, ownCtx hdr 0x0C, .park)] })).ring (sid 3)).relayed = [(0, 0, ownCtx hdr 0x0C, .park)] ∧
      (ownCtx hdr 0x0C).hdr.tag = cpl.tag ∧ (ownCtx hdr 0x0C).opcode = cpl.opcode) ∧
    (let s := linkS (capD .atReset |>.setFlag (rB 3) HOST_RING_CFG_ENABLE true |>.setFld (rB 3) HOST_RING_CFG_NODE 1) (fun l => { l with recvRecs := [((1, 3), 5)] })
     s.boundRing 1 3 = some 3 ∧ s.flag (cB 3) HOST_CAP_STATUS_RUNNING = true ∧ s.flag (cB 3) HOST_CAP_STATUS_FULL = false ∧ s.link.recvRecs = [((1, 3), 5)]) ∧
    (let s := dev.setFld 0 MER_TIME_STATUS_SRC 2
     s.timeFromLink = true ∧ s.mer.linkLost = false ∧ s.mer.linkSeen = false ∧ ({ s with mer := { s.mer with linkSeen := true } } : Dev).mer.linkSeen = true) ∧
    ((axed.axisRec 4).en = true ∧ axed.flag (axBase 4) MER_AX_STATUS_LOST = false ∧ ((axed.axisSt 4).samples.head?.map (fun y => y.1)) ≠ some 7 ∧
      (((axed.modAxis 4 (fun x => { x with samples := [(7, 9)] })).axisSt 4).samples.head?.map (fun y => y.1)) = some 7) ∧
    (dev.link.step ≠ some (1, 2) ∧ (linkS dev (fun l => { l with step := some (1, 2) })).link.step = some (1, 2)) ∧
    (dev.link.trig = none ∧ (0x100 : BitVec 16).getLsbD dev.node = false) := by decide +kernel

def beat : Beat :=
  { session := 9, tTx := 0, echoTx := 0, echoRx := 0, ack := [0, 0, 0], credit := [0, 0, 0], boot := false, nak := false, lanes := 3, restarted := false, node := 1, rxTime := 0 }
def txF : TxFrame := ⟨1, 0, 0, 1, .trigger 0 0⟩

theorem test_hyp_LinkPortsKeysAndTransfers_sends :
    (let s := linkD false 0
     s.awake = true ∧ s.receiving 0 = true ∧ (rx 1 0 1).crcOk = true ∧ (rx 1 0 1).formOk = true ∧ beat.restarted = false ∧ s.authKind (rx 1 0 1) (s.port 0).beatRx = 0 ∧
       s.released = true ∧ s.domains = true ∧ s.isRemote = false ∧ (s.setFld 0 MER_LINK_CFG_LINK_SRC 1).fld 0 MER_LINK_CFG_LINK_SRC ≠ 0) ∧
    (let s := (linkD false 0).modPort 0 (fun x => { x with vcs := x.vcs.set 0 { Vc.atReset with unacked := [txF] } })
     ((s.port 0).vcs.get 0).unacked ≠ [] ∧ s.canSend 0 = true) ∧
    (let s := linkD false 0
     s.awake = true ∧ s.fallback = false ∧ s.portEnabled 0 = true ∧ (s.port 0).heardAt ≠ 0 ∧ s.flag (pB 0) LINK_PORT_STATUS_PARTNER_ABSENT = false) ∧
    (let s := (linkD true 1).setFlag 0 LINK_STATUS_UPSTREAM true
     s.isRemote = true ∧ (0 : PortId) ≠ s.upPort ∧ ({ s with plates := { s.plates with groups := [] } } : Dev).plates.groups = [] ∧ beat.nak = false ∧ beat.echoTx = 0 ∧ beat.echoRx = 0) ∧
    (let s := (linkD true 1).setFld 0 MER_TIME_STATUS_SRC 2; s.timeFromLink = true ∧ s.mer.linkLost = false ∧ s.fallback = false) := by decide +kernel

theorem test_hyp_LinkPortsKeysAndTransfers_ports :
    (let s := linkD false 0
     s.awake = true ∧ s.fallback = false ∧ 4 ≤ s.boot.step ∧ s.portUsed 1 = true ∧ s.flag (pB 1) LINK_PORT_STATUS_UP = false ∧ s.flag (pB 1) LINK_PORT_STATUS_QUARANTINED = false ∧
       s.flag (pB 0) ⟨LINK_PORT_STATUS, 0, 1⟩ = true ∧ s.flag (pB 0) ⟨LINK_PORT_STATUS, 1, 1⟩ = true ∧ s.flag (pB 0) LINK_PORT_STATUS_UP = true ∧ s.portUsed 0 = true ∧
       (s.setFlag (pB 1) LINK_PORT_STATUS_QUARANTINED true).flag (pB 1) LINK_PORT_STATUS_QUARANTINED = true) := by decide +kernel

theorem test_hyp_LinkPortsKeysAndTransfers_keys :
    (let s := linkD false 0
     s.isRemote = false ∧ s.slotFree 7 = true ∧ (linkS s (fun l => { l with keys := l.keys.set 7 (some 1) })).slotFree 7 = false ∧
       (8 < (9 : BitVec 4).toNat ∧ (8 : BitVec 4) ≠ 0 ∧ (8 : BitVec 4).toNat ≤ 8 ∧ (2 : BitVec 4) ≠ 0 ∧ (2 : BitVec 4).toNat ≤ s.plates.link.count ∧ s.plates.link.count < (3 : BitVec 4).toNat) ∧
       s.flag 0 LINK_RKEY_STATUS_BUSY = false ∧ (s.setFld (nodeBase 2) LINK_NODE_STATUS_STATE 1).fld (nodeBase 2) LINK_NODE_STATUS_STATE = 1 ∧
       (s.setFld (nodeBase 2) LINK_NODE_STATUS_STATE 2).fld (nodeBase 2) LINK_NODE_STATUS_STATE = 2 ∧ s.anyPortUp = true ∧ dev.anyPortUp = false ∧ (linkD true 1).isRemote = true ∧
       s.fld 0 LINK_XFER_LEN_LEN = 0 ∧ (s.setFld 0 LINK_XFER_LEN_LEN 8).fld 0 LINK_XFER_LEN_LEN ≠ 0 ∧
       (((s.setFld 0 LINK_XFER_LEN_LEN 8).wr LINK_XFER_SRC 0x27DFFF8).rd LINK_XFER_SRC).toNat + ((s.setFld 0 LINK_XFER_LEN_LEN 8).wr LINK_XFER_SRC 0x27DFFF8).fld 0 LINK_XFER_LEN_LEN ≤
         0x27E0000 ∧ s.memst.bad = []) ∧
    ((linkS dev (fun l => { l with xferWait := [xw] })).link.xferWait = [xw] ∧ xw.ring = (3 : RingId).val) ∧
    (let s := (linkD false 0).setFlag 0 LINK_XFER_STATUS_BUSY true
     let w := (linkS s (fun l => { l with xferNode := 1 })).modPort 0 (fun x => { x with vcs := x.vcs.set 2 { Vc.atReset with waiting := [{ txF with dst := 1, body := .station 0 [] false false }] } })
     s.flag 0 LINK_XFER_STATUS_BUSY = true ∧ s.xferWaits = false ∧ w.flag 0 LINK_XFER_STATUS_BUSY = true ∧ w.xferWaits = true) := by decide +kernel

def frz (f : Frz → Frz) : Dev := { dev with frz := f dev.frz }

theorem test_hyp_FreezeThawAndTestPort :
    (dev.pins.resetN = true ∧ dev.frz.frozen = false ∧ dev.powerFailing = false ∧ dev.plates.link.freeze = false) ∧
    ((frz (fun f => { f with frozen := true })).frz.frozen = true ∧ (frz (fun f => { f with frozen := true })).frz.shifts = 0 ∧
      (frz (fun f => { f with frozen := true })).frz.busy = false ∧ (frz (fun f => { f with frozen := true, shifts := 1 })).frz.shifts ≠ 0 ∧
      (frz (fun f => { f with frozen := true, busy := true })).frz.busy = true) ∧
    ((frz (fun f => { f with span := 9 })).frz.span = 9 ∧ 4 ≤ dev.boot.step ∧ dev.fallback = false ∧
      ({ dev with plates := .none } : Dev).plates.groups = []) ∧
    ((frz (fun f => { f with frozen := true, unlocked := true })).readable = true ∧ dev.readable = false) ∧
    ((frz (fun f => { f with frozen := true })).frz.lockedOut = false ∧ (frz (fun f => { f with frozen := true, lockedOut := true })).frz.lockedOut = true ∧
      (frz (fun f => { f with verify := some (1, [], []) })).frz.verify = some (1, [], []) ∧ (st (frz (fun f => { f with verify := some (1, [], []) }))).fuses.keyOk (1 : Word).toNat [] = false) ∧
    (dev.pins.resetN = true ∧ State.reset.pins.resetN = false) := by decide +kernel

/-- The key of slot 1 passes where its fused hash is the digest of PUBLIC_KEY, and not zero. -/
theorem test_hyp_FreezeThawAndTestPort_key (pk : List Byte) (h : Config.sha384 pk ≠ 0) :
    ({ State.reset.fuses with valid1 := true, hash1 := Config.sha384 pk } : Fuses).keyOk (1 : Word).toNat pk = true := by
  have r : State.reset.fuses.revoked.getLsbD 1 = false := by decide +kernel
  have t : (1 : Word).toNat = 1 := rfl
  rw [t, Fuses.keyOk, if_neg (by decide), r]; simpa using h

theorem test_hyp_FreezeThawAndTestPort_axes : ∀ a, (dev.axisRec a).en = false := by
  have h : dev.plates.axes = [] := by decide +kernel
  intro a; simp [Dev.axisRec, h]

/-- The worked example after R226: 1 ms, 9 ms and 29 ms at DIVIDER 1,000. -/
theorem test_contour_lengths : restLengths (858993459 * posUnit.toNat) (0x00A00000 * 134217728 * 6000000000000000000)
    (0x03E80000 * 2147483648 * 6000000000) (0xF4240000 * 34359738368 * 6) 1000 = (1000, 9000, 29000) := by decide +kernel
/-- Neither VEL nor ACC is reached: four equal jerk phases, ⌈61.52⌉ samples each. -/
theorem test_contour_short : restLengths (1000 * posUnit.toNat) (0x00A00000 * 134217728 * 6000000000000000000)
    (0x03E80000 * 2147483648 * 6000000000) (0xF4240000 * 34359738368 * 6) 1000 = (62, 0, 0) := by decide +kernel
/-! ## Well-formedness: one term that each check refuses -/

def someRx : Rx := rx 0 1 1

theorem image_long (p g : List Byte) (h : 0x800000 < p.length ∨ 0x800000 < g.length) :
    (Instr.atlasImageCheck p g [] [] [] [none, none, none, none] false 0).wf = false := by
  have e : (imageSize p && imageSize g) = false := by
    simp only [imageSize, Bool.and_eq_false_iff, decide_eq_false_iff_not]; omega
  simp [Instr.wf, e]
theorem test_wf_image_size : (Instr.atlasImageCheck (List.replicate 0x800001 0) [] [] [] [] [none, none, none, none] false 0).wf = false :=
  image_long _ _ (.inl (by rw [List.length_replicate]; decide))
theorem test_wf_golden_size : (Instr.atlasImageCheck [] (List.replicate 0x800001 0) [] [] [] [none, none, none, none] false 0).wf = false :=
  image_long _ _ (.inr (by rw [List.length_replicate]; decide))
theorem test_wf_clamps : (Instr.atlasImageCheck [] [] (List.replicate 33 .inside) [] [] [none, none, none, none] false 0).wf = false ∧
    (Instr.atlasImageCheck [] [] [] (List.replicate 33 .inside) [] [none, none, none, none] false 0).wf = false := by decide
theorem test_wf_monitors : (Instr.atlasImageCheck [] [] [] [] (List.replicate 33 .inside) [none, none, none, none] false 0).wf = false := by decide
theorem test_wf_temps : (Instr.atlasImageCheck [] [] [] [] [] [none] false 0).wf = false := by decide
theorem test_wf_tiles : (Instr.bootResurveyPass [0]).wf = false ∧ (Instr.bootResurveyPass [319 * 520]).wf = false ∧ (Instr.bootResurveyPass [288 * 520 + 512]).wf = false ∧
    (Instr.bootResurveyPass [288 * 520]).wf = true := by decide
theorem test_wf_pattern : (Instr.rgPatternWrite 0 0x21C 0).wf = false ∧ (Instr.rgPatternWrite 0 0x250 0).wf = false ∧ (Instr.rgPatternWrite 0 0x222 0).wf = false := by decide
theorem test_wf_gen : (Instr.genRegisterWrite 0 0x1000 0).wf = false ∧ (Instr.genRegisterWrite 0 2 0).wf = false := by decide
theorem test_wf_offsets : (Instr.pairedValueWrite .host 2 0 true).wf = false ∧ (Instr.pairedComplementWrite .host 0x1000000 0 true).wf = false ∧
    (Instr.comparatorWrite 1 0).wf = false ∧ (Instr.registerWrite .host 3 0 true).wf = false ∧ (Instr.lowWordRead .host 2).wf = false := by decide
theorem test_wf_bar2 : (Instr.bar2Write .host 0 [] false none).wf = false ∧ (Instr.bar2Write .host 0x3FFFFFF [1, 2] false none).wf = false ∧
    (Instr.bar2Write .host 0 [1] false (some (0, []))).wf = false ∧ (Instr.bar2Read .host 0x3FFFFFC true).wf = false := by decide
theorem test_wf_unlock : (Instr.unlockResponse 0 ⟨[], List.replicate 96 0⟩).wf = false ∧ (Instr.unlockResponse 0 ⟨List.replicate 96 0, []⟩).wf = false := by decide +kernel
theorem test_wf_service : (Instr.datumServiceRun []).wf = false := by decide
theorem scatter_long (l : List SglEntry) (h : 4096 < l.length) : (Instr.captureStart 0 (some l)).wf = false := by
  simp only [Instr.wf, decide_eq_false_iff_not]; omega
theorem test_wf_scatter : (Instr.captureStart 0 (some (List.replicate 4097 ⟨0, 0, true⟩))).wf = false :=
  scatter_long _ (by rw [List.length_replicate]; decide)
theorem test_wf_fetch : (Instr.commandFetch 0 (.ok 129)).wf = false := by decide
theorem test_wf_opcode : (Instr.reservedOpcode hdr 0x12).wf = false ∧ (Instr.reservedOpcode hdr 0x13).wf = true := by decide
theorem test_wf_frame : (Instr.commandFrame someRx 0xFF 0 0 hdr .park none).wf = false ∧ (Instr.commandFrame someRx 0 0 0 hdr .park (some ([], true))).wf = false ∧
    (Instr.commandFrame someRx 0 0 0 hdr (.reserved 1) none).wf = false := by decide
theorem test_wf_records : (Instr.recordFrame someRx 0 0 []).wf = false ∧ (Instr.recordFrame someRx 0 0 (List.replicate 16 0)).wf = false := by decide
theorem test_wf_station : (Instr.stationDataFrame someRx 0 [] false false).wf = false ∧ (Instr.stationDataFrame someRx 0 (List.replicate 252 0) false false).wf = false ∧
    (Instr.stationDataFrame someRx 0 (List.replicate 5 0) false false).wf = false := by decide +kernel
theorem test_wf_heartbeat : (Instr.heartbeatFrame someRx { beat with ack := [] }).wf = false ∧ (Instr.heartbeatFrame someRx { beat with credit := [0] }).wf = false ∧
    (Instr.heartbeatFrame someRx { beat with credit := [0, 0, 33] }).wf = false ∧ (Instr.heartbeatFrame someRx beat).wf = true := by decide
theorem test_wf_period : (Instr.prgPeriodStart 0 [(4000, 0)] 0).wf = false := by decide

/-! ## Worked examples of the manual -/

/-- 10_generators.md, example after R230: θ, the sine and GEN_VALUE at TIME 5,000,000,000. -/
def wave : Dev :=
  ({ ((((dev.wr (gB 0 + GEN_FREQ_LO) 0x218DEF41).wr (gB 0 + GEN_FREQ_HI) 0).wr (gB 0 + GEN_AMPL) 0x0147AE14).setFld (gB 0) GEN_MODE_SHAPE 1) with
      mem := wordsAt (0x2000000 + 4 * 4095) [0xFFFFFCDC] }).modSl 0 (fun x => { x with instant := 5000000000 })

theorem test_wave_theta : (wave.waveSample 0).theta 0 = 0xFFFF82707200 := by decide +kernel
theorem test_wave_value : (wave.waveSample 0).rd (gB 0 + GEN_VALUE) = 0xFFFFFC00 := by decide +kernel
/-- 10_generators.md: S[4,095] is −804. -/
theorem test_sine_entry : sineEntry 4095 = -804 := by decide +kernel
/-- 08_loop_engine.md, example after R190: the sum × 2^SHIFT is 57,672,500 units of 2⁻³⁰. -/
theorem test_law_example :
    Taps.out ⟨512, 0, 0, 0x06666666, 0, 0⟩ 0x005200000000E00000000000E99A1800 640 (-2147483648) 2147483647 = 2 * 57672500 := by decide +kernel
/-- 14_memory.md, example: BANK 288, TILE 32, SPARE 0 makes the entry 0x2600_4120. -/
theorem test_repair_entry : repairEntry (288 * 520 + 32) 0 false = 0x26004120 := by decide +kernel
/-- 05_measure_path.md, example: the record of slice 22. -/
theorem test_record_words : recOf 0x4000000 2 0x2000000 5 5000099900 0x1234 = 0x012340012A07783C5200000024000000 := by decide +kernel
/-- 15_datum.md, example: 31.0 °C lies between sets 3 and 4 with w = 36,044. -/
theorem test_datum_weight : pickSet 496 = (3, some 36044) := by decide +kernel
/-- 02_atlas.md, example: the GROUP record of magnet group 4. -/
theorem test_group_record : groupRecs [0x04, 0x01, 0x01, 0x00, 0xE8, 0x03, 0x00, 0x00] = [(⟨4, 2, 1, false, 0, 0⟩, 1000)] := by decide +kernel

/-! ## Single steps -/

/-- The state a step answers. -/
def next (o : Host.Outcome State Fault Refusal) : State :=
  match o with
  | .next t => t
  | _ => State.reset

theorem test_reset_then_rise : (next (exec (.resetNRise 1 true) State.reset)).boot.step = 3 ∧
    (next (exec (.resetNRise 1 true) State.reset)).fld 0 GLOBAL_STATUS_BOOTSEL = 1 := by decide +kernel
theorem test_fuse_bad : (next (exec .blowServiceFuse (st (runs dev)))).fld 0 GLOBAL_LIFECYCLE_RESULT = 3 := by decide +kernel
/-- 17_host_interface.md, example: SET executes at TIME 7,000,000,350 and waits for 200 cycles. -/
theorem test_set_waits : ((next (exec (.set hdr (setP 0 (~~~0) 0 0xFF 15)) (st { dev with now := 350 }))).sched.map (fun x => x.after)) = [550] := by decide +kernel
theorem test_bar2_last_byte : (next (exec (.bar2Write .host 0x27DFFF8 [0, 0, 0, 0, 0, 0, 0, 0xAB] false none) (st dev))).mem = [(0x27DFFFF, 0xAB)] := by decide +kernel
theorem test_bar2_zero_unlists :
    (next (exec (.bar2Write .host 16 [0, 0, 0, 0, 0, 0, 0, 0] false none) (st { dev with mem := [(16, 1)] }))).mem = [] := by decide +kernel
theorem test_conversion_overrange : rawWord 0x80000 0xFF = 0x1FF80000 := by decide
theorem test_idle_counts_time : (next (step (st dev))).time = 1 := by decide +kernel
theorem test_park_from_running : (next (exec (.park hdr) (st (runs dev)))).flag (sB 3) SLICE_FORCE_STATUS_PARK_BUSY = true := by decide +kernel
theorem test_decode_none : decodeTableWord 32 0xFFFFFFFF = none := rfl

end Sys2Proof.Tests
end

namespace Sys2Proof.Machine

/-- Settles O1: the law of a step with a command waiting, `step_cons`, for every command, queue and state. -/
theorem stepRunsTheFrontCommand : Obligations.StepRunsTheFrontCommand := by
  unfold Obligations.StepRunsTheFrontCommand
  intro c l s h
  exact step_cons s c l h

end Sys2Proof.Machine

namespace Sys2Proof.Machine
open Sys2Proof

/-! ## Codes on their way to an FDAC (R74, R79, R80) -/

/-- A latch shows the code in CODE. -/
theorem Dev.latchOn_code (s : Dev) (n : SliceId) (t : Nat) (c : Code) :
    (s.latchOn n t c).fld (sB n) SLICE_FORCE_STATUS_CODE = c.toNat := by
  unfold Dev.latchOn
  rw [Dev.modSl_fld, Dev.setFlag, Dev.fld_setFld_bits _ _ _ SLICE_FORCE_STATUS_PENDING SLICE_FORCE_STATUS_CODE _ rfl (by decide) (by decide),
    Dev.fld_setFld_same _ _ _ _ (by decide)]
  exact Nat.mod_eq_of_lt c.isLt

/-- A latch leaves no code pending. -/
theorem Dev.latchOn_pending (s : Dev) (n : SliceId) (t : Nat) (c : Code) :
    (s.latchOn n t c).flag (sB n) SLICE_FORCE_STATUS_PENDING = false := by
  unfold Dev.latchOn
  rw [Dev.modSl_flag, Dev.flag_setFlag_same _ _ _ _ (by decide) rfl]

@[simp] theorem Dev.latchOn_now (s : Dev) (n : SliceId) (t : Nat) (c : Code) : (s.latchOn n t c).now = s.now := by simp [Dev.latchOn]
@[simp] theorem Dev.latchOn_mem (s : Dev) (n : SliceId) (t : Nat) (c : Code) : (s.latchOn n t c).mem = s.mem := by simp [Dev.latchOn]
@[simp] theorem Dev.latchOn_sl (s : Dev) (n : SliceId) (t : Nat) (c : Code) : (s.latchOn n t c).sl n =
    { s.sl n with latchAt := some t, pendCode := none, hist := pruneHist t ((t, c) :: (s.sl n).hist) } := by
  simp [Dev.latchOn]

/-- Nothing waits, nothing latches. -/
theorem Dev.pendTo_none {s : Dev} {n : SliceId} (h : (s.sl n).pendCode = none) (t : Nat) : s.pendTo n t = s := by
  simp [Dev.pendTo, h]

/-- A pending code that is due latches at its own cycle (R74). -/
theorem Dev.pendTo_due {s : Dev} {n : SliceId} {c : Code} {t : Nat} (h : (s.sl n).pendCode = some c) (ht : (s.sl n).pendAt ≤ t)
    (hc : s.clampHeld n = false) : s.pendTo n t = s.latchOn n (s.sl n).pendAt c := by
  simp [Dev.pendTo, h, hc, Nat.not_lt.mpr ht]

/-- With nothing on its way only a pending code can latch. -/
theorem Dev.landBy_of_empty {s : Dev} {n : SliceId} (h : (s.sl n).flight = []) (k t : Nat) : Dev.landBy (k + 1) s n t = s.pendTo n t := by
  simp [Dev.landBy, h]

theorem Dev.land_of_empty {s : Dev} {n : SliceId} (h : (s.sl n).flight = []) : s.land n = s.pendTo n s.now :=
  Dev.landBy_of_empty h _ _

/-- With nothing on its way and nothing pending, nothing lands. -/
theorem Dev.land_of_idle {s : Dev} {n : SliceId} (h : (s.sl n).flight = []) (hp : (s.sl n).pendCode = none) : s.land n = s := by
  rw [Dev.land_of_empty h, Dev.pendTo_none hp]

/-- A code that finds the last latch 20 cycles past, no clamp hold and no parity error latches in its cycle (R5, R74, R76). -/
theorem Dev.presentAt_latches {s : Dev} {n : SliceId} {c : Nat} (hc : s.clampHeld n = false) (hd : (s.sl n).dropCode = false)
    (ha : ∀ a, (s.sl n).latchAt = some a → a + 20 ≤ c) (q : Code) : s.presentAt n q c = s.latchOn n c q := by
  cases e : (s.sl n).latchAt with
  | none => simp [Dev.presentAt, hc, hd, e]
  | some a => simp [Dev.presentAt, hc, hd, e, ha a e]

/-- The one thing on its way, due by now, gets to the FDAC; where that latches a code, no more follows. -/
theorem Dev.land_single {s : Dev} {n : SliceId} {c : Nat} {d : Drive} (hf : (s.sl n).flight = [(c, d)]) (hp : (s.sl n).pendCode = none)
    (hn : c ≤ s.now) {q : Code} (hq : (s.modSl n (fun x => { x with flight := [] })).landOne n c d
      = (s.modSl n (fun x => { x with flight := [] })).latchOn n c q) :
    s.land n = (s.modSl n (fun x => { x with flight := [] })).latchOn n c q := by
  have step : s.land n = Dev.landBy 2 ((s.modSl n (fun x => { x with flight := [] })).latchOn n c q) n s.now := by
    simp [Dev.land, Dev.landBy, hf, Nat.not_lt.mpr hn, Dev.pendTo_none hp, hq]
  rw [step, Dev.landBy_of_empty (by simp), Dev.pendTo_none (by simp)]

theorem Dev.clampHeld_upTo (s : Dev) (n : SliceId) (c : Nat) : (s.upTo c).clampHeld n = s.clampHeld n := Dev.upTo_flag _ _ _ _

/-- FDAC_LATCH of a pending code: it latches 20 cycles after the previous latch. -/
theorem Dev.fdacLatch_pending {s : Dev} {n : SliceId} {c : Code} {a : Nat} (hs : s.awake = true) (hp : (s.sl n).pendCode = some c)
    (ha : (s.sl n).latchAt = some a) (hf : (s.sl n).flight = []) (hc : s.clampHeld n = false) :
    s.fdacLatch n = (s.upTo (a + 20)).latchOn n (a + 20) c := by
  have hpa : (s.sl n).pendAt = a + 20 := by simp [Slice.pendAt, ha]
  have hd : s.fdacLatch n = (s.upTo (a + 20)).land n := by simp [Dev.fdacLatch, hf, hp, hpa]
  rw [hd, Dev.land_of_empty (by simpa using hf), Dev.pendTo_due (by simpa using hp) _ (by rw [Dev.clampHeld_upTo, hc])]
  · simp [hpa]
  · simp [hpa, Dev.upTo_now _ _ hs]

/-- FDAC_LATCH of the one code on its way, or of the holding register then: it latches in its cycle where R74 lets it. -/
theorem Dev.fdacLatch_single {s : Dev} {n : SliceId} {c : Nat} {q : Code} {d : Drive} (hs : s.awake = true)
    (hp : (s.sl n).pendCode = none) (hl : ∀ a, (s.sl n).latchAt = some a → a + 20 ≤ c) (hf : (s.sl n).flight = [(c, d)])
    (hq : d = .direct q ∨ d = .holding ∧ (s.sl n).holding = q) (hd : (s.sl n).dropCode = false) (hc : s.clampHeld n = false) :
    s.fdacLatch n = ((s.upTo c).modSl n (fun x => { x with flight := [] })).latchOn n c q := by
  have e : s.fdacLatch n = (s.upTo c).land n := by simp [Dev.fdacLatch, hf, hp]
  rw [e, Dev.land_single (d := d) (q := q) (by simpa using hf) (by simpa using hp) (by rw [Dev.upTo_now _ _ hs]; omega)]
  have present : ((s.upTo c).modSl n (fun x => { x with flight := [] })).presentAt n q c
      = ((s.upTo c).modSl n (fun x => { x with flight := [] })).latchOn n c q :=
    Dev.presentAt_latches (by rw [← hc]; exact Dev.clampHeld_upTo s n c) (by simpa using hd) (by simpa using hl) q
  rcases hq with rfl | ⟨rfl, rfl⟩
  · exact present
  · simpa [Dev.landOne] using present

/-- Settles O14: a pending code and a code on its way latch by the landing rules above; a flush lands what is due and empties the
queue; a parity error sets its kind's discard mark and raises the lane source. -/
theorem codesLatchInTurn : Obligations.CodesLatchInTurn := by
  unfold Obligations.CodesLatchInTurn
  refine ⟨⟨?pending, ?single, ?flush⟩, ?parity⟩
  case pending =>
    intro s n c a hs hp ha hf hc
    refine ⟨_, (exec_fdacLatch n s).trans <| State.onAwake_of_awake _ _ hs, ?_⟩
    simp only [State.withDev_toDev]
    rw [Dev.fdacLatch_pending hs hp ha hf hc]
    exact ⟨Dev.latchOn_code _ _ _ _, Dev.latchOn_pending _ _ _ _, by simp [Dev.upTo_now _ _ hs], by simp, by simp, by simp⟩
  case single =>
    intro s n c q hs hp hl hf hd hc
    refine ⟨_, (exec_fdacLatch n s).trans <| State.onAwake_of_awake _ _ hs, ?_⟩
    obtain ⟨d, hf, hq⟩ : ∃ d, (s.sl n).flight = [(c, d)] ∧ (d = .direct q ∨ d = .holding ∧ (s.sl n).holding = q) := by
      rcases hf with hf | ⟨hf, hq⟩
      · exact ⟨_, hf, .inl rfl⟩
      · exact ⟨_, hf, .inr ⟨rfl, hq⟩⟩
    simp only [State.withDev_toDev]
    rw [Dev.fdacLatch_single hs hp hl hf hq hd hc]
    exact ⟨Dev.latchOn_code _ _ _ _, by simp [Dev.upTo_now _ _ hs], by simp, by simp, by simp⟩
  case flush =>
    intro s n hs
    refine ⟨_, (exec_queueFlush n s).trans <| State.onAwake_of_awake _ _ hs, ?_⟩
    simp only [State.withDev_toDev, Dev.flushQueue]
    have code (d : Dev) : (d.setFld (sB n) SLICE_QUEUE_STATUS_DEPTH 0).fld (sB n) SLICE_FORCE_STATUS_CODE
        = d.fld (sB n) SLICE_FORCE_STATUS_CODE := Dev.fld_setFld_word _ _ _ _ _ _ (by simp)
    refine ⟨by simp, Dev.fld_setFld_same _ _ _ _ (by decide), code _, fun hf hp => ?_⟩
    rw [Dev.land_of_idle hf hp, code]
    simp
  case parity =>
    intro s n hs w f hf
    refine (exec_dieToDieParityError n w s).trans <| (State.onAwake_of_awake _ _ hs).trans ?_
    simp only [List.mem_cons, Prod.mk.injEq, List.not_mem_nil, or_false] at hf
    rcases hf with ⟨rfl, rfl⟩ | ⟨rfl, rfl⟩ | ⟨rfl, rfl⟩ | ⟨rfl, rfl⟩ | ⟨rfl, rfl⟩ | ⟨rfl, rfl⟩ | ⟨rfl, rfl⟩ | ⟨rfl, rfl⟩ <;> rfl

end Sys2Proof.Machine

namespace Sys2Proof.Machine
open Sys2Proof

/-! ## The frame of a change that runs no clock and moves no slice between park and operation -/

/-- A change that touches no register outside `w`, no phase of a slice, no store, plate, pin, start-up or freeze state, and
takes no cycle. -/
structure Dev.SameBut (w : Nat → Prop) (s t : Dev) : Prop where
  phase  : ∀ m, (t.sl m).phase = (s.sl m).phase
  rd     : ∀ a, ¬ w a → t.rd a = s.rd a
  now    : t.now = s.now
  time   : t.time = s.time
  mem    : t.mem = s.mem
  nvm    : t.nvm = s.nvm
  plates : t.plates = s.plates
  boot   : t.boot = s.boot
  pins   : t.pins = s.pins
  frz    : t.frz = s.frz

namespace Dev.SameBut

variable {w v : Nat → Prop} {s t u : Dev}

theorem refl (w : Nat → Prop) (s : Dev) : s.SameBut w s :=
  ⟨fun _ => rfl, fun _ _ => rfl, rfl, rfl, rfl, rfl, rfl, rfl, rfl, rfl⟩

theorem trans (h : s.SameBut w t) (k : t.SameBut w u) : s.SameBut w u :=
  ⟨fun m => (k.phase m).trans (h.phase m), fun a ha => (k.rd a ha).trans (h.rd a ha), k.now.trans h.now, k.time.trans h.time,
   k.mem.trans h.mem, k.nvm.trans h.nvm, k.plates.trans h.plates, k.boot.trans h.boot, k.pins.trans h.pins, k.frz.trans h.frz⟩

theorem mono (h : s.SameBut w t) (k : ∀ a, w a → v a) : s.SameBut v t :=
  { h with rd := fun a ha => h.rd a (fun hw => ha (k a hw)) }

theorem fld (h : s.SameBut w t) {b : Nat} {f : Fld} (k : ¬ w (b + f.off)) : t.fld b f = s.fld b f := by
  unfold Dev.fld; rw [h.rd _ k]

theorem flag (h : s.SameBut w t) {b : Nat} {f : Fld} (k : ¬ w (b + f.off)) : t.flag b f = s.flag b f := by
  unfold Dev.flag; rw [h.fld k]

theorem parking (h : s.SameBut w t) (m : SliceId) : t.parking m = s.parking m := by
  unfold Dev.parking; rw [h.phase]

theorem wr (h : s.SameBut w t) (a : Nat) (x : Word) (ha : w a) : s.SameBut w (t.wr a x) :=
  h.trans { SameBut.refl w t with rd := fun b hb => Dev.rd_wr_other t a b x (fun e => hb (e ▸ ha)) }

theorem setFld (h : s.SameBut w t) {b : Nat} {f : Fld} (x : Nat) (ha : w (b + f.off)) : s.SameBut w (t.setFld b f x) := h.wr _ _ ha

theorem setFlag (h : s.SameBut w t) {b : Nat} {f : Fld} (x : Bool) (ha : w (b + f.off)) : s.SameBut w (t.setFlag b f x) :=
  h.setFld _ ha

/-- A change of a slice that leaves its phase. -/
theorem modSl (h : s.SameBut w t) (n : SliceId) (f : Slice → Slice) (hf : ∀ x, (f x).phase = x.phase := by intro x; rfl) :
    s.SameBut w (t.modSl n f) := by
  refine h.trans { SameBut.refl w t with phase := fun m => ?_ }
  by_cases e : n = m
  · subst e; rw [Dev.sl_modSl_same, hf]
  · rw [Dev.sl_modSl_other _ _ _ _ e]

theorem modGen (h : s.SameBut w t) (n : SliceId) (f : Gen → Gen) : s.SameBut w (t.modGen n f) := h.trans { SameBut.refl w t with }

theorem modEng (h : s.SameBut w t) (g : GroupId) (f : Engine → Engine) : s.SameBut w (t.modEng g f) := h.trans { SameBut.refl w t with }

theorem setSeg (h : s.SameBut w t) (k : Nat) (x : Nat × Bool) : s.SameBut w (t.setSeg k x) := h.trans { SameBut.refl w t with }

theorem draw (h : s.SameBut w t) : s.SameBut w t.draw := h.trans { SameBut.refl w t with }

theorem sched (h : s.SameBut w t) (l : List Sched) : s.SameBut w { t with sched := l } := h.trans { SameBut.refl w t with }

/-- What touches rings, vectors, the link and HOST registers alone, as a completion does. -/
theorem host (h : s.SameBut w t) (k : t.SameButHost u) (hw : ∀ a, 0x70000 ≤ a → a < 0x80000 → w a) : s.SameBut w u :=
  h.trans ⟨fun m => by rw [k.sl], fun a ha => k.rd a (by by_contra e; exact ha (hw a (by omega) (by omega))), k.now, k.time, k.mem,
    k.nvm, k.plates, k.boot, k.pins, k.frz⟩

theorem ite {c : Prop} [Decidable c] (h : s.SameBut w t) (k : s.SameBut w u) : s.SameBut w (if c then t else u) := by
  split
  · exact h
  · exact k

theorem each {α : Type} (l : List α) (f : Dev → α → Dev) (hf : ∀ (d : Dev) (x : α), d.SameBut w (f d x)) (h : s.SameBut w t) :
    s.SameBut w (t.each l f) := by
  unfold Dev.each
  induction l generalizing t with
  | nil => exact h
  | cons x l ih => exact ih (h.trans (hf t x))

end Dev.SameBut

end Sys2Proof.Machine

namespace Sys2Proof.Machine
open Sys2Proof

/-! ## What lands at an FDAC -/

/-- The registers that change as something gets to the FDAC of slice `n`: FORCE_STATUS, QUEUE_STATUS, and with the queue's
interrupt a ring's cause. -/
def landRegs (n : SliceId) (a : Nat) : Prop :=
  a = sB n + SLICE_FORCE_STATUS ∨ a = sB n + SLICE_QUEUE_STATUS ∨ (0x70000 ≤ a ∧ a < 0x80000)

theorem landRegs_force (n : SliceId) : landRegs n (sB n + SLICE_FORCE_STATUS) := .inl rfl
theorem landRegs_queue (n : SliceId) : landRegs n (sB n + SLICE_QUEUE_STATUS) := .inr (.inl rfl)
theorem landRegs_host (n : SliceId) (a : Nat) (h : 0x70000 ≤ a) (k : a < 0x80000) : landRegs n a := .inr (.inr ⟨h, k⟩)

theorem Dev.latchOn_sameBut (s : Dev) (n : SliceId) (t : Nat) (c : Code) : s.SameBut (landRegs n) (s.latchOn n t c) :=
  (((SameBut.refl _ s).setFld _ (landRegs_force n)).setFlag _ (landRegs_force n)).modSl _ _

theorem Dev.presentAt_sameBut (s : Dev) (n : SliceId) (q : Code) (c : Nat) : s.SameBut (landRegs n) (s.presentAt n q c) := by
  have r := SameBut.refl (landRegs n) s
  have pend : s.SameBut (landRegs n) ((s.setFlag (sB n) SLICE_FORCE_STATUS_PENDING true).modSl n (fun y => { y with pendCode := some q })) :=
    (r.setFlag _ (landRegs_force n)).modSl _ _
  exact r.ite (.ite (r.modSl _ _) (.ite (s.latchOn_sameBut n c q) pend))

theorem Dev.pendTo_sameBut (s : Dev) (n : SliceId) (t : Nat) : s.SameBut (landRegs n) (s.pendTo n t) := by
  have r := SameBut.refl (landRegs n) s
  unfold Dev.pendTo
  split
  · exact r
  · exact r.ite (.ite ((r.modSl n _).setFlag _ (landRegs_force n)) (s.latchOn_sameBut n _ _))

theorem Dev.queueFlag_sameBut (s : Dev) (n : SliceId) (f : Fld) (hf : f.off = SLICE_QUEUE_STATUS) :
    s.SameBut (landRegs n) (s.queueFlag n f) := by
  have r : s.SameBut (landRegs n) (s.setFlag (sB n) f true) := (SameBut.refl _ s).setFlag _ (hf ▸ landRegs_queue n)
  exact .ite (r.host (Dev.sliceEvent_same _ n) (landRegs_host n)) r

theorem Dev.landOne_sameBut (s : Dev) (n : SliceId) (c : Nat) (d : Drive) : s.SameBut (landRegs n) (s.landOne n c d) := by
  have r := SameBut.refl (landRegs n) s
  cases d with
  | head =>
    unfold Dev.landOne
    dsimp only
    split
    · exact s.queueFlag_sameBut n _ rfl
    · exact (r.modSl _ _).setFld _ (landRegs_queue n)
  | direct q => exact s.presentAt_sameBut n q c
  | holding => exact s.presentAt_sameBut n _ c
  | lane q g =>
    exact r.ite ((s.presentAt_sameBut n q c).modSl n _)

theorem Dev.landBy_sameBut (k : Nat) (s : Dev) (n : SliceId) (t : Nat) : s.SameBut (landRegs n) (Dev.landBy k s n t) := by
  induction k generalizing s with
  | zero => exact .refl _ s
  | succ k ih =>
    unfold Dev.landBy
    split
    · exact s.pendTo_sameBut n t
    · exact (s.pendTo_sameBut n t).ite ((((s.pendTo_sameBut n _).modSl n _).trans (Dev.landOne_sameBut _ n _ _)).trans (ih _))

/-- What gets to the FDAC by now changes no register but the slice's FORCE_STATUS and QUEUE_STATUS and a ring's cause. -/
theorem Dev.land_sameBut (s : Dev) (n : SliceId) : s.SameBut (landRegs n) (s.land n) := Dev.landBy_sameBut _ _ _ _

end Sys2Proof.Machine

namespace Sys2Proof.Machine
open Sys2Proof

/-! ## What a park changes (R85 to R88, R150, R259) -/

/-- The registers a park may change: none below HOST, so none of GLOBAL, Atlas, the clocks, Meridian, the collector, Datum and
memory. -/
def parkRegs (a : Nat) : Prop := 0x70000 ≤ a

theorem parkRegs_slice (n : SliceId) (k : Nat) : parkRegs (sB n + k) := by simp only [parkRegs, sB, sliceBase]; omega
theorem parkRegs_gen (n : SliceId) (k : Nat) : parkRegs (gB n + k) := by simp only [parkRegs, gB, genBase]; omega
theorem parkRegs_trav (g : GroupId) (k : Nat) : parkRegs (tB g + k) := by simp only [parkRegs, tB, travBase]; omega

theorem landRegs_park {n : SliceId} (a : Nat) (h : landRegs n a) : parkRegs a := by
  rcases h with rfl | rfl | ⟨h, -⟩
  · exact parkRegs_slice n _
  · exact parkRegs_slice n _
  · exact h

namespace Dev.SameBut

variable {s t u : Dev}

theorem parkHost (h : s.SameBut parkRegs t) (k : t.SameButHost u) : s.SameBut parkRegs u := h.host k (fun _ ha _ => ha)

theorem land (h : s.SameBut parkRegs t) (n : SliceId) : s.SameBut parkRegs (t.land n) := h.trans ((t.land_sameBut n).mono landRegs_park)

theorem latch (h : s.SameBut parkRegs t) (n : SliceId) (c : Code) : s.SameBut parkRegs (t.latch n c) :=
  h.trans ((t.latchOn_sameBut n _ c).mono landRegs_park)

/-! ### Commands that complete -/

theorem complete (h : s.SameBut parkRegs t) (c : Ctx) (status : Nat) : s.SameBut parkRegs (t.complete c status) := h.parkHost (t.complete_same c status)

theorem settle (h : s.SameBut parkRegs t) (p : Sched → Bool) (f : Sched → Nat × Word64) : s.SameBut parkRegs (t.settle p f) :=
  (h.sched _).parkHost (t.settle_same p f)

theorem resolve (h : s.SameBut parkRegs t) (kind sel : Sched → Bool) (m v : Word) (st : Nat) : s.SameBut parkRegs (t.resolve kind sel m v st) :=
  (h.sched _).settle _ _

theorem leaveUnpark (h : s.SameBut parkRegs t) (n : SliceId) : s.SameBut parkRegs (t.leaveUnpark n) := (h.sched _).settle _ _

/-! ### Generators and range changes -/

theorem showContour (h : s.SameBut parkRegs t) (n : SliceId) : s.SameBut parkRegs (t.showContour n) :=
  ((((h.wr _ _ (parkRegs_gen n _)).wr _ _ (parkRegs_gen n _)).wr _ _ (parkRegs_gen n _)).wr _ _ (parkRegs_gen n _)).setFlag _
    (parkRegs_gen n _)

theorem modCon (h : s.SameBut parkRegs t) (n : SliceId) (f : Contour → Contour) : s.SameBut parkRegs (t.modCon n f) := (h.modGen n _).showContour n

theorem convertLimits (h : s.SameBut parkRegs t) (n : SliceId) : s.SameBut parkRegs (t.convertLimits n) := by
  unfold Dev.convertLimits; exact h.modSl n _

theorem scaleForced (h : s.SameBut parkRegs t) (n : SliceId) (old new : Int) (sp : Bool) : s.SameBut parkRegs (t.scaleForced n old new sp) := by
  refine SameBut.ite ?_ (SameBut.wr (SameBut.modSl ?_ n _) _ _ (parkRegs_slice n _))
  all_goals exact (h.modSl n _).modCon n _

theorem rescaleV (h : s.SameBut parkRegs t) (n : SliceId) (new : Nat) : s.SameBut parkRegs (t.rescaleV n new) := by
  refine SameBut.convertLimits (SameBut.ite (SameBut.scaleForced ?_ n _ _ _) (.ite (SameBut.modSl ?_ n _) (SameBut.modSl ?_ n _))) n
  all_goals exact ((h.setFld _ (parkRegs_slice n _)).modSl n _).setFlag _ (parkRegs_slice n _)

theorem loadThr (h : s.SameBut parkRegs t) (n : SliceId) : s.SameBut parkRegs (t.loadThr n) := by
  refine SameBut.ite ?_ (.ite (SameBut.modSl ?_ n _) (SameBut.setFld ?_ _ (parkRegs_slice n _)))
  all_goals exact SameBut.ite (h.modSl n _) ((h.setFld _ (parkRegs_slice n _)).setFld _ (parkRegs_slice n _))

theorem abandonRanges (h : s.SameBut parkRegs t) (n : SliceId) : s.SameBut parkRegs (t.abandonRanges n) := by
  unfold Dev.abandonRanges
  refine resolve (loadThr (SameBut.setFld ?_ _ (parkRegs_slice n _)) n) _ _ _ _ _
  have hold {d : Dev} (k : s.SameBut parkRegs d) := (k.rescaleV n (t.sl n).vNew).ite (c := (t.sl n).vhold.isSome) k
  split
  on_goal 1 => refine SameBut.each _ _ (fun d m => ((refl _ d).rescaleV m _).modSl m _) ?_
  all_goals exact hold (((h.setFld _ (parkRegs_slice n _)).setFld _ (parkRegs_slice n _)).modSl n _)

theorem endAgile (h : s.SameBut parkRegs t) (n : SliceId) : s.SameBut parkRegs (t.endAgile n) :=
  (((h.modSl n _).setFlag _ (parkRegs_slice n _)).setFld _ (parkRegs_slice n _)).resolve _ _ _ _ _

theorem keepPark (h : s.SameBut parkRegs t) (n : SliceId) (ramp : Bool) : s.SameBut parkRegs (t.keepPark n ramp) := by
  unfold Dev.keepPark; exact h.modSl n _

theorem openLoop (h : s.SameBut parkRegs t) (n : SliceId) : s.SameBut parkRegs (t.openLoop n) :=
  ((((h.setFld _ (parkRegs_slice n _)).setFlag _ (parkRegs_slice n _)).setFlag _ (parkRegs_slice n _)).setFld _ (parkRegs_slice n _)).modSl n _

/-! ### An engine that stops -/

theorem dropJump (h : s.SameBut parkRegs t) (g : GroupId) (status : Nat) : s.SameBut parkRegs (t.dropJump g status) :=
  ((h.modEng g _).setFlag _ (parkRegs_trav g _)).each _ _ (fun d c => (refl _ d).complete c status)

theorem dropStarts (h : s.SameBut parkRegs t) (g : GroupId) : s.SameBut parkRegs (t.dropStarts g) :=
  (h.modEng g _).each _ _ (fun d c => (refl _ d).complete c _)

theorem closeWindow (h : s.SameBut parkRegs t) (n : SliceId) (b : Bool) (x : Word64) : s.SameBut parkRegs (t.closeWindow n b x) := (h.modSl n _).draw

theorem closeStation (h : s.SameBut parkRegs t) (g : Nat) : s.SameBut parkRegs (t.closeStation g) :=
  h.each _ _ (fun d n => .ite (.ite ((refl _ d).modSl n _) (.ite ((refl _ d).closeWindow n _ _) ((refl _ d).modSl n _))) (.refl _ d))

theorem groupEvent (h : s.SameBut parkRegs t) (g : Nat) : s.SameBut parkRegs (t.groupEvent g) := h.parkHost (t.groupEvent_same g)

theorem sweepSeg (h : s.SameBut parkRegs t) (k : Nat) : s.SameBut parkRegs (t.sweepSeg k) := by
  refine SameBut.ite ((h.setSeg k _).each _ _ (fun d g => ?_)) h
  refine SameBut.ite (SameBut.ite ?_ (SameBut.ite (groupEvent (SameBut.setFlag ?_ _ (parkRegs_trav g _)) _)
    (SameBut.setFlag ?_ _ (parkRegs_trav g _)))) (.refl _ d)
  all_goals exact (refl _ d).modEng g _

theorem leavePath (h : s.SameBut parkRegs t) (g : GroupId) (state : Nat) : s.SameBut parkRegs (t.leavePath g state) :=
  have idle := ((((h.closeStation g.val).modEng g _).setFld _ (parkRegs_trav g _)).setFld _ (parkRegs_trav g _)).setFld _ (parkRegs_trav g _)
  dropJump (idle.each _ _ (fun d c => (refl _ d).complete c _)) g _ |>.each _ _ (fun d k => (refl _ d).sweepSeg k)

theorem stopEngine (h : s.SameBut parkRegs t) (g : GroupId) : s.SameBut parkRegs (t.stopEngine g) := h.ite ((h.dropStarts g).leavePath g 0)

theorem stopEngines (h : s.SameBut parkRegs t) : s.SameBut parkRegs t.stopEngines := h.each _ _ (fun d g => (refl _ d).stopEngine g)

theorem parkEngine (h : s.SameBut parkRegs t) (n : SliceId) : s.SameBut parkRegs (t.parkEngine n) := by
  unfold Dev.parkEngine
  exact SameBut.ite (h.stopEngine _) (h.dropJump _ _)

end Dev.SameBut

end Sys2Proof.Machine

namespace Sys2Proof.Machine
open Sys2Proof

/-! ## The start of a park (R85 to R88) -/

/-- What the start of a park may do: a slice that is parked or parks stays so, no register below HOST changes, and neither
do the stores, the plates, the pins, start-up and freeze; it takes no cycle. -/
structure Dev.Parks (s t : Dev) : Prop where
  parking : ∀ m, s.parking m = true → t.parking m = true
  rd     : ∀ a, ¬ parkRegs a → t.rd a = s.rd a
  now    : t.now = s.now
  time   : t.time = s.time
  mem    : t.mem = s.mem
  nvm    : t.nvm = s.nvm
  plates : t.plates = s.plates
  boot   : t.boot = s.boot
  pins   : t.pins = s.pins
  frz    : t.frz = s.frz

namespace Dev

variable {s t u : Dev}

theorem Parks.trans (h : s.Parks t) (k : t.Parks u) : s.Parks u :=
  ⟨fun m hm => k.parking m (h.parking m hm), fun a ha => (k.rd a ha).trans (h.rd a ha), k.now.trans h.now, k.time.trans h.time,
   k.mem.trans h.mem, k.nvm.trans h.nvm, k.plates.trans h.plates, k.boot.trans h.boot, k.pins.trans h.pins, k.frz.trans h.frz⟩

theorem SameBut.parks (h : s.SameBut parkRegs t) : s.Parks t :=
  ⟨fun m hm => (h.parking m).trans hm, h.rd, h.now, h.time, h.mem, h.nvm, h.plates, h.boot, h.pins, h.frz⟩

theorem Parks.refl (s : Dev) : s.Parks s := (SameBut.refl _ s).parks

/-- A slice alone enters a phase of park. -/
theorem Parks.modSl (s : Dev) {n : SliceId} {f : Slice → Slice} (hf : (s.modSl n f).parking n = true) : s.Parks (s.modSl n f) := by
  refine ⟨fun m hm => ?_, fun _ _ => rfl, rfl, rfl, rfl, rfl, rfl, rfl, rfl, rfl⟩
  by_cases e : n = m
  · exact e ▸ hf
  · rwa [Dev.parking, Dev.sl_modSl_other _ _ _ _ e]

/-- A change that puts slice `n` alone in a phase of park, with what leaves every phase before it and after it. -/
theorem Parks.ofPhase {n : SliceId} {f : Slice → Slice} (pre : s.SameBut parkRegs t) (hf : (t.modSl n f).parking n = true)
    (post : (t.modSl n f).SameBut parkRegs u) : s.Parks u ∧ u.parking n = true :=
  ⟨(pre.parks.trans (Parks.modSl t hf)).trans post.parks, (post.parking n).trans hf⟩

/-- The table of R85 begins on slice `n`. -/
theorem parkSlice_parks (s : Dev) (n : SliceId) : s.Parks (s.parkSlice n) ∧ (s.parkSlice n).parking n = true := by
  refine Parks.ofPhase
    ((((((SameBut.refl _ s).keepPark n false).land n).openLoop n).abandonRanges n).endAgile n |>.latch n _) ?_
    (SameBut.leaveUnpark (SameBut.modCon ((((((((((SameBut.refl _ _).setFlag _ (parkRegs_slice n _)).setFlag _ (parkRegs_slice n _)).setFlag
      _ (parkRegs_slice n _)).setFlag _ (parkRegs_slice n _)).setFlag _ (parkRegs_slice n _)).setFld _ (parkRegs_slice n _)).setFlag
      _ (parkRegs_slice n _)).setFlag _ (parkRegs_slice n _)).setFld _ (parkRegs_slice n _) |>.setFlag _ (parkRegs_gen n _)) n _) n)
  simp [Dev.parking]

/-- The code ramp of slice `n` begins. -/
theorem codeRamp_parks (s : Dev) (n : SliceId) : s.Parks (s.codeRamp n) ∧ (s.codeRamp n).parking n = true := by
  refine Parks.ofPhase ((((SameBut.refl _ s).land n).keepPark n _).openLoop n) ?_
    (SameBut.ite (.refl _ _) (SameBut.modCon (((SameBut.refl _ _).setFlag _ (parkRegs_gen n _)).setFld _ (parkRegs_gen n _)) n _))
  simp [Dev.parking]

/-- The setpoint ramp of slice `n` begins. -/
theorem setRamp_parks (s : Dev) (n : SliceId) : s.Parks (s.setRamp n) ∧ (s.setRamp n).parking n = true := by
  refine Parks.ofPhase ((SameBut.refl _ s).keepPark n _) ?_
    (SameBut.ite (.refl _ _) (SameBut.modCon (((SameBut.refl _ _).setFlag _ (parkRegs_gen n _)).setFld _ (parkRegs_gen n _)) n _))
  simp [Dev.parking]

/-- Park begins on slice `n` alone, or goes on (R88). -/
theorem parkOne_parks (s : Dev) (n : SliceId) : s.Parks (s.parkOne n) ∧ (s.parkOne n).parking n = true := by
  have on {p : Phase} (e : (s.sl n).phase = p) (hp : p = .parked ∨ (∃ a b, p = .parking a b) ∨ ∃ c, p = .ramp c) :
      s.Parks s ∧ s.parking n = true := by
    refine ⟨.refl s, ?_⟩
    rcases hp with rfl | ⟨a, b, rfl⟩ | ⟨c, rfl⟩ <;> simp [Dev.parking, e]
  unfold Dev.parkOne
  split
  next e => exact on e (.inl rfl)
  next e => exact on e (.inr (.inl ⟨_, _, rfl⟩))
  next e => exact on e (.inr (.inr ⟨_, rfl⟩))
  next =>
    split
    · exact s.parkSlice_parks n
    · have pre := (((((SameBut.refl _ s).abandonRanges n).endAgile n).leaveUnpark n).setFlag false
        (parkRegs_slice n SLICE_FORCE_STATUS_PARKED.off)).setFlag true (parkRegs_slice n SLICE_FORCE_STATUS_PARK_BUSY.off)
      dsimp only
      split
      · exact ⟨pre.parks.trans (setRamp_parks _ n).1, (setRamp_parks _ n).2⟩
      · exact ⟨pre.parks.trans (codeRamp_parks _ n).1, (codeRamp_parks _ n).2⟩

/-- Where each step parks its slice, a run over a list of slices parks each of them. -/
theorem each_parks (f : Dev → SliceId → Dev) (hf : ∀ d n, d.Parks (f d n) ∧ (f d n).parking n = true) (l : List SliceId) (s : Dev) :
    s.Parks (s.each l f) ∧ ∀ n ∈ l, (s.each l f).parking n = true := by
  unfold Dev.each
  induction l generalizing s with
  | nil => exact ⟨.refl s, by simp⟩
  | cons x l ih =>
    obtain ⟨head, hx⟩ := hf s x
    obtain ⟨tail, hl⟩ := ih (f s x)
    refine ⟨head.trans tail, fun n hn => ?_⟩
    rcases List.mem_cons.mp hn with rfl | hn
    · exact tail.parking n hx
    · exact hl n hn

theorem sid_val (n : SliceId) : sid n.val = n := Fin.ext (Nat.mod_eq_of_lt n.isLt)

theorem mem_allSlices (n : SliceId) : n ∈ Dev.allSlices :=
  List.mem_map.mpr ⟨n.val, List.mem_range.mpr n.isLt, sid_val n⟩

/-- A slice acts with its own gang. -/
theorem mem_gang (s : Dev) (n : SliceId) : n ∈ s.gang n := by
  unfold Dev.gang
  split
  next r e =>
    have hr := List.find?_some e
    simp only [Bool.and_eq_true, decide_eq_true_eq] at hr
    split
    · refine List.mem_map.mpr ⟨n.val - r.first, List.mem_range.mpr (by omega), ?_⟩
      rw [Nat.add_sub_cancel' hr.1, sid_val]
    · exact List.mem_singleton_self n
  next => exact List.mem_singleton_self n

/-- Park begins on slice `n` with its gang, and on its group's engine (R87, R259). -/
theorem parkBegin_parks (s : Dev) (n : SliceId) : s.Parks (s.parkBegin n) ∧ (s.parkBegin n).parking n = true := by
  unfold Dev.parkBegin
  split
  next h => exact ⟨.refl s, h⟩
  next =>
    obtain ⟨gang, on⟩ := each_parks Dev.parkOne parkOne_parks (s.gang n) s
    have engine := (SameBut.refl parkRegs (s.each (s.gang n) Dev.parkOne)).parkEngine n
    exact ⟨gang.trans engine.parks, (engine.parking n).trans (on n (mem_gang s n))⟩

theorem parkAll_parks (s : Dev) : s.Parks s.parkAll := (each_parks Dev.parkBegin parkBegin_parks Dev.allSlices s).1

/-- After the park of every slice each of them is parked or parks (R85). -/
theorem parkAll_parking (s : Dev) (n : SliceId) : s.parkAll.parking n = true :=
  (each_parks Dev.parkBegin parkBegin_parks Dev.allSlices s).2 n (mem_allSlices n)

/-- A park leaves the device released, or not (R60). -/
theorem Parks.released (h : s.Parks t) : t.released = s.released := by
  unfold Dev.released Dev.flag Dev.fld; rw [h.rd _ (by simp [parkRegs])]

end Dev

end Sys2Proof.Machine

namespace Sys2Proof.Machine
open Sys2Proof

/-! ## The power-fail, brown-out and interlock pins (R51, R65 to R71, R434) -/

@[simp] theorem State.withDev_self (s : State) : s.withDev s.toDev = s := rfl

/-- The delay of release touches the start-up state alone (R51). -/
theorem Dev.deferRelease_modBoot (s : Dev) : ∃ f, s.deferRelease = s.modBoot f := by
  unfold Dev.deferRelease
  split
  · exact ⟨fun b => { b with deferTo := s.now + 1000000 }, rfl⟩
  · exact ⟨id, rfl⟩

theorem Dev.deferRelease_deferTo (s : Dev) (h : s.boot.step = 9) : s.deferRelease.boot.deferTo = s.now + 1000000 := by
  simp [Dev.deferRelease, h]

theorem Dev.cause_flag (s : Dev) {x : Nat} {w b : Nat} (b' : Bool) (hw : FAULT_CAUSE + 4 * (x / 32) = w) (hb : x % 32 = b) :
    (s.cause x b').flag 0 ⟨w, b, 1⟩ = b' := by
  subst hw hb
  exact Dev.flag_setFlag_same s 0 ⟨_, _, 1⟩ b' (by show x % 32 + 1 ≤ 32; omega) rfl

theorem Dev.cause_flag_word (s : Dev) {x b : Nat} {f : Fld} (b' : Bool) (h : FAULT_CAUSE + 4 * (x / 32) ≠ b + f.off) :
    (s.cause x b').flag b f = s.flag b f := Dev.flag_setFld_word _ _ _ _ _ _ (by simpa using h)

/-- The clockless gate of INTERLOCK_N moves OUTEN alone (R65). -/
theorem Dev.interlockGate_sameBut (s : Dev) (low : Bool) : s.SameBut parkRegs (s.interlockGate low) := by
  refine (SameBut.refl _ s).each _ _ (fun d n => ?_)
  have r := SameBut.refl parkRegs d
  have gate (b : Bool) (f : Slice → Slice) (hf : ∀ x, (f x).phase = x.phase) :
      d.SameBut parkRegs ((d.setFlag (sB n) SLICE_FORCE_STATUS_OUTEN b).modSl n f) := (r.setFlag b (parkRegs_slice n _)).modSl n f hf
  exact r.ite (.ite (.ite (gate _ _ (fun _ => rfl)) r) (.ite (gate _ _ (fun _ => rfl)) r))

/-- With no gate in force there is none to release. -/
theorem Dev.interlockGate_release (s : Dev) (h : ∀ n, (s.sl n).gate = false) : s.interlockGate false = s := by
  unfold Dev.interlockGate Dev.each
  induction Dev.allSlices with
  | nil => rfl
  | cons n l ih => simpa [h n] using ih

/-- Settles O12: each edge is its event's definition with the premises put in; after the park of every slice each is parked or
parks by `parkAll_parking`, and the ends of the causes follow from the frames of the gate and of the delayed release. -/
theorem powerAndInterlockPinsPark : Obligations.PowerAndInterlockPinsPark := by
  unfold Obligations.PowerAndInterlockPinsPark
  refine ⟨⟨?fall, ?brown, ?fallen, ?browned, fun d n => d.parkAll_parking n⟩, ⟨?rise, ?recover⟩, ?lock, ?unlock⟩
  case fall =>
    rintro s d h rfl
    have edge : exec .pwrfailNFall s = .next (s.withDev s.pwrfailFall) := by
      rw [exec_pwrfailNFall, execPwrfailNFall, State.on_eq, if_pos h]
    rw [edge, Dev.pwrfailFall]
    exact ⟨fun hr => by simp [Dev.startPowerFail, hr], fun hr => by simp [hr]⟩
  case brown =>
    rintro s r d h rfl
    have edge : exec (.brownOut r) s = .next (s.withDev (s.brownTrip r.val)) := by
      rw [exec_brownOut, execBrownOut, State.on_eq, if_neg (by simpa using h)]
    rw [edge, Dev.brownTrip]
    exact ⟨fun hr hf => by simp [hr, hf], fun hr hf => by simp [Dev.startPowerFail, hr, hf], fun hr => by simp [hr]⟩
  case fallen =>
    intro s h
    rw [exec_pwrfailNFall, execPwrfailNFall, State.on_eq, if_neg (by simp [h]), State.withDev_self]
  case browned =>
    intro s r h
    rw [exec_brownOut, execBrownOut, State.on_eq, if_pos (by simpa using h), State.withDev_self]
  case rise =>
    intro s h
    refine ⟨_, (exec_pwrfailNRise s).trans (State.on_eq s _), ?_⟩
    rw [State.withDev_toDev, if_neg (by simp [h])]
    obtain ⟨f, e⟩ := Dev.deferRelease_modBoot
      (((s.modPins (fun p => { p with pwrfailN := true })).setFlag 0 GLOBAL_STATUS_PWRFAIL false).cause 0x3E0 false)
    refine ⟨by simp [e], ?_, ?_, ?_, fun hb => Dev.deferRelease_deferTo _ (by simpa using hb)⟩
    · rw [e, Dev.modBoot_flag, Dev.cause_flag_word _ _ (by decide), Dev.flag_setFlag_same _ _ _ _ (by decide) rfl]
    · rw [e, Dev.modBoot_flag, Dev.cause_flag _ _ (by decide) (by decide)]
    · rw [e]
      exact ((((Dev.keeps_refl s.toDev _).modPins _).setFlag _ _ _ (by simp)).cause _ _ (by simp)).modBoot f
  case recover =>
    intro s r h
    refine ⟨_, (exec_brownOutRelease r s).trans (State.on_eq s _), ?_⟩
    rw [State.withDev_toDev, if_pos (by simpa using h)]
    obtain ⟨f, e⟩ := Dev.deferRelease_modBoot
      ((s.modPins (fun p => { p with brown := p.brown.filter (fun q => q != r.val) })).cause (0x3E1 + r.val) false)
    refine ⟨by simp [e], fun q hq hne => by simp [e, hq, hne], ?_, ?_, fun hb => Dev.deferRelease_deferTo _ (by simpa using hb)⟩
    · rw [e, Dev.modBoot_flag, Dev.cause_flag _ _ (by omega) (by omega)]
    · rw [e]
      exact (((Dev.keeps_refl s.toDev _).modPins _).cause _ _ (by simp; omega)).modBoot f
  case lock =>
    intro s d h hd
    have gate : Dev.SameBut parkRegs
        ((s.modPins (fun p => { p with interlockN := false })).setFlag 0 GLOBAL_STATUS_INTERLOCK true) d :=
      hd ▸ Dev.interlockGate_sameBut _ true
    have pin : d.pins.resetN = s.pins.resetN := by rw [gate.pins]; simp
    have frozen : d.frz.frozen = s.frz.frozen := by rw [gate.frz]; simp
    have edge : exec .interlockNFall s = .next (s.withDev s.interlockFall) := by
      rw [exec_interlockNFall, execInterlockNFall, State.on_eq, if_pos h]
    rw [edge, Dev.interlockFall, ← hd]
    exact ⟨fun hr hf => by simp [pin, frozen, hr, hf], fun hr hf => by simp [pin, frozen, hr, hf], fun hr => by simp [pin, hr]⟩
  case unlock =>
    intro s h
    refine ⟨_, (exec_interlockNRise s).trans (State.on_eq s _), ?_⟩
    rw [State.withDev_toDev, if_neg (by simp [h])]
    have gate := Dev.interlockGate_sameBut
      ((s.modPins (fun p => { p with interlockN := true, interlockAt := s.now })).setFlag 0 GLOBAL_STATUS_INTERLOCK false) false
    refine ⟨by simp [gate.pins], by simp [gate.pins], ?_, gate.mem, gate.phase, fun hg => ?_⟩
    · rw [gate.flag (by simp [parkRegs]), Dev.flag_setFlag_same _ _ _ _ (by decide) rfl]
    · rw [Dev.interlockGate_release _ (by simpa using hg)]
      exact ⟨((Dev.keeps_refl s.toDev _).modPins _).setFlag _ _ _ (by simp), by simp⟩

end Sys2Proof.Machine

namespace Sys2Proof.Machine
open Sys2Proof

/-! ## The force monitor and the ADC words (R95, R96, R108, R109, R128) -/

theorem Dev.awake_of_domains {s : Dev} (h : s.domains = true) : s.awake = true := by
  simp only [Dev.domains, Bool.and_eq_true] at h
  exact h.1.1

theorem Dev.le_nextSlot (s : Dev) (n : SliceId) : s.now ≤ s.nextSlot n := by
  unfold Dev.nextSlot
  dsimp only
  refine Nat.le_add_right_of_le ?_
  split
  · exact Nat.le_max_left _ _
  · exact Nat.le_refl _

/-- The MADC's next slot of slice `n` has come: time has run to it, and what is due at the FDAC is there. -/
def Dev.atSlot (s : Dev) (n : SliceId) : Dev := ((s.upTo (s.nextSlot n)).land n).modSl n (fun x => { x with monAt := some (s.nextSlot n) })

/-- What a check writes: the reading, the expected value, the run of failures, the verdict, and one more check. -/
def Dev.monitorWrites (s : Dev) (n : SliceId) (reading expect run : Nat) (fail : Bool) : Dev :=
  ((((s.setFld (sB n) SLICE_MON_READING_READING reading).setFld (sB n) SLICE_MON_EXPECT_EXPECT expect).setFld (sB n)
    SLICE_MON_STATUS_FAIL_RUN run).setFlag (sB n) SLICE_MON_STATUS_LAST_FAIL fail).addFld (sB n) SLICE_MON_STATUS_CHECKS 1

section MonitorWrites

variable (s : Dev) (n : SliceId) (r e k : Nat) (b : Bool)

/-- A check writes the three words READING, EXPECT and MON_STATUS of its slice. -/
theorem Dev.monitorWrites_fld {f : Fld} (h : 0x28 ≠ f.off) (h' : 0x2c ≠ f.off) (h'' : 0x30 ≠ f.off) :
    (s.monitorWrites n r e k b).fld (sB n) f = s.fld (sB n) f := by
  simp [Dev.monitorWrites, Dev.addFld, Dev.setFlag, Dev.fld_setFld_word, h, h', h'']

theorem Dev.monitorWrites_reading : (s.monitorWrites n r e k b).fld (sB n) SLICE_MON_READING_READING = r % 262144 := by
  simp only [Dev.monitorWrites, Dev.addFld, Dev.setFlag]
  rw [Dev.fld_setFld_word _ _ _ _ _ _ (by simp), Dev.fld_setFld_word _ _ _ _ _ _ (by simp), Dev.fld_setFld_word _ _ _ _ _ _ (by simp),
    Dev.fld_setFld_word _ _ _ _ _ _ (by simp), Dev.fld_setFld_same _ _ _ _ (by decide)]
  rfl

theorem Dev.monitorWrites_checks : (s.monitorWrites n r e k b).fld (sB n) SLICE_MON_STATUS_CHECKS
    = (s.fld (sB n) SLICE_MON_STATUS_CHECKS + 1) % 65536 := by
  simp only [Dev.monitorWrites, Dev.addFld, Dev.setFlag]
  rw [Dev.fld_setFld_same _ _ _ _ (by decide),
    Dev.fld_setFld_bits _ _ _ SLICE_MON_STATUS_LAST_FAIL SLICE_MON_STATUS_CHECKS _ rfl (by decide) (by decide),
    Dev.fld_setFld_bits _ _ _ SLICE_MON_STATUS_FAIL_RUN SLICE_MON_STATUS_CHECKS _ rfl (by decide) (by decide),
    Dev.fld_setFld_word _ _ _ _ _ _ (by simp), Dev.fld_setFld_word _ _ _ _ _ _ (by simp)]
  rfl

theorem Dev.monitorWrites_run : (s.monitorWrites n r e k b).fld (sB n) SLICE_MON_STATUS_FAIL_RUN = k % 16 := by
  simp only [Dev.monitorWrites, Dev.addFld, Dev.setFlag]
  rw [Dev.fld_setFld_bits _ _ _ SLICE_MON_STATUS_CHECKS SLICE_MON_STATUS_FAIL_RUN _ rfl (by decide) (by decide),
    Dev.fld_setFld_bits _ _ _ SLICE_MON_STATUS_LAST_FAIL SLICE_MON_STATUS_FAIL_RUN _ rfl (by decide) (by decide),
    Dev.fld_setFld_same _ _ _ _ (by decide)]
  rfl

theorem Dev.monitorWrites_fail : (s.monitorWrites n r e k b).flag (sB n) SLICE_MON_STATUS_LAST_FAIL = b := by
  unfold Dev.monitorWrites Dev.addFld Dev.flag
  rw [Dev.fld_setFld_bits _ _ _ SLICE_MON_STATUS_CHECKS SLICE_MON_STATUS_LAST_FAIL _ rfl (by decide) (by decide)]
  exact Dev.flag_setFlag_same _ _ _ _ (by decide) rfl

theorem Dev.monitorWrites_sl (m : SliceId) : (s.monitorWrites n r e k b).sl m = s.sl m := by simp [Dev.monitorWrites, Dev.addFld]
theorem Dev.monitorWrites_now : (s.monitorWrites n r e k b).now = s.now := by simp [Dev.monitorWrites, Dev.addFld]
theorem Dev.monitorWrites_mem : (s.monitorWrites n r e k b).mem = s.mem := by simp [Dev.monitorWrites, Dev.addFld]

end MonitorWrites

/-- What lands by the slot leaves the monitor's configuration. -/
theorem Dev.atSlot_count (s : Dev) (n : SliceId) : (s.atSlot n).fld (sB n) SLICE_MON_CFG_COUNT = s.fld (sB n) SLICE_MON_CFG_COUNT := by
  rw [Dev.atSlot, Dev.modSl_fld, (Dev.land_sameBut _ n).fld, Dev.upTo_fld]
  have hi : 0x80000 ≤ sB n := by simp only [sB, sliceBase]; omega
  rintro (h | h | ⟨-, h⟩)
  · simp at h
  · simp at h
  · dsimp only at h
    omega

/-- With nothing on its way to the FDAC a slot only lets time run and notes itself. -/
theorem Dev.atSlot_of_idle {s : Dev} {n : SliceId} (h : (s.sl n).flight = []) (hp : (s.sl n).pendCode = none) :
    s.atSlot n = (s.upTo (s.nextSlot n)).modSl n (fun x => { x with monAt := some (s.nextSlot n) }) := by
  rw [Dev.atSlot, Dev.land_of_idle (by simpa using h) (by simpa using hp)]

/-- A slice whose check passes may raise its source again. -/
def Dev.rearmMonitor (s : Dev) (n : SliceId) : Dev := s.modSl n (fun x => { x with monRaised := false })

/-- With COUNT 0 a slot checks and counts, and raises nothing (R96). -/
theorem execMonitorSlot_count_zero {s : State} (hs : s.domains = true) (n : SliceId) (x : BitVec 18)
    (hc : s.fld (sB n) SLICE_MON_CFG_COUNT = 0) : ∃ d e run fail, execMonitorSlot n x s = .next (s.withDev (d.monitorWrites n x.toNat e run fail)) ∧
      (d = s.atSlot n ∨ d = (s.atSlot n).rearmMonitor n) ∧ (fail = false → run = 0) := by
  have awake := Dev.awake_of_domains hs
  have count (c : Bool) : (if c then s.atSlot n else (s.atSlot n).rearmMonitor n).fld (sB n)
      SLICE_MON_CFG_COUNT = 0 := by split <;> simp [Dev.rearmMonitor, Dev.atSlot_count, hc]
  have quiet {k : Nat} (hk : k = 0) (f a b : Bool) : ¬ (f && decide (0 < k) && a && b) = true := by simp [hk]
  unfold execMonitorSlot
  rw [State.onAwake_of_awake _ _ awake, if_neg (by simp [hs])]
  refine ⟨_, _, _, _, congrArg (fun d => Host.Outcome.next (s.withDev d)) (if_neg ?raise), ite_eq_or_eq _ _ _, ?run⟩
  case raise => exact quiet ((Dev.monitorWrites_fld _ n _ _ _ _ (by decide) (by decide) (by decide)).trans (count _)) _ _ _
  case run => exact fun h => if_neg (fun k => Bool.false_ne_true (h.symm.trans k))

/-- An ADC word of V: corrected value and raw code appear together (R108, R109). -/
def Dev.wordsOfV (s : Dev) (n : SliceId) (c : Code) : Dev :=
  (s.wr (sB n + SLICE_MEAS_V) (BitVec.ofNat 32 (unsigned 32 (s.correct n c 52 (40 + 2 * s.vrange n))))).wr (sB n + SLICE_MEAS_RAW_V)
    (rawWord c (s.sl n).tag)

/-- The three words an ADC word of V writes: corrected value, raw code, and on overrange the sticky flag. -/
theorem Dev.takeWord_v (s : Dev) (n : SliceId) (c : Code) : s.takeWord n 0 c =
    if rawOvr (rawWord c (s.sl n).tag).toNat then (s.wordsOfV n c).setFld (sB n) SLICE_MEAS_STATUS_OVR_V 1 else s.wordsOfV n c := rfl

/-- A code at either end of the range carries OVR in its raw word (R108). -/
theorem rawOvr_rawWord {c : Code} (h : c = 0x7FFFF ∨ c = 0x80000) (tag : Nat) : rawOvr (rawWord c tag).toNat = true := by
  have ovr : (c == 0x80000 || c == 0x7FFFF) = true := by rcases h with rfl | rfl <;> rfl
  have lt := c.isLt
  simp only [rawOvr, rawWord, bitOf, ovr, Bool.toNat_true, BitVec.toNat_ofNat, beq_iff_eq]
  omega

/-- Settles O18: with COUNT 0 a slot is `monitorWrites` at the slot, whose words are read back one by one; an ADC word is
`takeWord_v`, two registers and the flag. -/
theorem monitorAndRawWords : Obligations.MonitorAndRawWords := by
  unfold Obligations.MonitorAndRawWords
  refine ⟨?slot, ?word⟩
  case slot =>
    intro s n x hs hc
    have awake := Dev.awake_of_domains hs
    obtain ⟨d, e, run, fail, he, hd, hrun⟩ := execMonitorSlot_count_zero hs n x hc
    have slot : (d.sl n).monAt = some (s.nextSlot n) := by rcases hd with rfl | rfl <;> simp [Dev.atSlot, Dev.rearmMonitor]
    refine ⟨_, (exec_monitorSlot n x s).trans he, ?_⟩
    simp only [State.withDev_toDev, Dev.monitorWrites_reading, Dev.monitorWrites_sl, Dev.monitorWrites_now, Dev.monitorWrites_mem,
      Dev.monitorWrites_checks, Dev.monitorWrites_fail, Dev.monitorWrites_run,
      Dev.monitorWrites_fld _ _ _ _ _ _ (f := SLICE_FORCE_STATUS_CODE) (by decide) (by decide) (by decide)]
    refine ⟨Nat.mod_eq_of_lt x.isLt, slot, fun hf hp => ?_⟩
    have ran : d.now = s.nextSlot n ∧ (∀ f, d.fld (sB n) f = s.fld (sB n) f) ∧ d.mem = s.mem := by
      rw [Dev.atSlot_of_idle hf hp] at hd
      rcases hd with rfl | rfl <;> simp [Dev.rearmMonitor, Dev.upTo_now _ _ awake, Dev.le_nextSlot]
    obtain ⟨hnow, hfld, hmem⟩ := ran
    exact ⟨hnow, by rw [hfld], fun hn => by rw [hrun hn], hfld _, hmem⟩
  case word =>
    intro s n c
    have frame : s.keeps (s.wordsOfV n c) [sB n + SLICE_MEAS_RAW_V, sB n + SLICE_MEAS_V, sB n + SLICE_MEAS_STATUS] :=
      ((Dev.keeps_refl s _).wr _ _ (by simp)).wr _ _ (by simp)
    have raw : (s.wordsOfV n c).rd (sB n + SLICE_MEAS_RAW_V) = rawWord c (s.sl n).tag := Dev.rd_wr_same _ _ _
    have value : (s.wordsOfV n c).rd (sB n + SLICE_MEAS_V)
        = BitVec.ofNat 32 (unsigned 32 (s.correct n c 52 (40 + 2 * s.vrange n))) := by
      rw [Dev.wordsOfV, Dev.rd_wr_other _ _ _ _ (by simp), Dev.rd_wr_same]
    rw [Dev.takeWord_v]
    split
    · exact ⟨(Dev.rd_setFld_other _ _ _ _ _ (by simp)).trans raw, (Dev.rd_setFld_other _ _ _ _ _ (by simp)).trans value,
        fun _ => Dev.flag_setFlag_same _ _ _ true (by decide) rfl, frame.setFld _ _ _ (by simp)⟩
    · next hv => exact ⟨raw, value, fun h => absurd (rawOvr_rawWord h _) hv, frame⟩

end Sys2Proof.Machine

namespace Sys2Proof.Machine
open Sys2Proof

/-! ## Registers back at their reset values (R64) -/

theorem Dev.rd_clearRegs_inside (s : Dev) {lo hi a : Nat} (h : lo ≤ a) (k : a < hi) : (s.clearRegs lo hi).rd a = regReset a := by
  have gone : (s.regs.filter (fun c => decide (c.1 < lo) || decide (hi ≤ c.1))).find? (fun c => c.1 == a) = none := by
    simp only [List.find?_eq_none, List.mem_filter, Bool.or_eq_true, decide_eq_true_eq, beq_iff_eq]
    omega
  simp [Dev.rd, Dev.clearRegs, Store.get, gone]

theorem Dev.rd_clearRegs_outside (s : Dev) {lo hi a : Nat} (h : a < lo ∨ hi ≤ a) : (s.clearRegs lo hi).rd a = s.rd a := by
  have kept : (s.regs.filter (fun c => decide (c.1 < lo) || decide (hi ≤ c.1))).find? (fun c => c.1 == a) = s.regs.find? (fun c => c.1 == a) := by
    rw [List.find?_filter]
    congr 1
    funext c
    by_cases e : c.1 = a
    · simpa [e] using h
    · simp [e]
  simp only [Dev.rd, Dev.clearRegs, Store.get, kept]

/-! ## A reset of the host interface (R64) -/

/-- The host interface at its reset values, its link down or as it was. -/
def Dev.hostCleared (s : Dev) (b : Bool) : Dev :=
  if b then { s.hostClear with cfg := { s.hostClear.cfg with link := false } } else s.hostClear

theorem Dev.hostReset_of_released {s : Dev} (h : s.released = true) (b : Bool) : s.hostReset b =
    if s.plates.parkOnReset then
      (((s.hostCleared b).setFlag 0 GLOBAL_STATUS_HOST_RESET_SEEN true).upTo
        (((s.hostCleared b).setFlag 0 GLOBAL_STATUS_HOST_RESET_SEEN true).now + 4)).parkAll
    else (s.hostCleared b).setFlag 0 GLOBAL_STATUS_HOST_RESET_SEEN true := by
  simp [Dev.hostReset, h, Dev.hostCleared]

theorem Dev.rd_hostCleared (s : Dev) (b : Bool) (a : Nat) : (s.hostCleared b).rd a = (s.clearRegs 0x70000 0x80000).rd a := by
  unfold Dev.hostCleared
  split <;> rfl

/-- A reset of the host interface leaves the device released, or not (R60, R64). -/
theorem Dev.hostReset_released (s : Dev) (b : Bool) : (s.hostReset b).released = s.released := by
  have cleared : (s.hostCleared b).released = s.released := by
    unfold Dev.released Dev.flag Dev.fld
    rw [Dev.rd_hostCleared, Dev.rd_clearRegs_outside _ (by simp)]
  have seen : ((s.hostCleared b).setFlag 0 GLOBAL_STATUS_HOST_RESET_SEEN true).released = s.released := by
    rw [Dev.released, Dev.flag_setFlag_bits _ _ _ GLOBAL_STATUS_HOST_RESET_SEEN GLOBAL_STATUS_READY _ rfl (by decide) (by decide)]
    exact cleared
  by_cases h : s.released = true
  · rw [Dev.hostReset_of_released h]
    split
    · rw [(Dev.parkAll_parks _).released, Dev.released, Dev.upTo_flag]
      exact seen
    · exact seen
  · have unseen : s.hostReset b = s.hostCleared b := if_neg h
    rw [unseen, cleared]

/-- After release a host reset raises its source (R64). -/
theorem Dev.hostResetRaise_of_released {s : Dev} (h : s.released = true) (b : Bool) (x : Nat) :
    s.hostResetRaise b x = (s.hostReset b).raiseGlobal x 0 := if_pos ((s.hostReset_released b).trans h)

theorem Dev.hostCleared_ring (s : Dev) (b : Bool) (r : RingId) : (s.hostCleared b).ring r
    = (s.ring r).cut (s.fld (rB r) HOST_RING_CFG_NODE, s.fld (rB r) HOST_RING_CFG_GROUP) := by
  have rings : (s.hostCleared b).rings = s.hostClear.rings := by unfold Dev.hostCleared; split <;> rfl
  simp [Dev.ring, rings, Dev.hostClear, Vector.get]

theorem Dev.hostCleared_chan (s : Dev) (b : Bool) (c : RingId) : (s.hostCleared b).chan c = .atReset := by
  have chans : (s.hostCleared b).chans = Vector.replicate 32 .atReset := by unfold Dev.hostCleared; split <;> rfl
  simp [Dev.chan, chans, Vector.get]

theorem Dev.hostCleared_mem (s : Dev) (b : Bool) : (s.hostCleared b).mem = s.mem := by unfold Dev.hostCleared; split <;> rfl
theorem Dev.hostCleared_slices (s : Dev) (b : Bool) : (s.hostCleared b).slices = s.slices := by unfold Dev.hostCleared; split <;> rfl

theorem Dev.hostCleared_cfg (s : Dev) (b : Bool) : (s.hostCleared b).cfg =
    { s.cfg with d3 := false, ptm := false, msix := false, fmask := false, link := s.cfg.link && !b } := by
  cases b <;> simp [Dev.hostCleared, Dev.hostClear]

/-- The ball PERST# is low. -/
def Dev.perstLow (s : Dev) : Dev := { s with pins := { s.pins with perstN := false } }

theorem execPerst_eq (s : State) : execPerst s = .next (s.withDev (if s.plates.link.remote then s.perstLow
    else if s.awake then s.perstLow.hostResetRaise true 0x300 else { s.perstLow with cfg := { s.cfg with link := false } })) := rfl

/-! ## The stop of a capture channel (R380, R382) -/

theorem Dev.chan_modChan_other (s : Dev) {c k : RingId} (f : Chan → Chan) (h : c ≠ k) : (s.modChan c f).chan k = s.chan k := by
  simp [Dev.chan, Dev.modChan, vector_get_set, h]

@[simp] theorem Dev.setFlag_chan (s : Dev) (b : Nat) (f : Fld) (v : Bool) (k : RingId) : (s.setFlag b f v).chan k = s.chan k := (rfl)
@[simp] theorem Dev.showChan_chan (s : Dev) (c k : RingId) : (s.showChan c).chan k = s.chan k := by simp [Dev.showChan, Dev.wr64, Dev.chan]
@[simp] theorem Dev.showChan_rings (s : Dev) (c : RingId) : (s.showChan c).rings = s.rings := by simp [Dev.showChan, Dev.wr64]
@[simp] theorem Dev.showChan_mem (s : Dev) (c : RingId) : (s.showChan c).mem = s.mem := by simp [Dev.showChan, Dev.wr64]
@[simp] theorem Dev.showChan_cfg (s : Dev) (c : RingId) : (s.showChan c).cfg = s.cfg := by simp [Dev.showChan, Dev.wr64]

/-- The levels of a channel are shown beside RUNNING. -/
theorem Dev.showChan_running (s : Dev) (c : RingId) :
    (s.showChan c).flag (cB c) HOST_CAP_STATUS_RUNNING = s.flag (cB c) HOST_CAP_STATUS_RUNNING := by
  unfold Dev.showChan Dev.wr64
  rw [Dev.flag_setFlag_bits _ _ _ HOST_CAP_STATUS_FULL HOST_CAP_STATUS_RUNNING _ rfl (by decide) (by decide), Dev.flag, Dev.fld,
    Dev.rd_wr_other _ _ _ _ (by simp), Dev.rd_wr_other _ _ _ _ (by simp)]
  rfl

/-- Channel `c` and its registers are as they were. -/
def Dev.SameChan (c : RingId) (s t : Dev) : Prop := t.chan c = s.chan c ∧ ∀ k < 0x40, t.rd (cB c + k) = s.rd (cB c + k)

/-- Channel `c` runs no more, and has written back if it ran and has where to. -/
def Dev.Stopped (c : RingId) (s t : Dev) : Prop :=
  t.flag (cB c) HOST_CAP_STATUS_RUNNING = false ∧
    (s.flag (cB c) HOST_CAP_STATUS_RUNNING = true → s.rd64 (cB c + HOST_CAP_WB_LO) (cB c + HOST_CAP_WB_HI) ≠ 0 →
      (t.chan c).backed = (s.chan c).written)

section Stop

variable {s t u : Dev} {c k : RingId}

theorem Dev.SameChan.running (h : Dev.SameChan c s t) :
    t.flag (cB c) HOST_CAP_STATUS_RUNNING = s.flag (cB c) HOST_CAP_STATUS_RUNNING := by
  unfold Dev.flag Dev.fld
  rw [h.2 _ (by decide)]

theorem Dev.SameChan.trans (h : Dev.SameChan c s t) (h' : Dev.SameChan c t u) : Dev.SameChan c s u :=
  ⟨h'.1.trans h.1, fun k hk => (h'.2 k hk).trans (h.2 k hk)⟩

theorem Dev.SameChan.wr (h : Dev.SameChan c s t) (e : k ≠ c) {o : Nat} (ho : o < 0x40) (v : Word) : Dev.SameChan c s (t.wr (cB k + o) v) := by
  refine ⟨h.1, fun j hj => (Dev.rd_wr_other _ _ _ _ ?_).trans (h.2 j hj)⟩
  have := Fin.val_ne_of_ne e
  simp only [cB, capBase]
  omega

theorem Dev.Stopped.trans_sameChan (h : Dev.Stopped c s t) (h' : Dev.SameChan c t u) : Dev.Stopped c s u :=
  ⟨h'.running.trans h.1, fun hr hw => h'.1 ▸ h.2 hr hw⟩

theorem Dev.SameChan.trans_stopped (h : Dev.SameChan c s t) (h' : Dev.Stopped c t u) : Dev.Stopped c s u := by
  refine ⟨h'.1, fun hr hw => h.1 ▸ h'.2 (h.running ▸ hr) ?_⟩
  rwa [Dev.rd64, h.2 _ (by decide), h.2 _ (by decide)]

/-- A stop of another channel leaves channel `c`. -/
theorem Dev.captureStop_sameChan (s : Dev) (e : k ≠ c) : Dev.SameChan c s (s.captureStop k) := by
  have refl : Dev.SameChan c s s := ⟨rfl, fun _ _ => rfl⟩
  have back : Dev.SameChan c s (s.writeBack k) := by
    unfold Dev.writeBack
    split
    · exact refl
    · exact ⟨Dev.chan_modChan_other _ _ e, fun _ _ => rfl⟩
  unfold Dev.captureStop
  split
  · exact (((back.wr e (by decide) _).wr e (by decide) _).wr e (by decide) _).wr e (by decide) _
  · exact refl

/-- A stop of channel `c` stops it. -/
theorem Dev.captureStop_stopped (s : Dev) (c : RingId) : Dev.Stopped c s (s.captureStop c) := by
  by_cases h : s.flag (cB c) HOST_CAP_STATUS_RUNNING = true
  · rw [Dev.captureStop, if_pos h]
    refine ⟨(Dev.showChan_running _ c).trans (Dev.flag_setFlag_same _ _ _ _ (by decide) rfl), fun _ hw => ?_⟩
    have back : s.writeBack c = s.modChan c (fun k => { k with backed := k.written }) := if_neg (by simpa using hw)
    simp [back]
  · rw [Dev.captureStop, if_neg h]
    exact ⟨by simpa using h, fun k => absurd k h⟩

/-- Stops of the channels of a list stop those and leave the others. -/
theorem Dev.each_captureStop {l : List RingId} (h : l.Nodup) (s : Dev) (c : RingId) :
    (c ∈ l → Dev.Stopped c s (s.each l Dev.captureStop)) ∧ (c ∉ l → Dev.SameChan c s (s.each l Dev.captureStop)) := by
  induction l generalizing s with
  | nil => exact ⟨fun k => by simp at k, fun _ => ⟨rfl, fun _ _ => rfl⟩⟩
  | cons x l ih =>
    obtain ⟨hx, hl⟩ := List.nodup_cons.mp h
    obtain ⟨stops, leaves⟩ := ih hl (s.captureStop x)
    by_cases e : x = c
    · subst e
      exact ⟨fun _ => (s.captureStop_stopped x).trans_sameChan (leaves hx), fun k => by simp at k⟩
    · have one := s.captureStop_sameChan e
      exact ⟨fun k => one.trans_stopped (stops (by simpa [Ne.symm e] using k)), fun k => one.trans (leaves (fun m => k (List.mem_cons_of_mem x m)))⟩

/-- A stop leaves the rings, the store and the configuration space. -/
theorem Dev.captureStop_kept (s : Dev) (c : RingId) :
    ((s.captureStop c).rings, (s.captureStop c).mem, (s.captureStop c).cfg) = (s.rings, s.mem, s.cfg) := by
  have back : ((s.writeBack c).rings, (s.writeBack c).mem, (s.writeBack c).cfg) = (s.rings, s.mem, s.cfg) := by
    unfold Dev.writeBack
    split <;> rfl
  unfold Dev.captureStop
  split
  · simpa using back
  · rfl

/-- What every change of a list keeps, all of them keep. -/
theorem Dev.each_keeps {α β : Type} (p : Dev → β) {f : Dev → α → Dev} (h : ∀ d x, p (f d x) = p d) (l : List α) (s : Dev) :
    p (s.each l f) = p s := by
  unfold Dev.each
  induction l generalizing s with
  | nil => rfl
  | cons x l ih => exact (ih _).trans (h s x)

end Stop

/-- D3hot stops every channel and keeps rings and stores (R384). -/
theorem Dev.d3Enter_spec (s : Dev) : (∀ c, Dev.Stopped c s s.d3Enter) ∧ s.d3Enter.rings = s.rings ∧ s.d3Enter.mem = s.mem ∧
    s.d3Enter.cfg = { s.cfg with d3 := true } := by
  have stop (c : RingId) : Dev.Stopped c s (s.each ((List.range 32).map sid) Dev.captureStop) :=
    (Dev.each_captureStop (by decide) s c).1 (Dev.mem_allSlices c)
  have kept := Dev.each_keeps (fun d => (d.rings, d.mem, d.cfg)) Dev.captureStop_kept ((List.range 32).map sid) s
  simp only [Prod.mk.injEq] at kept
  obtain ⟨rings, mem, cfg⟩ := kept
  exact ⟨stop, rings, mem, by rw [← cfg]; rfl⟩

/-- Settles O13: each reset and link event is its definition with the premises put in; after release the raise is
`hostResetRaise_of_released`, what is reset and what stays are the facts of `hostCleared`, and D3hot is `d3Enter_spec`. -/
theorem hostResetsAndLinkStates : Obligations.HostResetsAndLinkStates := by
  unfold Obligations.HostResetsAndLinkStates
  refine ⟨⟨?released, ?remote, ?frozen, ?unreleased, ?clears, ?parks⟩, ?rise, ?up, ?d3hot⟩
  case released =>
    intro s hs hr
    refine ⟨fun hm => ?_, fun hl => ⟨?_, ?_⟩⟩
    · have low : s.perstLow.released = true := hr
      rw [exec_perst, execPerst_eq, if_neg (by simp [hm]), if_pos hs, Dev.hostResetRaise_of_released low]
      rfl
    · rw [exec_functionLevelReset, execFunctionLevelReset, State.onAwake_of_awake _ _ hs, if_pos hl, Dev.hostResetRaise_of_released hr]
    · rw [exec_pcieLinkDown, execPcieLinkDown, State.on_eq, if_neg (by simp [hl]), if_neg (by simp [hs]), if_pos hr,
        Dev.hostResetRaise_of_released hr]
  case remote =>
    intro s hm
    rw [exec_perst, execPerst_eq, if_pos hm]
    rfl
  case frozen =>
    intro s hs hm
    rw [exec_perst, execPerst_eq, if_neg (by simp [hm]), if_neg (by simp [hs])]
    rfl
  case unreleased =>
    intro s hs hr hl
    have reset : ¬ (s.hostReset false).released = true := by simp [Dev.hostReset_released, hr]
    constructor
    · rw [exec_functionLevelReset, execFunctionLevelReset, State.onAwake_of_awake _ _ hs, if_pos hl, Dev.hostResetRaise, if_neg reset]
    · rw [exec_pcieLinkDown, execPcieLinkDown, State.on_eq, if_neg (by simp [hl]), if_neg (by simp [hs]), if_neg (by simp [hr])]
  case clears =>
    intro s b hr hp
    have reset : s.hostReset b = (s.hostCleared b).setFlag 0 GLOBAL_STATUS_HOST_RESET_SEEN true := by
      rw [Dev.hostReset_of_released hr, if_neg (by simp [hp])]
    have ring (r : RingId) : (s.hostReset b).ring r = (s.ring r).cut (s.fld (rB r) HOST_RING_CFG_NODE, s.fld (rB r) HOST_RING_CFG_GROUP) := by
      rw [reset, ← Dev.hostCleared_ring s b, Dev.ring, Dev.setFlag_rings, Dev.ring]
    have other {a : Nat} (h : a ≠ GLOBAL_STATUS) : (s.hostReset b).rd a = (s.clearRegs 0x70000 0x80000).rd a := by
      rw [reset, Dev.setFlag, Dev.rd_setFld_other _ _ _ _ _ (by simpa using h.symm), Dev.rd_hostCleared]
    refine ⟨fun r => ?_, fun c => ?_, ?_, ?_, fun hb => ?_, ?_, fun a ha hb => ?_, fun a ha hg => ?_, ?_, ?_⟩
    · rw [ring]
      exact ⟨rfl, rfl, rfl⟩
    · rw [reset, Dev.setFlag_chan, Dev.hostCleared_chan]
    · rw [reset, Dev.setFlag_cfg, Dev.hostCleared_cfg]
    · rw [reset, Dev.setFlag_cfg, Dev.hostCleared_cfg]
    · rw [reset, Dev.setFlag_cfg, Dev.hostCleared_cfg]
      simp [hb]
    · rw [reset, Dev.flag_setFlag_same _ _ _ _ (by decide) rfl]
    · rw [other (by simp only [GLOBAL_STATUS]; omega), Dev.rd_clearRegs_inside _ ha hb]
    · rw [other hg, Dev.rd_clearRegs_outside _ ha]
    · rw [reset, Dev.setFlag_mem, Dev.hostCleared_mem]
    · rw [reset, Dev.setFlag_slices, Dev.hostCleared_slices]
  case parks =>
    rintro s d b hr hp rfl
    rw [Dev.hostReset_of_released hr, if_pos hp]
    rfl
  case rise => exact fun s => ⟨_, (exec_perstDeassert s).trans (State.on_eq s _), rfl, rfl, rfl, fun _ _ => rfl, rfl, rfl, rfl⟩
  case up =>
    intro s v w hs hp hm hb h1 h5 hw
    have valid : ¬ (!s.pins.perstN || s.isRemote || s.fld 0 GLOBAL_STATUS_BOOTSEL == 2 || v == 0 || decide (5 < v.toNat)
        || !([1, 2, 4, 8] : List Nat).contains w.toNat) = true := by
      have speed : v ≠ 0#3 := by rintro rfl; simp at h1
      simp [Dev.isRemote, hp, hm, hb, speed, h5, hw]
    refine ⟨_, (exec_pcieLinkUp v w s).trans <| (State.onAwake_of_awake _ _ hs).trans (by rw [if_neg valid]), ?_⟩
    simp only [State.withDev_toDev]
    refine ⟨by simp, ?_, (Dev.fld_setFld_same _ _ _ _ (by decide)).trans (Nat.mod_eq_of_lt w.isLt), ?_⟩
    · rw [Dev.fld_setFld_bits _ _ _ HOST_LINK_WIDTH HOST_LINK_SPEED _ rfl (by decide) (by decide)]
      exact (Dev.fld_setFld_same _ _ _ _ (by decide)).trans (Nat.mod_eq_of_lt v.isLt)
    · have link : s.keeps { s.toDev with cfg := { s.cfg with link := true } } [HOST_LINK] := ⟨fun _ _ => rfl, rfl, rfl, rfl⟩
      exact (link.setFld _ _ _ (by simp)).setFld _ _ _ (by simp)
  case d3hot =>
    intro s hs hl hd
    obtain ⟨stop, rings, mem, cfg⟩ := s.d3Enter_spec
    refine ⟨_, (exec_d3hotEntry s).trans <| (State.onAwake_of_awake _ _ hs).trans (by rw [if_pos (by simp [hl, hd])]), ?_⟩
    exact ⟨by simp [cfg], by simp [cfg, hl], rings, mem, fun c => (stop c).1, fun c => (stop c).2⟩

end Sys2Proof.Machine

namespace Sys2Proof.Machine
open Sys2Proof

/-! ## The next tick of a group (R25, R270) -/

/-- Adding `(n - t % n) % n` leads from `t` to a multiple of `n`. -/
theorem add_to_multiple (t : Nat) {n : Nat} (hn : 0 < n) : (t + (n - t % n) % n) % n = 0 := by
  have lt : t % n < n := Nat.mod_lt t hn
  rw [Nat.add_mod_mod, ← Nat.mod_add_mod, Nat.add_sub_cancel' lt.le, Nat.mod_self]

/-- No smaller addend does. -/
theorem add_to_multiple_le {t j n : Nat} (h : (t + j) % n = 0) : (n - t % n) % n ≤ j := by
  by_contra! lt
  have rest : t % n ≠ 0 := by
    intro e
    simp [e] at lt
  have small : j < n - t % n := lt.trans_le (Nat.mod_le _ _)
  rw [← Nat.mod_add_mod, Nat.mod_eq_of_lt (by omega)] at h
  omega

section Aligned

variable (s : Dev) {c n : Nat}

theorem Dev.le_aligned (c n : Nat) : c ≤ s.aligned c n := Nat.le_add_right _ _

/-- At an aligned cycle TIME is a multiple of the period. -/
theorem Dev.time_at_aligned (hc : s.now ≤ c) (hn : 0 < n) : (s.time.toNat + (s.aligned c n - s.now)) % n = 0 := by
  have later : s.aligned c n - s.now = c - s.now + (n - (s.time.toNat + (c - s.now)) % n) % n := by
    rw [Dev.aligned]
    omega
  rw [later, ← Nat.add_assoc]
  exact add_to_multiple _ hn

/-- An aligned cycle is the first such. -/
theorem Dev.aligned_le {d : Nat} (hc : s.now ≤ c) (hd : c ≤ d) (h : (s.time.toNat + (d - s.now)) % n = 0) :
    s.aligned c n ≤ d := by
  have split : d - s.now = c - s.now + (d - c) := by omega
  rw [split, ← Nat.add_assoc] at h
  have first := add_to_multiple_le h
  rw [Dev.aligned]
  omega

end Aligned

/-- Settles O19: the next tick is an aligned cycle, seen from the later of now, the cycle after the latest tick, and what a step
or a freeze allows. -/
theorem nextTickIsTheFirstMultiple : Obligations.NextTickIsTheFirstMultiple := by
  unfold Obligations.NextTickIsTheFirstMultiple
  intro s g n hn
  have from' := s.le_aligned (max s.now (max ((s.eng g).tickAt + 1) (s.eng g).tickMin)) n
  have after : s.now ≤ max s.now (max ((s.eng g).tickAt + 1) (s.eng g).tickMin) := Nat.le_max_left _ _
  unfold Dev.nextTick
  refine ⟨by omega, by omega, by omega, s.time_at_aligned after hn, fun c hnow hlast hmin htime => s.aligned_le after (by omega) htime⟩

end Sys2Proof.Machine

namespace Sys2Proof.Machine
open Sys2Proof

/-! ## Reset values of registers -/

/-- The reset value a register table gives the word at offset `o` of its unit. -/
def tableReset (l : List RegRow) (o : Nat) : Word :=
  match l.find? (fun r => r.holds o) with
  | none => 0
  | some r => BitVec.ofNat 32 r.reset

/-- A word whose reset value depends on no fault source and on no unit's number resets as its table says. -/
theorem regReset_of_block {a o u : Nat} {l : List RegRow} (h : regBlock a = (l, o, u)) (hs : ¬ (0x41000 ≤ a ∧ a < 0x42000))
    (ht : ¬ (0x400000 ≤ a ∧ a < 0x420000)) (hg : 0x500000 ≤ a → o ≠ GEN_NOISE_SEED) (hr : ¬ (0x70100 ≤ a ∧ a < 0x70900)) :
    regReset a = tableReset l o := by
  have gen : ¬ (decide (0x500000 ≤ a) && decide (a < 0x520000) && o == GEN_NOISE_SEED) = true := by
    simp only [Bool.and_eq_true, decide_eq_true_eq, beq_iff_eq]
    exact fun k => hg k.1.1 k.2
  unfold regReset tableReset
  rw [h]
  dsimp only
  cases l.find? (fun r => r.holds o) with
  | none => rfl
  | some r =>
    dsimp only
    rw [if_neg (by simpa using hs), if_neg (by simp only [Bool.and_eq_true, decide_eq_true_eq]; exact fun k => ht k.1), if_neg gen,
      if_neg (by simp only [Bool.and_eq_true, decide_eq_true_eq]; exact fun k => hr k.1)]

section Units

variable (n : SliceId) {k : Nat}

/-- A slice's word at reset. -/
theorem State.reset_rd_slice (hk : k < 0x10000) : State.reset.rd (sB n + k) = tableReset rowsSlice k := by
  have lt := n.isLt
  have word : (sB n + k) % 0x10000 = k := by simp only [sB, sliceBase]; omega
  have block : regBlock (sB n + k) = (rowsSlice, k, (sB n + k - 0x100000) / 0x10000) := by
    unfold regBlock
    repeat rw [if_neg (by simp only [sB, sliceBase]; omega)]
    rw [if_pos (by simp only [sB, sliceBase]; omega), word]
  exact regReset_of_block block (by simp only [sB, sliceBase]; omega) (by simp only [sB, sliceBase]; omega)
    (by simp only [sB, sliceBase]; omega) (by simp only [sB, sliceBase]; omega)

/-- A generator's word at reset, but for its noise seed. -/
theorem State.reset_rd_gen (hk : k < 0x1000) (hs : k ≠ GEN_NOISE_SEED) : State.reset.rd (gB n + k) = tableReset rowsGen k := by
  have lt := n.isLt
  have word : (gB n + k) % 0x1000 = k := by simp only [gB, genBase]; omega
  have block : regBlock (gB n + k) = (rowsGen, k, (gB n + k - 0x500000) / 0x1000) := by
    unfold regBlock
    repeat rw [if_neg (by simp only [gB, genBase]; omega)]
    rw [if_pos (by simp only [gB, genBase]; omega), word]
  exact regReset_of_block block (by simp only [gB, genBase]; omega) (by simp only [gB, genBase]; omega) (fun _ => hs)
    (by simp only [gB, genBase]; omega)

/-- A sampled monitor's word at reset. -/
theorem State.reset_rd_mon (hk : k < 16) : State.reset.rd (monBase n.val + k) = tableReset rowsMon k := by
  have lt := n.isLt
  have word : (monBase n.val + k - 0x90000) % 16 = k := by simp only [monBase]; omega
  have block : regBlock (monBase n.val + k) = (rowsMon, k, (monBase n.val + k - 0x90000) / 16) := by
    unfold regBlock
    repeat rw [if_neg (by simp only [monBase]; omega)]
    rw [if_pos (by simp only [monBase]; omega), if_pos (by simp only [monBase]; omega), word]
  exact regReset_of_block block (by simp only [monBase]; omega) (by simp only [monBase]; omega) (by simp only [monBase]; omega)
    (by simp only [monBase]; omega)

/-- A slice's field at reset. -/
theorem State.reset_fld_slice {f : Fld} (hk : f.off < 0x10000) :
    State.reset.fld (sB n) f = getBits (tableReset rowsSlice f.off).toNat f.lo f.w := by rw [Dev.fld, State.reset_rd_slice n hk]

end Units

/-- Settles O5: nothing is written at reset, so that a word is the reset value of its table's row; `tableReset` gives it for the
words of slices, generators and monitors, whatever the unit, and the words that hold their unit's number are read one by one. -/
theorem resetRegisterValues : Obligations.ResetRegisterValues := by
  unfold Obligations.ResetRegisterValues
  refine ⟨fun n => ?slice, fun n => ⟨?contour, ?table, ?seed⟩, fun n => ?mon, ?barrier, ?ring, ?axis, by decide +kernel,
    rfl, rfl, rfl, State.reset_canonical, rfl, rfl, rfl, rfl, by decide +kernel⟩
  case slice =>
    simp (disch := decide) only [State.reset_fld_slice, State.reset_rd_slice]
    decide +kernel
  case contour =>
    rw [Dev.fld, State.reset_rd_gen n (by decide) (by decide)]
    rfl
  case table => exact State.reset_rd_gen n (by decide) (by decide)
  case seed => revert n; decide +kernel
  case mon =>
    simp (disch := decide) only [Dev.fld, State.reset_rd_mon]
    decide +kernel
  case barrier => decide +kernel
  case ring => decide +kernel
  case axis =>
    intro a h1 h4
    interval_cases a <;> decide +kernel

end Sys2Proof.Machine

namespace Sys2Proof.Machine
open Sys2Proof

/-! ## Sample ticks and the words of a slice (R25, R107, R185) -/

/-- On a device whose domains run an event of a group that is there acts. -/
theorem Dev.onEngine_of_group {s : Dev} {g : GroupId} {r : GroupRec} (hs : s.domains = true) (hg : s.group g.val = some r)
    (f : Dev → GroupRec → Dev) : s.onEngine g f = f s r := by
  simp [Dev.onEngine, hg, hs]

/-- What an event of an engine answers, on a device whose domains run, for a group there is. -/
theorem State.onAwake_onEngine {s : State} {g : GroupId} {r : GroupRec} (hs : s.domains = true) (hg : s.group g.val = some r)
    (f : Dev → GroupRec → Dev) : s.onAwake (fun d => d.onEngine g f) = .next (s.withDev (f s.toDev r)) := by
  rw [State.onAwake_of_awake _ _ (Dev.awake_of_domains hs), Dev.onEngine_of_group hs hg]

/-- A slice as it starts a conversion at a tick of its group (R107). -/
def Dev.converting (s : Dev) (n : SliceId) (x : Slice) : Slice :=
  { x with
    tag := (x.tag + 1) % 256
    tagB := if s.flag (sB n) SLICE_MEAS_CFG_IB_EN then (x.tagB + 1) % 256 else x.tagB
    awaits := true
    instant := s.time + BitVec.ofNat 64 (s.slotDelay n)
    instantAt := s.now + s.slotDelay n
    mains := (s.pass (s.slotDelay n)).axisNow 3
    vhold := x.vhold.map (· + 1)
    restoring := x.restoring && s.flag (sB n) SLICE_LOOP_STATUS_RESTORE
    prgTick := x.prgTick + 1 }

/-- On a running slice without a range change or a hold that ends a tick starts a conversion, and nothing else. -/
theorem Dev.sliceTick_of_quiet {s : Dev} {n : SliceId} (hp : (s.sl n).phase = .running) (hv : (s.sl n).vhold = none)
    (hw : (s.sl n).vWait = none) (he : (s.sl n).holdEnds = false) :
    s.sliceTick n = (s.modSl n (s.converting n)).modSl n (fun y => { y with vWait := none }) := by
  have tick : s.sliceTick n = ((s.modSl n (s.converting n)).modSl n (fun y => { y with vWait := none })).rampTick n := by
    unfold Dev.sliceTick Dev.converting
    simp [hv, hw, he]
  rw [tick, Dev.rampTick]
  simp [Dev.converting, hp]

/-- Settles O20: a tick and a lane's computation are their events' definitions with the premises put in, and the tick of one slice is
`Dev.sliceTick_of_quiet`. -/
theorem samplesAreTakenAndComputed : Obligations.SamplesAreTakenAndComputed := by
  unfold Obligations.SamplesAreTakenAndComputed
  refine ⟨⟨?tick, ?slice⟩, ?lane⟩
  case tick =>
    rintro s g r d d1 d2 d3 d4 hs hg rfl hp rfl rfl rfl rfl
    rw [exec_sampleTick]
    refine (State.onAwake_onEngine hs hg _).trans ?_
    rw [if_neg (by simpa using hp)]
  case slice =>
    intro s n hp hv hw he
    rw [Dev.sliceTick_of_quiet hp hv hw he]
    exact ⟨by simp [Dev.converting], by simp [Dev.converting], by simp [Dev.converting], ((Dev.keeps_refl s _).modSl _ _).modSl _ _,
      fun m hm => by rw [Dev.sl_modSl_other _ _ _ _ hm.symm, Dev.sl_modSl_other _ _ _ _ hm.symm]⟩
  case lane =>
    rintro s n v ia ib a d hs hw rfl rfl
    rw [exec_laneComputation, execLaneComputation, State.onAwake_of_awake _ _ (Dev.awake_of_domains hs)]
    rw [Dev.laneComputation, if_neg (by simp [hs, hw])]
    refine ⟨fun ho => ?_, fun ho => ?_⟩
    · rw [if_neg (by simpa using ho)]
    · refine ⟨_, rfl, ?_⟩
      rw [State.withDev_toDev, if_pos (by simpa using ho)]

end Sys2Proof.Machine

namespace Sys2Proof.Machine
open Sys2Proof

/-! ## Requests for Atlas images, and what a check answers (R38 to R41, R44, R47, R52) -/

/-- `ATLAS_ERROR` holds the failure noted last; nothing else changes. -/
theorem Dev.atlasError_spec (s : Dev) (code plate detail : Nat) :
    (s.atlasError code plate detail).rd ATLAS_ERROR = BitVec.ofNat 32 (code + 256 * (plate % 256) + 65536 * (detail % 65536)) ∧
    (s.atlasError code plate detail).boot = s.boot ∧ s.keeps (s.atlasError code plate detail) [ATLAS_ERROR] :=
  ⟨Dev.rd_wr_same _ _ _, rfl, (Dev.keeps_refl s _).wr _ _ (by simp)⟩

/-- A vector's event leaves it pending or due (R365). -/
theorem Dev.vector_sent (s : Dev) (v : Fin 40) : ((s.vector v).vects.get v).pending = true ∨ ((s.vector v).vects.get v).due = true := by
  simp only [Dev.vector, Dev.modVect, vector_get_set, if_true]
  split
  · exact .inl rfl
  · exact .inr rfl

/-- What ATLAS_IMAGE_CHECK answers, as an event of the device. -/
theorem exec_imageCheck {s : State} (hs : s.awake = true) (prim gold : List Byte) {hi lo : List Side} (ms : List Side)
    (ts : List (Option Int)) {rq : Bool} {c : Int} {cl : List (Side × Side)} {rf : Option Int} (hc : cl = sidePairs hi lo)
    (hr : rf = if rq then some c else none) : exec (.atlasImageCheck prim gold hi lo ms ts rq c) s =
      .next (s.withDev (s.imageCheck s.fuses prim gold cl ms ts rf)) := by
  rw [exec_atlasImageCheck, execAtlasImageCheck, State.onAwake_of_awake _ _ hs, hc, hr]

section ImageCheck

variable {s : Dev} (f : Fuses) (prim gold : List Byte) (cl : List (Side × Side)) (ms : List Side) (ts : List (Option Int))
  (rf : Option Int)

/-- The check of the partial image asked for (R41). -/
theorem Dev.imageCheck_partial (hp : s.boot.partial_ = true) (ha : s.boot.papply = false) :
    s.imageCheck f prim gold cl ms ts rf = s.checkPartial f := by
  simp [Dev.imageCheck, hp, ha]

/-- The check of the images in flash (R39, R47). -/
theorem Dev.imageCheck_flash (hp : s.boot.partial_ = false) (h4 : 4 ≤ s.boot.step) (h8 : s.boot.step < 8) (hu : s.boot.push = false)
    (hb : s.fld 0 GLOBAL_STATUS_BOOTSEL = 0) (ho : s.flag 0 GLOBAL_STATUS_PUSH_OPEN = false) :
    s.imageCheck f prim gold cl ms ts rf = s.bootFlash f prim gold cl ms ts rf := by
  simp [Dev.imageCheck, hp, Nat.not_lt.mpr h4, Nat.not_le.mpr h8, hu, hb, ho]

end ImageCheck

/-- Settles O8: requests and the end of a reload are written out by the rules of `atlasError` and of fields; each check is its case
of ATLAS_IMAGE_CHECK. -/
theorem atlasImagesAreRequestedAndTaken : Obligations.AtlasImagesAreRequestedAndTaken := by
  unfold Obligations.AtlasImagesAreRequestedAndTaken
  refine ⟨⟨?load, ?loadLate, ?partial_, ?partialBusy, ?done⟩, ?check⟩
  case load =>
    intro s hs hp hr ho
    refine ⟨_, (exec_atlasLoad s).trans <| State.onAwake_of_awake _ _ hs, ?_⟩
    rw [State.withDev_toDev, Dev.atlasLoad, if_neg (by simp [hp]), if_neg (by simp [hr, ho])]
    exact ⟨by simp, by rw [Dev.modBoot_flag, Dev.flag_setFlag_same _ _ _ _ (by decide) rfl],
      ((Dev.keeps_refl s.toDev _).setFlag _ _ _ (by simp)).modBoot _⟩
  case loadLate =>
    intro s hs hp hr
    refine ⟨_, (exec_atlasLoad s).trans <| State.onAwake_of_awake _ _ hs, ?_⟩
    rw [State.withDev_toDev, Dev.atlasLoad, if_neg (by simp [hp]), if_pos (by simp [hr])]
    exact Dev.atlasError_spec _ _ _ _
  case partial_ =>
    intro s hs hr hb
    refine ⟨_, (exec_atlasPartial s).trans <| State.onAwake_of_awake _ _ hs, ?_⟩
    rw [State.withDev_toDev, Dev.atlasPartial, if_neg (by simp [hb]), if_neg (by simp [hr])]
    exact ⟨by simp, by simp, by rw [Dev.modBoot_flag, Dev.flag_setFlag_same _ _ _ _ (by decide) rfl],
      ((Dev.keeps_refl s.toDev _).setFlag _ _ _ (by simp)).modBoot _⟩
  case partialBusy =>
    intro s hs hb
    refine ⟨_, (exec_atlasPartial s).trans <| State.onAwake_of_awake _ _ hs, ?_⟩
    rw [State.withDev_toDev, Dev.atlasPartial, if_pos hb]
    exact Dev.atlasError_spec _ _ _ _
  case done =>
    intro s hs ha
    refine ⟨_, (exec_partialDone s).trans <| State.onAwake_of_awake _ _ hs, ?_⟩
    rw [State.withDev_toDev, if_pos ha]
    refine ⟨by simp, by simp, ?_, ?_, ?_, Dev.vector_sent _ _⟩
    · rw [Dev.vector_flag, Dev.flag_setFlag_bits _ _ _ ATLAS_STATUS_PARTIAL_DONE ATLAS_STATUS_PARTIAL_BUSY _ rfl (by decide) (by decide),
        Dev.flag_setFlag_same _ _ _ _ (by decide) rfl]
    · rw [Dev.vector_flag, Dev.flag_setFlag_same _ _ _ _ (by decide) rfl]
    · exact ((((Dev.keeps_refl s.toDev _).modBoot _).setFlag _ _ _ (by simp)).setFlag _ _ _ (by simp)).vector _
  case check =>
    intro s prim gold hi lo ms ts rq c cl rf hs hc hr
    refine ⟨?flash, ?push, ?link, ?staged⟩
    case flash =>
      intro hp h4 h8 hu hb ho
      refine ⟨_, exec_imageCheck hs prim gold ms ts hc hr, rfl, rfl, ?_⟩
      rw [State.withDev_toDev, Dev.imageCheck_flash _ _ _ _ _ _ _ hp h4 h8 hu hb ho, Dev.bootFlash]
      generalize s.loadFull s.fuses (flashBytes prim) none 0 cl ms ts rf = x
      cases x with
      | ok d => rfl
      | error r =>
        dsimp only
        generalize (s.rejected r).loadFull s.fuses (flashBytes gold) none 1 cl ms ts rf = y
        cases y with
        | ok d => rfl
        | error q => exact ⟨rfl, Dev.flag_setFlag_same _ _ _ _ (by decide) rfl⟩
    case push =>
      intro hp h4 h8 hu
      refine ⟨_, exec_imageCheck hs prim gold ms ts hc hr, rfl, rfl, ?_⟩
      rw [State.withDev_toDev, Dev.imageCheck, if_neg (by simp [hp]), if_neg (by simp [h4, h8]), if_pos hu]
      generalize s.loadFull s.fuses s.stagedBytes (some (s.rd ATLAS_STAGE_LEN).toNat) 2 cl ms ts rf = x
      cases x with
      | ok d => rfl
      | error r => exact ⟨rfl, Dev.flag_setFlag_same _ _ _ _ (by decide) rfl⟩
    case link =>
      intro p hp h4 h8 hu hb hk hl
      refine ⟨_, exec_imageCheck hs prim gold ms ts hc hr, rfl, rfl, ?_⟩
      rw [State.withDev_toDev, Dev.imageCheck, if_neg (by simp [hp]), if_neg (by simp [h4, h8]), if_neg (by simp [hu]), hb, hk]
      generalize s.loadFull s.fuses s.stagedBytes (some s.boot.klen) 3 cl ms ts rf = x
      cases x <;> exact if_pos hl
    case staged =>
      intro hp ha
      rw [exec_imageCheck hs prim gold ms ts hc hr, Dev.imageCheck_partial _ _ _ _ _ _ _ hp ha]

end Sys2Proof.Machine

namespace Sys2Proof.Machine
open Sys2Proof

/-! ## Conditions of waits, and the steps that follow them (R240, R242, R253, R277) -/

/-- Where the domains run TIME counts one a cycle (R266). -/
theorem Dev.upTo_time {s : Dev} (hs : s.domains = true) (c : Nat) : (s.upTo c).time = s.time + BitVec.ofNat 64 (c - s.now) := by
  simp only [Dev.domains, Bool.and_eq_true, decide_eq_true_eq, Bool.not_eq_true'] at hs
  obtain ⟨⟨awake, step⟩, fallback⟩ := hs
  simp [Dev.upTo, Dev.pass, Dev.frozen_of_awake _ awake, awake, fallback, show 4 ≤ s.boot.step by omega]

/-- A wait met in time, away from what is due at the tick, notes its cycle in the engine and does nothing else (R242). -/
theorem Dev.meet_in_time {s : Dev} {g : GroupId} (hd : (s.eng g).due = false) :
    s.meet g false = s.modEng g (fun e => { e with metAt := some s.now }) := by
  simp [Dev.meet, hd]

/-- Such a wait's cycle is the present one, and registers, stores and plates stay. -/
theorem Dev.meet_spec {s : Dev} {g : GroupId} (hd : (s.eng g).due = false) :
    ((s.meet g false).eng g).metAt = some s.now ∧ (s.meet g false).now = s.now ∧ (s.meet g false).time = s.time ∧
      s.keeps (s.meet g false) [] := by
  rw [Dev.meet_in_time hd]
  exact ⟨by simp, rfl, rfl, (Dev.keeps_refl s _).modEng _ _⟩

/-- A wait that is awaited is met. -/
theorem Dev.waitEvent_of_awaiting {s : Dev} {g : GroupId} {w : Nat} (h : s.awaiting g w = true) : s.waitEvent g w = s.meet g false :=
  if_pos h

/-- An axis that stands at a mark has reached it. -/
theorem reachedAt_self (m : Word64) : reachedAt m false m = true := by simp [reachedAt]

/-- On the axis TIME a mark is reached in the cycle in which TIME is it. -/
theorem Dev.reachedMark_time {s : Dev} {g : GroupId} {r : GroupRec} (hg : s.group g.val = some r) (ha : r.axis = 0) :
    s.reachedMark g s.time = true := by
  simp [Dev.reachedMark, Dev.axisOf, hg, ha, reachedAt_self]

/-- Time runs on to a mark on TIME, which is reached then (R242). -/
theorem Dev.upTo_mark {s d : Dev} (hs : s.domains = true) {m : Word64} (hd : d = s.upTo (s.now + (m - s.time).toNat)) :
    d.time = m ∧ d.now = s.now + (m - s.time).toNat := by
  subst hd
  refine ⟨?_, by rw [Dev.upTo_now _ _ (Dev.awake_of_domains hs)]; omega⟩
  rw [Dev.upTo_time hs, Nat.add_sub_cancel_left, BitVec.ofNat_toNat, BitVec.setWidth_eq, BitVec.add_comm, BitVec.sub_add_cancel]

/-! What the events of a wait answer (R242, R244). -/

section Answers

variable {s : State} {g : GroupId} {r : GroupRec} (hs : s.domains = true) (hg : s.group g.val = some r)
include hs hg

theorem exec_wait_trigger (k : Fin 4) : exec (.waitConditionMet g (.trigger k)) s =
    .next (s.withDev (if s.trigOn k.val then s.waitEvent g (2 + k.val) else s.toDev)) := State.onAwake_onEngine hs hg _

theorem exec_wait_link : exec (.waitConditionMet g .link) s = .next (s.withDev (s.waitEvent g 7)) := State.onAwake_onEngine hs hg _

theorem exec_wait_win : exec (.waitConditionMet g .win) s =
    .next (s.withDev (if (s.sl (Fin.ofNat 32 (g.val + s.fld (tB g) TRAV_WAIT_CFG_WIN_SLICE))).winOffer == some s.now
      then s.waitEvent g 8 else s.toDev)) := State.onAwake_onEngine hs hg _

theorem exec_wait_barrier : exec (.waitConditionMet g .barrier) s =
    .next (s.withDev (if s.awaiting g 9 then s.releaseBarrier else s.toDev)) := State.onAwake_onEngine hs hg _

/-- A wait for a mark that TIME has still to reach is met as it does. -/
theorem exec_markReached_ahead {m : Word64} {d : Dev} (hm : s.wantedMark g = some m) (ha : r.axis = 0) (hr : s.reachedMark g m = false)
    (hst : s.travState g = 2) (hmet : (s.eng g).metAt = none) (hlate : (s.eng g).late = false)
    (hd : d = s.upTo (s.now + (m - s.time).toNat)) : exec (.markReached g) s = .next (s.withDev (d.meet g false)) := by
  have eng : d.eng g = s.eng g := by simp [hd]
  have state : d.travState g = 2 := by simpa [hd, Dev.travState] using hst
  have group : d.group g.val = some r := by simpa [hd, Dev.group] using hg
  have reached : d.reachedMark g m = true := (Dev.upTo_mark hs hd).1 ▸ Dev.reachedMark_time group ha
  rw [exec_markReached, execMarkReached, State.onAwake_onEngine hs hg, hm]
  dsimp only
  rw [← hd]
  simp [ha, hr, reached, state, eng, hmet, hlate]

/-- The step whose condition was met at cycle `c` stands in the engine, or the engine halts (R240, R242). -/
theorem exec_stepApply_met {p : PathPos} {h : HeldStep} {c : Nat} (hst : s.travState g = 2) (ha : (s.eng g).applied = false)
    (hn : (s.eng g).next = some p) (hh : (s.eng g).held = some h) (hm : (s.eng g).metAt = some c) {d : Dev}
    (hd : d = s.upTo (c + waitLatency (s.fld (tB g) TRAV_STATUS_WAIT))) :
    exec (.stepApply g) s = .next (s.withDev (if (d.holding h).stepFieldsOk r (p.index r.size)
      then d.modEng g (fun e => { e with applied := true }) else d.halt g 2 (p.index r.size))) := by
  rw [exec_stepApply, execStepApply, State.onAwake_onEngine hs hg]
  simp [hst, ha, hn, hh, hm, hd]

end Answers

/-- Settles O36: an event that an engine awaits is `Dev.meet`, which `Dev.meet_spec` describes; a mark on TIME is reached as time has
run to it, by `Dev.upTo_mark`; a step stands in its engine once time has run to its apply cycle, by `exec_stepApply_met`. -/
theorem waitsAreMetAndStepsApply : Obligations.WaitsAreMetAndStepsApply := by
  unfold Obligations.WaitsAreMetAndStepsApply
  refine ⟨⟨?mark, ?trigger, ?events, ?doorbell⟩, ?apply⟩
  case mark =>
    intro s g r m hs hg hm
    have answer : exec (.markReached g) s = .next (s.withDev _) := State.onAwake_onEngine hs hg _
    rw [hm] at answer
    refine ⟨fun ha hr hst hmet hlate hdue => ?_, fun hr hst hmet => ?_, fun hr hst => ?_⟩
    · obtain ⟨d, hd⟩ : ∃ d, d = s.upTo (s.now + (m - s.time).toNat) := ⟨_, rfl⟩
      obtain ⟨time, now⟩ := Dev.upTo_mark hs hd
      obtain ⟨met, metNow, metTime, keeps⟩ := Dev.meet_spec (s := d) (g := g) (by simpa [hd] using hdue)
      exact ⟨_, exec_markReached_ahead hs hg hm ha hr hst hmet hlate hd, metTime.trans time, metNow.trans now,
        met.trans (congrArg some metNow.symm), Dev.keeps.trans (hd ▸ (Dev.keeps_refl s.toDev []).upTo _) keeps⟩
    · rw [answer]
      simp [hr, hst, hmet]
    · rw [answer]
      simp [hr, hst]
  case trigger =>
    intro s g r k hs hg ht ha hd
    obtain ⟨met, now, -, keeps⟩ := Dev.meet_spec hd
    refine ⟨s.withDev (s.meet g false), ?_, met, now, keeps⟩
    rw [exec_wait_trigger hs hg, if_pos ht, Dev.waitEvent_of_awaiting ha]
  case events =>
    intro s g r hs hg
    refine ⟨fun hd ha => ?_, fun hd ha hw => ?_, fun ha => ?_, fun ha => ?_⟩
    · obtain ⟨met, -, -, keeps⟩ := Dev.meet_spec hd
      refine ⟨s.withDev (s.meet g false), ?_, met, keeps⟩
      rw [exec_wait_link hs hg, Dev.waitEvent_of_awaiting ha]
    · obtain ⟨met, -, -, keeps⟩ := Dev.meet_spec hd
      refine ⟨s.withDev (s.meet g false), ?_, met, keeps⟩
      rw [exec_wait_win hs hg, if_pos (beq_iff_eq.mpr hw), Dev.waitEvent_of_awaiting ha]
    · rw [exec_wait_barrier hs hg, if_pos ha]
    · rw [exec_wait_link hs hg, Dev.waitEvent, if_neg (by simp [ha]), State.withDev_self]
  case doorbell =>
    intro s g r hs hg
    have answer : exec (.doorbell g) s = .next (s.withDev (s.doorbell g)) :=
      (exec_doorbell g s).trans <| State.onAwake_of_awake _ _ hs
    refine ⟨fun ha => ⟨_, answer, ?_⟩, fun ha hd => ⟨_, answer, ?_⟩⟩
    · rw [State.withDev_toDev, Dev.doorbell, hg]
      dsimp only
      rw [if_neg (by simp [ha])]
      exact ⟨Dev.flag_setFlag_same _ _ _ _ (by decide) rfl, (Dev.keeps_refl s.toDev _).setFlag _ _ _ (by simp), by simp⟩
    · obtain ⟨met, -, -, keeps⟩ := Dev.meet_spec hd
      rw [State.withDev_toDev, Dev.doorbell, hg]
      dsimp only
      rw [if_pos ha]
      exact ⟨met, keeps⟩
  case apply =>
    intro s g r p h c d hs hg _ hst ha hn hh hm hd
    rw [exec_stepApply_met hs hg hst ha hn hh hm hd]
    refine ⟨fun ok => ⟨_, rfl, ?_⟩, fun bad => by rw [if_neg (by simp [bad])]⟩
    rw [State.withDev_toDev, if_pos ok, hd]
    exact ⟨by simp, by simp [hn], by simp [Dev.upTo_now _ _ (Dev.awake_of_domains hs)], ((Dev.keeps_refl s.toDev _).upTo _).modEng _ _⟩

end Sys2Proof.Machine

namespace Sys2Proof.Machine
open Sys2Proof

/-! ## Bytes written and read back -/

theorem leBytes_length (n v : Nat) : (leBytes n v).length = n := by
  induction n generalizing v with
  | zero => rfl
  | succ n ih => simp [leBytes, ih]

/-- Of a number written as `n` bytes those bytes are read back. -/
theorem leNat_leBytes (n v : Nat) : leNat (leBytes n v) = v % 256 ^ n := by
  induction n generalizing v with
  | zero => simp [leBytes, leNat, Nat.mod_one]
  | succ n ih =>
    have byte : 256 ^ (n + 1) = 256 * 256 ^ n := Nat.pow_succ'
    rw [leBytes, leNat, ih, BitVec.toNat_ofNat, byte, Nat.mod_mul]

/-- Bytes written are read back. -/
theorem Dev.bytes_setBytes (s : Dev) (a : Nat) (l : List Byte) : (s.setBytes a l).bytes a l.length = l := by
  refine List.ext_getElem (by simp [Dev.bytes]) (fun i hi _ => ?_)
  have lt : i < l.length := by simpa [Dev.bytes] using hi
  simp [Dev.bytes, Dev.byte_setBytes, lt]

theorem Dev.bytes_congr {s t : Dev} {a n : Nat} (h : ∀ i < n, t.byte (a + i) = s.byte (a + i)) : t.bytes a n = s.bytes a n :=
  List.map_congr_left (fun i hi => h i (List.mem_range.mp hi))

/-- A write of bytes touches the store alone. -/
theorem Dev.setBytes_eq (s : Dev) (a : Nat) (l : List Byte) : s.setBytes a l = { s with mem := (s.setBytes a l).mem } := by
  induction l generalizing s a with
  | nil => rfl
  | cons b l ih => exact (ih (s.setByte a b) (a + 1)).trans rfl

/-- A write to a store touches its bytes and what is known of its words' check bits, nothing else. -/
theorem Dev.put_eq (s : Dev) (a : Nat) (l : List Byte) :
    s.put a l = { s with mem := (s.put a l).mem, memst := (s.put a l).memst } := by
  unfold Dev.put
  rw [Dev.setBytes_eq]
  rfl

@[simp] theorem Dev.put_byte (s : Dev) (a : Nat) (l : List Byte) (b : Nat) : (s.put a l).byte b = (s.setBytes a l).byte b := (rfl)

theorem Dev.put_bytes (s : Dev) (a : Nat) (l : List Byte) : (s.put a l).bytes a l.length = l := Dev.bytes_setBytes s a l

/-- Bytes beside a write stay. -/
theorem Dev.put_byte_other (s : Dev) {a b : Nat} {l : List Byte} (h : b < a ∨ a + l.length ≤ b) : (s.put a l).byte b = s.byte b := by
  rw [Dev.put_byte, Dev.byte_setBytes, if_neg (by omega)]

theorem Dev.put_num_other (s : Dev) {a b n : Nat} {l : List Byte} (h : b + n ≤ a ∨ a + l.length ≤ b) : (s.put a l).num b n = s.num b n := by
  unfold Dev.num
  rw [Dev.bytes_congr (fun i hi => s.put_byte_other (by omega))]

/-- A number written is read back. -/
theorem Dev.put_num (s : Dev) (a n v : Nat) : (s.put a (leBytes n v)).num a n = v % 256 ^ n := by
  have h := s.put_bytes a (leBytes n v)
  rw [leBytes_length] at h
  rw [Dev.num, h, leNat_leBytes]

@[simp] theorem Dev.put_now (s : Dev) (a : Nat) (l : List Byte) : (s.put a l).now = s.now := by rw [Dev.put_eq]
@[simp] theorem Dev.put_slices (s : Dev) (a : Nat) (l : List Byte) : (s.put a l).slices = s.slices := by rw [Dev.put_eq]
@[simp] theorem Dev.put_sched (s : Dev) (a : Nat) (l : List Byte) : (s.put a l).sched = s.sched := by rw [Dev.put_eq]

end Sys2Proof.Machine

namespace Sys2Proof.Machine
open Sys2Proof

/-! ## Coefficient sets, divider and outer rate (R26, R191, R202 to R205) -/

/-- Where nothing is scheduled no command in progress loses a slice. -/
theorem Dev.resolve_none {s : Dev} (h : s.sched = []) (kind sel : Sched → Bool) (m v : Word) (st : Nat) :
    s.resolve kind sel m v st = s := by
  unfold Dev.resolve
  rw [Dev.settle_none _ _ _ (by simp [h])]
  simp only [h, List.map_nil]
  rw [← h]

/-- With nothing scheduled the end of an agile WRITE is that of its registers alone. -/
theorem Dev.endAgile_of_idle {s : Dev} (h : s.sched = []) (n : SliceId) :
    s.endAgile n = ((s.modSl n (fun x => { x with agile := none })).setFlag (sB n) SLICE_COEF_WSTATUS_AGILE_BUSY false).setFld
      (sB n) SLICE_COEF_WSTATUS_AGILE_NEXT 0 := Dev.resolve_none (by simpa using h) _ _ _ _ _

theorem Dev.endAgile_fld {s : Dev} (h : s.sched = []) (n : SliceId) {f : Fld} (hf : f.off ≠ SLICE_COEF_WSTATUS) :
    (s.endAgile n).fld (sB n) f = s.fld (sB n) f := by
  rw [Dev.endAgile_of_idle h, Dev.fld_setFld_word _ _ _ _ _ _ (by simpa using hf.symm), Dev.fld_setFlag_word _ _ _ _ _ _ (by simpa using hf.symm),
    Dev.modSl_fld]

/-- The other set comes into force on an open loop without a hold (R203). -/
theorem Dev.useSet_of_open {s : Dev} {n : SliceId} {j : Nat} (hc : s.fld (sB n) SLICE_LOOP_STATUS_COEF_SET ≠ j)
    (hl : s.loopState n = 0) (hs : s.sched = []) :
    s.useSet n j = (s.setFld (sB n) SLICE_LOOP_STATUS_COEF_SET j).endAgile n := by
  have state : ((s.setFld (sB n) SLICE_LOOP_STATUS_COEF_SET j).endAgile n).loopState n = 0 := by
    rw [Dev.loopState, Dev.endAgile_fld (by simpa using hs) _ (by decide),
      Dev.fld_setFld_bits _ _ _ SLICE_LOOP_STATUS_COEF_SET SLICE_LOOP_STATUS_STATE _ rfl (by decide) (by decide)]
    exact hl
  unfold Dev.useSet
  rw [if_neg (by simpa using hc), if_pos (by simpa using state)]

/-! What the checks of COEF_SELECT have passed (R203). -/

section CoefFault

variable {p : CoefP} {op : Nat} {r : GroupRec}

theorem coefFault_set (h : coefFault p op r = none) : p.set.toNat ≤ 3 := by
  by_contra k
  rw [coefFault, if_pos (by omega)] at h
  cases h

theorem coefFault_image (h : coefFault p 2 r = none) : p.image.toNat ≤ 65535 := by
  unfold coefFault at h
  split_ifs at h with _ _ _ _ image
  simpa using image

end CoefFault

/-- Bits of an image that are zero are so in its number. -/
theorem getBits_of_extract {w lo n : Nat} {x : BitVec w} (h : x.extractLsb' lo n = 0) : getBits x.toNat lo n = 0 := by
  have k := congrArg BitVec.toNat h
  rw [BitVec.extractLsb'_toNat, Nat.shiftRight_eq_div_pow] at k
  exact k.trans BitVec.toNat_zero

/-- A set is in force on no open loop, and not where another is. -/
theorem Dev.set_not_inForce {s : Dev} {n : SliceId} {j : Nat} (h : s.loopState n = 0 ∨ s.fld (sB n) SLICE_LOOP_STATUS_COEF_SET ≠ j) :
    (s.loopState n != 0 && s.fld (sB n) SLICE_LOOP_STATUS_COEF_SET == j) = false := by
  rcases h with h | h
  · simp [h]
  · simp [beq_eq_false_iff_ne.mpr h]

/-! What COEF_SELECT does with a set of one slice. -/

/-- A slice's SELECT waits: the set it names is shown as pending. -/
def Dev.selectWaits (s : Dev) (n : SliceId) (j : Nat) : Dev :=
  ((s.endAgile n).setFld (sB n) SLICE_COEF_WSTATUS_PENDING_SET j).setFlag (sB n) SLICE_COEF_WSTATUS_PENDING true

section OneSlice

variable {s : Dev} {c : Ctx} {r : GroupRec} {p : CoefP} {n : SliceId} (hm : r.masked p.mask = [n])

theorem Dev.coefSelect_bad_image (hf : coefFault p 0 r = none) (hi : p.imageC ≠ ~~~p.image) :
    s.coefSelect c r p = s.completeAt c INTEGRITY 0x18 s.time := by
  simp [Dev.coefSelect, hf, coefImageOk, hi]

include hm

theorem Dev.coefSelect_in_force (hf : coefFault p 0 r = none) (hi : p.imageC = ~~~p.image)
    (hj : s.fld (sB n) SLICE_LOOP_STATUS_COEF_SET = p.set.toNat) : s.coefSelect c r p = s.complete c OK := by
  simp [Dev.coefSelect, hf, coefImageOk, hi, hm, hj, Dev.each]

theorem Dev.coefSelect_open (hf : coefFault p 0 r = none) (hi : p.imageC = ~~~p.image)
    (hj : s.fld (sB n) SLICE_LOOP_STATUS_COEF_SET ≠ p.set.toNat) (hl : s.loopState n = 0) :
    s.coefSelect c r p = (s.useSet n p.set.toNat).complete c OK := by
  simp [Dev.coefSelect, hf, coefImageOk, hi, hm, hj, hl, Dev.each]

theorem Dev.coefSelect_closed (hf : coefFault p 0 r = none) (hi : p.imageC = ~~~p.image)
    (hj : s.fld (sB n) SLICE_LOOP_STATUS_COEF_SET ≠ p.set.toNat) (hl : s.loopState n ≠ 0) :
    s.coefSelect c r p = (s.selectWaits n p.set.toNat).schedule c (.coefSelect 0 p) r.first (bit32 n.val) (s.now + 200) 0 := by
  simp [Dev.coefSelect, hf, coefImageOk, hi, hm, hj, hl, Dev.each, maskOf, Dev.selectWaits]

/-- A WRITE of a set that is not in force on a closed loop stores the image and its complement. -/
theorem Dev.coefWrite_set (hf : coefFault p 1 r = none) (hi : p.imageC = ~~~p.image) (h0 : p.image.extractLsb' 120 8 = 0)
    (hb : s.flag (sB n) SLICE_COEF_WSTATUS_AGILE_BUSY = false)
    (hl : s.loopState n = 0 ∨ s.fld (sB n) SLICE_LOOP_STATUS_COEF_SET ≠ p.set.toNat) :
    s.coefWrite c r 1 p = (s.put (s.coefAddr n p.comp.toNat p.set.toNat) (leBytes 16 p.image.toNat ++ leBytes 16 p.imageC.toNat)).complete
      c OK := by
  simp [Dev.coefWrite, hf, coefImageOk, hi, getBits_of_extract h0, hm, hb, Dev.set_not_inForce hl, Dev.each]

/-- A WRITE_ONE of such a set stores the field, and its complement 16 bytes on. -/
theorem Dev.coefWrite_field (hf : coefFault p 2 r = none) (hi : p.imageC = ~~~p.image) (h7 : p.field.toNat < 7)
    (hb : s.flag (sB n) SLICE_COEF_WSTATUS_AGILE_BUSY = false)
    (hl : s.loopState n = 0 ∨ s.fld (sB n) SLICE_LOOP_STATUS_COEF_SET ≠ p.set.toNat) :
    s.coefWrite c r 2 p = ((s.put (s.coefAddr n p.comp.toNat p.set.toNat + 2 * p.field.toNat) (leBytes 2 p.image.toNat)).put
      (s.coefAddr n p.comp.toNat p.set.toNat + 16 + 2 * p.field.toNat) (leBytes 2 (65535 - p.image.toNat))).complete c OK := by
  have field : ¬ p.field = 7#8 := by
    intro h
    simp [h] at h7
  have low : p.image.toNat % 65536 = p.image.toNat := Nat.mod_eq_of_lt (by have := coefFault_image hf; omega)
  simp [Dev.coefWrite, hf, coefImageOk, hi, field, low, hm, hb, Dev.set_not_inForce hl, Dev.each]

/-- A WRITE of the set in force on a closed loop without AGILE is refused. -/
theorem Dev.coefWrite_refused (hf : coefFault p 1 r = none) (hi : p.imageC = ~~~p.image) (h0 : p.image.extractLsb' 120 8 = 0)
    (hl : s.loopState n ≠ 0) (hj : s.fld (sB n) SLICE_LOOP_STATUS_COEF_SET = p.set.toNat) (ha : s.flag (sB n) SLICE_LOOP_CFG_AGILE = false) :
    s.coefWrite c r 1 p = ((s.setFlag (sB n) SLICE_COEF_WSTATUS_REFUSED_WR true).note n).complete c LOOP_CLOSED := by
  simp [Dev.coefWrite, hf, coefImageOk, hi, getBits_of_extract h0, hm, hl, hj, ha, Dev.each]

end OneSlice

/-! What a COEF_SELECT that is ready answers. -/

theorem exec_coefSelect_ready {s : State} {h : Hdr} {r : GroupRec} (k : s.ready h r) (p : CoefP) :
    exec (.coefSelectSelect h p) s = .next (s.withDev ((s.taken h.ring).coefSelect (ownCtx h 0x05) r p)) := by
  rw [exec_coefSelectSelect, execCoefSelectSelect, State.onAwake_of_awake _ _ k.1, Dev.ringCmd_ready k]

theorem exec_coefWrite_ready {s : State} {h : Hdr} {r : GroupRec} (k : s.ready h r) (p : CoefP) :
    exec (.coefSelectWrite h p) s = .next (s.withDev ((s.taken h.ring).coefWrite (ownCtx h 0x05) r 1 p)) := by
  rw [exec_coefSelectWrite, execCoefSelectWrite, State.onAwake_of_awake _ _ k.1, Dev.ringCmd_ready k]

theorem exec_coefWriteOne_ready {s : State} {h : Hdr} {r : GroupRec} (k : s.ready h r) (p : CoefP) :
    exec (.coefSelectWriteOne h p) s = .next (s.withDev ((s.taken h.ring).coefWrite (ownCtx h 0x05) r 2 p)) := by
  rw [exec_coefSelectWriteOne, execCoefSelectWriteOne, State.onAwake_of_awake _ _ k.1, Dev.ringCmd_ready k]

/-! What a command finds as it is taken from its ring. -/

@[simp] theorem Dev.taken_loopState (s : Dev) (r : RingId) (n : SliceId) : (s.taken r).loopState n = s.loopState n := Dev.taken_fld _ _ _ _
@[simp] theorem Dev.taken_coefAddr (s : Dev) (r : RingId) (n : SliceId) (k j : Nat) : (s.taken r).coefAddr n k j = s.coefAddr n k j := by
  simp [Dev.coefAddr]

/-! What a completion leaves of the slices and the store. -/

section Complete

variable (s : Dev) (c : Ctx) (st : Nat)

@[simp] theorem Dev.complete_now : (s.complete c st).now = s.now := (s.complete_same c st).now
@[simp] theorem Dev.complete_slices : (s.complete c st).slices = s.slices := (s.complete_same c st).slices
@[simp] theorem Dev.complete_sched : (s.complete c st).sched = s.sched := (s.complete_same c st).sched
@[simp] theorem Dev.complete_mem : (s.complete c st).mem = s.mem := (s.complete_same c st).mem
@[simp] theorem Dev.complete_byte (a : Nat) : (s.complete c st).byte a = s.byte a := by simp only [Dev.byte, Dev.complete_mem]
@[simp] theorem Dev.complete_bytes (a n : Nat) : (s.complete c st).bytes a n = s.bytes a n := Dev.bytes_congr (fun _ _ => by simp)
@[simp] theorem Dev.complete_num (a n : Nat) : (s.complete c st).num a n = s.num a n := by simp only [Dev.num, Dev.complete_bytes]
@[simp] theorem Dev.complete_fld_slice (n : SliceId) (f : Fld) : (s.complete c st).fld (sB n) f = s.fld (sB n) f :=
  (s.complete_same c st).fld _ _ (.inr (by simp only [sB, sliceBase]; omega))
@[simp] theorem Dev.complete_loopState (n : SliceId) : (s.complete c st).loopState n = s.loopState n := Dev.complete_fld_slice _ _ _ _ _

end Complete

/-! What the wait of a command leaves of the device. -/

section Schedule

variable (s : Dev) (c : Ctx) (cmd : RingCmd) (g : Nat) (m : Word) (after : Nat) (t : Word64)

@[simp] theorem Dev.schedule_now : (s.schedule c cmd g m after t).now = s.now := (rfl)
@[simp] theorem Dev.schedule_mem : (s.schedule c cmd g m after t).mem = s.mem := (rfl)
@[simp] theorem Dev.schedule_fld (b : Nat) (f : Fld) : (s.schedule c cmd g m after t).fld b f = s.fld b f := (rfl)
@[simp] theorem Dev.schedule_flag (b : Nat) (f : Fld) : (s.schedule c cmd g m after t).flag b f = s.flag b f := (rfl)
@[simp] theorem Dev.schedule_sched : (s.schedule c cmd g m after t).sched = s.sched ++
    [{ ctx := c, cmd := cmd, group := g, mask := m, after := after, at_ := t, status := 0, vmask := 0, wmask := 0, time := 0 }] := (rfl)

end Schedule

/-- With nothing scheduled a set that comes into force on an open loop is in force, the loop open, and the store as it was. -/
theorem Dev.useSet_open_spec {s : Dev} {n : SliceId} {j : Nat} (hc : s.fld (sB n) SLICE_LOOP_STATUS_COEF_SET ≠ j)
    (hl : s.loopState n = 0) (hs : s.sched = []) (hj : j ≤ 3) :
    (s.useSet n j).fld (sB n) SLICE_LOOP_STATUS_COEF_SET = j ∧ (s.useSet n j).loopState n = 0 ∧ (s.useSet n j).mem = s.mem ∧
      (s.useSet n j).sched = [] ∧ (s.useSet n j).now = s.now := by
  have idle : (s.setFld (sB n) SLICE_LOOP_STATUS_COEF_SET j).sched = [] := by simpa using hs
  rw [Dev.useSet_of_open hc hl hs]
  refine ⟨?_, ?_, ?_⟩
  · rw [Dev.endAgile_fld idle _ (by decide), Dev.fld_setFld_same _ _ _ _ (by decide)]
    exact Nat.mod_eq_of_lt (Nat.lt_succ_of_le hj)
  · rw [Dev.loopState, Dev.endAgile_fld idle _ (by decide),
      Dev.fld_setFld_bits _ _ _ SLICE_LOOP_STATUS_COEF_SET SLICE_LOOP_STATUS_STATE _ rfl (by decide) (by decide)]
    exact hl
  · rw [Dev.endAgile_of_idle idle]
    simp [hs]

theorem Dev.selectWaits_spec {s : Dev} {n : SliceId} {j : Nat} (hs : s.sched = []) (hj : j ≤ 3) :
    (s.selectWaits n j).flag (sB n) SLICE_COEF_WSTATUS_PENDING = true ∧
      (s.selectWaits n j).fld (sB n) SLICE_COEF_WSTATUS_PENDING_SET = j ∧
      (s.selectWaits n j).fld (sB n) SLICE_LOOP_STATUS_COEF_SET = s.fld (sB n) SLICE_LOOP_STATUS_COEF_SET ∧
      (s.selectWaits n j).mem = s.mem ∧ (s.selectWaits n j).sched = [] ∧ (s.selectWaits n j).now = s.now := by
  unfold Dev.selectWaits
  refine ⟨Dev.flag_setFlag_same _ _ _ _ (by decide) rfl, ?_, ?_, ?_⟩
  · rw [Dev.setFlag, Dev.fld_setFld_bits _ _ _ SLICE_COEF_WSTATUS_PENDING SLICE_COEF_WSTATUS_PENDING_SET _ rfl (by decide) (by decide),
      Dev.fld_setFld_same _ _ _ _ (by decide)]
    exact Nat.mod_eq_of_lt (Nat.lt_succ_of_le hj)
  · rw [Dev.fld_setFlag_word _ _ _ _ _ _ (by simp), Dev.fld_setFld_word _ _ _ _ _ _ (by simp), Dev.endAgile_fld hs _ (by decide)]
  · rw [Dev.endAgile_of_idle hs]
    simp [hs]

/-! The writes of the divider and of the outer rate (R26, R191). -/

/-- A refused write of a slice's loop registers sets REFUSED, and nothing else. -/
theorem Dev.loopRefuse_spec (s : Dev) (n : SliceId) : (s.loopRefuse n).flag (sB n) SLICE_LOOP_STATUS_REFUSED = true ∧
    s.keeps (s.loopRefuse n) [sB n + SLICE_LOOP_STATUS] ∧ (s.loopRefuse n).slices = s.slices :=
  ⟨Dev.flag_setFlag_same _ _ _ _ (by decide) rfl, (Dev.keeps_refl s _).setFlag _ _ _ (by simp), Dev.setFlag_slices _ _ _ _⟩

/-- Settles O31: a COEF_SELECT that is ready answers what its case above says; the switch at a tick and the writes of the divider and
of the outer rate are their events' definitions with the premises put in. -/
theorem coefficientSets : Obligations.CoefficientSets := by
  unfold Obligations.CoefficientSets
  refine ⟨?select, ?write, ?switch, ?div, ?divTaken, ?outer, ?outerTaken⟩
  case select =>
    intro s h r p n k hm hf
    rw [exec_coefSelect_ready k]
    refine ⟨fun hi => ?_, fun hi hj => ?_, fun hi hj hl hs => ⟨_, rfl, ?_⟩, fun hi hj hl hs => ⟨_, rfl, ?_⟩⟩
    · rw [Dev.coefSelect_bad_image hf hi]
    · rw [Dev.coefSelect_in_force hm hf hi (by simpa using hj)]
    · rw [State.withDev_toDev, Dev.coefSelect_open hm hf hi (by simpa using hj) (by simpa using hl)]
      obtain ⟨set, state, mem, sched, now⟩ := Dev.useSet_open_spec (s := s.taken h.ring) (n := n) (by simpa using hj) (by simpa using hl)
        (by simpa using hs) (coefFault_set hf)
      simp [set, state, mem, sched, now]
    · rw [State.withDev_toDev, Dev.coefSelect_closed hm hf hi (by simpa using hj) (by simpa using hl)]
      obtain ⟨pending, set, force, mem, sched, now⟩ := Dev.selectWaits_spec (s := s.taken h.ring) (n := n) (by simpa using hs) (coefFault_set hf)
      simp [pending, set, force, mem, sched, now]
  case write =>
    intro s h r p n k hm hi hb
    refine ⟨fun hf h0 hl => ⟨_, exec_coefWrite_ready k p, ?_⟩, fun hf h7 hl => ⟨_, exec_coefWriteOne_ready k p, ?_⟩,
      fun hf h0 hl hj ha => ?_⟩
    · rw [State.withDev_toDev, Dev.coefWrite_set hm hf hi h0 (by simpa using hb) (by simpa using hl), Dev.taken_coefAddr]
      refine ⟨?_, fun a ha => ?_, by simp, by simp, by simp⟩
      · rw [Dev.complete_bytes]
        exact Dev.put_bytes (s.taken h.ring) _ (leBytes 16 p.image.toNat ++ leBytes 16 p.imageC.toNat)
      · rw [Dev.complete_byte, Dev.put_byte_other _ (by simpa [leBytes_length] using ha), Dev.taken_byte]
    · rw [State.withDev_toDev, Dev.coefWrite_field hm hf hi h7 (by simpa using hb) (by simpa using hl), Dev.taken_coefAddr]
      have img := coefFault_image hf
      refine ⟨?_, ?_, fun a ha => ?_, by simp, by simp⟩
      · rw [Dev.complete_num, Dev.put_num_other _ (.inl (by omega)), Dev.put_num]
        exact Nat.mod_eq_of_lt (by omega)
      · rw [Dev.complete_num, Dev.put_num]
        exact Nat.mod_eq_of_lt (by omega)
      · rw [Dev.complete_byte, Dev.put_byte_other _ (by rw [leBytes_length]; omega), Dev.put_byte_other _ (by rw [leBytes_length]; omega),
          Dev.taken_byte]
    · rw [exec_coefWrite_ready k, Dev.coefWrite_refused hm hf hi h0 (by simpa using hl) (by simpa using hj) (by simpa using ha)]
  case switch =>
    intro s n r hs hg
    rw [exec_coefSwitch, execCoefSwitch]
    have answer (f : Dev → GroupRec → Dev) : s.onAwake (fun d => d.onEngine (d.low n) f) = .next (s.withDev (f s.toDev r)) := by
      rw [State.onAwake_of_awake _ _ (Dev.awake_of_domains hs), Dev.onEngine_of_group hs hg]
    refine ⟨fun x p hx hc hm hd => ?_, fun hx => ?_⟩
    · rw [answer]
      simp [hx, hc, hm, hd, isSelect, Dev.each]
    · rw [answer]
      simp [hx]
  case div =>
    intro s g r v hs hg hn
    refine ⟨_, (exec_loopDivWrite g v s).trans <| State.onAwake_of_awake _ _ hs, ?_⟩
    rw [State.withDev_toDev, Dev.loopDivWrite, hg]
    dsimp only
    rw [if_neg (by simp [Nat.not_le.mpr hn])]
    exact Dev.loopRefuse_spec _ _
  case divTaken =>
    intro s g r v hs hg ho hn hl
    refine ⟨_, (exec_loopDivWrite g v s).trans <| State.onAwake_of_awake _ _ hs, ?_⟩
    rw [State.withDev_toDev, Dev.loopDivWrite, hg]
    dsimp only
    rw [if_pos ?ok]
    case ok =>
      simp only [Bool.and_eq_true, decide_eq_true_eq, List.all_eq_true]
      exact ⟨⟨ho, hn⟩, hl⟩
    exact ⟨Dev.modEng_rd _ _ _ _, ⟨_, by rw [Dev.eng_modEng_same]⟩, ((Dev.keeps_refl s.toDev _).store _ _ (by simp)).modEng _ _⟩
  case outer =>
    intro s n v hs hv
    refine ⟨_, (exec_loopOuterWrite n v s).trans <| State.onAwake_of_awake _ _ hs, ?_⟩
    rw [State.withDev_toDev, Dev.loopOuterWrite, if_neg ?bad]
    case bad =>
      simp only [Bool.and_eq_true, decide_eq_true_eq, bne_iff_ne]
      rintro ⟨⟨⟨⟨-, h2⟩, h4⟩, -⟩, hk⟩
      omega
    obtain ⟨refused, keeps, -⟩ := s.loopRefuse_spec n
    exact ⟨refused, keeps⟩
  case outerTaken =>
    intro s n r v hs hg ho h2 h4 hp hk
    refine ⟨_, (exec_loopOuterWrite n v s).trans <| State.onAwake_of_awake _ _ hs, ?_⟩
    rw [State.withDev_toDev, Dev.loopOuterWrite, hg]
    dsimp only
    rw [if_pos (by simp [ho, h2, h4, hp, hk])]
    exact ⟨rfl, (Dev.keeps_refl s.toDev _).store _ _ (by simp)⟩

end Sys2Proof.Machine

namespace Sys2Proof.Machine
open Sys2Proof

/-! ## Fuses (R58, R61) -/

/-- But for the end of a fuse command, RESET_N low and power-on reset, a command changes what runs on power alone. -/
theorem exec_lifted {c : Instr} {s : State} (hl : c ≠ .lifecycleCommandDone) (hr : c ≠ .resetNLow) (hp : c ≠ .powerOnReset) :
    ∃ d, exec c s = .next (s.withDev d) := by
  cases c
  case lifecycleCommandDone => exact absurd rfl hl
  case resetNLow => exact absurd rfl hr
  case powerOnReset => exact absurd rfl hp
  all_goals exact ⟨_, rfl⟩

/-- Settles O11: a command that changes what runs on power alone, as all others do by `exec_lifted`, leaves the fuses. -/
theorem onlyThreeCommandsChangeFuses : Obligations.OnlyThreeCommandsChangeFuses := by
  unfold Obligations.OnlyThreeCommandsChangeFuses
  intro c s t h hl hr hp
  obtain ⟨d, lifted⟩ := exec_lifted (s := s) hl hr hp
  obtain rfl : s.withDev d = t := by simpa [lifted] using h
  exact s.withDev_fuses d

theorem Fuses.follows_refl (f : Fuses) : f.follows f := by simp [Fuses.follows]

/-- Bits that are blown beside those of `x` leave `x` blown. -/
theorem and_or_self {w : Nat} (x y : BitVec w) : x &&& (x ||| y) = x := by
  ext i hi
  simp only [BitVec.getElem_and, BitVec.getElem_or]
  cases x[i] <;> rfl

/-- A fuse command that ends blows fuses alone, whichever it is. -/
theorem Fuses.follows_program (f : Fuses) (cmd : Nat) (key : BitVec 384) : f.follows (f.program cmd key) := by
  unfold Fuses.program
  split
  case h_5 =>
    have whole : f.service &&& 7#3 = f.service := BitVec.and_allOnes
    simp [Fuses.follows, whole]
  all_goals simp [Fuses.follows, and_or_self]

/-- So does one that is cut short. -/
theorem Fuses.follows_cut (f : Fuses) (cmd k : Nat) (key : BitVec 384) : f.follows (f.cut cmd k key) := by
  unfold Fuses.cut
  split <;> simp [Fuses.follows, and_or_self]

/-- What a reset or a loss of power leaves of the fuses. -/
theorem State.follows_cutFuse (s : State) : s.fuses.follows s.cutFuse.fuses := by
  unfold State.cutFuse
  split
  · exact s.fuses.follows_refl
  · exact s.fuses.follows_cut _ _ _

theorem exec_follows {c : Instr} {s t : State} (h : exec c s = .next t) : s.fuses.follows t.fuses := by
  by_cases hl : c = .lifecycleCommandDone
  · subst hl
    rw [exec_lifecycleCommandDone, execLifecycleCommandDone] at h
    split at h <;> cases h
    · exact s.fuses.follows_program _ _
    · exact s.fuses.follows_refl
  by_cases hr : c = .resetNLow
  · subst hr
    rw [exec_resetNLow, execResetNLow] at h
    split at h <;> cases h
    · exact s.follows_cutFuse
    · exact s.fuses.follows_refl
  by_cases hp : c = .powerOnReset
  · subst hp
    rw [exec_powerOnReset, execPowerOnReset] at h
    cases h
    exact s.follows_cutFuse
  · rw [onlyThreeCommandsChangeFuses c s t h hl hr hp]
    exact s.fuses.follows_refl

/-- Settles O10: a command blows fuses alone by `exec_follows`, and on an empty queue the fuses stay. -/
theorem fusesAreOneWay : Obligations.FusesAreOneWay := by
  unfold Obligations.FusesAreOneWay
  intro s t h
  unfold step at h
  split at h
  next =>
    cases h
    exact s.fuses.follows_refl
  next l _ => exact exec_follows (s := { s with pending := l }) h
end Sys2Proof.Machine

namespace Sys2Proof.Machine
open Sys2Proof

/-! ## Fuse commands and resets (R46, R54, R58, R59, R61, R62, R72) -/

/-- The five fuse commands are writes of `GLOBAL_LIFECYCLE`. -/
theorem exec_fuseCommand {s : State} {c : Instr} {k : Nat} (hs : s.awake = true)
    (h : (c, k) ∈ [(Instr.programKeyHash0, 1), (.programKeyHash1, 2), (.revokeKey0, 3), (.revokeKey1, 4), (.blowServiceFuse, 5)]) :
    ∃ v, fuseCommand v = k ∧ exec c s = .next (s.withDev (s.lifecycle s.fuses v)) := by
  have lifted (v : Word) := State.onAwake_of_awake s (fun d => d.lifecycle s.fuses v) hs
  simp only [List.mem_cons, Prod.mk.injEq, List.not_mem_nil, or_false] at h
  obtain ⟨rfl, rfl⟩ | ⟨rfl, rfl⟩ | ⟨rfl, rfl⟩ | ⟨rfl, rfl⟩ | ⟨rfl, rfl⟩ := h
  · exact ⟨_, by decide, (exec_programKeyHash0 s).trans (lifted _)⟩
  · exact ⟨_, by decide, (exec_programKeyHash1 s).trans (lifted _)⟩
  · exact ⟨_, by decide, (exec_revokeKey0 s).trans (lifted _)⟩
  · exact ⟨_, by decide, (exec_revokeKey1 s).trans (lifted _)⟩
  · exact ⟨_, by decide, (exec_blowServiceFuse s).trans (lifted _)⟩

section Lifecycle

variable {s : Dev} {f : Fuses} {v : Word} (idle : s.boot.fuseCmd = 0)
include idle

theorem Dev.lifecycle_accepted (h : s.fuseOk f (fuseCommand v) = true) : s.lifecycle f v =
    (s.modBoot (fun b => { b with fuseCmd := fuseCommand v
                                  fuseKey := BitVec.ofNat 384 (s.num (s.rd ATLAS_STAGE_ADDR).toNat 48) })).setFld 0 GLOBAL_LIFECYCLE_RESULT 1 := by
  rw [Dev.lifecycle, if_neg (by simp [idle]), if_pos h]

theorem Dev.lifecycle_refused (h : s.fuseOk f (fuseCommand v) = false) : s.lifecycle f v = s.setFld 0 GLOBAL_LIFECYCLE_RESULT 3 := by
  rw [Dev.lifecycle, if_neg (by simp [idle]), if_neg (by simp [h])]

end Lifecycle

/-- RESULT shows what was put in it, of its values 0 to 3. -/
theorem Dev.setFld_result (s : Dev) {x : Nat} (h : x < 4) : (s.setFld 0 GLOBAL_LIFECYCLE_RESULT x).fld 0 GLOBAL_LIFECYCLE_RESULT = x :=
  (Dev.fld_setFld_same s 0 GLOBAL_LIFECYCLE_RESULT x (by decide)).trans (Nat.mod_eq_of_lt h)

/-- Settles O9: the commands are `Dev.lifecycle` with its conditions met or not; at the end of one its fuse is `Fuses.program` of its
number. -/
theorem fuseCommandsAreCheckedAndBlowFuses : Obligations.FuseCommandsAreCheckedAndBlowFuses := by
  unfold Obligations.FuseCommandsAreCheckedAndBlowFuses
  refine ⟨?write, ?done⟩
  case write =>
    intro s c k hs idle h
    obtain ⟨v, rfl, answer⟩ := exec_fuseCommand hs h
    refine ⟨_, answer, rfl, rfl, ?_⟩
    rw [State.withDev_toDev]
    by_cases ok : s.fuseOk s.fuses (fuseCommand v) = true
    · rw [Dev.lifecycle_accepted idle ok]
      exact ⟨((Dev.keeps_refl s.toDev _).modBoot _).setFld _ _ _ (by simp), fun _ => ⟨rfl, Dev.setFld_result _ (by decide), rfl⟩,
        fun h => absurd (ok.symm.trans h) (by decide)⟩
    · rw [Dev.lifecycle_refused idle (Bool.eq_false_of_not_eq_true ok)]
      exact ⟨(Dev.keeps_refl s.toDev _).setFld _ _ _ (by simp), fun h => absurd h ok, fun _ => ⟨rfl, Dev.setFld_result _ (by decide)⟩⟩
  case done =>
    intro s hs busy
    refine ⟨_, (exec_lifecycleCommandDone s).trans (if_pos (by simp [hs, busy])), rfl, rfl, Dev.setFld_result _ (by decide),
      ((Dev.keeps_refl s.toDev _).modBoot _).setFld _ _ _ (by simp), fun h => ?_, fun h => ?_, fun h => ?_⟩
    · rw [h]
      exact ⟨rfl, rfl⟩
    · rw [h]
      simp [Fuses.program]
    · simp [h, Fuses.program, serviceBlown]

/-! What a reset finds of a fuse command it cuts short. -/

theorem State.cutFuse_of_idle {s : State} (h : s.boot.fuseCmd = 0) : s.cutFuse = s := by simp [State.cutFuse, h]

@[simp] theorem State.cutFuse_pins (s : State) : s.cutFuse.pins = s.pins := by unfold State.cutFuse; split <;> rfl
@[simp] theorem State.cutFuse_mem (s : State) : s.cutFuse.mem = s.mem := by unfold State.cutFuse; split <;> rfl
@[simp] theorem State.cutFuse_nvm (s : State) : s.cutFuse.nvm = s.nvm := by unfold State.cutFuse; split <;> rfl
@[simp] theorem State.cutFuse_pending (s : State) : s.cutFuse.pending = s.pending := by unfold State.cutFuse; split <;> rfl

/-- Registers nobody has written, with bits of `GLOBAL_STATUS` set since. -/
theorem Dev.rd_setFlag_status (s : Dev) {f : Fld} (hf : f.off = GLOBAL_STATUS) (b : Bool) {a : Nat} (ha : a ≠ GLOBAL_STATUS) :
    (s.setFlag 0 f b).rd a = s.rd a := Dev.rd_setFld_other _ _ _ _ _ (by rw [hf, Nat.zero_add]; exact ha.symm)

theorem Dev.rd_of_regs_nil {s : Dev} (h : s.regs = []) (a : Nat) : s.rd a = regReset a := by simp [Dev.rd, h, Store.get]

/-- After RESET_N low every register but `GLOBAL_STATUS` is at its reset value (R62). -/
theorem Dev.resetAll_rd (s : Dev) {a : Nat} (ha : a ≠ GLOBAL_STATUS) : s.resetAll.rd a = regReset a := by
  unfold Dev.resetAll
  rw [Dev.rd_setFlag_status _ rfl _ ha, Dev.rd_setFlag_status _ rfl _ ha, Dev.rd_setFlag_status _ rfl _ ha]
  exact Dev.rd_of_regs_nil rfl a

theorem Dev.resetAll_ready (s : Dev) : s.resetAll.flag 0 GLOBAL_STATUS_READY = false := by
  unfold Dev.resetAll
  rw [Dev.flag_setFlag_bits _ _ _ GLOBAL_STATUS_PWRFAIL GLOBAL_STATUS_READY _ rfl (by decide) (by decide),
    Dev.flag_setFlag_bits _ _ _ GLOBAL_STATUS_INTERLOCK GLOBAL_STATUS_READY _ rfl (by decide) (by decide),
    Dev.flag_setFlag_bits _ _ _ GLOBAL_STATUS_GRAVE_LATCH GLOBAL_STATUS_READY _ rfl (by decide) (by decide),
    Dev.flag, Dev.fld, Dev.rd_of_regs_nil rfl]
  decide

theorem Dev.resetAll_sl (s : Dev) (n : SliceId) : s.resetAll.sl n = .atReset := by
  simp [Dev.resetAll, Dev.sl, Dev.atPowerOn, Vector.get]

theorem Dev.resetAll_eng (s : Dev) (g : GroupId) : s.resetAll.eng g = .atReset := by
  simp [Dev.resetAll, Dev.eng, Dev.atPowerOn, Vector.get]

/-- After a loss of every supply too. -/
theorem Dev.powerOn_rd (s : Dev) {a : Nat} (ha : a ≠ GLOBAL_STATUS) : s.powerOn.rd a = regReset a := by
  unfold Dev.powerOn
  rw [Dev.rd_setFlag_status _ rfl _ ha, Dev.rd_setFlag_status _ rfl _ ha]
  exact Dev.rd_of_regs_nil rfl a

/-- A loss of every supply clears the R59 latch. -/
theorem Dev.powerOn_latch (s : Dev) : s.powerOn.flag 0 GLOBAL_STATUS_GRAVE_LATCH = false := by
  unfold Dev.powerOn
  rw [Dev.flag_setFlag_bits _ _ _ GLOBAL_STATUS_PWRFAIL GLOBAL_STATUS_GRAVE_LATCH _ rfl (by decide) (by decide),
    Dev.flag_setFlag_bits _ _ _ GLOBAL_STATUS_INTERLOCK GLOBAL_STATUS_GRAVE_LATCH _ rfl (by decide) (by decide),
    Dev.flag, Dev.fld, Dev.rd_of_regs_nil rfl]
  decide

/-- Settles O6: RESET_N low is `Dev.resetAll` and power-on reset `Dev.powerOn`, of the device with its fuse command cut short. -/
theorem resetsClearTheDevice : Obligations.ResetsClearTheDevice := by
  unfold Obligations.ResetsClearTheDevice
  refine ⟨fun s h => ?low, fun s => ?power⟩
  case low =>
    refine ⟨_, (exec_resetNLow s).trans ((if_pos h).trans (State.on_eq _ _)), ?_⟩
    simp only [State.withDev_toDev, State.withDev_pending, State.withDev_fuses, Dev.modPins_rd, Dev.modPins_flag, Dev.modPins_sl, Dev.modPins_eng]
    exact ⟨rfl, rfl, fun a ha => Dev.resetAll_rd _ ha, Dev.resetAll_ready _, Dev.resetAll_sl _, Dev.resetAll_eng _, rfl, rfl, s.cutFuse_mem,
      s.cutFuse_nvm, fun idle => by rw [State.cutFuse_of_idle idle], s.cutFuse_pending⟩
  case power =>
    refine ⟨_, (exec_powerOnReset s).trans (State.on_eq _ _), rfl, rfl, fun a ha => Dev.powerOn_rd _ ha, Dev.powerOn_latch _, rfl,
      s.cutFuse_nvm, fun idle => by rw [State.withDev_fuses, State.cutFuse_of_idle idle], s.cutFuse_pending⟩

end Sys2Proof.Machine

namespace Sys2Proof.Machine
open Sys2Proof

/-! ## Start-up (R46 to R48, R266) -/

/-- The registers of the clocks and above. -/
def clockRegs (a : Nat) : Prop := 0x20000 ≤ a

/-- The registers of memory integrity and above. -/
def memoryRegs (a : Nat) : Prop := 0x60000 ≤ a

namespace Dev.SameBut

variable {w : Nat → Prop} {s t : Dev}

theorem modMem (h : s.SameBut w t) (f : MemSt → MemSt) : s.SameBut w (t.modMem f) := h.trans { SameBut.refl w t with }

end Dev.SameBut

/-- The repair list changes what is known of the memory, and MEM registers (R312). -/
theorem Dev.loadRepairs_sameBut (s : Dev) : s.SameBut memoryRegs s.loadRepairs := by
  unfold Dev.loadRepairs
  split
  · exact .refl _ s
  · refine (((SameBut.refl _ s).modMem _).setFld _ ?_ |>.setFld _ ?_).each _ _ (fun d k => (SameBut.refl _ d).setFld _ ?_)
    all_goals simp only [memoryRegs, MEM_SPARES]; omega

/-! What RESET_N rising leaves (R46, R47). -/

section BootStart

variable (s : Dev) (b : Nat) (r : Bool)

/-- A device that is reset, with the straps as sampled and the crystal as it is. -/
def Dev.strapped : Dev :=
  (((s.resetAll.setFld 0 GLOBAL_STATUS_BOOTSEL b).setFlag 0 GLOBAL_STATUS_RECOVERY_STRAP r).setFlag 0 GLOBAL_STATUS_SERVICE_FUSED
    s.boot.fused).setFlag 0 CLK_STATUS_XIN_OK s.pins.xin

/-- Both PLLs search. -/
def Dev.searching : Dev := (s.setFlag 0 CLK_PLL_A_SEARCHING true).setFlag 0 CLK_PLL_B_SEARCHING true

theorem Dev.bootStart_eq : s.bootStart b r =
    { ((s.strapped b r).searching.modPort 0 (fun k => { k with restart := some s.now })).modPort 1 (fun k => { k with restart := some s.now }) with
      boot := { (s.strapped b r).boot with step := 3, zero := s.now } } := by
  unfold Dev.bootStart
  rfl

theorem Dev.bootStart_step : (s.bootStart b r).boot.step = 3 := by rw [Dev.bootStart_eq]
theorem Dev.bootStart_pins : (s.bootStart b r).pins = s.pins := by rw [Dev.bootStart_eq]; rfl
theorem Dev.bootStart_regs : (s.bootStart b r).regs = (s.strapped b r).searching.regs := by rw [Dev.bootStart_eq]; rfl
theorem Dev.bootStart_mem : (s.bootStart b r).mem = s.mem := by rw [Dev.bootStart_eq]; rfl

/-- A field outside the PLLs' registers. -/
theorem Dev.bootStart_fld {f : Fld} (ha : CLK_PLL_A ≠ f.off) (hb : CLK_PLL_B ≠ f.off) :
    (s.bootStart b r).fld 0 f = (s.strapped b r).fld 0 f := by
  have searching : (s.bootStart b r).fld 0 f = (s.strapped b r).searching.fld 0 f := by
    simp only [Dev.fld, Dev.rd, Dev.bootStart_regs]
  rw [searching, Dev.searching, Dev.fld_setFlag_word _ _ _ _ _ _ (by simpa using hb),
    Dev.fld_setFlag_word _ _ _ _ _ _ (by simpa using ha)]

theorem Dev.bootStart_flag {f : Fld} (ha : CLK_PLL_A ≠ f.off) (hb : CLK_PLL_B ≠ f.off) :
    (s.bootStart b r).flag 0 f = (s.strapped b r).flag 0 f := by
  unfold Dev.flag; rw [s.bootStart_fld b r ha hb]

theorem Dev.strapped_bootsel : (s.strapped b r).fld 0 GLOBAL_STATUS_BOOTSEL = b % 2 ^ 2 := by
  unfold Dev.strapped
  rw [Dev.fld_setFlag_word _ _ _ _ _ _ (by decide), Dev.setFlag,
    Dev.fld_setFld_bits _ _ _ GLOBAL_STATUS_SERVICE_FUSED GLOBAL_STATUS_BOOTSEL _ rfl (by decide) (by decide), Dev.setFlag,
    Dev.fld_setFld_bits _ _ _ GLOBAL_STATUS_RECOVERY_STRAP GLOBAL_STATUS_BOOTSEL _ rfl (by decide) (by decide),
    Dev.fld_setFld_same _ _ _ _ (by decide)]

theorem Dev.strapped_recovery : (s.strapped b r).flag 0 GLOBAL_STATUS_RECOVERY_STRAP = r := by
  unfold Dev.strapped
  rw [Dev.flag_setFlag_word _ _ _ _ _ _ (by decide),
    Dev.flag_setFlag_bits _ _ _ GLOBAL_STATUS_SERVICE_FUSED GLOBAL_STATUS_RECOVERY_STRAP _ rfl (by decide) (by decide),
    Dev.flag_setFlag_same _ _ _ _ (by decide) rfl]

theorem Dev.strapped_xin : (s.strapped b r).flag 0 CLK_STATUS_XIN_OK = s.pins.xin := Dev.flag_setFlag_same _ _ _ _ (by decide) rfl

end BootStart

/-- RESET_N rises: the straps are sampled, and start-up stands in step 3. -/
theorem Dev.resetRise_spec (s : Dev) (b : BitVec 2) (r : Bool) :
    (s.resetRise b.toNat r).pins.resetN = true ∧ (s.resetRise b.toNat r).boot.step = 3 ∧
    (s.resetRise b.toNat r).fld 0 GLOBAL_STATUS_BOOTSEL = b.toNat ∧ (s.resetRise b.toNat r).flag 0 GLOBAL_STATUS_RECOVERY_STRAP = r ∧
    (s.resetRise b.toNat r).flag 0 CLK_STATUS_XIN_OK = s.pins.xin ∧ (s.resetRise b.toNat r).mem = s.mem := by
  unfold Dev.resetRise
  have same := ((s.modPins (fun p => { p with resetN := true })).bootStart b.toNat r).loadRepairs_sameBut
  rw [same.pins, same.boot, same.mem, same.fld (by simp [memoryRegs]), same.flag (by simp [memoryRegs]), same.flag (by simp [memoryRegs]),
    Dev.bootStart_pins, Dev.bootStart_step, Dev.bootStart_mem, Dev.bootStart_fld _ _ _ (by decide) (by decide),
    Dev.bootStart_flag _ _ _ (by decide) (by decide), Dev.bootStart_flag _ _ _ (by decide) (by decide), Dev.strapped_bootsel,
    Dev.strapped_recovery, Dev.strapped_xin]
  exact ⟨rfl, rfl, Nat.mod_eq_of_lt b.isLt, rfl, rfl, rfl⟩

/-! What the locks of the two PLLs leave (R48, R293). -/


/-- PLL b locked in band 32, as its register and CLK_STATUS show it. -/
def Dev.lockShown (s : Dev) (b : Bool) : Dev :=
  if b then (((s.setFld 0 CLK_PLL_B_BAND 32).setFlag 0 CLK_PLL_B_SEARCHING false).setFlag 0 CLK_PLL_B_LOCKED true).setFlag 0
      CLK_STATUS_B_LOCKED true
  else (((s.setFld 0 CLK_PLL_A_BAND 32).setFlag 0 CLK_PLL_A_SEARCHING false).setFlag 0 CLK_PLL_A_LOCKED true).setFlag 0
      CLK_STATUS_A_LOCKED true

theorem Dev.lockShown_sameBut (s : Dev) (b : Bool) : s.SameBut clockRegs (s.lockShown b) := by
  have r := SameBut.refl clockRegs s
  unfold Dev.lockShown
  refine SameBut.ite ((((r.setFld _ ?_).setFlag _ ?_).setFlag _ ?_).setFlag _ ?_) ((((r.setFld _ ?_).setFlag _ ?_).setFlag _ ?_).setFlag _ ?_)
  all_goals simp [clockRegs]

/-- CLK_STATUS shows PLL b locked, and what it shows of the other. -/
theorem Dev.lockShown_flag (s : Dev) (b k : Bool) : (s.lockShown b).flag 0 (if k then CLK_STATUS_B_LOCKED else CLK_STATUS_A_LOCKED) =
    (if b = k then true else s.flag 0 (if k then CLK_STATUS_B_LOCKED else CLK_STATUS_A_LOCKED)) := by
  unfold Dev.lockShown
  cases b <;> cases k
  · exact Dev.flag_setFlag_same _ _ _ _ (by decide) rfl
  · simp only [Bool.false_eq_true, if_false, if_true]
    rw [Dev.flag_setFlag_bits _ _ _ CLK_STATUS_A_LOCKED CLK_STATUS_B_LOCKED _ rfl (by decide) (by decide),
      Dev.flag_setFlag_word _ _ _ _ _ _ (by decide), Dev.flag_setFlag_word _ _ _ _ _ _ (by decide), Dev.flag_setFld_word _ _ _ _ _ _ (by decide)]
  · simp only [Bool.true_eq_false, Bool.false_eq_true, if_false, if_true]
    rw [Dev.flag_setFlag_bits _ _ _ CLK_STATUS_B_LOCKED CLK_STATUS_A_LOCKED _ rfl (by decide) (by decide),
      Dev.flag_setFlag_word _ _ _ _ _ _ (by decide), Dev.flag_setFlag_word _ _ _ _ _ _ (by decide), Dev.flag_setFld_word _ _ _ _ _ _ (by decide)]
  · exact Dev.flag_setFlag_same _ _ _ _ (by decide) rfl

theorem Dev.pllLock_eq (s : Dev) (b : Bool) : s.pllLock b =
    if ((s.cause (0x280 + b.toNat) false).lockShown b).pllIsLocked (!b)
    then ((s.cause (0x280 + b.toNat) false).lockShown b).setFlag 0 CLK_STATUS_STANDBY_READY true
    else (s.cause (0x280 + b.toNat) false).lockShown b := rfl

/-- The lock of a PLL changes its cause and clock registers. -/
theorem Dev.pllLock_sameBut (s : Dev) (b : Bool) : s.SameBut clockRegs (s.pllLock b) := by
  have shown := ((SameBut.refl clockRegs s).setFld (b := 0) (f := ⟨FAULT_CAUSE + 4 * ((0x280 + b.toNat) / 32), (0x280 + b.toNat) % 32, 1⟩)
    false.toNat (by simp only [clockRegs, FAULT_CAUSE]; omega)).trans (Dev.lockShown_sameBut _ b)
  rw [Dev.pllLock_eq]
  exact SameBut.ite (shown.setFlag _ (by simp [clockRegs])) shown

theorem Dev.pllLock_flag (s : Dev) (b k : Bool) : (s.pllLock b).flag 0 (if k then CLK_STATUS_B_LOCKED else CLK_STATUS_A_LOCKED) =
    (if b = k then true else s.flag 0 (if k then CLK_STATUS_B_LOCKED else CLK_STATUS_A_LOCKED)) := by
  have ready (d : Dev) : (d.setFlag 0 CLK_STATUS_STANDBY_READY true).flag 0 (if k then CLK_STATUS_B_LOCKED else CLK_STATUS_A_LOCKED)
      = d.flag 0 (if k then CLK_STATUS_B_LOCKED else CLK_STATUS_A_LOCKED) := by
    cases k <;> exact Dev.flag_setFlag_bits _ _ _ _ _ _ rfl (by decide) (by decide)
  have cause (d : Dev) : (d.cause (0x280 + b.toNat) false).flag 0 (if k then CLK_STATUS_B_LOCKED else CLK_STATUS_A_LOCKED)
      = d.flag 0 (if k then CLK_STATUS_B_LOCKED else CLK_STATUS_A_LOCKED) := by
    cases k <;> exact Dev.cause_flag_word _ _ (by simp only [FAULT_CAUSE, Bool.false_eq_true, if_false, if_true]; omega)
  rw [Dev.pllLock_eq]
  split
  · rw [ready, Dev.lockShown_flag, cause]
  · rw [Dev.lockShown_flag, cause]

/-- TIME starts, and start-up stands in step 4 (R266). -/
def Dev.startTime (s : Dev) : Dev := { s with time := 0, boot := { s.boot with step := 4 } }

theorem Dev.startTime_fld (s : Dev) (b : Nat) (f : Fld) : s.startTime.fld b f = s.fld b f := rfl
theorem Dev.startTime_flag (s : Dev) (b : Nat) (f : Fld) : s.startTime.flag b f = s.flag b f := rfl

/-- Both PLLs locked and A active, with TIME at its start. -/
def Dev.clocked (s : Dev) : Dev := (((s.pllLock false).pllLock true).setFlag 0 CLK_STATUS_ACTIVE false).startTime

/-- The repair list is in force, which a device without one reads now. -/
def Dev.repaired (s : Dev) : Dev := if s.memst.entries.isEmpty then s.loadRepairs else s

theorem Dev.repaired_sameBut (s : Dev) : s.SameBut memoryRegs s.repaired := .ite s.loadRepairs_sameBut (.refl _ s)

theorem Dev.bootLock_eq (s : Dev) : s.bootLock =
    (s.clocked.repaired.setFlag 0 GLOBAL_STATUS_PUSH_OPEN (bitOf (s.clocked.repaired.fld 0 GLOBAL_STATUS_BOOTSEL) 0)).pinCauses := rfl

/-- With the supplies good and the interlock closed no pin is a cause. -/
theorem Dev.pinCauses_of_quiet {s : Dev} (hp : s.pins.pwrfailN = true) (hb : s.pins.brown = []) (hi : s.pins.interlockN = true) :
    s.pinCauses = s.cause 0x3E0 false := by
  simp [Dev.pinCauses, hp, hb, hi, Dev.each]

theorem Dev.clocked_flag (s : Dev) (k : Bool) : s.clocked.flag 0 (if k then CLK_STATUS_B_LOCKED else CLK_STATUS_A_LOCKED) = true := by
  have active (d : Dev) : (d.setFlag 0 CLK_STATUS_ACTIVE false).flag 0 (if k then CLK_STATUS_B_LOCKED else CLK_STATUS_A_LOCKED)
      = d.flag 0 (if k then CLK_STATUS_B_LOCKED else CLK_STATUS_A_LOCKED) := by
    cases k <;> exact Dev.flag_setFlag_bits _ _ _ _ _ _ rfl (by decide) (by decide)
  rw [Dev.clocked, Dev.startTime_flag, active, Dev.pllLock_flag, Dev.pllLock_flag]
  cases k <;> rfl

theorem Dev.clocked_active (s : Dev) : s.clocked.flag 0 CLK_STATUS_ACTIVE = false := by
  rw [Dev.clocked, Dev.startTime_flag, Dev.flag_setFlag_same _ _ _ _ (by decide) rfl]

theorem Dev.clocked_bootsel (s : Dev) : s.clocked.fld 0 GLOBAL_STATUS_BOOTSEL = s.fld 0 GLOBAL_STATUS_BOOTSEL := by
  rw [Dev.clocked, Dev.startTime_fld, Dev.fld_setFlag_word _ _ _ _ _ _ (by decide),
    (Dev.pllLock_sameBut _ _).fld (by simp [clockRegs]), (Dev.pllLock_sameBut _ _).fld (by simp [clockRegs])]

theorem Dev.clocked_pins (s : Dev) : s.clocked.pins = s.pins := (Dev.pllLock_sameBut _ true).pins.trans (Dev.pllLock_sameBut s false).pins

/-- Step 3 ends with both PLLs locked, A active, TIME at its start and the push window as BOOTSEL has it (R48, R52, R266). -/
theorem Dev.bootLock_spec {s : Dev} (hp : s.pins.pwrfailN = true) (hb : s.pins.brown = []) (hi : s.pins.interlockN = true) :
    s.bootLock.boot.step = 4 ∧ s.bootLock.time = 0 ∧ s.bootLock.flag 0 CLK_STATUS_A_LOCKED = true ∧
    s.bootLock.flag 0 CLK_STATUS_B_LOCKED = true ∧ s.bootLock.flag 0 CLK_STATUS_ACTIVE = false ∧
    s.bootLock.flag 0 GLOBAL_STATUS_PUSH_OPEN = bitOf (s.fld 0 GLOBAL_STATUS_BOOTSEL) 0 := by
  have same := s.clocked.repaired_sameBut
  have pins : s.clocked.repaired.pins = s.pins := same.pins.trans s.clocked_pins
  have quiet : s.bootLock = (s.clocked.repaired.setFlag 0 GLOBAL_STATUS_PUSH_OPEN (bitOf (s.fld 0 GLOBAL_STATUS_BOOTSEL) 0)).cause 0x3E0 false := by
    rw [Dev.bootLock_eq, same.fld (by simp [memoryRegs]), s.clocked_bootsel, Dev.pinCauses_of_quiet (by simp [pins, hp]) (by simp [pins, hb])
      (by simp [pins, hi])]
  have clock {f : Fld} (h : f.off = CLK_STATUS) : s.bootLock.flag 0 f = s.clocked.flag 0 f := by
    rw [quiet, Dev.cause_flag_word _ _ (by rw [h]; decide), Dev.flag_setFlag_word _ _ _ _ _ _ (by rw [h]; decide),
      same.flag (by rw [h, memoryRegs]; decide)]
  rw [clock rfl, clock rfl, clock rfl, quiet, Dev.cause_boot, Dev.cause_time, Dev.setFlag_boot, Dev.setFlag_time, same.boot, same.time,
    Dev.cause_flag_word _ _ (by decide), Dev.flag_setFlag_same _ _ _ _ (by decide) rfl]
  exact ⟨rfl, rfl, s.clocked_flag false, s.clocked_flag true, s.clocked_active, rfl⟩

/-- A read of words without errors changes nothing (R303). -/
theorem Dev.eccRead_of_good {s : Dev} (h : s.memst.bad = []) (a n reader : Nat) : s.eccRead a n reader = s := by
  simp [Dev.eccRead, h, Dev.each]

/-- A pass in which nothing fails takes its cycles and does nothing else (R308). -/
theorem Dev.bootPass_of_good {s : Dev} (h : s.memst.bad = []) :
    s.bootPass [] = { s.upTo (s.now + 6348800) with boot := { s.boot with step := 9 } } := by
  simp [Dev.bootPass, Dev.eccRead_of_good (s := s.upTo (s.now + 6348800)) (by simpa using h), Dev.each]

/-! What release leaves (R48, R57, R60). -/

theorem Dev.releaseState_lt (s : Dev) : s.releaseState < 4 := by unfold Dev.releaseState; split_ifs <;> decide

/-- READY is set, with the lifecycle state `x` (R57, R60). -/
def Dev.showReady (s : Dev) (x : Nat) : Dev := (s.setFlag 0 GLOBAL_STATUS_READY true).setFld 0 GLOBAL_STATUS_STATE x

/-- Start-up is over; Meridian and Resurvey go on from here. -/
def Dev.operate (s : Dev) : Dev :=
  { s with boot := { s.boot with step := 10 }, mer := { s.mer with ppsAt := some s.now }, memst := { s.memst with paceAt := s.now } }

theorem Dev.operate_fld (s : Dev) (b : Nat) (f : Fld) : s.operate.fld b f = s.fld b f := rfl
theorem Dev.operate_flag (s : Dev) (b : Nat) (f : Fld) : s.operate.flag b f = s.flag b f := rfl

section ShowReady

variable (s : Dev) (x : Nat) (w : Word)

theorem Dev.showReady_ready : ((s.showReady x).wr GLOBAL_BOOT_TIME w).flag 0 GLOBAL_STATUS_READY = true := by
  rw [Dev.flag, Dev.fld, Dev.rd_wr_other _ _ _ _ (by decide), ← Dev.fld, Dev.showReady,
    Dev.fld_setFld_bits _ _ _ GLOBAL_STATUS_STATE GLOBAL_STATUS_READY _ rfl (by decide) (by decide)]
  exact Dev.flag_setFlag_same _ _ _ _ (by decide) rfl

theorem Dev.showReady_state (h : x < 4) : ((s.showReady x).wr GLOBAL_BOOT_TIME w).fld 0 GLOBAL_STATUS_STATE = x := by
  rw [Dev.fld, Dev.rd_wr_other _ _ _ _ (by decide), ← Dev.fld, Dev.showReady, Dev.fld_setFld_same _ _ _ _ (by decide)]
  exact Nat.mod_eq_of_lt h

theorem Dev.showReady_latch :
    ((s.showReady x).wr GLOBAL_BOOT_TIME w).flag 0 GLOBAL_STATUS_GRAVE_LATCH = s.flag 0 GLOBAL_STATUS_GRAVE_LATCH := by
  rw [Dev.flag, Dev.fld, Dev.rd_wr_other _ _ _ _ (by decide), ← Dev.fld, Dev.showReady,
    Dev.fld_setFld_bits _ _ _ GLOBAL_STATUS_STATE GLOBAL_STATUS_GRAVE_LATCH _ rfl (by decide) (by decide), ← Dev.flag,
    Dev.flag_setFlag_bits _ _ _ GLOBAL_STATUS_READY GLOBAL_STATUS_GRAVE_LATCH _ rfl (by decide) (by decide)]

end ShowReady

/-- Release with BOOT_TIME `w`; the R59 latch, where it stands, is a cause and raises its source. -/
def Dev.releaseWith (s : Dev) (w : Word) : Dev :=
  let d := (((s.upTo s.boot.deferTo).showReady (s.upTo s.boot.deferTo).releaseState).wr GLOBAL_BOOT_TIME w).operate
  if d.flag 0 GLOBAL_STATUS_GRAVE_LATCH then (d.cause 0x3EC true).raiseGlobal 0x3EC 0 else d

theorem Dev.upTo_releaseState (s : Dev) (c : Nat) : (s.upTo c).releaseState = s.releaseState := by simp [Dev.releaseState]

/-- With the R59 latch clear release raises nothing. -/
theorem Dev.bootRelease_of_unlatched {s : Dev} (h : s.flag 0 GLOBAL_STATUS_GRAVE_LATCH = false) :
    ∃ w, s.bootRelease = (((s.upTo s.boot.deferTo).showReady s.releaseState).wr GLOBAL_BOOT_TIME w).operate := by
  obtain ⟨w, release⟩ : ∃ w, s.bootRelease = s.releaseWith w := ⟨_, rfl⟩
  rw [← s.upTo_releaseState s.boot.deferTo]
  refine ⟨w, release.trans (if_neg ?_)⟩
  rw [Dev.operate_flag, Dev.showReady_latch, Dev.upTo_flag, h]
  decide

/-- Settles O7: each step is its event's definition with the premises put in, and what it leaves is read from the named parts above. -/
theorem startUpAdvances : Obligations.StartUpAdvances := by
  unfold Obligations.StartUpAdvances
  refine ⟨fun s b r low => ?rise, fun s hs hstep xin hp hb hi => ?lock, fun s failed hs hstep => ?pass, fun s hs hstep hp hb latch => ?release⟩
  case rise =>
    refine ⟨_, (exec_resetNRise b r s).trans (State.on_eq s _), ?_⟩
    rw [State.withDev_toDev, if_neg (by simp [low])]
    exact s.resetRise_spec b (!r)
  case lock =>
    refine ⟨_, (exec_bootPllLock s).trans (State.onAwake_of_awake _ _ hs), ?_⟩
    rw [State.withDev_toDev, if_neg (by simp [hstep, xin])]
    exact Dev.bootLock_spec hp hb hi
  case pass =>
    refine ⟨_, (exec_bootResurveyPass failed s).trans (State.onAwake_of_awake _ _ hs), ?_⟩
    rw [State.withDev_toDev, if_neg (by simp [hstep])]
    refine ⟨rfl, fun good none => ?_⟩
    rw [none, Dev.bootPass_of_good good]
    exact ⟨by simp [Dev.upTo_now _ _ hs], by simp, by simp⟩
  case release =>
    refine ⟨_, (exec_release s).trans (State.onAwake_of_awake _ _ hs), ?_⟩
    obtain ⟨w, he⟩ := Dev.bootRelease_of_unlatched latch
    rw [State.withDev_toDev, if_neg (by simp [hstep, hp, hb]), he, Dev.operate_flag, Dev.operate_fld, Dev.showReady_ready,
      Dev.showReady_state _ _ _ s.releaseState_lt]
    exact ⟨rfl, rfl, rfl, by simp [Dev.operate, Dev.showReady]⟩

end Sys2Proof.Machine

namespace Sys2Proof.Machine
open Sys2Proof

/-! ## The fields a park shows, and the commands PARK and UNPARK (R85, R86, R89, R376) -/

/-- A field of another word of a unit is not touched. -/
theorem Dev.fld_setFld_unit (s : Dev) (b : Nat) (f f' : Fld) (v : Nat) (h : f.off ≠ f'.off) : (s.setFld b f v).fld b f' = s.fld b f' :=
  Dev.fld_setFld_word _ _ _ _ _ _ (by omega)

/-- Of the same word of a unit, a field beside the one set is not touched. -/
theorem Dev.fld_setFld_beside (s : Dev) (b : Nat) (f f' : Fld) (v : Nat) (h : f.off = f'.off) (hw : f.lo + f.w ≤ 32)
    (hd : f'.lo + f'.w ≤ f.lo ∨ f.lo + f.w ≤ f'.lo) : (s.setFld b f v).fld b f' = s.fld b f' :=
  Dev.fld_setFld_bits _ _ _ _ _ _ (by omega) hw hd

/-- A field of a slice, beside one of a generator. -/
theorem Dev.fld_setFld_gen (s : Dev) (n m : SliceId) (f f' : Fld) (v : Nat) (lt : f'.off < 0x10000) :
    (s.setFld (gB m) f v).fld (sB n) f' = s.fld (sB n) f' :=
  Dev.fld_setFld_word _ _ _ _ _ _ (by have := n.isLt; simp only [sB, sliceBase, gB, genBase]; omega)

/-- No command waits, before or after, and what the slice shows of its loop is the same. -/
structure Dev.SameLoop (n : SliceId) (s t : Dev) : Prop where
  sched : t.sched = s.sched
  loop  : t.rd (sB n + SLICE_LOOP_STATUS) = s.rd (sB n + SLICE_LOOP_STATUS)

namespace Dev.SameLoop

variable {n : SliceId} {s t u : Dev}

theorem refl (n : SliceId) (s : Dev) : SameLoop n s s := ⟨rfl, rfl⟩

theorem trans (h : SameLoop n s t) (k : SameLoop n t u) : SameLoop n s u := ⟨k.sched.trans h.sched, k.loop.trans h.loop⟩

/-- A change of registers alone. -/
theorem wr (h : SameLoop n s t) {a : Nat} (v : Word) (ha : a ≠ sB n + SLICE_LOOP_STATUS) : SameLoop n s (t.wr a v) :=
  h.trans ⟨rfl, Dev.rd_wr_other _ _ _ _ ha⟩

/-- A field of a slice that is no field of its LOOP_STATUS. -/
theorem setFld (h : SameLoop n s t) (m : SliceId) {f : Fld} (v : Nat) (hf : f.off ≠ SLICE_LOOP_STATUS) (lt : f.off < 0x10000) :
    SameLoop n s (t.setFld (sB m) f v) := h.wr _ (by simp only [sB, sliceBase, SLICE_LOOP_STATUS] at *; omega)

theorem genWr (h : SameLoop n s t) (m : SliceId) (o : Nat) (v : Word) : SameLoop n s (t.wr (gB m + o) v) :=
  h.wr _ (by have := n.isLt; simp only [sB, sliceBase, gB, genBase, SLICE_LOOP_STATUS]; omega)

theorem genFld (h : SameLoop n s t) (m : SliceId) (f : Fld) (v : Nat) : SameLoop n s (t.setFld (gB m) f v) := h.genWr m _ _

theorem modSl (h : SameLoop n s t) (m : SliceId) (f : Slice → Slice) : SameLoop n s (t.modSl m f) := h.trans ⟨rfl, rfl⟩

theorem modGen (h : SameLoop n s t) (m : SliceId) (f : Gen → Gen) : SameLoop n s (t.modGen m f) := h.trans ⟨rfl, rfl⟩

theorem host (h : SameLoop n s t) (k : t.SameButHost u) : SameLoop n s u :=
  h.trans ⟨k.sched, k.rd _ (.inr (by simp only [sB, sliceBase]; omega))⟩

theorem ite {c : Prop} [Decidable c] (h : SameLoop n s t) (k : SameLoop n s u) : SameLoop n s (if c then t else u) := by
  split
  · exact h
  · exact k

theorem each {α : Type} (l : List α) (f : Dev → α → Dev) (hf : ∀ (d : Dev) (x : α), SameLoop n d (f d x)) (h : SameLoop n s t) :
    SameLoop n s (t.each l f) := by
  unfold Dev.each
  induction l generalizing t with
  | nil => exact h
  | cons x l ih => exact ih (h.trans (hf t x))

/-! ### What lands at an FDAC -/

theorem latchOn (h : SameLoop n s t) (m : SliceId) (c : Nat) (q : Code) : SameLoop n s (t.latchOn m c q) :=
  ((h.setFld m _ (by decide) (by decide)).setFld m _ (by decide) (by decide)).modSl _ _

theorem presentAt (h : SameLoop n s t) (m : SliceId) (q : Code) (c : Nat) : SameLoop n s (t.presentAt m q c) :=
  h.ite (.ite (h.modSl _ _) (.ite (h.latchOn m c q) ((h.setFld m _ (by decide) (by decide)).modSl _ _)))

theorem pendTo (h : SameLoop n s t) (m : SliceId) (c : Nat) : SameLoop n s (t.pendTo m c) := by
  unfold Dev.pendTo
  split
  · exact h
  · exact h.ite (.ite ((h.modSl m _).setFld m _ (by decide) (by decide)) (h.latchOn m _ _))

theorem queueFlag (h : SameLoop n s t) (m : SliceId) {f : Fld} (hf : f.off = SLICE_QUEUE_STATUS) : SameLoop n s (t.queueFlag m f) := by
  have r : SameLoop n s (t.setFlag (sB m) f true) := h.setFld m _ (by rw [hf]; decide) (by rw [hf]; decide)
  exact .ite (r.host (Dev.sliceEvent_same _ m)) r

theorem landOne (h : SameLoop n s t) (m : SliceId) (c : Nat) (d : Drive) : SameLoop n s (t.landOne m c d) := by
  cases d with
  | head =>
    unfold Dev.landOne
    dsimp only
    split
    · exact h.queueFlag m rfl
    · exact (h.modSl _ _).setFld m _ (by decide) (by decide)
  | direct q => exact h.presentAt m q c
  | holding => exact h.presentAt m _ c
  | lane q g => exact h.ite ((h.presentAt m q c).modSl m _)

theorem landBy (k : Nat) (h : SameLoop n s t) (m : SliceId) (c : Nat) : SameLoop n s (Dev.landBy k t m c) := by
  induction k generalizing t with
  | zero => exact h
  | succ k ih =>
    unfold Dev.landBy
    split
    · exact h.pendTo m c
    · exact (h.pendTo m c).ite (ih (((h.pendTo m _).modSl m _).landOne m _ _))

theorem land (h : SameLoop n s t) (m : SliceId) : SameLoop n s (t.land m) := h.landBy _ m _

/-! ### Range changes, with no command in progress -/

theorem modCon (h : SameLoop n s t) (m : SliceId) (f : Contour → Contour) : SameLoop n s (t.modCon m f) :=
  (((((h.modGen m _).genWr m _ _).genWr m _ _).genWr m _ _).genWr m _ _).genFld m _ _

theorem convertLimits (h : SameLoop n s t) (m : SliceId) : SameLoop n s (t.convertLimits m) := by
  unfold Dev.convertLimits; exact h.modSl m _

theorem scaleForced (h : SameLoop n s t) (m : SliceId) (old new : Int) (sp : Bool) : SameLoop n s (t.scaleForced m old new sp) := by
  have scaled := (h.modSl m (fun x => { x with sp := if sp then .of (scaleWord x.sp.v old new) else x.sp
                                               tapsM := x.tapsM.scaleErr old new })).modCon m (fun c => c.scale old new)
  exact scaled.ite ((scaled.modSl m _).wr _ (by simp only [sB, sliceBase, SLICE_OUTER_Y, SLICE_LOOP_STATUS]; omega))

theorem rescaleV (h : SameLoop n s t) (m : SliceId) (new : Nat) : SameLoop n s (t.rescaleV m new) := by
  have shown := ((h.setFld m (f := SLICE_RANGE_STATUS_VRANGE) new (by decide) (by decide)).modSl m
    (fun x => { x with vhold := none, runs := [] })).setFld m (f := SLICE_RANGE_STATUS_VHOLD_ACTIVE) false.toNat (by decide) (by decide)
  exact (SameLoop.ite (shown.scaleForced m _ _ _) (.ite (shown.modSl m _) (shown.modSl m _))).convertLimits m

theorem loadThr (h : SameLoop n s t) (m : SliceId) : SameLoop n s (t.loadThr m) := by
  have loaded : SameLoop n s (if (t.sl m).dropThr then t.modSl m (fun y => { y with dropThr := false })
      else (t.setFld (sB m) SLICE_CLAMP_STATUS_THR_HI (t.thresholds m).1).setFld (sB m) SLICE_CLAMP_STATUS_THR_LO (t.thresholds m).2) :=
    (h.modSl m _).ite ((h.setFld m _ (by decide) (by decide)).setFld m _ (by decide) (by decide))
  exact loaded.ite (.ite (loaded.modSl m _) (loaded.setFld m _ (by decide) (by decide)))

theorem resolve (h : SameLoop n s t) (idle : s.sched = []) (kind sel : Sched → Bool) (m v : Word) (st : Nat) :
    SameLoop n s (t.resolve kind sel m v st) := by
  rw [Dev.resolve_none (h.sched.trans idle)]
  exact h

theorem abandonRanges (h : SameLoop n s t) (idle : s.sched = []) (m : SliceId) : SameLoop n s (t.abandonRanges m) := by
  unfold Dev.abandonRanges
  refine resolve (loadThr (setFld ?_ m _ (by decide) (by decide)) m) idle _ _ _ _ _
  have hold {d : Dev} (k : SameLoop n s d) := (k.rescaleV m (t.sl m).vNew).ite (c := (t.sl m).vhold.isSome) k
  split
  on_goal 1 => refine each _ _ (fun d k => ((refl n d).rescaleV k _).modSl k _) ?_
  all_goals exact hold (((h.setFld m _ (by decide) (by decide)).setFld m _ (by decide) (by decide)).modSl m _)

theorem endAgile (h : SameLoop n s t) (idle : s.sched = []) (m : SliceId) : SameLoop n s (t.endAgile m) := by
  rw [Dev.endAgile_of_idle (h.sched.trans idle)]
  exact ((h.modSl m _).setFld m _ (by decide) (by decide)).setFld m _ (by decide) (by decide)

end Dev.SameLoop

/-- With no command in progress none leaves an UNPARK sequence. -/
theorem Dev.leaveUnpark_of_idle {s : Dev} (h : s.sched = []) (n : SliceId) : s.leaveUnpark n = s := by
  unfold Dev.leaveUnpark
  rw [Dev.settle_none _ _ _ (by simp [h])]
  simp only [h, List.map_nil]
  rw [← h]

section ParkSlice

variable (s : Dev) (n : SliceId)

/-- The slice at the end of what it does as it parks: the loop open, range steps and agile writes over, the park code latched. -/
def Dev.parkLatched : Dev := (((((s.keepPark n false).land n).openLoop n).abandonRanges n).endAgile n).latch n (s.parkCode n)

/-- What the registers of a slice show as it parks. -/
def Dev.showPark : Dev :=
  (((((((((s.setFlag (sB n) SLICE_FORCE_STATUS_OUTEN false).setFlag (sB n) SLICE_FORCE_STATUS_PARKED false).setFlag
    (sB n) SLICE_FORCE_STATUS_PARK_BUSY true).setFlag (sB n) SLICE_FORCE_STATUS_CLAMP_HOLD false).setFlag (sB n)
    SLICE_CLAMP_STATUS_HOLD false).setFld (sB n) SLICE_QUEUE_STATUS_DEPTH 0).setFlag (sB n)
    SLICE_PRG_STATUS_RUNNING false).setFlag (sB n) SLICE_PRG_STATUS_SOFT false).setFld (sB n) SLICE_BAL_TRIM_TRIM 0).setFlag
    (gB n) GEN_CONTOUR_STATUS_PARK_RAMP false

/-- The table of R85 begins as one change of the slice, beside registers and the generator. -/
theorem Dev.parkSlice_eq : ∃ f : Slice → Slice, ∃ k : Contour → Contour,
    s.parkSlice n = ((((s.parkLatched n).modSl n f).showPark n).modCon n k).leaveUnpark n ∧
    ∀ x, (f x).phase = .parking s.now false ∧ (f x).queue = [] := ⟨_, _, rfl, fun _ => ⟨rfl, rfl⟩⟩

/-- A field of a slice, after a change of its generator. -/
theorem Dev.modCon_fld (m : SliceId) (k : Contour → Contour) (f : Fld) (lt : f.off < 0x10000) : (s.modCon n k).fld (sB m) f = s.fld (sB m) f := by
  have apart (o : Nat) : gB n + o ≠ sB m + f.off := by have := m.isLt; simp only [sB, sliceBase, gB, genBase]; omega
  unfold Dev.fld Dev.modCon Dev.showContour Dev.setFlag
  rw [Dev.rd_setFld_other _ _ _ _ _ (apart _), Dev.rd_wr_other _ _ _ _ (apart _), Dev.rd_wr_other _ _ _ _ (apart _),
    Dev.rd_wr_other _ _ _ _ (apart _), Dev.rd_wr_other _ _ _ _ (apart _)]
  rfl

theorem Dev.showPark_shows : (s.showPark n).flag (sB n) SLICE_FORCE_STATUS_OUTEN = false ∧
    (s.showPark n).flag (sB n) SLICE_FORCE_STATUS_PARK_BUSY = true ∧ (s.showPark n).flag (sB n) SLICE_FORCE_STATUS_PARKED = false ∧
    (s.showPark n).fld (sB n) SLICE_FORCE_STATUS_CODE = s.fld (sB n) SLICE_FORCE_STATUS_CODE ∧
    (s.showPark n).fld (sB n) SLICE_LOOP_STATUS_STATE = s.fld (sB n) SLICE_LOOP_STATUS_STATE := by
  unfold Dev.showPark Dev.flag Dev.setFlag
  simp (disch := decide) only [Dev.fld_setFld_gen, Dev.fld_setFld_same, Dev.fld_setFld_unit, Dev.fld_setFld_beside]
  exact ⟨rfl, rfl, rfl, trivial, trivial⟩

theorem Dev.openLoop_state : (s.openLoop n).fld (sB n) SLICE_LOOP_STATUS_STATE = 0 := by
  unfold Dev.openLoop Dev.setFlag
  simp (disch := decide) only [Dev.modSl_fld, Dev.fld_setFld_same, Dev.fld_setFld_unit]
  rfl

theorem Dev.keepPark_sched (b : Bool) : (s.keepPark n b).sched = s.sched := by simp [Dev.keepPark]

theorem Dev.openLoop_sched : (s.openLoop n).sched = s.sched := by simp [Dev.openLoop]

theorem Dev.modCon_sched (k : Contour → Contour) : (s.modCon n k).sched = s.sched := by simp [Dev.modCon, Dev.showContour]

theorem Dev.modCon_sl (m : SliceId) (k : Contour → Contour) : (s.modCon n k).sl m = s.sl m := by simp [Dev.modCon, Dev.showContour]

theorem Dev.showPark_sched : (s.showPark n).sched = s.sched := by simp [Dev.showPark]

theorem Dev.showPark_sl (m : SliceId) : (s.showPark n).sl m = s.sl m := by simp [Dev.showPark]

variable {s}

/-- With no command in progress the slice's loop is open then, and none is in progress still. -/
theorem Dev.parkLatched_spec (idle : s.sched = []) : (s.parkLatched n).sched = [] ∧
    (s.parkLatched n).fld (sB n) SLICE_LOOP_STATUS_STATE = 0 ∧ (s.parkLatched n).fld (sB n) SLICE_FORCE_STATUS_CODE = (s.parkCode n).toNat := by
  have opened : (((s.keepPark n false).land n).openLoop n).sched = [] := by
    rw [Dev.openLoop_sched, ((SameLoop.refl n (s.keepPark n false)).land n).sched, Dev.keepPark_sched, idle]
  have same := (((SameLoop.refl n _).abandonRanges opened n).endAgile opened n).latchOn n
    (((((s.keepPark n false).land n).openLoop n).abandonRanges n).endAgile n).now (s.parkCode n)
  refine ⟨same.sched.trans opened, ?_, Dev.latchOn_code _ _ _ _⟩
  have state : (s.parkLatched n).fld (sB n) SLICE_LOOP_STATUS_STATE
      = (((s.keepPark n false).land n).openLoop n).fld (sB n) SLICE_LOOP_STATUS_STATE := by
    unfold Dev.fld
    exact congrArg (fun w : Word => getBits w.toNat _ _) same.loop
  rw [state, Dev.openLoop_state]

/-- What the start of a park leaves of its slice and shows of it, with no command in progress (R85). -/
theorem Dev.parkSlice_spec (idle : s.sched = []) :
    ((s.parkSlice n).sl n).phase = .parking s.now false ∧ (s.parkSlice n).flag (sB n) SLICE_FORCE_STATUS_OUTEN = false ∧
    (s.parkSlice n).flag (sB n) SLICE_FORCE_STATUS_PARK_BUSY = true ∧ (s.parkSlice n).flag (sB n) SLICE_FORCE_STATUS_PARKED = false ∧
    (s.parkSlice n).fld (sB n) SLICE_FORCE_STATUS_CODE = (s.parkCode n).toNat ∧ (s.parkSlice n).fld (sB n) SLICE_LOOP_STATUS_STATE = 0 ∧
    ((s.parkSlice n).sl n).queue = [] ∧ (s.parkSlice n).now = s.now ∧ (s.parkSlice n).mem = s.mem := by
  obtain ⟨sched, state, code⟩ := Dev.parkLatched_spec n idle
  obtain ⟨f, k, park, phase⟩ := s.parkSlice_eq n
  have parks := (s.parkSlice_parks n).1
  rw [Dev.leaveUnpark_of_idle (by rw [Dev.modCon_sched, Dev.showPark_sched, Dev.modSl_sched, sched])] at park
  obtain ⟨outen, busy, parked, code', state'⟩ := ((s.parkLatched n).modSl n f).showPark_shows n
  have slice : (s.parkSlice n).sl n = f ((s.parkLatched n).sl n) := by
    rw [park, Dev.modCon_sl, Dev.showPark_sl, Dev.sl_modSl_same]
  refine ⟨?_, ?_, ?_, ?_, ?_, ?_, ?_, parks.now, parks.mem⟩
  · rw [slice, (phase _).1]
  · rw [park, Dev.flag, Dev.modCon_fld _ _ _ _ _ (by decide)]
    exact outen
  · rw [park, Dev.flag, Dev.modCon_fld _ _ _ _ _ (by decide)]
    exact busy
  · rw [park, Dev.flag, Dev.modCon_fld _ _ _ _ _ (by decide)]
    exact parked
  · rw [park, Dev.modCon_fld _ _ _ _ _ (by decide), code', Dev.modSl_fld, code]
  · rw [park, Dev.modCon_fld _ _ _ _ _ (by decide), state', Dev.modSl_fld, state]
  · rw [slice, (phase _).2]

end ParkSlice

section Commands

variable {s : State} {h : Hdr} {r : GroupRec}

theorem exec_park_ready (k : s.ready h r) : exec (.park h) s = .next (s.withDev ((s.taken h.ring).parkCmd (ownCtx h 0x0C) r)) := by
  rw [exec_park, execPark, State.onAwake_of_awake _ _ k.1, Dev.ringCmd_ready k]

theorem exec_unpark_ready (k : s.ready h r) : exec (.unpark h) s = .next (s.withDev ((s.taken h.ring).unparkCmd (ownCtx h 0x0D) r)) := by
  rw [exec_unpark, execUnpark, State.onAwake_of_awake _ _ k.1, Dev.ringCmd_ready k]

end Commands

/-- On a slice that is parked a park has nothing to begin (R88). -/
theorem Dev.parkBegin_of_parking {s : Dev} {n : SliceId} (h : s.parking n = true) : s.parkBegin n = s := if_pos h

theorem Dev.parkBegin_all_parking {s : Dev} {l : List SliceId} (h : ∀ n ∈ l, s.parking n = true) : l.foldl Dev.parkBegin s = s := by
  induction l with
  | nil => rfl
  | cons n l ih =>
    rw [List.foldl_cons, Dev.parkBegin_of_parking (h n List.mem_cons_self)]
    exact ih (fun m hm => h m (List.mem_cons_of_mem n hm))

/-- A group's first slice is one of its slices. -/
theorem GroupRec.first_mem_slices {r : GroupRec} (h : 1 ≤ r.size) : sid r.first ∈ r.slices :=
  List.mem_map.mpr ⟨0, List.mem_range.mpr h, rfl⟩

@[simp] theorem Dev.taken_unparkOf (s : Dev) (r : RingId) (g : Nat) : (s.taken r).unparkOf g = s.unparkOf g := by simp [Dev.unparkOf]

/-- Settles O29: the start of a park is `Dev.parkSlice_spec`; PARK and UNPARK, taken from their ring, are their commands' definitions with the
premises put in. -/
theorem parkAndUnparkCommands : Obligations.ParkAndUnparkCommands := by
  unfold Obligations.ParkAndUnparkCommands
  refine ⟨⟨fun s n idle => Dev.parkSlice_spec n idle, ?already, ?begins⟩, fun s h r k => ⟨?busy, ?shut, ?starts⟩⟩
  case already =>
    intro s h r k all
    have still := Dev.parkBegin_all_parking (s := s.taken h.ring) (l := r.slices) (fun n hn => by simp [Dev.parking, (all n hn).1])
    have parked : r.slices.all (s.taken h.ring).parked = true :=
      List.all_eq_true.mpr (fun n hn => (Dev.taken_flag _ _ _ _).trans (all n hn).2)
    rw [exec_park_ready k, Dev.parkCmd, still, if_pos parked]
  case begins =>
    intro s h r k first size
    have busy : ¬ r.slices.all (r.slices.foldl Dev.parkBegin (s.taken h.ring)).parked = true := fun all =>
      Bool.false_ne_true (first.symm.trans (List.all_eq_true.mp all _ (GroupRec.first_mem_slices size)))
    rw [exec_park_ready k, Dev.parkCmd, if_neg busy]
  case busy =>
    rintro ⟨u, hu⟩
    have status : (s.taken h.ring).unparkStatus r = some BUSY := by simp [Dev.unparkStatus, hu]
    rw [exec_unpark_ready k, Dev.unparkCmd, status]
  case shut =>
    intro none shut
    have status : (s.taken h.ring).unparkStatus r = some PARKED := by
      rcases shut with shut | shut <;> simp [Dev.unparkStatus, none, shut]
    rw [exec_unpark_ready k, Dev.unparkCmd, status]
  case starts =>
    intro status
    rw [exec_unpark_ready k, Dev.unparkCmd, status]

end Sys2Proof.Machine

namespace Sys2Proof.Machine
open Sys2Proof

/-! ## The cycles of the park table and of the UNPARK sequence (R85, R89) -/

/-- The pins go to RG_SAFE; before the group is enabled they stay low, and a parity error holds them as they are. -/
theorem Dev.rgSafe_rg (s : Dev) (n : SliceId) (h : (s.sl n).dropRg = false) :
    ((s.rgSafe n).sl n).rg = if (s.sl n).enabled then s.plates.rgSafe.getD n.val 0 else 0 := by
  simp [Dev.rgSafe, Dev.driveRg, h]

theorem Dev.driveRg_sameBut (s : Dev) (n : SliceId) (p : Nat) : s.SameBut parkRegs (s.driveRg n p) :=
  .ite ((SameBut.refl _ s).modSl n _) (((SameBut.refl _ s).modSl n _).setFld _ (parkRegs_slice n _))

theorem Dev.rgSafe_sameBut (s : Dev) (n : SliceId) : s.SameBut parkRegs (s.rgSafe n) := s.driveRg_sameBut n _

theorem Dev.driveRg_parkMis (s : Dev) (n : SliceId) (p : Nat) : ((s.driveRg n p).sl n).parkMis = (s.sl n).parkMis := by
  exact (apply_ite (fun d : Dev => (d.sl n).parkMis) _ _ _).trans (by simp)

theorem Dev.rgSafe_parkMis (s : Dev) (n : SliceId) : ((s.rgSafe n).sl n).parkMis = (s.sl n).parkMis := s.driveRg_parkMis n _

theorem Dev.parkMismatch_of_none {s : Dev} {n : SliceId} (h : (s.sl n).parkMis = false) : s.parkMismatch n = s := by
  simp [Dev.parkMismatch, h]

/-- Slice `n` is parked, and shows it. -/
def Dev.showParked (s : Dev) (n : SliceId) : Dev :=
  ((s.setFlag (sB n) SLICE_FORCE_STATUS_PARKED true).setFlag (sB n) SLICE_FORCE_STATUS_PARK_BUSY false).modSl n (fun x => { x with phase := .parked })

theorem Dev.showParked_spec (s : Dev) (n : SliceId) : ((s.showParked n).sl n).phase = .parked ∧
    (s.showParked n).flag (sB n) SLICE_FORCE_STATUS_PARKED = true ∧ (s.showParked n).flag (sB n) SLICE_FORCE_STATUS_PARK_BUSY = false ∧
    (s.showParked n).now = s.now ∧ (s.showParked n).mem = s.mem := by
  unfold Dev.showParked
  refine ⟨by rw [Dev.sl_modSl_same], ?_, ?_, by simp, by simp⟩
  · rw [Dev.modSl_flag, Dev.flag_setFlag_bits _ _ _ SLICE_FORCE_STATUS_PARK_BUSY SLICE_FORCE_STATUS_PARKED _ rfl (by decide) (by decide),
      Dev.flag_setFlag_same _ _ _ _ (by decide) (by decide)]
  · rw [Dev.modSl_flag, Dev.flag_setFlag_same _ _ _ _ (by decide) (by decide)]

/-- What waits for a park to end: the power-fail sequence, and the commands. -/
def Dev.endParks (s : Dev) : Dev :=
  ({ s with boot := { s.boot with failRun := s.boot.failRun && s.anyParking } } : Dev).settle
    (fun x => isPark x.cmd && (s.members x.group).all (fun m => s.parked m)) (fun _ => (OK, s.time))

theorem Dev.parkDone_eq (s : Dev) (n : SliceId) : s.parkDone n = (s.showParked n).endParks := by
  unfold Dev.parkDone Dev.showParked Dev.endParks
  rfl

/-- Ends of waiting change neither slices nor registers outside HOST. -/
theorem Dev.endParks_same (s : Dev) (n : SliceId) : s.endParks.sl n = s.sl n ∧ s.endParks.now = s.now ∧ s.endParks.mem = s.mem ∧
    ∀ f, s.endParks.flag (sB n) f = s.flag (sB n) f := by
  have same := ({ s with boot := { s.boot with failRun := s.boot.failRun && s.anyParking } } : Dev).settle_same
    (fun x => isPark x.cmd && (s.members x.group).all (fun m => s.parked m)) (fun _ => (OK, s.time))
  exact ⟨same.sl n, same.now, same.mem, fun f => same.flag _ f (.inr (by simp only [sB, sliceBase]; omega))⟩

/-- The end of the table: the slice is parked and shows it, and what waited for it ends. -/
theorem Dev.parkDone_spec (s : Dev) (n : SliceId) : ((s.parkDone n).sl n).phase = .parked ∧
    (s.parkDone n).flag (sB n) SLICE_FORCE_STATUS_PARKED = true ∧ (s.parkDone n).flag (sB n) SLICE_FORCE_STATUS_PARK_BUSY = false ∧
    (s.parkDone n).now = s.now ∧ (s.parkDone n).mem = s.mem := by
  obtain ⟨sl, now, mem, flag⟩ := (s.showParked n).endParks_same n
  rw [Dev.parkDone_eq, sl, now, mem, flag, flag]
  exact s.showParked_spec n

/-! ### UNPARK_CLOSE -/

theorem Dev.setLoop_sameBut (s : Dev) (n : SliceId) (k : Nat) : s.SameBut parkRegs (s.setLoop n k) :=
  (SameBut.refl _ s).each _ _ (fun d m => ((SameBut.refl _ d).setFld _ (parkRegs_slice m _)).setFlag _ (parkRegs_slice m _))

theorem Dev.takeCode_sameBut (s : Dev) (r : GroupRec) (n : SliceId) (t : Nat) : s.SameBut parkRegs (s.takeCode r n t) :=
  .ite ((SameBut.refl _ s).modSl n _) (.ite (.refl _ s) ((SameBut.refl _ s).modSl n _))

theorem Dev.driveNow_sameBut (s : Dev) (n : SliceId) : s.SameBut parkRegs (s.driveNow n) := by
  have shown := (SameBut.refl parkRegs s).setFld (f := SLICE_RANGE_STATUS_STANDBY) (s.ipatNow n).2 (parkRegs_slice n _)
  unfold Dev.driveNow
  dsimp only
  split
  · exact shown
  · exact shown
  · exact shown.trans (Dev.driveRg_sameBut _ n _)

/-- Of a slice that closes the phase alone changes, beside registers of its gang. -/
theorem Dev.closeSlice_sameBut (s : Dev) (n : SliceId) :
    (s.modSl n (fun x => { x with phase := .running })).SameBut parkRegs (s.closeSlice n) :=
  .ite (.refl _ _) ((Dev.setLoop_sameBut _ n 1).modSl n _)

theorem Dev.closeSlice_phase (s : Dev) (n m : SliceId) :
    ((s.closeSlice n).sl m).phase = if n = m then .running else (s.sl m).phase := by
  rw [(s.closeSlice_sameBut n).phase]
  split
  next e => rw [← e, Dev.sl_modSl_same]
  next e => rw [Dev.sl_modSl_other _ _ _ _ e]

theorem Dev.closeSlice_mem (s : Dev) (n : SliceId) : (s.closeSlice n).mem = s.mem := (s.closeSlice_sameBut n).mem

/-- A slice that runs, or is among those that close, runs when all of them have closed. -/
theorem Dev.closeSlices_running {l : List SliceId} {m : SliceId} {s : Dev} (h : m ∈ l ∨ (s.sl m).phase = .running) :
    ((s.each l Dev.closeSlice).sl m).phase = .running := by
  unfold Dev.each
  induction l generalizing s with
  | nil => simpa using h
  | cons n l ih =>
    refine ih ?_
    rw [s.closeSlice_phase n m]
    rcases h with h | h
    · rcases List.mem_cons.mp h with rfl | h
      · exact .inr (if_pos rfl)
      · exact .inl h
    · exact .inr (by rw [h, ite_self])

/-- The slices `ns` close and take their codes at cycle `t`. -/
def Dev.closeAll (s : Dev) (r : GroupRec) (ns : List SliceId) (t : Nat) : Dev :=
  (s.each ns Dev.closeSlice).each ns (fun x n => if x.direct n then x.takeCode r n t else x)

/-- The UNPARK of group `g` no longer waits for the slices of `m`, that closed at TIME `t`. -/
def Dev.countClosed (s : Dev) (g : Nat) (m : Word) (t : Word64) : Dev :=
  { s with sched := s.sched.map (fun x => if isUnpark x.cmd && x.group == g then
      { x with mask := x.mask &&& ~~~m, vmask := x.vmask ||| m, time := t } else x) }

/-- The group is enabled where `b` says its UNPARK ends OK (R56). -/
def Dev.enableAll (s : Dev) (r : GroupRec) (b : Bool) : Dev :=
  if b then s.each r.slices (fun x n => if (x.sl n).enabled then x else (x.modSl n (fun y => { y with enabled := true })).driveNow n) else s

/-- The UNPARK of group `g` completes if it waits for no slice any more. -/
def Dev.settleUnpark (s : Dev) (g : Nat) : Dev :=
  s.settle (fun x => isUnpark x.cmd && x.group == g && x.mask == 0) (fun x => (x.status, x.time))

theorem exec_unparkClose_due {s : State} {g : GroupId} {r : GroupRec} {u : Sched} {ns : List SliceId} (hs : s.domains = true)
    (hg : s.group g.val = some r) (hu : s.unparkOf g.val = some u) (hns : r.slices.filter (fun n => s.closeDue n (s.eng g).tickAt) = ns)
    (some : ns ≠ []) :
    exec (.unparkClose g) s = .next (s.withDev ((((s.closeAll r ns (s.eng g).tickAt).countClosed g.val (maskOf ns) (s.eng g).tickTime).enableAll r
      (u.mask &&& ~~~maskOf ns == 0 && u.status == OK)).settleUnpark g.val)) := by
  rw [exec_unparkClose, execUnparkClose, State.onAwake_of_awake _ _ (Dev.awake_of_domains hs)]
  simp only [hg, hu, hns, hs]
  rw [if_neg (by simpa using some)]
  rfl

theorem Dev.closeAll_sameBut (s : Dev) (r : GroupRec) (ns : List SliceId) (t : Nat) :
    (s.each ns Dev.closeSlice).SameBut parkRegs (s.closeAll r ns t) :=
  (SameBut.refl _ _).each _ _ (fun d n => .ite (d.takeCode_sameBut r n t) (.refl _ d))

theorem Dev.enableAll_sameBut (s : Dev) (r : GroupRec) (b : Bool) : s.SameBut parkRegs (s.enableAll r b) :=
  .ite ((SameBut.refl _ s).each _ _ (fun d n => .ite (.refl _ d) (((SameBut.refl _ d).modSl n _).trans (Dev.driveNow_sameBut _ n)))) (.refl _ s)

/-- After the slices have closed no phase changes any more, and the stores are kept. -/
theorem Dev.unparkClose_sameBut (s : Dev) (r : GroupRec) (ns : List SliceId) (t g : Nat) (m : Word) (x : Word64) (b : Bool) :
    (s.each ns Dev.closeSlice).SameBut parkRegs ((((s.closeAll r ns t).countClosed g m x).enableAll r b).settleUnpark g) :=
  (((s.closeAll_sameBut r ns t).sched _).trans (Dev.enableAll_sameBut _ r b)).settle _ _

/-! ### A group of one slice -/

theorem GroupRec.slices_of_one {r : GroupRec} {g : SliceId} (first : r.first = g.val) (size : r.size = 1) : r.slices = [g] := by
  simp [GroupRec.slices, first, size, Dev.sid_val]

theorem Dev.members_of_one {s : Dev} {r : GroupRec} {g : SliceId} (hg : s.group g.val = some r) (first : r.first = g.val) (size : r.size = 1) :
    s.members g.val = [g] := by
  simp [Dev.members, hg, GroupRec.slices_of_one first size]

theorem Dev.each_one {α : Type} (s : Dev) (x : α) (f : Dev → α → Dev) : s.each [x] f = f s x := rfl

/-- A code on its way changes neither registers nor commands, and enables no slice. -/
theorem Dev.takeCode_keeps (s : Dev) (r : GroupRec) (n : SliceId) (t : Nat) : (s.takeCode r n t).sched = s.sched ∧
    ((s.takeCode r n t).sl n).enabled = (s.sl n).enabled ∧ ∀ b f, (s.takeCode r n t).fld b f = s.fld b f := by
  unfold Dev.takeCode Dev.fly
  split
  · simp
  · split <;> simp

/-- A slice that acts alone, in loop mode, closes its own loop. -/
def Dev.closeLoop (s : Dev) (n : SliceId) : Dev :=
  if s.direct n || s.owner n != n then s else (s.setLoop n 1).modSl n (fun x => { x with closing := true })

theorem Dev.closeSlice_eq (s : Dev) (n : SliceId) : s.closeSlice n = (s.modSl n (fun x => { x with phase := .running })).closeLoop n := rfl

theorem Dev.closeLoop_alone {s : Dev} {n : SliceId} {r : GroupRec} (hr : s.groupOf n.val = some r) (gang : r.gang = 0) (loop : s.direct n = false) :
    (s.closeLoop n).sched = s.sched ∧ ((s.closeLoop n).sl n).enabled = (s.sl n).enabled ∧ (s.closeLoop n).fld (sB n) SLICE_LOOP_STATUS_STATE = 1 := by
  have alone : s.owner n = n := by simp [Dev.owner, Dev.ganged, hr, gang]
  have gangOne : s.gang n = [n] := by simp [Dev.gang, hr, gang]
  rw [Dev.closeLoop, loop, alone, if_neg (by simp), Dev.setLoop, gangOne, Dev.each_one]
  refine ⟨by simp, by simp, ?_⟩
  rw [Dev.modSl_fld, Dev.fld_setFlag_word _ _ _ SLICE_FORCE_STATUS_HOLD SLICE_LOOP_STATUS_STATE _ (by simp), Dev.fld_setFld_same _ _ _ _ (by decide)]
  rfl

theorem Dev.closeSlice_alone {s : Dev} {n : SliceId} {r : GroupRec} (hr : s.groupOf n.val = some r) (gang : r.gang = 0) (loop : s.direct n = false) :
    (s.closeSlice n).sched = s.sched ∧ ((s.closeSlice n).sl n).enabled = (s.sl n).enabled ∧ (s.closeSlice n).fld (sB n) SLICE_LOOP_STATUS_STATE = 1 := by
  obtain ⟨sched, enabled, state⟩ := Dev.closeLoop_alone (s := s.modSl n (fun x => { x with phase := .running })) hr gang loop
  rw [Dev.closeSlice_eq]
  exact ⟨sched, by rw [enabled, Dev.sl_modSl_same], state⟩

/-- With the slice enabled already there is nothing to drive. -/
theorem Dev.enableAll_of_enabled {s : Dev} {r : GroupRec} {g : SliceId} (one : r.slices = [g]) (on : (s.sl g).enabled = true) (b : Bool) :
    s.enableAll r b = s := by
  unfold Dev.enableAll
  rw [one, Dev.each_one, on]
  simp

theorem Dev.unparkOf_some {s : Dev} {g : Nat} {u : Sched} (h : s.unparkOf g = some u) : (isUnpark u.cmd && u.group == g) = true :=
  List.find?_some (p := fun x : Sched => isUnpark x.cmd && x.group == g) h

/-- The UNPARK of a group is over when the last slices it waits for have closed. -/
theorem Dev.settleUnpark_last {s : Dev} {g : Nat} {u : Sched} (mine : (isUnpark u.cmd && u.group == g) = true) (only : s.sched = [u]) {m : Word}
    (last : u.mask = m) (t : Word64) : ((s.countClosed g m t).settleUnpark g).sched = [] := by
  rw [Dev.settleUnpark, (Dev.settle_same _ _ _).sched]
  simp only [Bool.and_eq_true, beq_iff_eq] at mine
  simp [Dev.countClosed, only, mine, last]

/-- One slice that closes alone, its group enabled: its loop shows closed, and the UNPARK that waited for it alone is over. -/
theorem Dev.unparkClose_alone {s : Dev} {n : SliceId} {r : GroupRec} {u : Sched} (one : r.slices = [n]) (hr : s.groupOf n.val = some r)
    (gang : r.gang = 0) (loop : s.direct n = false) (on : (s.sl n).enabled = true) (hu : s.unparkOf n.val = some u) (only : s.sched = [u])
    (mask : u.mask = bit32 n.val) (t : Nat) (x : Word64) (b : Bool) :
    ((((s.closeAll r [n] t).countClosed n.val (maskOf [n]) x).enableAll r b).settleUnpark n.val).fld (sB n) SLICE_LOOP_STATUS_STATE = 1 ∧
    ((((s.closeAll r [n] t).countClosed n.val (maskOf [n]) x).enableAll r b).settleUnpark n.val).sched = [] := by
  obtain ⟨sched, enabled, state⟩ := Dev.closeSlice_alone hr gang loop
  have taken : (s.closeAll r [n] t).sched = s.sched ∧ ((s.closeAll r [n] t).sl n).enabled = (s.sl n).enabled ∧
      (s.closeAll r [n] t).fld (sB n) SLICE_LOOP_STATUS_STATE = 1 := by
    rw [Dev.closeAll, Dev.each_one, Dev.each_one]
    split
    · obtain ⟨sched', enabled', fld'⟩ := (s.closeSlice n).takeCode_keeps r n t
      exact ⟨sched'.trans sched, enabled'.trans enabled, (fld' _ _).trans state⟩
    · exact ⟨sched, enabled, state⟩
  obtain ⟨sched, enabled, state⟩ := taken
  generalize s.closeAll r [n] t = d at *
  rw [Dev.enableAll_of_enabled (s := d.countClosed n.val (maskOf [n]) x) one (enabled.trans on)]
  refine ⟨((Dev.settle_same _ _ _).fld _ _ (.inr (by simp only [sB, sliceBase]; omega))).trans state, ?_⟩
  exact Dev.settleUnpark_last (Dev.unparkOf_some hu) (sched.trans only) (by simp [mask, maskOf]) x

/-- Settles O15: the park table's cycles are `Dev.rgSafe_rg` and `Dev.parkDone_spec`; the slices that close are those of `Dev.closeSlices_running`,
and one alone is `Dev.unparkClose_alone`. -/
theorem parkAndUnparkTables : Obligations.ParkAndUnparkTables := by
  unfold Obligations.ParkAndUnparkTables
  refine ⟨⟨?rgSafe, ?parked, ?rampEnd⟩, ?outen, ?close, ?outenOne, ?closeOne⟩
  case rgSafe =>
    intro s n st hs phase
    refine ⟨_, (exec_parkRgSafe n s).trans (State.onAwake_of_awake _ _ hs), ?_⟩
    simp only [State.withDev_toDev, phase]
    refine ⟨trivial, fun mis => ?_⟩
    have same := Dev.rgSafe_sameBut (s.upTo (st + 2000)) n
    have still : (((s.upTo (st + 2000)).rgSafe n).modSl n (fun x => { x with phase := .parking st true })).parkMismatch n = _ :=
      Dev.parkMismatch_of_none (by rw [Dev.sl_modSl_same, Dev.rgSafe_parkMis, Dev.upTo_sl, mis])
    rw [still, Dev.sl_modSl_same, Dev.modSl_now, Dev.modSl_mem, same.now, same.mem, Dev.upTo_now _ _ hs, Dev.upTo_mem]
    refine ⟨rfl, rfl, rfl, fun drop => ?_⟩
    rw [Dev.rgSafe_rg _ _ (by rw [Dev.upTo_sl, drop]), Dev.upTo_sl, Dev.upTo_plates]
  case parked =>
    intro s n st hs phase
    refine ⟨_, (exec_parkComplete n s).trans (State.onAwake_of_awake _ _ hs), ?_⟩
    simp only [State.withDev_toDev, phase]
    obtain ⟨parked, shown, busy, now, mem⟩ := (s.upTo (st + 9995)).parkDone_spec n
    exact ⟨parked, shown, busy, now.trans (Dev.upTo_now _ _ hs), mem.trans (Dev.upTo_mem _ _)⟩
  case rampEnd =>
    intro s n hs ended
    have rampOver : s.toDev.rampOver n = true := ended
    rw [exec_inductiveRampEnd, execInductiveRampEnd, State.onAwake_of_awake _ _ hs, rampOver, Dev.endRamp]
    rfl
  case outen => exact fun s g hs => (exec_unparkOutenLow g s).trans (State.onAwake_of_awake _ _ hs)
  case close =>
    intro s g r u hs hg hu due
    have some : r.slices.filter (fun n => s.closeDue n (s.eng g).tickAt) ≠ [] := by
      obtain ⟨n, mem, due⟩ := List.any_eq_true.mp due
      exact List.ne_nil_of_mem (List.mem_filter.mpr ⟨mem, due⟩)
    refine ⟨_, exec_unparkClose_due hs hg hu rfl some, ?_⟩
    have same := Dev.unparkClose_sameBut s.toDev r (r.slices.filter (fun n => s.closeDue n (s.eng g).tickAt)) (s.eng g).tickAt g.val
      (maskOf (r.slices.filter (fun n => s.closeDue n (s.eng g).tickAt))) (s.eng g).tickTime
      (u.mask &&& ~~~maskOf (r.slices.filter (fun n => s.closeDue n (s.eng g).tickAt)) == 0 && u.status == OK)
    refine ⟨same.mem.trans (Dev.each_keeps (·.mem) Dev.closeSlice_mem _ _), fun n mem due => (same.phase n).trans ?_⟩
    exact Dev.closeSlices_running (.inl (List.mem_filter.mpr ⟨mem, due⟩))
  case outenOne =>
    intro s g r st hs hg first size phase
    refine ⟨_, (exec_unparkOutenLow g s).trans (State.onAwake_of_awake _ _ hs), ?_⟩
    simp only [State.withDev_toDev, Dev.members_of_one hg first size, Dev.each_one, phase]
    refine ⟨?_, by rw [Dev.sl_modSl_same], by simp [Dev.upTo_now _ _ hs], by simp⟩
    rw [Dev.modSl_flag, Dev.flag_setFlag_same _ _ _ _ (by decide) (by decide)]
  case closeOne =>
    intro s g r u hs hg first size hr gang hu status mask due loop on only
    have one := GroupRec.slices_of_one first size
    have close : r.slices.filter (fun n => s.closeDue n (s.eng g).tickAt) = [g] := by simp [one, due]
    refine ⟨_, exec_unparkClose_due hs hg hu close (List.cons_ne_nil _ _), ?_⟩
    have same := Dev.unparkClose_sameBut s.toDev r [g] (s.eng g).tickAt g.val (maskOf [g]) (s.eng g).tickTime
      (u.mask &&& ~~~maskOf [g] == 0 && u.status == OK)
    obtain ⟨state, sched⟩ := Dev.unparkClose_alone one hr gang loop on hu only mask (s.eng g).tickAt (s.eng g).tickTime
      (u.mask &&& ~~~maskOf [g] == 0 && u.status == OK)
    exact ⟨(same.phase g).trans (Dev.closeSlices_running (.inl List.mem_cons_self)), state, sched, same.mem.trans (Dev.closeSlice_mem _ g)⟩

end Sys2Proof.Machine

namespace Sys2Proof.Machine
open Sys2Proof

/-! ## The commands of the collector (R342 to R356) -/

/-! ### Bits of the banks -/

/-- A bit of a word is the flag it spells. -/
theorem Dev.getLsbD_rd (s : Dev) (a i : Nat) : (s.rd a).getLsbD i = s.flag 0 ⟨a, i, 1⟩ := by
  unfold Dev.flag Dev.fld getBits BitVec.getLsbD
  rw [Nat.testBit_eq_decide_div_mod_eq, Nat.zero_add]
  rfl

theorem Dev.sticky_eq_flag (s : Dev) (inj : Bool) (x : Nat) : s.sticky inj x = s.flag 0 ⟨bankWord inj x, x % 32, 1⟩ := s.getLsbD_rd _ _

theorem Dev.keeps.setBit {s t : Dev} {l : List Nat} (h : s.keeps t l) {a : Nat} (i : Nat) (b : Bool) (ha : a ∈ l) : s.keeps (t.setBit a i b) l :=
  h.setFld 0 ⟨a, i, 1⟩ _ (by simpa using ha)

/-- A bank's word is no register of the collector's status and no source's word. -/
theorem bankWord_range {x : Nat} (inj : Bool) (hx : x < 1024) : FAULT_REAL ≤ bankWord inj x ∧ bankWord inj x < FAULT_CAUSE := by
  unfold bankWord
  split <;> simp only [FAULT_REAL, FAULT_INJ, FAULT_CAUSE] <;> omega

theorem Dev.sticky_setFld_other {s : Dev} {b : Nat} {f : Fld} {v x : Nat} {inj : Bool} (h : b + f.off ≠ bankWord inj x) :
    (s.setFld b f v).sticky inj x = s.sticky inj x := by
  unfold Dev.sticky
  rw [Dev.rd_setFld_other _ _ _ _ _ h]

@[simp] theorem Dev.modCol_sticky (s : Dev) (f : Collector → Collector) (inj : Bool) (x : Nat) : (s.modCol f).sticky inj x = s.sticky inj x :=
  (rfl)

theorem mem_addNat (x : Nat) (l : List Nat) : x ∈ addNat x l := by
  unfold addNat
  split
  next h => exact List.contains_iff_mem.mp h
  next => simp

theorem maskList_twoPow (i : Fin 32) : maskList (BitVec.twoPow 32 i.val) = [i.val] := by
  revert i
  decide

/-! ### Grave wires and block resets -/

/-- A wire that has acted holds ERR_N low. -/
theorem Dev.errLow_of_wired {s : Dev} {x : Nat} (hx : x < 1024) (h : x ∈ s.col.wired) : s.errLow = true := by
  have source : x ∈ s.errSources := List.mem_filter.mpr ⟨List.mem_range.mpr hx, by simp [h]⟩
  have some : s.errSources.isEmpty = false := by
    rw [List.isEmpty_eq_false_iff]
    exact List.ne_nil_of_mem source
  simp [Dev.errLow, some]

theorem Dev.graveErr_spec {s : Dev} (hs : s.awake = true) (x : Nat) : (s.graveErr x).now = s.now + 3 ∧ x ∈ (s.graveErr x).col.wired ∧
    (x < 1024 → (s.graveErr x).errLow = true) ∧ s.keeps (s.graveErr x) [] := by
  have wired : x ∈ (s.graveErr x).col.wired := mem_addNat x _
  refine ⟨?_, wired, fun hx => Dev.errLow_of_wired hx wired, ((Dev.keeps_refl s []).upTo _).modCol _⟩
  rw [Dev.graveErr, Dev.modCol_now, Dev.upTo_now _ _ hs]
  omega

/-- A reset that ends is in progress no longer. -/
theorem Dev.resetting_endReset (s : Dev) (t : Nat) : (s.endReset t).resetting t = false := by
  simp only [Dev.resetting, Dev.endReset, Dev.modCol_col, List.any_map, List.any_eq_false]
  intro r _
  dsimp only [Function.comp]
  split
  next => simp
  next h => exact h

/-! ### Clearing -/

/-- What a write of one bit does to source `x` (R349). -/
def Dev.clearOne (s : Dev) (inj : Bool) (x : Nat) : Dev :=
  if !s.sticky inj x then s
  else if s.clearRefused inj x then s.setFlag 0 FAULT_STATUS_CLEAR_REFUSED true
  else s.clearSticky inj x

/-- Beside it only the time to which ERR_N stays low may change. -/
theorem Dev.faultClear_one {s : Dev} (lock : s.refreshLock = s) (inj : Bool) (w : Nat) (i : Fin 32) :
    ∃ f, s.faultClear inj w (BitVec.twoPow 32 i.val) = (s.clearOne inj (32 * w + i.val)).modCol f := by
  have one : s.refreshLock.each (maskList (BitVec.twoPow 32 i.val)) (fun d j => d.clearOne inj (32 * w + j)) = s.clearOne inj (32 * w + i.val) := by
    rw [lock, maskList_twoPow, Dev.each_one]
  unfold Dev.clearOne at one
  rw [Dev.faultClear, one, ← Dev.clearOne]
  generalize s.clearOne inj (32 * w + i.val) = t
  split
  · exact ⟨fun c => { c with errUntil := max c.errUntil (t.now + 2) }, rfl⟩
  · exact ⟨id, rfl⟩

/-- The word of source `x` is no word of a bank. -/
theorem srcWord_ne_bankWord {x : Nat} (inj : Bool) (hx : x < 1024) : FAULT_SRC + 4 * x ≠ bankWord inj x := by
  have := (bankWord_range inj hx).2
  simp only [FAULT_CAUSE, FAULT_SRC] at *
  omega

theorem srcBase_word (x : Nat) : srcBase x + FAULT_SRC_SEEN.off = FAULT_SRC + 4 * x := Nat.add_comm _ _

theorem Dev.sticky_setBit_same (s : Dev) (inj : Bool) (x : Nat) (b : Bool) : (s.setBit (bankWord inj x) (x % 32) b).sticky inj x = b := by
  rw [Dev.sticky_eq_flag]
  exact Dev.flag_setFlag_same s 0 ⟨_, _, 1⟩ b (Nat.mod_lt x (by decide)) rfl

theorem exec_faultClear_one {s : State} (hs : s.awake = true) (lock : s.refreshLock = s.toDev) (inj : Bool) (w i : Fin 32) :
    ∃ f, exec (.faultClear inj w (BitVec.twoPow 32 i.val)) s = .next (s.withDev ((s.clearOne inj (32 * w.val + i.val)).modCol f)) := by
  obtain ⟨f, all⟩ := Dev.faultClear_one lock inj w.val i
  exact ⟨f, by rw [exec_faultClear, execFaultClear, State.onAwake_of_awake _ _ hs, all]⟩

theorem Dev.clearOne_free {s : Dev} {inj : Bool} {x : Nat} (set : s.sticky inj x = true) (free : s.clearRefused inj x = false) :
    s.clearOne inj x = s.clearSticky inj x := by
  simp [Dev.clearOne, set, free]

theorem Dev.clearOne_held {s : Dev} {inj : Bool} {x : Nat} (set : s.sticky inj x = true) (held : s.clearRefused inj x = true) :
    s.clearOne inj x = s.setFlag 0 FAULT_STATUS_CLEAR_REFUSED true := by
  simp [Dev.clearOne, set, held]

/-- A REAL bit that clears takes its source's SEEN with it, and touches nothing else. -/
theorem Dev.clearSticky_real (s : Dev) {x : Nat} (hx : x < 1024) : (s.clearSticky false x).sticky false x = false ∧
    (s.clearSticky false x).fld (srcBase x) FAULT_SRC_SEEN = 0 ∧ s.keeps (s.clearSticky false x) [bankWord false x, FAULT_SRC + 4 * x] := by
  have cleared : ((s.setBit (bankWord false x) (x % 32) false).setFld (srcBase x) FAULT_SRC_SEEN 0).sticky false x = false := by
    rw [Dev.sticky_setFld_other (by rw [srcBase_word]; exact srcWord_ne_bankWord false hx), Dev.sticky_setBit_same]
  obtain ⟨f, all⟩ : ∃ f, s.clearSticky false x = ((s.setBit (bankWord false x) (x % 32) false).setFld (srcBase x) FAULT_SRC_SEEN 0).modCol f :=
    ⟨fun c => { c with errReal := c.errReal.filter (fun y => y != x), grave := c.grave.filter (fun y => y != x) }, rfl⟩
  rw [all, Dev.modCol_sticky, Dev.modCol_fld]
  refine ⟨cleared, Dev.fld_setFld_same _ _ _ _ (by decide), ?_⟩
  exact (((Dev.keeps_refl s _).setBit _ _ (by simp)).setFld _ _ _ (by rw [srcBase_word]; simp)).modCol _

/-- An INJECTED bit that clears touches nothing else. -/
theorem Dev.clearSticky_inj (s : Dev) (x : Nat) : (s.clearSticky true x).sticky true x = false ∧ s.keeps (s.clearSticky true x) [bankWord true x] :=
  ⟨s.sticky_setBit_same true x false, ((Dev.keeps_refl s _).setBit _ _ (by simp)).modCol _⟩

/-! ### Rearm -/

/-- FAULT_STATUS has no part in what carries IRQ. -/
theorem Dev.irqSource_armed (s : Dev) (b : Bool) {x : Nat} (hx : x < 1024) : (s.setFlag 0 FAULT_STATUS_IRQ_ARMED b).irqSource x = s.irqSource x := by
  have bank : 0 + FAULT_STATUS_IRQ_ARMED.off ≠ bankWord false x := by
    have := (bankWord_range false hx).1
    simp only [FAULT_REAL] at *
    omega
  have word (f : Fld) (h : f.off = FAULT_SRC) : 0 + FAULT_STATUS_IRQ_ARMED.off ≠ srcBase x + f.off := by rw [h]; simp only [FAULT_SRC, srcBase]; omega
  unfold Dev.irqSource Dev.srcClass Dev.setFlag
  rw [Dev.sticky_setFld_other bank, Dev.flag_setFld_word _ _ _ _ _ _ (word _ rfl), Dev.fld_setFld_word _ _ _ _ _ _ (word _ rfl),
    Dev.fld_setFld_word _ _ _ _ _ _ (word _ rfl)]

theorem Dev.rearm_of_none {s : Dev} (h : ∀ x, x < 1024 → s.irqSource x = false) : s.rearm = s.setFlag 0 FAULT_STATUS_IRQ_ARMED true := by
  have none : (List.range 1024).any (s.setFlag 0 FAULT_STATUS_IRQ_ARMED true).irqSource = false := List.any_eq_false.mpr (fun x hx => by
    have hx := List.mem_range.mp hx
    simp [s.irqSource_armed true hx, h x hx])
  rw [Dev.rearm, if_neg (by simp [none])]

/-- Vector 0 is sent, and armed no longer. -/
theorem Dev.rearm_of_source {s : Dev} {x : Nat} (hx : x < 1024) (h : s.irqSource x = true) :
    s.rearm = ((s.setFlag 0 FAULT_STATUS_IRQ_ARMED true).setFlag 0 FAULT_STATUS_IRQ_ARMED false).vector 0 := by
  have carried : (List.range 1024).any (s.setFlag 0 FAULT_STATUS_IRQ_ARMED true).irqSource = true :=
    List.any_eq_true.mpr ⟨x, List.mem_range.mpr hx, (s.irqSource_armed true hx).trans h⟩
  rw [Dev.rearm, if_pos carried, Dev.irq, if_pos (Dev.flag_setFlag_same _ _ _ _ (by decide) (by decide))]

/-! ### The latch of R59 -/

/-- In RECOVERY, with no cause of a Grave source that persists, the latch clears with its cause. -/
theorem Dev.clearGraveLatch_of_recovery {s : Dev} (state : s.fld 0 GLOBAL_STATUS_STATE = 3) (none : s.refreshLock.graveCause = false) :
    s.clearGraveLatch = (s.setFlag 0 GLOBAL_STATUS_GRAVE_LATCH false).cause 0x3EC false := by
  simp [Dev.clearGraveLatch, Dev.lifeState, state, none]

theorem Dev.clearGraveLatch_of_other {s : Dev} (state : s.fld 0 GLOBAL_STATUS_STATE ≠ 3) : s.clearGraveLatch = s := by
  simp [Dev.clearGraveLatch, Dev.lifeState, state]

/-- A command that leaves the device as it is leaves the state, awake or not. -/
theorem State.onAwake_of_id {s : State} {f : Dev → Dev} (h : f s.toDev = s.toDev) : s.onAwake f = .next s := by
  by_cases hs : s.awake = true
  · rw [State.onAwake_of_awake _ _ hs, h, State.withDev_self]
  · exact State.onAwake_of_not_awake _ _ (by simpa using hs)

/-- With RESET_N high a Grave wire is loaded. -/
theorem exec_graveWire_of_resetN {s : State} (x : BitVec 10) (h : s.pins.resetN = true) :
    exec (.graveWire x) s = .next (s.withDev (s.wire x.toNat)) := by
  rw [exec_graveWire, execGraveWire, State.on_eq, if_pos h]

theorem Dev.resetN_of_awake {s : Dev} (h : s.awake = true) : s.pins.resetN = true := by
  simp only [Dev.awake, Bool.and_eq_true] at h
  exact h.1

/-- Settles O50: each command is its effect with the premises put in; a cleared bit is `Dev.clearSticky_real` and `Dev.clearSticky_inj`, a rearm
`Dev.rearm_of_none` and `Dev.rearm_of_source`. -/
theorem collectorCommands : Obligations.CollectorCommands := by
  unfold Obligations.CollectorCommands
  refine ⟨?message, ?wired, ?grave, ?wire, ?slot, ?reset, ?clear, ?inject, ?rearm, ?surveyor, ?latch, ?latchOther⟩
  case message =>
    intro s m hs h
    rw [exec_faultMessage, execFaultMessage, State.onAwake_of_awake _ _ hs, if_neg (by simpa using h)]
  case wired =>
    intro s m hs h
    rw [exec_faultMessage, execFaultMessage, State.onAwake_of_awake _ _ hs, if_pos h]
  case grave => exact fun d x hs => ⟨rfl, d.graveErr_spec hs x⟩
  case wire =>
    intro s x hr
    rw [exec_graveWire_of_resetN x hr]
    refine ⟨fun cls awake => ?_, fun cls frozen => ⟨_, rfl, ?_⟩, fun cls => ?_⟩
    · simp [Dev.wire, cls, awake]
    · have loaded : s.wire x.toNat = s.modFrz (fun z => { z with wires := addNat x.toNat z.wires }) := by simp [Dev.wire, cls, frozen, Dev.modFrz]
      rw [State.withDev_toDev, loaded]
      exact ⟨mem_addNat _ _, (Dev.keeps_refl s.toDev []).modFrz _⟩
    · simp [Dev.wire, cls]
  case slot =>
    intro s m hs low room
    rw [exec_overflowSlotTake, execOverflowSlotTake, State.onAwake_of_awake _ _ hs, Dev.takeSlot, low]
    dsimp only
    rw [if_pos room]
  case reset =>
    intro s x hs busy cls
    refine ⟨s.withDev (s.endReset x.toNat), ?_, s.resetting_endReset _, (Dev.keeps_refl s.toDev []).modCol _⟩
    rw [exec_blockResetEnd, execBlockResetEnd, State.onAwake_of_awake _ _ hs]
    simp [busy, cls]
  case clear =>
    intro s i w hs lock
    have number : 32 * w.val + i.val < 1024 := by omega
    have place : (32 * w.val + i.val) / 32 = w.val := by omega
    refine ⟨fun set free => ?_, fun set held => ?_, fun set => ?_⟩
    · obtain ⟨f, done⟩ := exec_faultClear_one hs lock false w i
      obtain ⟨clear, seen, keeps⟩ := s.clearSticky_real number
      rw [Dev.clearOne_free set free] at done
      refine ⟨_, done, (Dev.modCol_sticky _ f _ _).trans clear, (Dev.modCol_fld _ f _ _).trans seen, Dev.keeps.modCol ?_ f⟩
      rwa [bankWord, place] at keeps
    · obtain ⟨f, done⟩ := exec_faultClear_one hs lock false w i
      rw [Dev.clearOne_held set held] at done
      have bank := (bankWord_range false number).1
      refine ⟨_, done, (Dev.modCol_sticky _ f _ _).trans ?_, (Dev.modCol_flag _ f _ _).trans ?_, Dev.keeps.modCol ?_ f⟩
      · exact (Dev.sticky_setFld_other (Nat.ne_of_lt (Nat.lt_of_lt_of_le (by decide) bank))).trans set
      · exact Dev.flag_setFlag_same _ _ _ _ (by decide) (by decide)
      · exact (Dev.keeps_refl s.toDev _).setFlag _ _ _ (by simp)
    · obtain ⟨f, done⟩ := exec_faultClear_one hs lock true w i
      obtain ⟨clear, keeps⟩ := s.clearSticky_inj (32 * w.val + i.val)
      rw [Dev.clearOne_free set (by simp [Dev.clearRefused])] at done
      refine ⟨_, done, (Dev.modCol_sticky _ f _ _).trans clear, Dev.keeps.modCol ?_ f⟩
      rwa [bankWord, place] at keeps
  case inject =>
    intro s v hs small
    have taken : exec (.faultInject v) s = .next (s.withDev (s.faultInject v)) :=
      (exec_faultInject v s).trans (State.onAwake_of_awake _ _ hs)
    refine ⟨fun empty => ?_, fun q l queue other => ?_⟩
    · rw [taken, Dev.faultInject, if_neg (by omega)]
      simp [empty]
    · rw [taken, Dev.faultInject, if_neg (by omega)]
      simp [queue, other]
  case rearm =>
    intro s hs
    have done : exec .irqRearm s = .next (s.withDev s.rearm) := (exec_irqRearm s).trans (State.onAwake_of_awake _ _ hs)
    refine ⟨fun none => ⟨_, done, ?_⟩, fun ⟨x, hx, carries⟩ => ⟨_, done, ?_⟩⟩
    · rw [State.withDev_toDev, Dev.rearm_of_none none]
      exact ⟨Dev.flag_setFlag_same _ _ _ _ (by decide) (by decide), (Dev.keeps_refl s.toDev _).setFlag _ _ _ (by simp)⟩
    · rw [State.withDev_toDev, Dev.rearm_of_source hx carries]
      refine ⟨?_, Dev.vector_sent _ _, (((Dev.keeps_refl s.toDev _).setFlag _ _ _ (by simp)).setFlag _ _ _ (by simp)).vector _⟩
      exact (Dev.vector_flag _ _ _ _).trans (Dev.flag_setFlag_same _ _ _ _ (by decide) (by decide))
  case surveyor =>
    intro s hs
    refine ⟨⟨_, (exec_watchdogKick s).trans (State.onAwake_of_awake _ _ hs), rfl, (Dev.keeps_refl s.toDev []).modCol _⟩, fun period on => ?_,
      fun period => ?_, fun on => ?_, (exec_tempHigh s).trans (State.onAwake_of_awake _ _ hs), ?_⟩
    · rw [exec_surveyorWatchdog, execSurveyorWatchdog, State.onAwake_of_awake _ _ hs]
      simp [period, on]
    · exact (exec_surveyorWatchdog s).trans (State.onAwake_of_id (by simp [period]))
    · rw [exec_surveyorException, execSurveyorException, State.onAwake_of_awake _ _ hs, if_pos on]
    · rw [exec_tempCritical, execTempCritical, State.on_eq]
      simp [Dev.resetN_of_awake hs, Dev.frozen_of_awake _ hs]
  case latch =>
    intro s hs state none
    refine ⟨_, (exec_graveLatchClear s).trans (State.onAwake_of_awake _ _ hs), ?_⟩
    rw [State.withDev_toDev, Dev.clearGraveLatch_of_recovery state none]
    refine ⟨?_, Dev.cause_flag _ _ rfl rfl, ((Dev.keeps_refl s.toDev _).setFlag _ _ _ (by simp)).cause _ _ (by simp)⟩
    rw [Dev.cause_flag_word _ _ (by decide), Dev.flag_setFlag_same _ _ _ _ (by decide) (by decide)]
  case latchOther => exact fun s state => State.onAwake_of_id (Dev.clearGraveLatch_of_other state)

end Sys2Proof.Machine

namespace Sys2Proof.Machine
open Sys2Proof

/-! ## Writes of the force path: FORCE_CFG and the complement pairs (R77, R97, R314) -/

@[simp] theorem Dev.store_mem (s : Dev) (a : Nat) (v : Word) : (s.store a v).mem = s.mem := by unfold Dev.store; split <;> rfl
@[simp] theorem Dev.store_slices (s : Dev) (a : Nat) (v : Word) : (s.store a v).slices = s.slices := by unfold Dev.store; split <;> rfl

/-- While the slice is parked, or where DIRECT stays, a write of FORCE_CFG applies its fields. -/
theorem Dev.forceCfgWrite_applies {s : Dev} {n : SliceId} {v : Word} (h : s.parked n = true ∨ v.getLsbD 0 = s.direct n) :
    s.forceCfgWrite n v = s.store (sB n + SLICE_FORCE_CFG) v := by
  rw [Dev.forceCfgWrite, if_neg]
  rcases h with h | h
  · simp [h]
  · rw [h]; simp

theorem Dev.forceCfgWrite_discarded {s : Dev} {n : SliceId} {v : Word} (hp : s.parked n = false) (hd : v.getLsbD 0 ≠ s.direct n) :
    s.forceCfgWrite n v = s.note n := by
  rw [Dev.forceCfgWrite, if_pos]
  simpa [hp] using hd

theorem pairAt_slice (n : SliceId) {o : Nat} (h : o ∈ pairOffsets) : pairAt (sB n + o) = some (n, o) := by
  have lt : o < 0x10000 := (by decide : ∀ o ∈ pairOffsets, o < 0x10000) o h
  have off : (sB n + o) % 0x10000 = o := by simp only [sB, sliceBase]; omega
  have unit : (sB n + o - 0x100000) / 0x10000 = n.val := by simp only [sB, sliceBase]; omega
  have range : 0x100000 ≤ sB n + o ∧ sB n + o < 0x300000 := by simp only [sB, sliceBase]; omega
  have slice : sid n.val = n := Fin.ofNat_val_eq_self n
  simp [pairAt, off, unit, range, slice, h]

/-- After release, with no partial reload under way, no write of a host that reaches the device is barred (R41, R52). -/
theorem Dev.reloadBars_of_released {s : Dev} (hd3 : s.cfg.d3 = false) (hk : s.isRemote = false) (hr : s.released = true)
    (hb : s.flag 0 ATLAS_STATUS_PARTIAL_BUSY = false) (rq : Requester) (a : Nat) : s.reloadBars rq a = false := by
  have reach : s.hostReach0 a = true := by simp [Dev.hostReach0, hd3, hk, hr]
  have idle (k : Nat) : s.reloading k = false := by simp [Dev.reloading, hb]
  unfold Dev.reloadBars
  dsimp only
  rw [reach]
  split <;> simp [idle]

@[simp] theorem Dev.unstage_rd (s : Dev) (rq : Requester) (a x : Nat) : (s.unstage rq a).rd x = s.rd x := rfl
@[simp] theorem Dev.unstage_now (s : Dev) (rq : Requester) (a : Nat) : (s.unstage rq a).now = s.now := rfl
@[simp] theorem Dev.unstage_mem (s : Dev) (rq : Requester) (a : Nat) : (s.unstage rq a).mem = s.mem := rfl
@[simp] theorem Dev.unstage_awake (s : Dev) (rq : Requester) (a : Nat) : (s.unstage rq a).awake = s.awake := rfl

theorem Dev.stagedAt_unstage (s : Dev) (rq : Requester) (a : Nat) : (s.unstage rq a).stagedAt rq a = none := by
  have none : (s.unstage rq a).staged.find? (fun x => decide (x.1 = rq) && x.2.1 == a) = none :=
    List.find?_eq_none.mpr (fun x hx => by simpa [imp_iff_not_or] using (List.mem_filter.mp hx).2)
  rw [Dev.stagedAt, none, Option.map_none]

/-- The value latched for `rq` at `a` is `v`, beside what was staged elsewhere. -/
def Dev.stage (s : Dev) (rq : Requester) (a : Nat) (v : Word) : Dev :=
  { s.unstage rq a with staged := (rq, a, v) :: (s.unstage rq a).staged }

theorem Dev.stagedAt_stage (s : Dev) (rq : Requester) (a : Nat) (v : Word) : (s.stage rq a v).stagedAt rq a = some v := by
  simp [Dev.stagedAt, Dev.stage]

theorem Dev.stageWrite_full {s : Dev} {rq : Requester} {a : Nat} {p : SliceId × Nat} (ha : pairAt a = some p)
    (free : s.reloadBars rq a = false) (v : Word) : s.stageWrite rq a v true = s.stage rq a v := by
  simp [Dev.stageWrite, Dev.stage, ha, free]

/-- The exact complement of a staged value that passes the pair's checks: the pair takes effect one cycle on (R314). -/
theorem Dev.complWrite_match {s : Dev} {rq : Requester} {a : Nat} {p : SliceId × Nat} {v : Word} (ha : pairAt a = some p)
    (free : s.reloadBars rq a = false) (hv : s.stagedAt rq a = some v) (ok : s.pairOk p.1 p.2 (v &&& pairMask p.2) = true) :
    s.complWrite rq a (~~~v) true = ((s.unstage rq a).upTo (s.now + 1)).pairEffect p.1 p.2 v := by
  simp [Dev.complWrite, ha, free, hv, ok]

/-- The words of the outer setpoint have no reserved bits, and their effect is no more than the words. -/
theorem Dev.pairEffect_outerSp (s : Dev) (n : SliceId) (v : Word) : s.pairEffect n SLICE_OUTER_SP_V v =
    (s.wr (sB n + SLICE_OUTER_SP_V) v).wr (sB n + SLICE_OUTER_SP_V + 4) (~~~v) := by
  have whole : v &&& pairMask SLICE_OUTER_SP_V = v := BitVec.and_allOnes
  rw [Dev.pairEffect, whole]
  rfl

/-- Settles O16: a write of FORCE_CFG is applied or discarded by `forceCfgWrite_applies` and `forceCfgWrite_discarded`; a `_V` word
is `stage`, and its complement is `complWrite_match` with the two words of `pairEffect_outerSp`. -/
theorem forceRegisterWrites : Obligations.ForceRegisterWrites := by
  unfold Obligations.ForceRegisterWrites
  have pair (n : SliceId) : pairAt (sB n + SLICE_OUTER_SP_V) = some (n, SLICE_OUTER_SP_V) := pairAt_slice n (by decide)
  refine ⟨?applied, ?discarded, ?staged, ?effect⟩
  case applied =>
    intro s n v hs h
    refine ⟨_, (exec_forceCfgWrite n v s).trans (State.onAwake_of_awake _ _ hs), ?_⟩
    rw [State.withDev_toDev, Dev.forceCfgWrite_applies h]
    obtain ⟨others, -⟩ := (Dev.keeps_refl s.toDev [sB n + SLICE_FORCE_CFG]).store _ v List.mem_cons_self
    exact ⟨rfl, fun a ha => others a (by simpa using ha), Dev.store_mem _ _ _, Dev.store_slices _ _ _⟩
  case discarded =>
    intro s n v hs hp hd
    rw [exec_forceCfgWrite, execForceCfgWrite, State.onAwake_of_awake _ _ hs, Dev.forceCfgWrite_discarded hp hd]
    rfl
  case staged =>
    intro s n v hs hd3 hk hr hb
    refine ⟨_, (exec_pairedValueWrite _ _ _ _ s).trans (State.onAwake_of_awake _ _ hs), ?_⟩
    rw [State.withDev_toDev, Dev.stageWrite_full (pair n) (Dev.reloadBars_of_released hd3 hk hr hb _ _)]
    exact ⟨Dev.stagedAt_stage _ _ _ _, rfl, rfl, rfl⟩
  case effect =>
    intro s n v hs hd3 hk hr hb hv
    refine ⟨_, (exec_pairedComplementWrite _ _ _ _ s).trans (State.onAwake_of_awake _ _ hs), ?_⟩
    rw [State.withDev_toDev, Nat.add_sub_cancel,
      Dev.complWrite_match (pair n) (Dev.reloadBars_of_released hd3 hk hr hb _ _) hv rfl, Dev.pairEffect_outerSp]
    refine ⟨?value, Dev.rd_wr_same _ _ _, ?now, ?empty, fun a value compl => ?others, by simp⟩
    case value => rw [Dev.rd_wr_other _ _ _ _ (by simp), Dev.rd_wr_same]
    case now => simp [Dev.upTo_now _ _ ((Dev.unstage_awake _ _ _).trans hs)]
    case empty =>
      simp only [Dev.stagedAt, Dev.wr_staged, Dev.upTo_staged]
      exact Dev.stagedAt_unstage _ _ _
    case others => rw [Dev.rd_wr_other _ _ _ _ compl.symm, Dev.rd_wr_other _ _ _ _ value.symm, Dev.upTo_rd, Dev.unstage_rd]

end Sys2Proof.Machine

namespace Sys2Proof.Machine
open Sys2Proof

/-! ## LOAD_IN (R10, R80, R82) -/

/-- Where no element changes the device, going through them changes nothing. -/
theorem Dev.each_of_id {α : Type} {s : Dev} {l : List α} {f : Dev → α → Dev} (h : ∀ x ∈ l, f s x = s) : s.each l f = s := by
  unfold Dev.each
  induction l with
  | nil => rfl
  | cons x l ih =>
    rw [List.foldl_cons, h x List.mem_cons_self]
    exact ih (fun y hy => h y (List.mem_cons_of_mem _ hy))

theorem Dev.voltDue_of_idle {s : Dev} (h : s.sched = []) (r : GroupRec) : s.voltDue r = s := by
  simp [Dev.voltDue, h, Dev.each]

/-- A strobe of group `g` comes now: its cycle and its TIME are kept. -/
def Dev.noteStrobe (s : Dev) (g : GroupId) : Dev := s.modEng g (fun e => { e with strobeAt := s.now, strobeTime := s.time })

/-- At a strobe a running slice in direct mode sends its holding register off, due at cycle 4; any other does nothing. -/
def Dev.takeHolding (s : Dev) (n : SliceId) : Dev := if s.direct n && s.running n then (s.land n).fly n (s.now + 4) .holding else s

/-- An edge on the one strobed group, with no command in progress and no step waiting on the engine. -/
theorem exec_loadInEdge_alone {s : State} {r : GroupRec} (hs : s.domains = true) (hc : bitOf s.plates.loadCfg 0 = true)
    (hg : s.plates.groups = [r]) (hr : r.strobed = true) (he : r.strobe = true) (idle : s.sched = []) (path : (s.eng (sid r.first)).next = none) :
    exec .loadInEdge s = .next (s.withDev ((s.noteStrobe (sid r.first)).each r.slices Dev.takeHolding)) := by
  have volt : (s.noteStrobe (sid r.first)).voltDue r = s.noteStrobe (sid r.first) := Dev.voltDue_of_idle (s := s.noteStrobe _) idle r
  have next : ((s.noteStrobe (sid r.first)).eng (sid r.first)).next = none := by simpa [Dev.noteStrobe] using path
  rw [exec_loadInEdge, execLoadInEdge, State.onAwake_of_awake _ _ (Dev.awake_of_domains hs), if_neg (by simp [hs, hc]), hg,
    List.filter_cons_of_pos (by simp [hr, he]), List.filter_nil, Dev.each_one]
  dsimp only
  rw [← Dev.noteStrobe, volt, next]
  rfl

/-- With TIMEOUT_US 0 there is no timeout (R82). -/
theorem exec_loadInTimeout_disabled {s : State} {g : GroupId} {r : GroupRec} (hs : s.domains = true) (hg : s.group g.val = some r)
    (hz : s.fld (sliceBase r.first) SLICE_STROBE_CFG_TIMEOUT_US = 0) : exec (.loadInTimeout g) s = .next s := by
  rw [exec_loadInTimeout, execLoadInTimeout, State.onAwake_onEngine hs hg, if_pos (by simp [hz]), State.withDev_self]

/-- Settles O17: the timeout is its event's definition with the premises put in; an edge is `exec_loadInEdge_alone`, where slices
that are not in direct mode take nothing. -/
theorem strobeTimeoutIsReported : Obligations.StrobeTimeoutIsReported := by
  unfold Obligations.StrobeTimeoutIsReported
  refine ⟨?timeout, ?idleEdge, ?edge, fun s g r => exec_loadInTimeout_disabled⟩
  case timeout =>
    intro s g r hs hg hr he ht hon hd
    rw [exec_loadInTimeout, execLoadInTimeout, State.onAwake_onEngine hs hg, if_neg (by simp [ht, hr, he, hon, hd])]
  case idleEdge =>
    intro s r hs hc hg hr he idle path hd
    refine ⟨_, exec_loadInEdge_alone hs hc hg hr he idle path, ?_⟩
    have loop (n : SliceId) (hn : n ∈ r.slices) : (s.noteStrobe (sid r.first)).direct n = false := by
      simpa [Dev.noteStrobe, Dev.direct] using List.any_eq_false.mp hd n hn
    have nothing : (s.noteStrobe (sid r.first)).each r.slices Dev.takeHolding = s.noteStrobe (sid r.first) :=
      Dev.each_of_id (fun n hn => if_neg (by simp [loop n hn]))
    rw [State.withDev_toDev, nothing]
    exact ⟨by simp [Dev.noteStrobe], by simp [Dev.noteStrobe], rfl, rfl, rfl⟩
  case edge => exact fun s r => exec_loadInEdge_alone

end Sys2Proof.Machine

namespace Sys2Proof.Machine
open Sys2Proof

/-! ## Records and rows (R116 to R118) -/

/-- The oldest closed window `w` of slice `n` has given its record; `l` are those behind it. -/
def Dev.noteRecord (s : Dev) (n : SliceId) (w : WinRes) (l : List WinRes) : Dev :=
  s.modSl n (fun x => { x with wDone := l, recDone := some w.record, recTime := w.shut, recBit := w.rec_ })

/-- The record of slice `n` has gone into its row. -/
def Dev.dropRecord (s : Dev) (n : SliceId) : Dev := s.modSl n (fun x => { x with recDone := none })

/-- A row joins those of group `g` that wait for the write path. -/
def Dev.queueRow (s : Dev) (g : GroupId) (row : List Rec) : Dev := s.modEng g (fun e => { e with rows := e.rows ++ [row] })

/-- A slice that is a group by itself closes its row with its record. -/
theorem Dev.recordClose_alone {s : Dev} {n : SliceId} {r : GroupRec} {w : WinRes} {l : List WinRes} (hr : s.groupOf n.val = some r)
    (first : r.first = n.val) (size : r.size = 1) (hw : (s.sl n).wDone = w :: l) (hd : (s.sl n).recDone = none) :
    s.recordClose n = ((s.noteRecord n w l).dropRecord n).closeRow r [w.record] w.rec_ w.shut := by
  unfold Dev.recordClose
  simp only [hr, hw, hd, GroupRec.slices_of_one first size]
  simp [size, Dev.lastClosed, Dev.noteRecord, Dev.dropRecord, Dev.each_one]

/-- With no CAPTURE_ARM active no row is counted. -/
theorem Dev.armRow_unarmed {s : Dev} {g : GroupId} (h : (s.eng g).arm = none) (t : Word64) : s.armRow g t = s := by
  unfold Dev.armRow
  rw [h]

/-- With no CAPTURE_ARM active, recording and the REC bit decide whether a row waits for the write path (R118). -/
theorem Dev.closeRow_unarmed {s : Dev} {r : GroupRec} (row : List Rec) (bit : Bool) (t : Word64) (ha : (s.eng (sid r.first)).arm = none) :
    s.closeRow r row bit t =
      if s.flag (sliceBase r.first) SLICE_REC_CTRL_ENABLE || bit then s.queueRow (sid r.first) row else s := by
  have queued : ((s.queueRow (sid r.first) row).eng (sid r.first)).arm = none := by simpa [Dev.queueRow] using ha
  unfold Dev.closeRow
  simp only [ha, Option.isSome_none, Bool.false_and, Bool.or_false]
  split
  · exact Dev.armRow_unarmed queued t
  · exact Dev.armRow_unarmed ha t

theorem Dev.recordClose_alone_spec {s : Dev} {n : SliceId} {r : GroupRec} {w : WinRes} {l : List WinRes} (hr : s.groupOf n.val = some r)
    (first : r.first = n.val) (size : r.size = 1) (hw : (s.sl n).wDone = w :: l) (hd : (s.sl n).recDone = none) (ha : (s.eng n).arm = none) :
    ((s.recordClose n).sl n).wDone = l ∧ ((s.recordClose n).sl n).recDone = none ∧
    ((s.recordClose n).eng n).rows =
      (if s.flag (sB n) SLICE_REC_CTRL_ENABLE || w.rec_ then (s.eng n).rows ++ [[w.record]] else (s.eng n).rows) ∧
    s.keeps (s.recordClose n) [] ∧ (s.recordClose n).sched = s.sched := by
  have lowest : sid r.first = n := first ▸ Dev.sid_val n
  have kept : s.keeps ((s.noteRecord n w l).dropRecord n) [] := ((Dev.keeps_refl s []).modSl n _).modSl n _
  rw [Dev.recordClose_alone hr first size hw hd, Dev.closeRow_unarmed _ _ _ (lowest.symm ▸ ha), lowest, first]
  have enable : ((s.noteRecord n w l).dropRecord n).flag (sliceBase n.val) SLICE_REC_CTRL_ENABLE = s.flag (sB n) SLICE_REC_CTRL_ENABLE := rfl
  rw [enable]
  split
  · refine ⟨?_, ?_, ?_, kept.modEng n _, rfl⟩ <;> simp [Dev.queueRow, Dev.dropRecord, Dev.noteRecord]
  · refine ⟨?_, ?_, ?_, kept, rfl⟩ <;> simp [Dev.dropRecord, Dev.noteRecord]

theorem GroupRec.nodup_slices {r : GroupRec} (h : r.size ≤ 32) : r.slices.Nodup :=
  List.Nodup.map_on (fun i hi j hj e => by
    have e := congrArg Fin.val e
    simp only [sid, Fin.ofNat, List.mem_range] at e hi hj
    omega) List.nodup_range

/-- Where `n` alone has a record, a list of distinct slices holds at most one. -/
theorem Dev.records_le_one {s : Dev} {n : SliceId} {l : List SliceId} (hl : l.Nodup) (h : ∀ m, m ≠ n → (s.sl m).recDone = none) :
    (l.filterMap (fun m => (s.sl m).recDone)).length ≤ 1 := by
  have mine : ∀ m ∈ l, (s.sl m).recDone.isSome = true → (m == n) = true := fun m _ some => by
    by_contra other
    rw [h m (by simpa using other)] at some
    cases some
  calc (l.filterMap (fun m => (s.sl m).recDone)).length = l.countP (fun m => (s.sl m).recDone.isSome) := List.length_filterMap_eq_countP
    _ ≤ l.count n := List.countP_mono_left mine
    _ ≤ 1 := List.nodup_iff_count_le_one.mp hl n

/-- In a larger group the first record waits for those of the others. -/
theorem Dev.recordClose_first {s : Dev} {n : SliceId} {r : GroupRec} {w : WinRes} {l : List WinRes} (hr : s.groupOf n.val = some r)
    (two : 2 ≤ r.size) (le : r.size ≤ 32) (hw : (s.sl n).wDone = w :: l) (hd : (s.sl n).recDone = none)
    (others : ∀ m, m ≠ n → (s.sl m).recDone = none) : s.recordClose n = s.noteRecord n w l := by
  have one := Dev.records_le_one (s := s.noteRecord n w l) (n := n) (GroupRec.nodup_slices le)
    (fun m hm => (congrArg Slice.recDone (Dev.sl_modSl_other s n m _ hm.symm)).trans (others m hm))
  unfold Dev.recordClose
  simp only [hr, hw, hd]
  exact (if_neg (by simp)).trans (if_neg (fun e => Nat.ne_of_lt (Nat.lt_of_le_of_lt one two) (beq_iff_eq.mp e)))

/-! ## The write path (R120 to R122) -/

/-- The write path serves group `g`: its oldest row is taken, `l` are those behind it. -/
def Dev.takeRow (s : Dev) (g : GroupId) (l : List (List Rec)) : Dev := { s.modEng g (fun e => { e with rows := l }) with rowLast := g.val }

@[simp] theorem Dev.takeRow_eng (s : Dev) (g : GroupId) (l : List (List Rec)) : (s.takeRow g l).eng g = { s.eng g with rows := l } :=
  Dev.eng_modEng_same s g (fun e => { e with rows := l })

@[simp] theorem Dev.takeRow_rd (s : Dev) (g : GroupId) (l : List (List Rec)) (a : Nat) : (s.takeRow g l).rd a = s.rd a := rfl
@[simp] theorem Dev.takeRow_byte (s : Dev) (g : GroupId) (l : List (List Rec)) (a : Nat) : (s.takeRow g l).byte a = s.byte a := rfl
@[simp] theorem Dev.takeRow_rowLast (s : Dev) (g : GroupId) (l : List (List Rec)) : (s.takeRow g l).rowLast = g.val := rfl
@[simp] theorem Dev.takeRow_plates (s : Dev) (g : GroupId) (l : List (List Rec)) : (s.takeRow g l).plates = s.plates := rfl

@[simp] theorem Dev.rowFits_takeRow (s : Dev) (g : GroupId) (l : List (List Rec)) : (s.takeRow g l).rowFits g = s.rowFits g := by
  unfold Dev.rowFits
  rw [Dev.takeRow_eng]
  rfl

@[simp] theorem Dev.put_rd (s : Dev) (a : Nat) (l : List Byte) (x : Nat) : (s.put a l).rd x = s.rd x := by rw [Dev.put_eq]; rfl
@[simp] theorem Dev.put_eng (s : Dev) (a : Nat) (l : List Byte) (g : GroupId) : (s.put a l).eng g = s.eng g := by rw [Dev.put_eq]; rfl
@[simp] theorem Dev.put_rowLast (s : Dev) (a : Nat) (l : List Byte) : (s.put a l).rowLast = s.rowLast := by rw [Dev.put_eq]
@[simp] theorem Dev.put_plates (s : Dev) (a : Nat) (l : List Byte) : (s.put a l).plates = s.plates := by rw [Dev.put_eq]

/-- FULL is one bit of CAP_STATUS; all else stays. -/
theorem Dev.rd_showFull (s : Dev) (g : GroupId) {a : Nat} (h : sB g + SLICE_CAP_STATUS ≠ a) : (s.showFull g).rd a = s.rd a :=
  Dev.rd_setFld_other _ _ _ _ _ h

@[simp] theorem Dev.showFull_eng (s : Dev) (g k : GroupId) : (s.showFull g).eng k = s.eng k := Dev.setFlag_eng _ _ _ _ _
@[simp] theorem Dev.showFull_mem (s : Dev) (g : GroupId) : (s.showFull g).mem = s.mem := Dev.setFlag_mem _ _ _ _
@[simp] theorem Dev.showFull_byte (s : Dev) (g : GroupId) (a : Nat) : (s.showFull g).byte a = s.byte a := Dev.setFlag_byte _ _ _ _ _
@[simp] theorem Dev.showFull_rowLast (s : Dev) (g : GroupId) : (s.showFull g).rowLast = s.rowLast := Dev.setFlag_rowLast _ _ _ _
@[simp] theorem Dev.showFull_plates (s : Dev) (g : GroupId) : (s.showFull g).plates = s.plates := Dev.setFlag_plates _ _ _ _

@[simp] theorem Dev.showFull_pending (s : Dev) (g : GroupId) :
    (s.showFull g).flag (sB g) SLICE_CAP_STATUS_GAP_PENDING = s.flag (sB g) SLICE_CAP_STATUS_GAP_PENDING :=
  Dev.flag_setFlag_bits _ _ _ _ _ _ rfl (by decide) (by decide)

@[simp] theorem Dev.showFull_capWr (s : Dev) (g : GroupId) : (s.showFull g).capWr g = s.capWr g :=
  congrArg BitVec.toNat (s.rd_showFull g (by simp))

section WritePath

variable {s : Dev} {g : GroupId} {l : List (List Rec)}

/-- The row of one record `x` of group `g` is stored; `l` are those behind it. -/
def Dev.storeRow (s : Dev) (g : GroupId) (x : Rec) (l : List (List Rec)) : Dev := ((s.takeRow g l).capPut g x).showFull g

/-- A row of one record that fits, with no gap marker before it, is put at WR. -/
theorem Dev.writeRow_fits {x : Rec} (rows : (s.eng g).rows = [x] :: l) (gap : (s.eng g).gap = none) (region : s.capSize g ≠ 0)
    (fits : s.rowFits g = true) : s.writeRow g = s.storeRow g x l := by
  have empty : ((s.takeRow g l).eng g).gap = none := (congrArg Engine.gap (s.takeRow_eng g l)).trans gap
  unfold Dev.writeRow
  rw [rows]
  refine (if_neg (fun e => region (beq_iff_eq.mp e))).trans ((if_pos ((s.rowFits_takeRow g l).trans fits)).trans ?_)
  split
  next q some => exact absurd (empty.symm.trans some) (by simp)
  next => rfl

/-- A row that does not fit is lost whole. -/
theorem Dev.writeRow_lost {row : List Rec} (rows : (s.eng g).rows = row :: l) (region : s.capSize g ≠ 0)
    (full : s.rowFits g = false) : s.writeRow g = ((s.takeRow g l).loseRow g row).showFull g := by
  have full := (s.rowFits_takeRow g l).trans full
  unfold Dev.writeRow
  rw [rows]
  exact (if_neg (fun e => region (beq_iff_eq.mp e))).trans (if_neg (fun e => Bool.false_ne_true (full.symm.trans e)))

/-- A hub sends no records. -/
theorem Dev.sendRecords_of_hub (hub : s.plates.link.remote = false) (k : Nat) (g : GroupId) : Dev.sendRecords k s g = s := by
  cases k with
  | zero => rfl
  | succ k =>
    unfold Dev.sendRecords
    exact if_neg (by simp [Dev.isRemote, hub])

/-- Where the next record of group `g` goes. -/
def Dev.capAt (s : Dev) (g : GroupId) : Nat := 0x1000000 + (s.rd (sB g + SLICE_CAP_BASE)).toNat + s.capWr g

theorem recBytes_length (x : Rec) : (recBytes x).length = 16 := leBytes_length 16 _

/-- A record's 16 bytes stand at the write offset, and every other byte is as it was. -/
theorem Dev.capPut_byte (s : Dev) (g : GroupId) (x : Rec) (a : Nat) : (s.capPut g x).byte a =
    if s.capAt g ≤ a ∧ a < s.capAt g + 16 then (recBytes x).getD (a - s.capAt g) 0 else s.byte a := by
  unfold Dev.capPut
  simp only [Dev.wr_byte, Dev.put_byte, Dev.byte_setBytes, recBytes_length]
  rfl

@[simp] theorem Dev.capPut_eng (s : Dev) (g : GroupId) (x : Rec) (k : GroupId) : (s.capPut g x).eng k = s.eng k := by simp [Dev.capPut]
@[simp] theorem Dev.capPut_rowLast (s : Dev) (g : GroupId) (x : Rec) : (s.capPut g x).rowLast = s.rowLast := by simp [Dev.capPut]
@[simp] theorem Dev.capPut_plates (s : Dev) (g : GroupId) (x : Rec) : (s.capPut g x).plates = s.plates := by simp [Dev.capPut]

theorem Dev.capPut_rd (s : Dev) (g : GroupId) (x : Rec) {a : Nat} (h : sB g + SLICE_CAP_WR ≠ a) : (s.capPut g x).rd a = s.rd a :=
  (Dev.rd_wr_other _ _ _ _ h).trans (Dev.put_rd _ _ _ _)

/-- WR moves on by a record, around the region. -/
theorem Dev.capPut_capWr (x : Rec) (region : s.capSize g ≠ 0) : (s.capPut g x).capWr g = (s.capWr g + 16) % s.capSize g := by
  have lt : (s.capWr g + 16) % s.capSize g < 2 ^ 32 := Nat.lt_trans (Nat.mod_lt _ (Nat.pos_of_ne_zero region)) (BitVec.isLt _)
  unfold Dev.capPut
  rw [Dev.capWr, Dev.rd_wr_same, BitVec.toNat_ofNat, Nat.mod_eq_of_lt lt]

theorem Dev.storeRow_capWr (x : Rec) (region : s.capSize g ≠ 0) : (s.storeRow g x l).capWr g = (s.capWr g + 16) % s.capSize g :=
  (Dev.showFull_capWr _ _).trans (Dev.capPut_capWr (s := s.takeRow g l) x region)

theorem Dev.storeRow_byte (s : Dev) (g : GroupId) (x : Rec) (l : List (List Rec)) (a : Nat) : (s.storeRow g x l).byte a =
    if s.capAt g ≤ a ∧ a < s.capAt g + 16 then (recBytes x).getD (a - s.capAt g) 0 else s.byte a := by
  rw [Dev.storeRow, Dev.showFull_byte, Dev.capPut_byte, Dev.takeRow_byte]
  rfl

theorem Dev.storeRow_rd (s : Dev) (g : GroupId) (x : Rec) (l : List (List Rec)) {a : Nat} (wr : a ≠ sB g + SLICE_CAP_WR)
    (status : a ≠ sB g + SLICE_CAP_STATUS) : (s.storeRow g x l).rd a = s.rd a := by
  rw [Dev.storeRow, Dev.rd_showFull _ _ status.symm, Dev.capPut_rd _ _ _ wr.symm, Dev.takeRow_rd]

@[simp] theorem Dev.storeRow_eng (s : Dev) (g : GroupId) (x : Rec) (l : List (List Rec)) :
    (s.storeRow g x l).eng g = { s.eng g with rows := l } := by simp [Dev.storeRow]
@[simp] theorem Dev.storeRow_rowLast (s : Dev) (g : GroupId) (x : Rec) (l : List (List Rec)) : (s.storeRow g x l).rowLast = g.val := by
  simp [Dev.storeRow]
@[simp] theorem Dev.storeRow_plates (s : Dev) (g : GroupId) (x : Rec) (l : List (List Rec)) : (s.storeRow g x l).plates = s.plates := by
  simp [Dev.storeRow]

/-- Behind a gap marker that waits, the records of a lost row are counted, in the marker and in CAP_LOST. -/
def Dev.countLost (s : Dev) (g : GroupId) (q : Gap) (k : Nat) : Dev :=
  ((s.wr (sB g + SLICE_CAP_LOST) (BitVec.ofNat 32 (min 0xFFFFFFFF ((s.rd (sB g + SLICE_CAP_LOST)).toNat + k)))).modEng g
    (fun e => { e with gap := some { q with lost := q.lost + k } })).setFlag (sB g) SLICE_CAP_STATUS_GAP_PENDING true

theorem Dev.loseRow_again {q : Gap} (h : (s.eng g).gap = some q) (row : List Rec) : s.loseRow g row = s.countLost g q row.length := by
  unfold Dev.loseRow
  simp only [h, Option.isNone_some, Bool.false_eq_true, if_false]
  rfl

theorem Dev.countLost_lost (s : Dev) (g : GroupId) (q : Gap) (k : Nat) : ((s.countLost g q k).rd (sB g + SLICE_CAP_LOST)).toNat =
    min 0xFFFFFFFF ((s.rd (sB g + SLICE_CAP_LOST)).toNat + k) := by
  unfold Dev.countLost Dev.setFlag
  rw [Dev.rd_setFld_other _ _ _ _ _ (by simp), Dev.modEng_rd, Dev.rd_wr_same, BitVec.toNat_ofNat, Nat.mod_eq_of_lt (by omega)]

theorem Dev.countLost_pending (s : Dev) (g : GroupId) (q : Gap) (k : Nat) :
    (s.countLost g q k).flag (sB g) SLICE_CAP_STATUS_GAP_PENDING = true := by
  unfold Dev.countLost
  exact Dev.flag_setFlag_same _ _ _ _ (by decide) rfl

end WritePath

theorem Dev.flag_wr_word (s : Dev) (a b : Nat) (f : Fld) (v : Word) (h : a ≠ b + f.off) : (s.wr a v).flag b f = s.flag b f := by
  unfold Dev.flag Dev.fld
  rw [Dev.rd_wr_other _ _ _ _ h]

theorem exec_rowWrite_hub {s : State} {g : GroupId} {d : Dev} (hs : s.awake = true) (next : s.nextRowGroup = some g)
    (row : s.writeRow g = d) (hub : d.plates.link.remote = false) : exec .rowWrite s = .next (s.withDev d) := by
  rw [exec_rowWrite, execRowWrite, State.onAwake_of_awake _ _ hs, next, ← Dev.sendRecords_of_hub hub 64 g, ← row]

theorem exec_captureArm_ready {s : State} {h : Hdr} {r : GroupRec} (k : s.ready h r) (p : ArmP) :
    exec (.captureArm h p) s = .next (s.withDev ((s.taken h.ring).captureArm (ownCtx h 0x09) r p)) := by
  rw [exec_captureArm, execCaptureArm, State.onAwake_of_awake _ _ k.1, Dev.ringCmd_ready k]

/-- Settles O21: a closed window by `recordClose_alone_spec` and `recordClose_first`, the write path by `writeRow_fits` and
`writeRow_lost`, CAPTURE_ARM by the branches of `captureArm`. -/
theorem rowsAreRecorded : Obligations.RowsAreRecorded := by
  unfold Obligations.RowsAreRecorded
  refine ⟨⟨?recording, ?byBit, ?larger⟩, ⟨?stored, ?lost⟩, fun s h r p k => ⟨?noRows, ?busy, ?arms⟩⟩
  case recording =>
    intro s n r w l hs hr first size hw hd enable ha
    obtain ⟨done, none, rows, kept, sched⟩ := Dev.recordClose_alone_spec hr first size hw hd ha
    refine ⟨_, (exec_recordWindowClose n s).trans (State.onAwake_of_awake _ _ hs), done, none, ?_, kept, sched⟩
    rwa [enable, Bool.true_or, if_pos rfl] at rows
  case byBit =>
    intro s n r w l hs hr first size hw hd disable ha
    obtain ⟨done, none, rows, kept, -⟩ := Dev.recordClose_alone_spec hr first size hw hd ha
    refine ⟨_, (exec_recordWindowClose n s).trans (State.onAwake_of_awake _ _ hs), done, none, ?_, kept⟩
    rwa [disable, Bool.false_or] at rows
  case larger =>
    intro s n r w l hs hr two le hw hd others
    refine ⟨_, (exec_recordWindowClose n s).trans (State.onAwake_of_awake _ _ hs), ?_⟩
    rw [State.withDev_toDev, Dev.recordClose_first hr two le hw hd others]
    exact ⟨congrArg Slice.wDone (Dev.sl_modSl_same _ _ _), congrArg Slice.recDone (Dev.sl_modSl_same _ _ _),
      (Dev.keeps_refl _ _).modSl n _, rfl⟩
  case stored =>
    intro s g x l hs next rows gap region _ fits hub
    have fits : s.rowFits g = true := decide_eq_true (by rw [gap]; exact fits)
    have place : s.capAt g = 0x1000000 + (s.rd (sB g + SLICE_CAP_BASE)).toNat + s.capWr g := rfl
    refine ⟨_, exec_rowWrite_hub hs next (Dev.writeRow_fits rows gap region fits) (by rwa [Dev.storeRow_plates]), ?_⟩
    rw [State.withDev_toDev, ← place]
    refine ⟨by simp, Dev.storeRow_capWr x region, fun i hi => ?record, fun a ha => ?beside, fun a ha => ?words, by simp⟩
    case record => rw [Dev.storeRow_byte, if_pos (by omega), Nat.add_sub_cancel_left]
    case beside => rw [Dev.storeRow_byte, if_neg (by omega)]
    case words =>
      simp only [List.mem_cons, List.not_mem_nil, or_false, not_or] at ha
      exact Dev.storeRow_rd _ _ _ _ ha.1 ha.2
  case lost =>
    intro s g row l q hs next rows gap region full hub
    have full : s.rowFits g = false := decide_eq_false (by rw [gap]; simp only [Option.isSome_some, if_true]; omega)
    have marker : ((s.takeRow g l).eng g).gap = some q := by simpa using gap
    have lost : s.writeRow g = ((s.takeRow g l).countLost g q row.length).showFull g := by
      rw [Dev.writeRow_lost rows region full, Dev.loseRow_again marker]
    refine ⟨_, exec_rowWrite_hub hs next lost (by simpa [Dev.countLost] using hub), ?_⟩
    rw [State.withDev_toDev]
    refine ⟨by simp [Dev.countLost], by simp [Dev.countLost], ?counted, ?pending, ?memory⟩
    case counted =>
      rw [Dev.rd_showFull _ _ (by simp)]
      exact Dev.countLost_lost _ _ _ _
    case memory => simp only [Dev.showFull_mem, Dev.countLost, Dev.setFlag_mem, Dev.modEng_mem, Dev.wr_mem]; rfl
    case pending => exact (Dev.showFull_pending _ _).trans (Dev.countLost_pending _ _ _ _)
  case noRows =>
    intro zero
    rw [exec_captureArm_ready k, Dev.captureArm, if_pos (by simp [zero])]
  case busy =>
    intro rows armed
    rw [exec_captureArm_ready k, Dev.captureArm, if_neg (by simpa using rows),
      if_pos (by simpa [Option.isSome_iff_ne_none] using armed)]
  case arms =>
    intro rows free
    refine ⟨_, exec_captureArm_ready k p, ?_⟩
    rw [State.withDev_toDev, Dev.captureArm, if_neg (by simpa using rows), if_neg (by simpa using free)]
    refine ⟨by simp, by simp, ?armed, Dev.rd_wr_same _ _ _, ?kept, ?fetched⟩
    case armed =>
      rw [Dev.flag_wr_word _ _ _ _ _ (by simp)]
      exact Dev.flag_setFlag_same _ _ _ _ (by decide) rfl
    case fetched =>
      simp only [Dev.ring, Dev.wr_rings, Dev.setFlag_rings, Dev.modEng_rings]
      exact Dev.taken_fetched _ _
    case kept =>
      exact ((((Dev.keeps_refl s.toDev _).taken h.ring).modEng _ _).setFlag _ _ _ (by simp)).wr _ _ (by simp)

end Sys2Proof.Machine

namespace Sys2Proof.Machine
open Sys2Proof

/-! ## Registers of the capture store and of the record filter (R110 to R114, R120, R129) -/

theorem Dev.keeps.showFull {s t : Dev} {l : List Nat} (h : s.keeps t l) (g : GroupId) (ha : sB g + SLICE_CAP_STATUS ∈ l) :
    s.keeps (t.showFull g) l := h.setFlag _ _ _ ha

theorem Dev.keeps.each {α : Type} {s t : Dev} {l : List Nat} (h : s.keeps t l) (xs : List α) {f : Dev → α → Dev}
    (hf : ∀ (d : Dev) (x : α), d.keeps (f d x) l) : s.keeps (t.each xs f) l := by
  unfold Dev.each
  induction xs generalizing t with
  | nil => exact h
  | cons x xs ih => exact ih (h.trans (hf t x))

theorem Dev.capRefuse_spec (s : Dev) (g : GroupId) : (s.capRefuse g).flag (sB g) SLICE_CAP_STATUS_REFUSED = true ∧
    s.keeps (s.capRefuse g) [sB g + SLICE_CAP_STATUS] ∧ (s.capRefuse g).slices = s.slices :=
  ⟨Dev.flag_setFlag_same _ _ _ _ (by decide) rfl, (Dev.keeps_refl s _).setFlag _ _ _ (by simp), Dev.setFlag_slices _ _ _ _⟩

/-- The word of a group's region that a write of BASE, or of SIZE, writes. -/
abbrev regionWord (g : GroupId) (size : Bool) : Nat := sB g + if size then SLICE_CAP_SIZE else SLICE_CAP_BASE

/-- The region of group `g` is moved, and is empty. -/
def Dev.moveRegion (s : Dev) (g : GroupId) (size : Bool) (v : Word) : Dev :=
  (((s.wr (regionWord g size) v).wr (sB g + SLICE_CAP_WR) 0).wr (sB g + SLICE_CAP_RD) 0).showFull g

section Region

variable {s : Dev} {g : GroupId}

theorem Dev.capRegionWrite_free {size : Bool} {v : Word} (hg : s.group g.val ≠ none)
    (ok : (if size then s.regionOk g (s.rd (sB g + SLICE_CAP_BASE)).toNat v.toNat else s.regionOk g v.toNat (s.capSize g)) = true)
    (enable : s.flag (sB g) SLICE_REC_CTRL_ENABLE = false) (arm : (s.eng g).arm = none) (idle : s.dmaRuns g = false) :
    s.capRegionWrite g size v = s.moveRegion g size v := by
  unfold Dev.capRegionWrite
  rw [if_neg hg]
  exact if_pos (by simp [ok, enable, arm, idle])

/-- A region begins on a page (R120). -/
theorem Dev.regionOk_aligned {a n : Nat} (h : s.regionOk g a n = true) : a % 4096 = 0 := by
  simp only [Dev.regionOk, Bool.and_eq_true, beq_iff_eq] at h
  exact h.1.1.1

theorem Dev.capRegionWrite_unaligned {v : Word} (hg : s.group g.val ≠ none) (h : v.toNat % 4096 ≠ 0) :
    s.capRegionWrite g false v = s.capRefuse g := by
  have bad : s.regionOk g v.toNat (s.capSize g) = false := Bool.eq_false_iff.mpr (fun ok => h (Dev.regionOk_aligned ok))
  unfold Dev.capRegionWrite
  rw [if_neg hg]
  exact if_neg (by simp [bad])

theorem Dev.rd_moveRegion (s : Dev) (g : GroupId) (size : Bool) (v : Word) : (s.moveRegion g size v).rd (regionWord g size) = v := by
  unfold Dev.moveRegion
  cases size <;>
    rw [Dev.rd_showFull _ _ (by simp), Dev.rd_wr_other _ _ _ _ (by simp), Dev.rd_wr_other _ _ _ _ (by simp), Dev.rd_wr_same]

theorem Dev.moveRegion_empty (s : Dev) (g : GroupId) (size : Bool) (v : Word) :
    (s.moveRegion g size v).capWr g = 0 ∧ (s.moveRegion g size v).capRd g = 0 := by
  unfold Dev.moveRegion Dev.capWr Dev.capRd
  rw [Dev.rd_showFull _ _ (by simp), Dev.rd_showFull _ _ (by simp), Dev.rd_wr_same, Dev.rd_wr_other _ _ _ _ (by simp), Dev.rd_wr_same]
  exact ⟨rfl, rfl⟩

theorem Dev.moveRegion_keeps (s : Dev) (g : GroupId) (size : Bool) (v : Word) : s.keeps (s.moveRegion g size v)
    [regionWord g size, sB g + SLICE_CAP_WR, sB g + SLICE_CAP_RD, sB g + SLICE_CAP_STATUS] :=
  ((((Dev.keeps_refl s _).wr _ _ (by simp)).wr _ _ (by simp)).wr _ _ (by simp)).showFull g (by simp)

/-- RD moves forward, in whole records, up to WR. -/
theorem Dev.capRdWrite_forward {v : Word} (hg : s.group g.val ≠ none) (whole : v.toNat % 16 = 0) (lt : v.toNat < s.capSize g)
    (le : (v.toNat + s.capSize g - s.capRd g) % s.capSize g ≤ s.capUsed g) (idle : s.dmaRuns g = false) :
    s.capRdWrite g v = (s.wr (sB g + SLICE_CAP_RD) v).showFull g := by
  unfold Dev.capRdWrite
  rw [if_neg hg]
  exact if_pos (by simp [whole, lt, le, idle])

theorem Dev.capRdWrite_part {v : Word} (hg : s.group g.val ≠ none) (h : v.toNat % 16 ≠ 0) : s.capRdWrite g v = s.capRefuse g := by
  unfold Dev.capRdWrite
  rw [if_neg hg]
  exact if_neg (by simp [h])

end Region

/-- A length the filter KIND cannot use: 0 for a mean, outside 2 to 4,096 for a sinc³ (R110). -/
def badLength (v : Word) : Prop :=
  getBits v.toNat 0 2 = 0 ∧ getBits v.toNat 8 24 = 0 ∨ getBits v.toNat 0 2 = 1 ∧ (getBits v.toNat 8 24 < 2 ∨ 4096 < getBits v.toNat 8 24)

/-- A filter that starts with nothing in it and no window open; `b`: a station aperture opens with the next sample. -/
def Slice.newFilter (x : Slice) (b : Bool) : Slice :=
  { x with fV := .zero, fA := .zero, fB := .zero, fillRec := 0, wOpen := false, wCount := 0, wThen := none, wNext := b }

/-- The windows of the slices `ns` that are open close as suspect. -/
def Dev.closeOpen (s : Dev) (ns : List SliceId) : Dev :=
  if ns.any (fun n => (s.sl n).wOpen) then s.each ns (fun x n => x.closeWindow n true s.time) else s

section RecordFilter

variable {s : Dev} {g : GroupId} {v : Word}

theorem Dev.recCfgWrite_refused (hg : s.group g.val ≠ none) (h : badLength v) : s.recCfgWrite g v = s.capRefuse g := by
  unfold Dev.recCfgWrite
  rw [if_neg hg]
  exact if_pos (by simpa [badLength] using h)

theorem Dev.recCfgWrite_applies (hg : s.group g.val ≠ none) (h : ¬ badLength v) : s.recCfgWrite g v =
    ((s.closeOpen (s.members g.val)).store (sB g + SLICE_REC_CFG) v).each (s.members g.val)
      (fun x n => x.modSl n (fun y => y.newFilter (decide (getBits v.toNat 0 2 = 3) && s.stationRuns g))) := by
  unfold Dev.recCfgWrite
  rw [if_neg hg]
  exact if_neg (by simpa [badLength] using h)

theorem Dev.closeOpen_keeps (s : Dev) (ns : List SliceId) : s.keeps (s.closeOpen ns) [] := by
  unfold Dev.closeOpen
  split
  · exact (Dev.keeps_refl s []).each ns (fun d n => ((Dev.keeps_refl d []).modSl n _).draw)
  · exact Dev.keeps_refl s []

/-- A change that gives every slice the property `p`, made on each of a list, gives it to all of them. -/
theorem Dev.each_modSl_forall {f : Slice → Slice} {p : Slice → Prop} (hf : ∀ x, p (f x)) {l : List SliceId} {m : SliceId} {s : Dev}
    (h : m ∈ l ∨ p (s.sl m)) : p ((s.each l (fun x n => x.modSl n f)).sl m) := by
  unfold Dev.each
  induction l generalizing s with
  | nil => simpa using h
  | cons n l ih =>
    refine ih ?_
    by_cases e : n = m
    · subst e
      rw [Dev.sl_modSl_same]
      exact .inr (hf _)
    · rw [Dev.sl_modSl_other _ _ _ _ e]
      exact h.imp_left (fun mem => (List.mem_cons.mp mem).resolve_left (Ne.symm e))

/-- What a write of a register makes of its word depends on that word alone. -/
theorem Dev.rd_store_congr {s t : Dev} {a : Nat} (h : t.rd a = s.rd a) (v : Word) : (t.store a v).rd a = (s.store a v).rd a := by
  unfold Dev.store
  split
  · rw [Dev.rd_wr_same, Dev.rd_wr_same, h]
  · exact h

end RecordFilter

/-! ## SLICE_MEAS_CFG (R128) -/

theorem Dev.measCfgWrite_refused {s : Dev} {n : SliceId} {v : Word} (hp : s.parked n = false)
    (hb : v.getLsbD 0 ≠ s.flag (sB n) SLICE_MEAS_CFG_IB_EN) :
    s.measCfgWrite n v = s.setFlag (sB n) SLICE_MEAS_STATUS_REFUSED true := by
  rw [Dev.measCfgWrite, if_pos]
  simpa [hp] using hb

theorem Dev.measCfgWrite_applies {s : Dev} {n : SliceId} {v : Word}
    (h : s.parked n = true ∨ v.getLsbD 0 = s.flag (sB n) SLICE_MEAS_CFG_IB_EN) :
    s.measCfgWrite n v = (s.store (sB n + SLICE_MEAS_CFG) v).driveNow n := by
  rw [Dev.measCfgWrite, if_neg]
  rcases h with h | h
  · simp [h]
  · rw [h]; simp

theorem Dev.keeps.ite {s t u : Dev} {l : List Nat} {c : Prop} [Decidable c] (h : s.keeps t l) (k : s.keeps u l) :
    s.keeps (if c then t else u) l := by
  split
  · exact h
  · exact k

theorem Dev.keeps.driveRg {s t : Dev} {l : List Nat} (h : s.keeps t l) (n : SliceId) (p : Nat) (hp : sB n + SLICE_RG_NOW ∈ l) :
    s.keeps (t.driveRg n p) l :=
  .ite (h.modSl n _) ((h.modSl n _).setFld (sB n) SLICE_RG_NOW_PATTERN _ hp)

/-- Driving the pattern of now writes the standby range and the pattern shown. -/
theorem Dev.keeps.driveNow {s t : Dev} {l : List Nat} (h : s.keeps t l) (n : SliceId) (hr : sB n + SLICE_RANGE_STATUS ∈ l)
    (hp : sB n + SLICE_RG_NOW ∈ l) : s.keeps (t.driveNow n) l := by
  have shown := h.setFld (sB n) SLICE_RANGE_STATUS_STANDBY (t.ipatNow n).2 hr
  unfold Dev.driveNow
  dsimp only
  split
  · exact shown
  · exact shown
  · exact shown.driveRg n _ hp

/-! ## Correlators (R125, R126) -/

/-- The two words of a 64-bit register read back what was written to them. -/
theorem Dev.rd64_wr64_same (s : Dev) {lo hi : Nat} (h : hi ≠ lo) (v : Word64) : (s.wr64 lo hi v).rd64 lo hi = v := by
  unfold Dev.rd64 Dev.wr64
  rw [Dev.rd_wr_same, Dev.rd_wr_other _ _ _ _ h, Dev.rd_wr_same]
  have joined : v.extractLsb' 32 32 ++ v.extractLsb' 0 32 = v.extractLsb' 0 64 := BitVec.extractLsb'_append_extractLsb'_eq_extractLsb' rfl
  exact joined.trans BitVec.extractLsb'_eq_self

theorem Dev.rd64_wr_other (s : Dev) {a lo hi : Nat} (v : Word) (hl : a ≠ lo) (hh : a ≠ hi) : (s.wr a v).rd64 lo hi = s.rd64 lo hi := by
  unfold Dev.rd64
  rw [Dev.rd_wr_other _ _ _ _ hl, Dev.rd_wr_other _ _ _ _ hh]

theorem Dev.modSl_rd64 (s : Dev) (n : SliceId) (f : Slice → Slice) (lo hi : Nat) : (s.modSl n f).rd64 lo hi = s.rd64 lo hi := rfl

theorem Dev.rd64_setFld_other (s : Dev) {b lo hi : Nat} {f : Fld} (v : Nat) (hl : b + f.off ≠ lo) (hh : b + f.off ≠ hi) :
    (s.setFld b f v).rd64 lo hi = s.rd64 lo hi := s.rd64_wr_other _ hl hh

theorem Dev.rd64_wr64_other (s : Dev) {a b lo hi : Nat} (v : Word64) (al : a ≠ lo) (ah : a ≠ hi) (bl : b ≠ lo) (bh : b ≠ hi) :
    (s.wr64 a b v).rd64 lo hi = s.rd64 lo hi := (Dev.rd64_wr_other _ _ bl bh).trans (s.rd64_wr_other _ al ah)

/-- A sum of a correlator as its register shows it (R126). -/
def sumWord (i : Int) : Word64 := BitVec.ofNat 64 (unsigned 64 i)

/-- The four sums of slice `n` appear in their registers. -/
def Dev.latchSums (s : Dev) (n : SliceId) : Dev :=
  (((s.wr64 (sB n + SLICE_CORR0_I_LO) (sB n + SLICE_CORR0_I_HI) (sumWord (s.sl n).corr.i0)).wr64
    (sB n + SLICE_CORR0_Q_LO) (sB n + SLICE_CORR0_Q_HI) (sumWord (s.sl n).corr.q0)).wr64
    (sB n + SLICE_CORR1_I_LO) (sB n + SLICE_CORR1_I_HI) (sumWord (s.sl n).corr.i1)).wr64
    (sB n + SLICE_CORR1_Q_LO) (sB n + SLICE_CORR1_Q_HI) (sumWord (s.sl n).corr.q1)

/-- With them the number of samples and the status of a window that is over. -/
def Dev.latchCorr (s : Dev) (n : SliceId) : Dev :=
  ((((((s.latchSums n).wr (sB n + SLICE_CORR_NSAMP) (BitVec.ofNat 32 (s.sl n).corr.n)).setFld (sB n) SLICE_CORR_STATUS_PERIODS_DONE
    (s.sl n).corr.periods).setFlag (sB n) SLICE_CORR_STATUS_OVERLONG
    (decide (16777216 ≤ (s.sl n).corr.n) && decide ((s.sl n).corr.periods < s.fld (sB n) SLICE_CORR_CTRL_PERIODS))).setFlag
    (sB n) SLICE_CORR_STATUS_DONE true).setFlag (sB n) SLICE_CORR_STATUS_BUSY false).modSl n (fun x => { x with corr := .idle })

section Latched

variable (s : Dev) (n : SliceId)

theorem Dev.latchSums_i0 : (s.latchSums n).rd64 (sB n + SLICE_CORR0_I_LO) (sB n + SLICE_CORR0_I_HI) = sumWord (s.sl n).corr.i0 := by
  unfold Dev.latchSums
  rw [Dev.rd64_wr64_other _ _ (by simp) (by simp) (by simp) (by simp), Dev.rd64_wr64_other _ _ (by simp) (by simp) (by simp) (by simp),
    Dev.rd64_wr64_other _ _ (by simp) (by simp) (by simp) (by simp), Dev.rd64_wr64_same _ (by simp)]

theorem Dev.latchSums_q1 : (s.latchSums n).rd64 (sB n + SLICE_CORR1_Q_LO) (sB n + SLICE_CORR1_Q_HI) = sumWord (s.sl n).corr.q1 :=
  Dev.rd64_wr64_same _ (by simp) _

/-- The number of samples and the status lie beside the sums. -/
theorem Dev.latchCorr_sums {lo hi : Nat} (sl : SLICE_CORR_STATUS ≠ lo) (sh : SLICE_CORR_STATUS ≠ hi) (nl : SLICE_CORR_NSAMP ≠ lo)
    (nh : SLICE_CORR_NSAMP ≠ hi) : (s.latchCorr n).rd64 (sB n + lo) (sB n + hi) = (s.latchSums n).rd64 (sB n + lo) (sB n + hi) := by
  have word {a b : Nat} (h : a ≠ b) : sB n + a ≠ sB n + b := fun e => h (Nat.add_left_cancel e)
  unfold Dev.latchCorr Dev.setFlag
  rw [Dev.modSl_rd64, Dev.rd64_setFld_other _ _ (word sl) (word sh), Dev.rd64_setFld_other _ _ (word sl) (word sh),
    Dev.rd64_setFld_other _ _ (word sl) (word sh), Dev.rd64_setFld_other _ _ (word sl) (word sh), Dev.rd64_wr_other _ _ (word nl) (word nh)]

theorem Dev.latchCorr_nsamp : (s.latchCorr n).rd (sB n + SLICE_CORR_NSAMP) = BitVec.ofNat 32 (s.sl n).corr.n := by
  unfold Dev.latchCorr Dev.setFlag
  rw [Dev.modSl_rd, Dev.rd_setFld_other _ _ _ _ _ (by simp), Dev.rd_setFld_other _ _ _ _ _ (by simp),
    Dev.rd_setFld_other _ _ _ _ _ (by simp), Dev.rd_setFld_other _ _ _ _ _ (by simp), Dev.rd_wr_same]

theorem Dev.latchCorr_done : (s.latchCorr n).flag (sB n) SLICE_CORR_STATUS_DONE = true := by
  unfold Dev.latchCorr
  rw [Dev.modSl_flag, Dev.flag_setFlag_bits _ _ _ SLICE_CORR_STATUS_BUSY SLICE_CORR_STATUS_DONE _ rfl (by decide) (by decide)]
  exact Dev.flag_setFlag_same _ _ _ _ (by decide) rfl

theorem Dev.latchCorr_busy : (s.latchCorr n).flag (sB n) SLICE_CORR_STATUS_BUSY = false := by
  unfold Dev.latchCorr
  rw [Dev.modSl_flag]
  exact Dev.flag_setFlag_same _ _ _ _ (by decide) rfl

theorem Dev.latchCorr_idle : ((s.latchCorr n).sl n).corr = .idle := congrArg Slice.corr (Dev.sl_modSl_same _ _ _)

theorem Dev.latchCorr_mem : (s.latchCorr n).mem = s.mem := by simp [Dev.latchCorr, Dev.latchSums]

/-- Beside what is latched, the end of a window is at most an event of its group. -/
theorem Dev.corrDone_same : (s.latchCorr n).SameButHost (s.corrDone n) := by
  unfold Dev.corrDone
  dsimp only
  split
  · exact Dev.sliceEvent_same _ _
  · exact .refl _

/-- A window that is over: results latched, DONE set, BUSY clear. -/
theorem Dev.corrDone_spec : ((s.corrDone n).sl n).corr = .idle ∧ (s.corrDone n).flag (sB n) SLICE_CORR_STATUS_DONE = true ∧
    (s.corrDone n).flag (sB n) SLICE_CORR_STATUS_BUSY = false ∧
    (s.corrDone n).rd (sB n + SLICE_CORR_NSAMP) = BitVec.ofNat 32 (s.sl n).corr.n ∧
    (s.corrDone n).rd64 (sB n + SLICE_CORR0_I_LO) (sB n + SLICE_CORR0_I_HI) = sumWord (s.sl n).corr.i0 ∧
    (s.corrDone n).rd64 (sB n + SLICE_CORR1_Q_LO) (sB n + SLICE_CORR1_Q_HI) = sumWord (s.sl n).corr.q1 ∧ (s.corrDone n).mem = s.mem := by
  have same := s.corrDone_same n
  have slice (a : Nat) : 0x80000 ≤ sB n + a := by simp only [sB, sliceBase]; omega
  have sum (lo hi : Nat) : (s.corrDone n).rd64 (sB n + lo) (sB n + hi) = (s.latchCorr n).rd64 (sB n + lo) (sB n + hi) := by
    unfold Dev.rd64
    rw [same.rd _ (.inr (slice lo)), same.rd _ (.inr (slice hi))]
  refine ⟨?idle, ?done, ?busy, ?nsamp, ?i0, ?q1, same.mem.trans (s.latchCorr_mem n)⟩
  case idle => rw [same.sl, Dev.latchCorr_idle]
  case done => rw [same.flag _ _ (.inr (slice _)), Dev.latchCorr_done]
  case busy => rw [same.flag _ _ (.inr (slice _)), Dev.latchCorr_busy]
  case nsamp => rw [same.rd _ (.inr (slice _)), Dev.latchCorr_nsamp]
  case i0 => rw [sum, Dev.latchCorr_sums _ _ (by decide) (by decide) (by decide) (by decide), Dev.latchSums_i0]
  case q1 => rw [sum, Dev.latchCorr_sums _ _ (by decide) (by decide) (by decide) (by decide), Dev.latchSums_q1]

end Latched

section CorrWrite

variable {s d : Dev} {n : SliceId} {v : Word}

/-- The mark of START 1 has already passed as the window is armed (R126). -/
def Dev.markPassed (s : Dev) (n : SliceId) : Bool := s.fld (sB n) SLICE_CORR_CTRL_START == 1 && s.corrMark n

/-- A window of slice `n` is armed, in the state `k`. -/
def Dev.armCorr (s : Dev) (n : SliceId) (k : Nat) : Dev :=
  ((s.modSl n (fun x => { x with corr := { Corr.idle with st := k } })).setFlag (sB n) SLICE_CORR_STATUS_BUSY true).setFlag
    (sB n) SLICE_CORR_STATUS_MARK_PASSED (s.markPassed n)

theorem Dev.corrWrite_arms (arm : v.getLsbD 0 = true) (hd : d = s.store (sB n + SLICE_CORR_CTRL) v)
    (start : d.fld (sB n) SLICE_CORR_CTRL_START ≠ 3) (src0 : d.fld (sB n) SLICE_CORR_CTRL_SRC0 < 6) (src1 : d.fld (sB n) SLICE_CORR_CTRL_SRC1 < 6)
    (some : d.fld (sB n) SLICE_CORR_CTRL_PERIODS ≠ 0) : s.corrWrite n v = d.armCorr n (if d.fld (sB n) SLICE_CORR_CTRL_START = 0 ∨
      (d.fld (sB n) SLICE_CORR_CTRL_START = 1 ∧ d.corrMark n = true) then 2 else 1) := by
  unfold Dev.corrWrite
  dsimp only
  rw [← hd, if_neg (by simp [arm, start, src0, src1]), if_neg (by simpa using some)]
  simp [Dev.armCorr, Dev.markPassed]

theorem Dev.corrWrite_no_periods (arm : v.getLsbD 0 = true) (hd : d = s.store (sB n + SLICE_CORR_CTRL) v)
    (start : d.fld (sB n) SLICE_CORR_CTRL_START ≠ 3) (src0 : d.fld (sB n) SLICE_CORR_CTRL_SRC0 < 6) (src1 : d.fld (sB n) SLICE_CORR_CTRL_SRC1 < 6)
    (none : d.fld (sB n) SLICE_CORR_CTRL_PERIODS = 0) :
    s.corrWrite n v = (d.modSl n (fun x => { x with corr := .idle })).corrDone n := by
  unfold Dev.corrWrite
  dsimp only
  rw [← hd, if_neg (by simp [arm, start, src0, src1]), if_pos (by simpa using none)]

theorem Dev.armCorr_busy (s : Dev) (n : SliceId) (k : Nat) : (s.armCorr n k).flag (sB n) SLICE_CORR_STATUS_BUSY = true := by
  unfold Dev.armCorr
  rw [Dev.flag_setFlag_bits _ _ _ SLICE_CORR_STATUS_MARK_PASSED SLICE_CORR_STATUS_BUSY _ rfl (by decide) (by decide)]
  exact Dev.flag_setFlag_same _ _ _ _ (by decide) rfl

theorem Dev.armCorr_passed (s : Dev) (n : SliceId) (k : Nat) :
    (s.armCorr n k).flag (sB n) SLICE_CORR_STATUS_MARK_PASSED = s.markPassed n := by
  unfold Dev.armCorr
  exact Dev.flag_setFlag_same _ _ _ _ (by decide) rfl

theorem Dev.armCorr_corr (s : Dev) (n : SliceId) (k : Nat) : ((s.armCorr n k).sl n).corr = { Corr.idle with st := k } := by
  simp [Dev.armCorr]

theorem Dev.armCorr_keeps {s t : Dev} {n : SliceId} {l : List Nat} (h : s.keeps t l) (k : Nat) (hs : sB n + SLICE_CORR_STATUS ∈ l) :
    s.keeps (t.armCorr n k) l := ((h.modSl n _).setFlag _ _ _ hs).setFlag _ _ _ hs

end CorrWrite

theorem exec_corrWindowOpen_ready {s : State} {n : SliceId} (hs : s.awake = true) (wrapped : (s.sl n).corr.wrapped = true)
    (ready : (s.sl n).corr.st = 2 ∨ ((s.sl n).corr.st = 1 ∧ s.fld (sB n) SLICE_CORR_CTRL_START = 1 ∧ s.corrMark n = true) ∨
      ((s.sl n).corr.st = 1 ∧ s.fld (sB n) SLICE_CORR_CTRL_START ≠ 1 ∧ s.corrGate n = true)) :
    exec (.corrWindowOpen n) s = .next (s.withDev (s.modSl n (fun x => { x with corr := { Corr.idle with st := 3 } }))) := by
  rw [exec_corrWindowOpen, execCorrWindowOpen, State.onAwake_of_awake _ _ hs]
  dsimp only
  rw [if_pos]
  rcases ready with st | ⟨st, start, mark⟩ | ⟨st, start, gate⟩
  · simp [st, wrapped]
  · simp [st, start, mark, wrapped]
  · simp [st, start, gate, wrapped]

theorem exec_corrWindowClose_over {s : State} {n : SliceId} (hs : s.awake = true) (isOpen : (s.sl n).corr.st = 3)
    (ended : s.fld (sB n) SLICE_CORR_CTRL_PERIODS ≤ (s.sl n).corr.periods ∨ 16777216 ≤ (s.sl n).corr.n ∨
      (s.fld (sB n) SLICE_CORR_CTRL_START = 2 ∧ (s.sl n).corr.wrapped = true ∧ s.corrGate n = false)) :
    exec (.corrWindowClose n) s = .next (s.withDev (s.corrDone n)) := by
  rw [exec_corrWindowClose, execCorrWindowClose, State.onAwake_of_awake _ _ hs]
  dsimp only
  rw [if_pos]
  rcases ended with periods | limit | ⟨start, wrapped, gate⟩
  · simp [isOpen, periods]
  · simp [isOpen, limit]
  · simp [isOpen, start, wrapped, gate]

/-- Settles O22: region and RD by `capRegionWrite_free` and `capRdWrite_forward`, what they refuse by `capRefuse_spec`; the record
filter by `recCfgWrite_applies`; MEAS_CFG by `measCfgWrite_applies`; the correlators by `corrWrite_arms` and `corrDone_spec`. -/
theorem measureRegistersKeepTheirRules : Obligations.MeasureRegistersKeepTheirRules := by
  unfold Obligations.MeasureRegistersKeepTheirRules
  refine ⟨⟨?moved, ?unaligned, ?forward, ?part⟩, ⟨?badLength, ?filter⟩, ⟨?ibEn, ?measCfg⟩, ⟨?armed, ?opens, ?closes⟩⟩
  case moved =>
    intro s g size v hs hg ok enable arm idle
    refine ⟨_, (exec_capRegionWrite g size v s).trans (State.onAwake_of_awake _ _ hs), ?_⟩
    rw [State.withDev_toDev, Dev.capRegionWrite_free hg ok enable arm idle]
    obtain ⟨wr, rd⟩ := s.moveRegion_empty g size v
    exact ⟨s.rd_moveRegion g size v, wr, rd, s.moveRegion_keeps g size v⟩
  case unaligned =>
    intro s g v hs hg h
    refine ⟨_, (exec_capRegionWrite g false v s).trans (State.onAwake_of_awake _ _ hs), ?_⟩
    rw [State.withDev_toDev, Dev.capRegionWrite_unaligned hg h]
    obtain ⟨refused, kept, -⟩ := s.capRefuse_spec g
    exact ⟨refused, kept⟩
  case forward =>
    intro s g v hs hg whole lt le idle
    refine ⟨_, (exec_capRdWrite g v s).trans (State.onAwake_of_awake _ _ hs), ?_⟩
    rw [State.withDev_toDev, Dev.capRdWrite_forward hg whole lt le idle]
    exact ⟨(Dev.rd_showFull _ _ (by simp)).trans (Dev.rd_wr_same _ _ _), ((Dev.keeps_refl _ _).wr _ _ (by simp)).showFull g (by simp)⟩
  case part =>
    intro s g v hs hg h
    refine ⟨_, (exec_capRdWrite g v s).trans (State.onAwake_of_awake _ _ hs), ?_⟩
    rw [State.withDev_toDev, Dev.capRdWrite_part hg h]
    obtain ⟨refused, kept, -⟩ := s.capRefuse_spec g
    exact ⟨refused, kept⟩
  case badLength =>
    intro s g v hs hg h
    have bad : badLength v := by unfold badLength; tauto
    refine ⟨_, (exec_recCfgWrite g v s).trans (State.onAwake_of_awake _ _ hs), ?_⟩
    rw [State.withDev_toDev, Dev.recCfgWrite_refused hg bad]
    exact s.capRefuse_spec g
  case filter =>
    intro s g v hs hg mean sinc
    have good : ¬ badLength v := by unfold badLength; tauto
    refine ⟨_, (exec_recCfgWrite g v s).trans (State.onAwake_of_awake _ _ hs), ?_⟩
    rw [State.withDev_toDev, Dev.recCfgWrite_applies hg good]
    have closed := s.closeOpen_keeps (s.members g.val)
    refine ⟨?word, ?kept, fun n hn => ?started⟩
    case word =>
      rw [Dev.each_keeps (fun d : Dev => d.rd (sB g + SLICE_REC_CFG)) (fun d n => Dev.modSl_rd d n _ _)]
      exact Dev.rd_store_congr (closed.1 _ (by simp)) v
    case kept =>
      exact ((closed.mono (by simp)).store _ v (by simp)).each _ (fun d n => (Dev.keeps_refl d _).modSl n _)
    case started =>
      exact Dev.each_modSl_forall (p := fun x => x.wCount = 0 ∧ x.fV = .zero ∧ x.wOpen = false ∧
        x.wNext = (decide (getBits v.toNat 0 2 = 3) && s.stationRuns g)) (fun x => ⟨rfl, rfl, rfl, rfl⟩) (.inl hn)
  case ibEn =>
    intro s n v hs hp hb
    refine ⟨_, (exec_measCfgWrite n v s).trans (State.onAwake_of_awake _ _ hs), ?_⟩
    rw [State.withDev_toDev, Dev.measCfgWrite_refused hp hb]
    exact ⟨Dev.flag_setFlag_same _ _ _ _ (by decide) rfl, (Dev.keeps_refl _ _).setFlag _ _ _ (by simp), Dev.setFlag_slices _ _ _ _⟩
  case measCfg =>
    intro s n v hs h
    refine ⟨_, (exec_measCfgWrite n v s).trans (State.onAwake_of_awake _ _ hs), ?_⟩
    rw [State.withDev_toDev, Dev.measCfgWrite_applies h]
    have driven := (Dev.keeps_refl (s.store (sB n + SLICE_MEAS_CFG) v) [sB n + SLICE_RANGE_STATUS, sB n + SLICE_RG_NOW]).driveNow n
      (by simp) (by simp)
    exact ⟨driven.1 _ (by simp), ((Dev.keeps_refl s.toDev _).store _ v (by simp)).driveNow n (by simp) (by simp)⟩
  case armed =>
    intro s n v d hs arm hd start src0 src1
    refine ⟨fun some => ?waits, fun none => ?atOnce⟩
    case waits =>
      refine ⟨_, (exec_corrArm n v s).trans (State.onAwake_of_awake _ _ hs), ?_⟩
      rw [State.withDev_toDev, Dev.corrWrite_arms arm hd start src0 src1 some]
      refine ⟨d.armCorr_busy n _, d.armCorr_corr n _, d.armCorr_passed n _, Dev.armCorr_keeps ?_ _ (by simp)⟩
      rw [hd]
      exact (Dev.keeps_refl _ _).store _ v (by simp)
    case atOnce =>
      refine ⟨_, (exec_corrArm n v s).trans (State.onAwake_of_awake _ _ hs), ?_⟩
      rw [State.withDev_toDev, Dev.corrWrite_no_periods arm hd start src0 src1 none]
      obtain ⟨idle, done, busy, nsamp, -, -, memory⟩ := (d.modSl n (fun x => { x with corr := .idle })).corrDone_spec n
      refine ⟨done, busy, idle, ?_, ?_⟩
      · rw [nsamp, Dev.sl_modSl_same]
        rfl
      · rw [memory, Dev.modSl_mem, hd, Dev.store_mem]
  case opens =>
    intro s n hs wrapped ready
    exact ⟨_, exec_corrWindowOpen_ready hs wrapped ready, congrArg Slice.corr (Dev.sl_modSl_same _ _ _), (Dev.keeps_refl _ _).modSl n _⟩
  case closes =>
    intro s n hs isOpen ended
    obtain ⟨idle, done, busy, nsamp, i0, q1, memory⟩ := s.corrDone_spec n
    exact ⟨_, exec_corrWindowClose_over hs isOpen ended, idle, done, busy, nsamp, i0, q1, memory⟩

end Sys2Proof.Machine

namespace Sys2Proof.Machine
open Sys2Proof

/-! ## What range changes leave as it is (R131 to R150) -/

theorem Dev.keeps.fld {s t : Dev} {l : List Nat} (h : s.keeps t l) {b : Nat} {f : Fld} (k : b + f.off ∉ l) : t.fld b f = s.fld b f := by
  unfold Dev.fld
  rw [h.1 _ k]

theorem Dev.keeps.flag {s t : Dev} {l : List Nat} (h : s.keeps t l) {b : Nat} {f : Fld} (k : b + f.off ∉ l) : t.flag b f = s.flag b f := by
  unfold Dev.flag
  rw [h.fld k]

/-- What of a slice outlasts a change of its ranges: its step, its hold, the setpoint and the voltage range that wait, and its limit
sets. -/
def Slice.course (x : Slice) : Option RStep × Option Nat × Option Word × Option Nat × LimSet × LimSet :=
  (x.rstep, x.vhold, x.spWait, x.vWait, x.limits, x.limGood)

/-- A change that writes no register word but those of `l`, takes no cycle, and leaves every slice's course and the commands that wait. -/
structure Dev.SameCourse (l : List Nat) (s t : Dev) : Prop where
  keeps  : s.keeps t l
  course : ∀ m, (t.sl m).course = (s.sl m).course
  now    : t.now = s.now
  sched  : t.sched = s.sched

namespace Dev.SameCourse

variable {l : List Nat} {s t u : Dev}

theorem refl (l : List Nat) (s : Dev) : SameCourse l s s := ⟨s.keeps_refl l, fun _ => rfl, rfl, rfl⟩

theorem trans (h : SameCourse l s t) (k : SameCourse l t u) : SameCourse l s u :=
  ⟨h.keeps.trans k.keeps, fun m => (k.course m).trans (h.course m), k.now.trans h.now, k.sched.trans h.sched⟩

theorem mono (h : SameCourse l s t) {l' : List Nat} (k : l ⊆ l') : SameCourse l' s t := { h with keeps := h.keeps.mono k }

theorem wr (h : SameCourse l s t) (a : Nat) (v : Word) (ha : a ∈ l) : SameCourse l s (t.wr a v) := { h with keeps := h.keeps.wr a v ha }

theorem setFld (h : SameCourse l s t) (b : Nat) (f : Fld) (v : Nat) (ha : b + f.off ∈ l) : SameCourse l s (t.setFld b f v) := h.wr _ _ ha

theorem setFlag (h : SameCourse l s t) (b : Nat) (f : Fld) (v : Bool) (ha : b + f.off ∈ l) : SameCourse l s (t.setFlag b f v) := h.wr _ _ ha

theorem modSl (h : SameCourse l s t) (n : SliceId) (f : Slice → Slice) (hf : ∀ x, (f x).course = x.course := by intro x; rfl) :
    SameCourse l s (t.modSl n f) := by
  refine { h with keeps := h.keeps.modSl n f, course := fun m => Eq.trans ?_ (h.course m) }
  by_cases e : n = m
  · subst e
    rw [Dev.sl_modSl_same, hf]
  · rw [Dev.sl_modSl_other _ _ _ _ e]

theorem modGen (h : SameCourse l s t) (n : SliceId) (f : Gen → Gen) : SameCourse l s (t.modGen n f) := { h with keeps := h.keeps.modGen n f }

theorem ite {c : Prop} [Decidable c] (h : SameCourse l s t) (k : SameCourse l s u) : SameCourse l s (if c then t else u) := by
  split
  · exact h
  · exact k

theorem each {α : Type} (xs : List α) {f : Dev → α → Dev} (hf : ∀ (d : Dev), ∀ x ∈ xs, SameCourse l d (f d x)) (h : SameCourse l s t) :
    SameCourse l s (t.each xs f) := by
  unfold Dev.each
  induction xs generalizing t with
  | nil => exact h
  | cons x xs ih => exact ih (fun d y hy => hf d y (List.mem_cons_of_mem x hy)) (h.trans (hf t x List.mem_cons_self))

theorem fld (h : SameCourse l s t) {b : Nat} {f : Fld} (k : b + f.off ∉ l) : t.fld b f = s.fld b f := h.keeps.fld k

theorem rstep (h : SameCourse l s t) (m : SliceId) : (t.sl m).rstep = (s.sl m).rstep := congrArg (·.1) (h.course m)
theorem vhold (h : SameCourse l s t) (m : SliceId) : (t.sl m).vhold = (s.sl m).vhold := congrArg (·.2.1) (h.course m)
theorem spWait (h : SameCourse l s t) (m : SliceId) : (t.sl m).spWait = (s.sl m).spWait := congrArg (·.2.2.1) (h.course m)
theorem vWait (h : SameCourse l s t) (m : SliceId) : (t.sl m).vWait = (s.sl m).vWait := congrArg (·.2.2.2.1) (h.course m)
theorem limits (h : SameCourse l s t) (m : SliceId) : (t.sl m).limits = (s.sl m).limits := congrArg (·.2.2.2.2.1) (h.course m)
theorem limGood (h : SameCourse l s t) (m : SliceId) : (t.sl m).limGood = (s.sl m).limGood := congrArg (·.2.2.2.2.2) (h.course m)
theorem mem (h : SameCourse l s t) : t.mem = s.mem := h.keeps.2.1
theorem plates (h : SameCourse l s t) : t.plates = s.plates := h.keeps.2.2.2

end Dev.SameCourse

/-- The registers that a rescaling of slice `n` writes beside RANGE_STATUS: what its generator shows, and its outer output (R137). -/
def rescaleRegs (n : SliceId) : List Nat := [gB n + GEN_CONTOUR_POS, gB n + GEN_CONTOUR_VEL, gB n + GEN_CONTOUR_ACC,
  gB n + GEN_CONTOUR_TARGET, gB n + GEN_CONTOUR_STATUS_BUSY.off, sB n + SLICE_OUTER_Y]

/-- Of the registers of slices the outer output alone is among them. -/
theorem not_mem_rescaleRegs (n m : SliceId) {k : Nat} (h : k ≠ SLICE_OUTER_Y) (lt : k < 0x10000) : sB m + k ∉ rescaleRegs n := by
  have := m.isLt
  have := n.isLt
  simp only [rescaleRegs, List.mem_cons, List.not_mem_nil, or_false, sB, gB, sliceBase, genBase] at *
  simp only [GEN_CONTOUR_POS, GEN_CONTOUR_VEL, GEN_CONTOUR_ACC, GEN_CONTOUR_TARGET, SLICE_OUTER_Y] at *
  omega

theorem Dev.modCon_course (s : Dev) (n : SliceId) (f : Contour → Contour) : SameCourse (rescaleRegs n) s (s.modCon n f) := by
  unfold Dev.modCon Dev.showContour
  exact ((((((SameCourse.refl _ s).modGen n _).wr _ _ (by simp [rescaleRegs])).wr _ _ (by simp [rescaleRegs])).wr _ _
    (by simp [rescaleRegs])).wr _ _ (by simp [rescaleRegs])).setFlag _ _ _ (by simp [rescaleRegs])

theorem Dev.convertLimits_course (l : List Nat) (s : Dev) (n : SliceId) : SameCourse l s (s.convertLimits n) := by
  unfold Dev.convertLimits; exact (SameCourse.refl l s).modSl n _

theorem Dev.scaleForced_course (s : Dev) (n : SliceId) (old new : Int) (sp : Bool) :
    SameCourse (rescaleRegs n) s (s.scaleForced n old new sp) := by
  have scaled := ((SameCourse.refl (rescaleRegs n) s).modSl n (fun x => { x with sp := if sp then .of (scaleWord x.sp.v old new) else x.sp
                                                                                 tapsM := x.tapsM.scaleErr old new })).trans
    (Dev.modCon_course _ n (fun c => c.scale old new))
  exact scaled.ite ((scaled.modSl n _).wr _ _ (by simp [rescaleRegs]))

/-- A current range that comes into force rescales what is held in fractions of it, and does nothing else (R137). -/
theorem Dev.rescaleI_course (s : Dev) (n : SliceId) (k : Nat) :
    SameCourse (rescaleRegs n) (s.setFld (sB n) SLICE_RANGE_STATUS_IRANGE k) (s.rescaleI n k) := by
  have shown := (SameCourse.refl (rescaleRegs n) (s.setFld (sB n) SLICE_RANGE_STATUS_IRANGE k)).modSl n (fun x => { x with runs := [] })
  exact .trans (.ite (shown.trans (Dev.scaleForced_course _ n _ _ true)) (shown.modSl n _)) (Dev.convertLimits_course _ _ n)

/-- Slice `n` shows the voltage range `v`, its hold over. -/
def Dev.showV (s : Dev) (n : SliceId) (v : Nat) : Dev :=
  ((s.setFld (sB n) SLICE_RANGE_STATUS_VRANGE v).modSl n (fun x => { x with vhold := none, runs := [] })).setFlag
    (sB n) SLICE_RANGE_STATUS_VHOLD_ACTIVE false

/-- A voltage range that comes into force ends its hold, and rescales what is held in fractions of it (R142). -/
theorem Dev.rescaleV_course (s : Dev) (n : SliceId) (v : Nat) : SameCourse (rescaleRegs n) (s.showV n v) (s.rescaleV n v) := by
  have shown := SameCourse.refl (rescaleRegs n) (s.showV n v)
  exact .trans (.ite (Dev.scaleForced_course _ n _ _ true) (.ite (shown.modSl n _) (shown.modSl n _))) (Dev.convertLimits_course _ _ n)

theorem Dev.driveRg_course (s : Dev) (n : SliceId) (p : Nat) : SameCourse [sB n + SLICE_RG_NOW] s (s.driveRg n p) :=
  .ite ((SameCourse.refl _ s).modSl n _) (((SameCourse.refl _ s).modSl n _).setFld _ SLICE_RG_NOW_PATTERN _ (by simp))

/-- Driving the pattern of now shows the standby range, and the pattern. -/
theorem Dev.driveNow_course (s : Dev) (n : SliceId) :
    SameCourse [sB n + SLICE_RG_NOW] (s.setFld (sB n) SLICE_RANGE_STATUS_STANDBY (s.ipatNow n).2) (s.driveNow n) := by
  unfold Dev.driveNow
  dsimp only
  split
  · exact .refl _ _
  · exact .refl _ _
  · exact Dev.driveRg_course _ n _

/-- The thresholds and the input of the clamps are what CLAMP_STATUS shows (R148). -/
theorem Dev.loadThr_course (s : Dev) (n : SliceId) : SameCourse [sB n + SLICE_CLAMP_STATUS] s (s.loadThr n) := by
  have r := SameCourse.refl [sB n + SLICE_CLAMP_STATUS] s
  have loaded : SameCourse [sB n + SLICE_CLAMP_STATUS] s (if (s.sl n).dropThr then s.modSl n (fun y => { y with dropThr := false })
      else (s.setFld (sB n) SLICE_CLAMP_STATUS_THR_HI (s.thresholds n).1).setFld (sB n) SLICE_CLAMP_STATUS_THR_LO (s.thresholds n).2) :=
    .ite (r.modSl n _) ((r.setFld _ _ _ (by simp)).setFld _ _ _ (by simp))
  exact .ite loaded (.ite (loaded.modSl n _) (loaded.setFld _ _ _ (by simp)))

end Sys2Proof.Machine

namespace Sys2Proof.Machine
open Sys2Proof

/-! ## Handover phases, the voltage hold and the reload of limits (R134 to R146, R154) -/

/-- What each change of a list gives to its own element, and no other takes away, all of them have after them. -/
theorem Dev.each_forall {α : Type} {f : Dev → α → Dev} {p : α → Dev → Prop} (gives : ∀ d x, p x (f d x))
    (keeps : ∀ d x y, p y d → p y (f d x)) {xs : List α} {y : α} {s : Dev} (h : y ∈ xs ∨ p y s) : p y (s.each xs f) := by
  unfold Dev.each
  induction xs generalizing s with
  | nil => simpa using h
  | cons x xs ih =>
    refine ih (Or.imp_right ?_ (or_assoc.mp (h.imp_left List.mem_cons.mp |>.imp_left Or.symm)))
    rintro (rfl | h)
    · exact gives s y
    · exact keeps s x y h

/-- Words of slices at different offsets, or of different slices, are different words. -/
theorem sB_add_ne {n m : SliceId} {a b : Nat} (ha : a < 0x10000) (hb : b < 0x10000) (h : a ≠ b ∨ n ≠ m) : sB n + a ≠ sB m + b := by
  simp only [sB, sliceBase, ne_eq, Fin.ext_iff] at *
  omega

theorem Dev.gang_of_plates {s t : Dev} (h : t.plates = s.plates) (n : SliceId) : t.gang n = s.gang n := by
  unfold Dev.gang Dev.groupOf
  rw [h]

/-! ### The steps of a handover -/

/-- OVERLAP begins on slice `n`. -/
def Dev.beginOverlap (s : Dev) (n : SliceId) : Dev := (s.setFld (sB n) SLICE_RANGE_STATUS_PHASE 2).loadThr n

theorem Dev.beginOverlap_course (s : Dev) (n : SliceId) :
    SameCourse [sB n + SLICE_RANGE_STATUS, sB n + SLICE_CLAMP_STATUS] s (s.beginOverlap n) :=
  ((SameCourse.refl _ s).setFld _ _ _ (by simp)).trans ((Dev.loadThr_course _ n).mono (by simp))

theorem Dev.beginOverlap_phase (s : Dev) (n : SliceId) : (s.beginOverlap n).fld (sB n) SLICE_RANGE_STATUS_PHASE = 2 :=
  ((Dev.loadThr_course _ n).fld (by simp)).trans (Dev.fld_setFld_same _ _ _ _ (by decide))

theorem Dev.beginOverlap_phase_kept (s : Dev) (n m : SliceId) (h : s.fld (sB m) SLICE_RANGE_STATUS_PHASE = 2) :
    (s.beginOverlap n).fld (sB m) SLICE_RANGE_STATUS_PHASE = 2 := by
  by_cases e : n = m
  · rw [← e, Dev.beginOverlap_phase]
  · rw [(s.beginOverlap_course n).fld ?other, h]
    case other =>
      have status := sB_add_ne (a := SLICE_RANGE_STATUS) (b := SLICE_RANGE_STATUS) (by decide) (by decide) (.inr (Ne.symm e))
      have clamp := sB_add_ne (n := m) (m := n) (a := SLICE_RANGE_STATUS) (b := SLICE_CLAMP_STATUS) (by decide) (by decide) (.inl (by decide))
      simp only [List.mem_cons, List.not_mem_nil, or_false, not_or]
      exact ⟨status, clamp⟩

/-- OVERLAP begins on the slices of a list: each shows it, none loses its step, and no register changes but the two that show a
range change and its clamps. -/
theorem Dev.each_beginOverlap (s : Dev) (ns : List SliceId) :
    (∀ m ∈ ns, (s.each ns Dev.beginOverlap).fld (sB m) SLICE_RANGE_STATUS_PHASE = 2) ∧
    SameCourse (ns.map (fun m => sB m + SLICE_RANGE_STATUS) ++ ns.map (fun m => sB m + SLICE_CLAMP_STATUS)) s (s.each ns Dev.beginOverlap) := by
  refine ⟨fun m mem => ?shown, .each ns (fun d m mem => (d.beginOverlap_course m).mono ?words) (.refl _ s)⟩
  case shown =>
    exact Dev.each_forall (p := fun n d => d.fld (sB n) SLICE_RANGE_STATUS_PHASE = 2) Dev.beginOverlap_phase Dev.beginOverlap_phase_kept
      (.inl mem)
  case words =>
    intro a ha
    simp only [List.mem_cons, List.not_mem_nil, or_false] at ha
    rcases ha with rfl | rfl
    · exact List.mem_append_left _ (List.mem_map.mpr ⟨m, mem, rfl⟩)
    · exact List.mem_append_right _ (List.mem_map.mpr ⟨m, mem, rfl⟩)

/-- HANDOVER_PREPARE_END in PREPARE of a step with an overlap. -/
theorem exec_handoverPrepareEnd_due {s : State} {n : SliceId} {st : RStep} (hs : s.awake = true) (step : s.stepOf n = some st)
    (two : st.solo = false) (phase : s.phase (s.owner n) = 1) :
    exec (.handoverPrepareEnd n) s = .next (s.withDev ((s.upTo st.endAt).each (s.gang n) Dev.beginOverlap)) := by
  rw [exec_handoverPrepareEnd, execHandoverPrepareEnd, State.onAwake_of_awake _ _ hs]
  simp only [step, two, phase, bne_self_eq_false, Bool.or_self, Bool.false_eq_true, if_false]
  rfl

/-! ### Ranges in force -/

section InForce

variable (s : Dev) (n : SliceId) (k : Nat)

theorem Dev.rescaleI_same : SameCourse ((sB n + SLICE_RANGE_STATUS) :: rescaleRegs n) s (s.rescaleI n k) :=
  ((SameCourse.refl _ s).setFld _ _ _ (by simp)).trans ((s.rescaleI_course n k).mono (by simp))

theorem Dev.rescaleI_irange (h : k < 16) : (s.rescaleI n k).irange n = k :=
  ((s.rescaleI_course n k).fld (not_mem_rescaleRegs n n (by decide) (by decide))).trans
    ((Dev.fld_setFld_same _ _ _ _ (by decide)).trans (Nat.mod_eq_of_lt h))

theorem Dev.rescaleI_target : (s.rescaleI n k).fld (sB n) SLICE_RANGE_STATUS_TARGET = s.fld (sB n) SLICE_RANGE_STATUS_TARGET :=
  ((s.rescaleI_course n k).fld (not_mem_rescaleRegs n n (by decide) (by decide))).trans
    (Dev.fld_setFld_beside _ _ _ _ _ rfl (by decide) (by decide))

/-- A rescaling of slice `n` leaves its force mode. -/
theorem mode_not_mem_rescale : sB n + SLICE_FORCE_STATUS ∉ (sB n + SLICE_RANGE_STATUS) :: rescaleRegs n := by
  simpa using not_mem_rescaleRegs n n (k := SLICE_FORCE_STATUS) (by decide) (by decide)

theorem Dev.rescaleI_mode : (s.rescaleI n k).mode n = s.mode n := (s.rescaleI_same n k).fld (mode_not_mem_rescale n)

theorem Dev.showV_spec (h : k < 4) : (s.showV n k).vrange n = k ∧ ((s.showV n k).sl n).vhold = none ∧
    (s.showV n k).flag (sB n) SLICE_RANGE_STATUS_VHOLD_ACTIVE = false := by
  unfold Dev.showV Dev.vrange
  refine ⟨?_, by simp, Dev.flag_setFlag_same _ _ _ _ (by decide) rfl⟩
  rw [Dev.setFlag, Dev.fld_setFld_beside _ _ SLICE_RANGE_STATUS_VHOLD_ACTIVE SLICE_RANGE_STATUS_VRANGE _ rfl (by decide) (by decide), Dev.modSl_fld, Dev.fld_setFld_same _ _ _ _ (by decide)]
  exact Nat.mod_eq_of_lt (by simp only; omega)

/-- The voltage range is in force, its hold over, and nothing shows one (R142). -/
theorem Dev.rescaleV_spec (h : k < 4) : (s.rescaleV n k).vrange n = k ∧ ((s.rescaleV n k).sl n).vhold = none ∧
    (s.rescaleV n k).flag (sB n) SLICE_RANGE_STATUS_VHOLD_ACTIVE = false := by
  obtain ⟨range, hold, shown⟩ := s.showV_spec n k h
  have same := s.rescaleV_course n k
  have status : sB n + SLICE_RANGE_STATUS ∉ rescaleRegs n := not_mem_rescaleRegs n n (by decide) (by decide)
  exact ⟨(same.fld status).trans range, (same.vhold n).trans hold, (same.keeps.flag status).trans shown⟩

/-- At the end of a hold the new range is in force and the pins are driven; what waits on the slice, and its mode, stay. -/
theorem Dev.endHold_waits : ((((s.rescaleV n k).driveNow n).sl n).spWait = (s.sl n).spWait ∧
    (((s.rescaleV n k).driveNow n).sl n).vWait = (s.sl n).vWait) ∧ ((s.rescaleV n k).driveNow n).mode n = s.mode n := by
  have range := s.rescaleV_course n k
  have driven := (s.rescaleV n k).driveNow_course n
  have still : (s.showV n k).sl n = { s.sl n with vhold := none, runs := [] } := by simp [Dev.showV]
  refine ⟨⟨?_, ?_⟩, ?_⟩
  · rw [driven.spWait, Dev.setFld_sl, range.spWait, still]
  · rw [driven.vWait, Dev.setFld_sl, range.vWait, still]
  · rw [Dev.mode, driven.fld (by simp), Dev.fld_setFld_unit _ _ _ SLICE_FORCE_STATUS_MODE _ (by decide), range.fld (not_mem_rescaleRegs n n (by decide) (by decide)),
      Dev.showV, Dev.setFlag, Dev.fld_setFld_unit _ _ _ SLICE_FORCE_STATUS_MODE _ (by decide), Dev.modSl_fld, Dev.fld_setFld_unit _ _ _ SLICE_FORCE_STATUS_MODE _ (by decide)]
    rfl

end InForce

/-! ### A solo switch, the end of a step, and tick VHOLD -/

/-- SOLO_SWITCH_END at or after the switch, on a slice that acts alone. -/
theorem exec_soloSwitchEnd_due {s : State} {n : SliceId} {st : RStep} (hs : s.awake = true) (owner : s.owner n = n) (alone : s.gang n = [n])
    (step : (s.sl n).rstep = some st) (solo : st.solo = true) (due : st.endAt ≤ (s.eng (s.low n)).tickAt + s.slotDelay n) :
    ((s.sl n).spWait = none ∨ s.mode n ≠ 1 → exec (.soloSwitchEnd n) s = .next (s.withDev ((s.rescaleI n st.into).stepOver n))) ∧
    (∀ w, (s.sl n).spWait = some w → s.mode n = 1 → st.into < 16 → s.fld (sB n) SLICE_RANGE_STATUS_TARGET = st.into →
      exec (.soloSwitchEnd n) s = .next (s.withDev (((s.rescaleI n st.into).takeSp n w).stepOver n))) := by
  have waits : ((s.rescaleI n st.into).sl n).spWait = (s.sl n).spWait := (s.rescaleI_same n st.into).spWait n
  rw [exec_soloSwitchEnd, execSoloSwitchEnd, State.onAwake_of_awake _ _ hs]
  simp only [owner, step, solo, alone, Dev.each_one, waits, Dev.rescaleI_mode, Dev.rescaleI_target, Nat.not_lt.mpr due]
  refine ⟨?free, fun w hw mode small target => ?takes⟩
  case free =>
    rintro (none | other)
    · simp [none]
    · cases e : (s.sl n).spWait <;> simp [other]
  case takes => simp [hw, mode, target, Dev.rescaleI_irange _ _ _ small]

/-- Slice `n` is in a step no more: the steady pattern drives its pins. -/
def Dev.leaveOne (s : Dev) (n : SliceId) : Dev :=
  (((s.modSl n (fun x => { x with rstep := none, downRun := 0 })).setFld (sB n) SLICE_RANGE_STATUS_PHASE 0).driveNow n).loadThr n

/-- All slices that act with `o` are in a step no more, and it counts. -/
def Dev.leaveStep (s : Dev) (o : SliceId) : Dev := (s.each (s.gang o) Dev.leaveOne).addFld (sB o) SLICE_RANGE_COUNT_STEPS 1

/-- A force-I setpoint that waits on slice `o` takes effect (R138). -/
def Dev.takeWaiting (s : Dev) (o : SliceId) : Dev :=
  match (s.sl o).spWait with
  | some w => if s.mode o == 1 then s.takeSp o w else s
  | none => s

/-- After a step the chain is over, or its next step begins. -/
theorem Dev.stepOver_eq (s : Dev) (o : SliceId) : s.stepOver o =
    if (s.leaveStep o).fld (sB o) SLICE_RANGE_STATUS_TARGET == (s.leaveStep o).irange o then ((s.leaveStep o).takeWaiting o).endRangePart o OK
    else ((s.leaveStep o).upTo ((s.leaveStep o).now + 1)).each ((s.leaveStep o).gang o)
      (fun d m => d.beginStep m ((s.leaveStep o).fld (sB o) SLICE_RANGE_STATUS_TARGET) false) := rfl

/-- A field of RANGE_STATUS other than STANDBY outlasts what drives the pins and loads the thresholds. -/
theorem Dev.driven_rangeStatus (s : Dev) (n : SliceId) (f : Fld) (off : f.off = SLICE_RANGE_STATUS) (beside : f.lo + f.w ≤ 8 ∨ 12 ≤ f.lo) :
    ((s.driveNow n).loadThr n).fld (sB n) f = s.fld (sB n) f := by
  rw [(Dev.loadThr_course _ n).fld (by simp [off]), (Dev.driveNow_course _ n).fld (by simp [off])]
  exact Dev.fld_setFld_beside _ _ _ _ _ off.symm (by decide) beside

/-- What driving the pins of slice `n` leaves, and then loading its thresholds. -/
theorem Dev.driven_pins (s : Dev) (n : SliceId) : SameCourse [sB n + SLICE_RANGE_STATUS, sB n + SLICE_RG_NOW] s (s.driveNow n) :=
  ((SameCourse.refl _ s).setFld _ _ _ (by simp)).trans ((s.driveNow_course n).mono (by simp))

theorem Dev.driven_course (s : Dev) (n : SliceId) :
    SameCourse [sB n + SLICE_RANGE_STATUS, sB n + SLICE_RG_NOW, sB n + SLICE_CLAMP_STATUS] s ((s.driveNow n).loadThr n) :=
  ((s.driven_pins n).mono (by simp)).trans ((Dev.loadThr_course _ n).mono (by simp))

section Leave

variable {s : Dev} {o : SliceId} (alone : s.gang o = [o])

include alone

theorem Dev.leaveStep_alone : s.leaveStep o = (s.leaveOne o).addFld (sB o) SLICE_RANGE_COUNT_STEPS 1 := by
  rw [Dev.leaveStep, alone, Dev.each_one]

theorem Dev.leaveStep_rangeStatus (f : Fld) (off : f.off = SLICE_RANGE_STATUS) (beside : f.lo + f.w ≤ 8 ∨ 12 ≤ f.lo) :
    (s.leaveStep o).fld (sB o) f = (s.setFld (sB o) SLICE_RANGE_STATUS_PHASE 0).fld (sB o) f := by
  rw [Dev.leaveStep_alone alone, Dev.addFld, Dev.fld_setFld_unit _ _ _ _ _ (by rw [off]; decide), Dev.leaveOne,
    Dev.driven_rangeStatus _ _ _ off beside]
  rfl

theorem Dev.leaveStep_phase : (s.leaveStep o).fld (sB o) SLICE_RANGE_STATUS_PHASE = 0 :=
  (Dev.leaveStep_rangeStatus alone _ rfl (by decide)).trans (Dev.fld_setFld_same _ _ _ _ (by decide))

theorem Dev.leaveStep_irange : (s.leaveStep o).irange o = s.irange o :=
  (Dev.leaveStep_rangeStatus alone _ rfl (by decide)).trans (Dev.fld_setFld_beside _ _ _ _ _ rfl (by decide) (by decide))

theorem Dev.leaveStep_target : (s.leaveStep o).fld (sB o) SLICE_RANGE_STATUS_TARGET = s.fld (sB o) SLICE_RANGE_STATUS_TARGET :=
  (Dev.leaveStep_rangeStatus alone _ rfl (by decide)).trans (Dev.fld_setFld_beside _ _ _ _ _ rfl (by decide) (by decide))

theorem Dev.leaveStep_steps : (s.leaveStep o).fld (sB o) SLICE_RANGE_COUNT_STEPS = (s.fld (sB o) SLICE_RANGE_COUNT_STEPS + 1) % 65536 := by
  rw [Dev.leaveStep_alone alone, Dev.addFld, Dev.fld_setFld_same _ _ _ _ (by decide), Dev.leaveOne, (Dev.driven_course _ o).fld (by simp),
    Dev.fld_setFld_unit _ _ _ _ _ (by decide), Dev.modSl_fld]
  rfl

theorem Dev.leaveStep_rstep : ((s.leaveStep o).sl o).rstep = none := by
  rw [Dev.leaveStep_alone alone, Dev.addFld, Dev.setFld_sl, Dev.leaveOne, (Dev.driven_course _ o).rstep, Dev.setFld_sl, Dev.sl_modSl_same]

theorem Dev.leaveStep_spWait : ((s.leaveStep o).sl o).spWait = (s.sl o).spWait := by
  rw [Dev.leaveStep_alone alone, Dev.addFld, Dev.setFld_sl, Dev.leaveOne, (Dev.driven_course _ o).spWait, Dev.setFld_sl, Dev.sl_modSl_same]

theorem Dev.leaveStep_sched : (s.leaveStep o).sched = s.sched := by
  rw [Dev.leaveStep_alone alone, Dev.addFld, Dev.setFld_sched, Dev.leaveOne, (Dev.driven_course _ o).sched, Dev.setFld_sched, Dev.modSl_sched]

/-- The end of a chain's last step, with no setpoint and no command that wait. -/
theorem Dev.stepOver_last (last : s.fld (sB o) SLICE_RANGE_STATUS_TARGET = s.irange o) (none : (s.sl o).spWait = none) (idle : s.sched = []) :
    s.stepOver o = s.leaveStep o := by
  have waiting : (s.leaveStep o).takeWaiting o = s.leaveStep o := by simp [Dev.takeWaiting, Dev.leaveStep_spWait alone, none]
  rw [Dev.stepOver_eq, if_pos (by simp [Dev.leaveStep_target alone, Dev.leaveStep_irange alone, last]), waiting]
  exact Dev.resolve_none ((Dev.leaveStep_sched alone).trans idle) _ _ _ _ _

end Leave

/-- VRANGE_HOLD_END at tick VHOLD of a hold on a slice that acts alone. -/
theorem exec_vrangeHoldEnd_due {s : State} {n : SliceId} {k : Nat} (hs : s.awake = true) (owner : s.owner n = n) (alone : s.gang n = [n])
    (hold : (s.sl n).vhold = some k) (due : s.fld (sB n) SLICE_RANGE_CFG_VHOLD ≤ k) :
    ((s.sl n).spWait = none ∨ s.mode n ≠ 0 ∨ (s.sl n).vWait.isSome = true →
      exec (.vrangeHoldEnd n) s = .next (s.withDev (((s.rescaleV n (s.sl n).vNew).driveNow n).endVoltPart n))) ∧
    (∀ w, (s.sl n).spWait = some w → s.mode n = 0 → (s.sl n).vWait = none →
      exec (.vrangeHoldEnd n) s = .next (s.withDev ((((s.rescaleV n (s.sl n).vNew).driveNow n).takeSp n w).endVoltPart n))) := by
  obtain ⟨⟨spWait, vWait⟩, mode⟩ := s.endHold_waits n (s.sl n).vNew
  rw [exec_vrangeHoldEnd, execVrangeHoldEnd, State.onAwake_of_awake _ _ hs]
  simp only [owner, hold, Nat.not_lt.mpr due, if_false, alone, Dev.each_one, spWait, vWait, mode]
  refine ⟨?free, fun w hw force idle => by simp [hw, force, idle]⟩
  rintro (none | other | waiting)
  · simp [none]
  · cases e : (s.sl n).spWait <;> simp [other]
  · cases e : (s.sl n).spWait <;> simp [Option.isNone_eq_false_iff.mpr waiting]

/-! ### Ladder patterns and limit sets -/

theorem exec_vrangeHoldEnd_early {s : State} {n : SliceId} {k : Nat} (hold : (s.sl (s.owner n)).vhold = some k)
    (early : k < s.fld (sB (s.owner n)) SLICE_RANGE_CFG_VHOLD) : exec (.vrangeHoldEnd n) s = .next s := by
  rw [exec_vrangeHoldEnd, execVrangeHoldEnd]
  exact State.onAwake_of_id (by simp [hold, early])

/-- Where no stored word is bad a read meets no error. -/
theorem Dev.eccRead_of_clean {s : Dev} (h : s.memst.bad = []) (a n r : Nat) : s.eccRead a n r = s := by
  simp [Dev.eccRead, h, Dev.each]

/-- Slice `n` holds the limit set at `a` as the one in force, and shows it as set `j`. -/
def Dev.holdLimits (s : Dev) (n : SliceId) (a j : Nat) : Dev :=
  (s.modSl n (fun x => { x with limits := s.limAt a, limGood := s.limAt a, limPassed := true })).setFld (sB n) SLICE_LIM_STATUS_ACTIVE j

/-- The limit set at `a` comes into force on slice `n` as set `j`. -/
def Dev.takeLimits (s : Dev) (n : SliceId) (a j : Nat) : Dev := ((s.holdLimits n a j).convertLimits n).loadThrs n

theorem Dev.loadThrs_course (s : Dev) (n : SliceId) : SameCourse ((s.gang n).map (fun m => sB m + SLICE_CLAMP_STATUS)) s (s.loadThrs n) :=
  .each _ (fun d m mem => (d.loadThr_course m).mono (by simpa using ⟨m, mem, rfl⟩)) (.refl _ s)

theorem Dev.takeLimits_spec (s : Dev) (n : SliceId) (a j : Nat) : ((s.takeLimits n a j).sl n).limits = s.limAt a ∧
    ((s.takeLimits n a j).sl n).limGood = s.limAt a ∧ (s.takeLimits n a j).mem = s.mem := by
  have same := (Dev.convertLimits_course _ (s.holdLimits n a j) n).trans (((s.holdLimits n a j).convertLimits n).loadThrs_course n)
  have held : ((s.holdLimits n a j).sl n).limits = s.limAt a ∧ ((s.holdLimits n a j).sl n).limGood = s.limAt a := by
    simp [Dev.holdLimits]
  exact ⟨(same.limits n).trans held.1, (same.limGood n).trans held.2, same.mem.trans (by simp [Dev.holdLimits])⟩

section ReadLimits

variable {s : Dev} {n : SliceId} {j a : Nat} (place : a = (s.rd (sB n + SLICE_LIM_BASE)).toNat + 96 * j)

include place

/-- A set that holds a word past correction is not taken. -/
theorem Dev.readLimits_uncorrectable (bad : (s.eccRead a 96 rdSet).uncorrectable a 72 = true) :
    s.readLimits n j = (s.eccRead a 96 rdSet).mismatch n := by
  unfold Dev.readLimits
  dsimp only
  rw [← place, if_pos (by simp [bad])]

theorem Dev.readLimits_taken (clean : s.memst.bad = []) (ok : (s.limAt a).ok = true) (margin : s.word (a + 0x44) = ~~~s.word (a + 0x40))
    (within : (s.limAt a).within (s.hard n) = true) : s.readLimits n j = s.takeLimits n a j := by
  unfold Dev.readLimits
  dsimp only
  rw [← place, Dev.eccRead_of_clean clean, if_neg (by simp [ok, margin, Dev.uncorrectable, clean]), if_neg (by simp [within])]
  rfl

theorem Dev.readLimits_mismatched (clean : s.memst.bad = []) (bad : (s.limAt a).ok = false ∨ s.word (a + 0x44) ≠ ~~~s.word (a + 0x40)) :
    s.readLimits n j = s.mismatch n := by
  unfold Dev.readLimits
  dsimp only
  rw [← place, Dev.eccRead_of_clean clean, if_pos]
  rcases bad with bad | bad
  · simp [bad]
  · simp [bad]

theorem Dev.readLimits_outside (clean : s.memst.bad = []) (ok : (s.limAt a).ok = true) (margin : s.word (a + 0x44) = ~~~s.word (a + 0x40))
    (outside : (s.limAt a).within (s.hard n) = false) :
    s.readLimits n j = (s.setFlag (sB n) SLICE_LIM_STATUS_REFUSED true).note n := by
  unfold Dev.readLimits
  dsimp only
  rw [← place, Dev.eccRead_of_clean clean, if_neg (by simp [ok, margin, Dev.uncorrectable, clean]), if_pos (by simp [outside])]

end ReadLimits

/-- Settles O24: the overlap begins by `each_beginOverlap`, a step ends by `stepOver_last`, a solo switch and a hold end by what waits on
their slice, and a reload is one of the four outcomes of `readLimits`. -/
theorem handoverAndLimitReload : Obligations.HandoverAndLimitReload := by
  unfold Obligations.HandoverAndLimitReload
  refine ⟨⟨?prepared, ?released, ?switched, ?ended⟩, ⟨?hold, fun s n v small => s.rescaleV_spec n v small, ?early⟩, ⟨?ladder, ?reload⟩⟩
  case prepared =>
    intro s n st hs step two phase
    obtain ⟨shown, same⟩ := (s.upTo st.endAt).each_beginOverlap (s.gang n)
    refine ⟨_, exec_handoverPrepareEnd_due hs step two phase, ?_, fun m mem => ⟨shown m mem, ?_⟩, ?_⟩
    · exact same.now.trans (Dev.upTo_now _ _ hs)
    · exact (same.rstep m).trans (by rw [Dev.upTo_sl])
    · exact ((Dev.keeps_refl s.toDev _).upTo _).trans same.keeps
  case released =>
    intro s n st hs step two phase fades
    rw [exec_handoverEnd, execHandoverEnd, State.onAwake_of_awake _ _ hs]
    simp [step, two, phase, Nat.not_le.mpr fades]
  case switched =>
    intro s n st hs owner alone step solo due
    obtain ⟨free, takes⟩ := exec_soloSwitchEnd_due hs owner alone step solo due
    exact ⟨fun other => free (.inr other), fun none => free (.inl none), takes⟩
  case ended =>
    intro s o alone _ last none _ idle
    rw [Dev.stepOver_last alone last none idle]
    exact ⟨Dev.leaveStep_rstep alone, Dev.leaveStep_phase alone, Dev.leaveStep_steps alone, Dev.leaveStep_irange alone⟩
  case hold => exact fun s n k hs owner alone hold due => exec_vrangeHoldEnd_due hs owner alone hold due
  case early => exact fun s n k hold early => exec_vrangeHoldEnd_early hold early
  case ladder =>
    intro s n o v hs
    refine ⟨fun parked => ?_, fun runs => ?_⟩
    · refine ⟨_, (exec_rgPatternWrite n o v s).trans (State.onAwake_of_awake _ _ hs), ?_⟩
      rw [State.withDev_toDev, Dev.rgWrite, if_pos parked]
      exact ⟨rfl, (Dev.keeps_refl _ _).store _ _ (by simp), s.store_slices _ _⟩
    · refine ⟨_, (exec_rgPatternWrite n o v s).trans (State.onAwake_of_awake _ _ hs), ?_⟩
      rw [State.withDev_toDev, Dev.rgWrite, if_neg (by simp [runs])]
      exact ⟨Dev.flag_setFlag_same _ _ _ _ (by decide) rfl, (Dev.keeps_refl _ _).setFlag _ _ _ (by simp), Dev.setFlag_slices _ _ _ _⟩
  case reload =>
    intro s n a hs place
    rw [(exec_limReload n s).trans (State.onAwake_of_awake _ _ hs)]
    refine ⟨fun bad => ?_, fun clean => ⟨fun ok margin within => ⟨_, rfl, ?_⟩, fun bad => ?_, fun ok margin outside => ?_⟩⟩
    · rw [Dev.readLimits_uncorrectable place bad]
    · rw [State.withDev_toDev, Dev.readLimits_taken place clean ok margin within]
      exact s.takeLimits_spec n a _
    · rw [Dev.readLimits_mismatched place clean bad]
    · rw [Dev.readLimits_outside place clean ok margin outside]

end Sys2Proof.Machine

namespace Sys2Proof.Machine
open Sys2Proof

/-! ## RANGE (R132, R139, R151, R374) -/

theorem exec_range_ready {s : State} {h : Hdr} {r : GroupRec} (k : s.ready h r) (p : RangeP) :
    exec (.range h p) s = .next (s.withDev ((s.taken h.ring).rangeCmd (ownCtx h 0x02) r p)) := by
  rw [exec_range, execRange, State.onAwake_of_awake _ _ k.1, Dev.ringCmd_ready k]

@[simp] theorem Dev.taken_inPark (s : Dev) (r : RingId) (n : SliceId) : (s.taken r).inPark n = s.inPark n := by simp [Dev.inPark]
@[simp] theorem Dev.taken_irange (s : Dev) (r : RingId) (n : SliceId) : (s.taken r).irange n = s.irange n := Dev.taken_fld _ _ _ _
@[simp] theorem Dev.taken_irMax (s : Dev) (r : RingId) (n : SliceId) : (s.taken r).irMax n = s.irMax n := by simp [Dev.irMax]
@[simp] theorem Dev.taken_vrMax (s : Dev) (r : RingId) (n : SliceId) : (s.taken r).vrMax n = s.vrMax n := by simp [Dev.vrMax]
@[simp] theorem Dev.taken_gang (s : Dev) (r : RingId) (n : SliceId) : (s.taken r).gang n = s.gang n := Dev.gang_of_plates (Dev.taken_plates s r) n

/-! ### Its checks -/

section RangeRefusals

variable {s : Dev} {c : Ctx} {r : GroupRec} {p : RangeP}

/-- A mask with a slice outside the group, or with one beside the lowest of a gang, is no good (R151). -/
theorem GroupRec.maskOk_of_bad {m : Word} (h : 2 ^ r.size ≤ m.toNat ∨ (r.gang ≠ 0 ∧ 1 < m.toNat)) : r.maskOk m = false := by
  unfold GroupRec.maskOk
  rcases h with outside | ⟨gang, beside⟩
  · simp [Nat.not_lt.mpr outside]
  · simp [gang, Nat.not_le.mpr beside]

theorem Dev.rangeCmd_bad_irange (bad : 15 < p.irange.toNat) : s.rangeCmd c r p = s.completeAt c BAD_PARAM 0 s.time := if_pos bad

variable (irange : p.irange.toNat ≤ 15)

include irange

theorem Dev.rangeCmd_bad_vrange (bad : 15 < p.vrange.toNat) : s.rangeCmd c r p = s.completeAt c BAD_PARAM 1 s.time :=
  (if_neg (Nat.not_lt.mpr irange)).trans (if_pos bad)

variable (vrange : p.vrange.toNat ≤ 15)

include vrange

theorem Dev.rangeCmd_bad_auto (bad : 2 < p.auto.toNat) : s.rangeCmd c r p = s.completeAt c BAD_PARAM 2 s.time :=
  (if_neg (Nat.not_lt.mpr irange)).trans ((if_neg (Nat.not_lt.mpr vrange)).trans (if_pos bad))

variable (auto : p.auto.toNat ≤ 2)

include auto

theorem Dev.rangeCmd_bad_mask (bad : r.maskOk p.mask = false) : s.rangeCmd c r p = s.completeAt c BAD_PARAM 4 s.time := by
  simp [Dev.rangeCmd, Nat.not_lt.mpr irange, Nat.not_lt.mpr vrange, Nat.not_lt.mpr auto, bad]

variable (mask : r.maskOk p.mask = true)

include mask

theorem Dev.rangeCmd_irange_limit (named : p.irange.toNat ≠ 15) (beyond : ∃ n ∈ r.masked p.mask, s.irMax n < p.irange.toNat) :
    s.rangeCmd c r p = s.completeAt c LIMIT 0 s.time := by
  have some : (r.masked p.mask).any (fun n => p.irange.toNat != 15 && decide (s.irMax n < p.irange.toNat)) = true := by
    simpa [named] using beyond
  simp only [Dev.rangeCmd, Nat.not_lt.mpr irange, Nat.not_lt.mpr vrange, Nat.not_lt.mpr auto, mask, some, Bool.not_true, Bool.false_eq_true, if_false,
    if_true]

theorem Dev.rangeCmd_vrange_limit (unnamed : p.irange.toNat = 15) (named : p.vrange.toNat ≠ 15)
    (beyond : ∃ n ∈ r.masked p.mask, s.vrMax n < p.vrange.toNat) : s.rangeCmd c r p = s.completeAt c LIMIT 1 s.time := by
  have some : (r.masked p.mask).any (fun n => p.vrange.toNat != 15 && decide (s.vrMax n < p.vrange.toNat)) = true := by
    simpa [named] using beyond
  have none : (r.masked p.mask).any (fun n => p.irange.toNat != 15 && decide (s.irMax n < p.irange.toNat)) = false := by
    simp [unnamed]
  simp only [Dev.rangeCmd, Nat.not_lt.mpr irange, Nat.not_lt.mpr vrange, Nat.not_lt.mpr auto, mask, none, some, Bool.not_true, Bool.false_eq_true,
    if_false, if_true]

/-- A mask that names no slice: nothing is asked of any. -/
theorem Dev.rangeCmd_none (none : r.masked p.mask = []) : s.rangeCmd c r p = s.complete c OK := by
  simp [Dev.rangeCmd, Nat.not_lt.mpr irange, Nat.not_lt.mpr vrange, Nat.not_lt.mpr auto, mask, none, Dev.each]

end RangeRefusals

/-! ### A current range of one slice -/

/-- A mask that names no slice is good, and names none. -/
theorem GroupRec.maskOk_zero (r : GroupRec) : r.maskOk 0 = true := by simp [GroupRec.maskOk]
theorem GroupRec.masked_zero (r : GroupRec) : r.masked 0 = [] := by simp [GroupRec.masked]

section OneSliceGroup

variable {r : GroupRec} {n : SliceId} (first : r.first = n.val) (size : r.size = 1) (gang : r.gang = 0)

include size gang in
theorem GroupRec.maskOk_one : r.maskOk 1 = true := by simp [GroupRec.maskOk, size, gang]

include first size in
theorem GroupRec.masked_one : r.masked 1 = [n] := by simp [GroupRec.masked, first, size, Dev.sid_val]

end OneSliceGroup

@[simp] theorem Dev.schedule_irange (s : Dev) (c : Ctx) (cmd : RingCmd) (g : Nat) (m : Word) (after : Nat) (t : Word64) (n : SliceId) :
    (s.schedule c cmd g m after t).irange n = s.irange n := (rfl)
@[simp] theorem Dev.modSl_irange (s : Dev) (n m : SliceId) (f : Slice → Slice) : (s.modSl n f).irange m = s.irange m := (rfl)
@[simp] theorem Dev.schedule_sl (s : Dev) (c : Ctx) (cmd : RingCmd) (g : Nat) (m : Word) (after : Nat) (t : Word64) (n : SliceId) :
    (s.schedule c cmd g m after t).sl n = s.sl n := (rfl)

/-- A RANGE of current range `k` for the one slice its mask names, nothing named beside it: the range is asked, and the command waits
or, in park and where the range is in force, completes. -/
theorem Dev.rangeCmd_one {s : Dev} {c : Ctx} {r : GroupRec} {p : RangeP} {n : SliceId} (lt : p.irange.toNat < 15) (vrange : p.vrange.toNat = 15)
    (auto : p.auto = 0) (mask : r.maskOk p.mask = true) (one : r.masked p.mask = [n]) (max : p.irange.toNat ≤ s.irMax n)
    (other : s.irange n ≠ p.irange.toNat) : s.rangeCmd c r p =
      if s.inPark n then (s.askRange n p.irange.toNat).complete c OK
      else (s.askRange n p.irange.toNat).schedule c (.range p) r.first (bit32 n.val) ((s.askRange n p.irange.toNat).now + 200) 0 := by
  unfold Dev.rangeCmd
  cases park : s.inPark n <;>
    simp [Nat.not_lt.mpr lt.le, lt.ne, vrange, auto, mask, one, Nat.not_lt.mpr max, other, park, Dev.each_one, Dev.setAuto, Dev.voltNamed, maskOf,
      Dev.schedule]

/-- The chain of slice `n` that is to lead to range `k` starts with its first step (R139). -/
def Dev.startChain (s : Dev) (n : SliceId) (k : Nat) : Dev := (s.setFld (sB n) SLICE_RANGE_STATUS_TARGET k).beginStep n k false

/-- Range `k` is in force on slice `n` at once (R132). -/
def Dev.rangeAtOnce (s : Dev) (n : SliceId) (k : Nat) : Dev :=
  (((s.rescaleI n k).driveNow n).setFld (sB n) SLICE_RANGE_STATUS_TARGET k).loadThr n

section GoRange

variable {s : Dev} {n : SliceId} {k : Nat}

theorem Dev.goRange_starts (alone : s.gang n = [n]) (free : s.inPark n = false) (idle : (s.sl n).rstep = none) (other : s.irange n ≠ k) :
    s.goRange n k false = s.startChain n k := by
  have range : (s.setFld (sB n) SLICE_RANGE_STATUS_TARGET k).irange n = s.irange n :=
    Dev.fld_setFld_beside _ _ _ _ _ rfl (by decide) (by decide)
  have gang : (s.setFld (sB n) SLICE_RANGE_STATUS_TARGET k).gang n = [n] := (Dev.gang_of_plates (Dev.setFld_plates _ _ _ _) n).trans alone
  unfold Dev.goRange
  rw [if_neg (by simp [free]), alone, Dev.each_one]
  dsimp only
  rw [if_neg (by simp [idle, range, other]), gang, Dev.each_one, Dev.startChain]

theorem Dev.goRange_atOnce (alone : s.gang n = [n]) (park : s.inPark n = true) : s.goRange n k false = s.rangeAtOnce n k := by
  unfold Dev.goRange
  rw [if_pos park, alone, Dev.each_one, Dev.rangeAtOnce]

/-- A step begins: its slice is in a step, in PREPARE, and its pins are driven. -/
theorem Dev.beginStep_eq (s : Dev) (n : SliceId) (k : Nat) (fast : Bool) : ∃ st, s.beginStep n k fast =
    (((s.modSl n (fun x => { x with rstep := some st, runs := [], downRun := 0 })).setFld (sB n) SLICE_RANGE_STATUS_PHASE 1).driveNow n).loadThr n :=
  ⟨_, rfl⟩

/-- A field of RANGE_STATUS beside STANDBY and PHASE is left by the start of a step. -/
theorem Dev.beginStep_spec (s : Dev) (n : SliceId) (k : Nat) (fast : Bool) :
    (s.beginStep n k fast).fld (sB n) SLICE_RANGE_STATUS_PHASE = 1 ∧
    (s.beginStep n k fast).fld (sB n) SLICE_RANGE_STATUS_TARGET = s.fld (sB n) SLICE_RANGE_STATUS_TARGET ∧
    (s.beginStep n k fast).irange n = s.irange n ∧ ((s.beginStep n k fast).sl n).rstep.isSome = true ∧
    (s.beginStep n k fast).now = s.now ∧ (s.beginStep n k fast).mem = s.mem ∧ (s.beginStep n k fast).sched = s.sched := by
  obtain ⟨st, begun⟩ := s.beginStep_eq n k fast
  have same := ((s.modSl n (fun x => { x with rstep := some st, runs := [], downRun := 0 })).setFld (sB n) SLICE_RANGE_STATUS_PHASE 1).driven_course n
  rw [begun]
  refine ⟨?phase, ?target, ?range, by rw [same.rstep, Dev.setFld_sl, Dev.sl_modSl_same]; rfl, by rw [same.now, Dev.setFld_now, Dev.modSl_now],
    by rw [same.mem, Dev.setFld_mem, Dev.modSl_mem], by rw [same.sched, Dev.setFld_sched, Dev.modSl_sched]⟩
  case phase =>
    rw [Dev.driven_rangeStatus _ _ _ rfl (by decide), Dev.fld_setFld_same _ _ _ _ (by decide)]
    rfl
  case target =>
    rw [Dev.driven_rangeStatus _ _ _ rfl (by decide), Dev.fld_setFld_beside _ _ SLICE_RANGE_STATUS_PHASE SLICE_RANGE_STATUS_TARGET _ rfl (by decide) (by decide), Dev.modSl_fld]
  case range =>
    rw [Dev.irange, Dev.driven_rangeStatus _ _ _ rfl (by decide), Dev.fld_setFld_beside _ _ SLICE_RANGE_STATUS_PHASE SLICE_RANGE_STATUS_IRANGE _ rfl (by decide) (by decide), Dev.modSl_fld]
    rfl

theorem Dev.startChain_spec (s : Dev) (n : SliceId) {k : Nat} (small : k < 16) :
    (s.startChain n k).fld (sB n) SLICE_RANGE_STATUS_TARGET = k ∧ (s.startChain n k).fld (sB n) SLICE_RANGE_STATUS_PHASE = 1 ∧
    (s.startChain n k).irange n = s.irange n ∧ ((s.startChain n k).sl n).rstep.isSome = true ∧ (s.startChain n k).now = s.now ∧
    (s.startChain n k).mem = s.mem ∧ (s.startChain n k).sched = s.sched := by
  obtain ⟨phase, target, range, step, now, mem, sched⟩ := (s.setFld (sB n) SLICE_RANGE_STATUS_TARGET k).beginStep_spec n k false
  refine ⟨target.trans ?_, phase, range.trans ?_, step, by rw [Dev.startChain, now, Dev.setFld_now], by rw [Dev.startChain, mem, Dev.setFld_mem],
    by rw [Dev.startChain, sched, Dev.setFld_sched]⟩
  · exact (Dev.fld_setFld_same _ _ _ _ (by decide)).trans (Nat.mod_eq_of_lt small)
  · exact Dev.fld_setFld_beside _ _ _ _ _ rfl (by decide) (by decide)

theorem Dev.rangeAtOnce_course (s : Dev) (n : SliceId) (k : Nat) :
    SameCourse ((sB n + SLICE_RANGE_STATUS) :: rescaleRegs n ++ [sB n + SLICE_RG_NOW, sB n + SLICE_CLAMP_STATUS]) s (s.rangeAtOnce n k) := by
  have driven := ((s.rescaleI_same n k).mono (List.subset_append_left _ [sB n + SLICE_RG_NOW, sB n + SLICE_CLAMP_STATUS])).trans
    (((s.rescaleI n k).driven_pins n).mono (by simp))
  exact (driven.setFld _ _ _ (by simp)).trans ((Dev.loadThr_course _ n).mono (by simp))

theorem Dev.rangeAtOnce_target (s : Dev) (n : SliceId) {k : Nat} (small : k < 16) :
    (s.rangeAtOnce n k).fld (sB n) SLICE_RANGE_STATUS_TARGET = k := by
  rw [Dev.rangeAtOnce, (Dev.loadThr_course _ n).fld (by simp), Dev.fld_setFld_same _ _ _ _ (by decide)]
  exact Nat.mod_eq_of_lt small

theorem Dev.rangeAtOnce_irange (s : Dev) (n : SliceId) {k : Nat} (small : k < 16) : (s.rangeAtOnce n k).irange n = k := by
  rw [Dev.rangeAtOnce, Dev.irange, (Dev.loadThr_course _ n).fld (by simp), Dev.fld_setFld_beside _ _ SLICE_RANGE_STATUS_TARGET SLICE_RANGE_STATUS_IRANGE _ rfl (by decide)
    (by decide), (Dev.driveNow_course _ n).fld (by simp), Dev.fld_setFld_beside _ _ SLICE_RANGE_STATUS_STANDBY SLICE_RANGE_STATUS_IRANGE _ rfl (by decide) (by decide)]
  exact s.rescaleI_irange n k small

/-- A range that is asked of slice `n` restarts its auto-range counter. -/
theorem Dev.askRange_eq (lt : k < 15) : s.askRange n k = (s.goRange n k false).modSl n (fun x => { x with downRun := 0 }) :=
  if_neg (by simp [lt.ne])

/-- Asked of a slice that runs, a range other than that in force starts a chain. -/
theorem Dev.askRange_starts (lt : k < 15) (alone : s.gang n = [n]) (free : s.inPark n = false) (idle : (s.sl n).rstep = none)
    (other : s.irange n ≠ k) : (s.askRange n k).fld (sB n) SLICE_RANGE_STATUS_TARGET = k ∧
      (s.askRange n k).fld (sB n) SLICE_RANGE_STATUS_PHASE = 1 ∧ (s.askRange n k).irange n = s.irange n ∧
      ((s.askRange n k).sl n).rstep.isSome = true ∧ (s.askRange n k).now = s.now ∧ (s.askRange n k).mem = s.mem ∧
      (s.askRange n k).sched = s.sched := by
  obtain ⟨target, phase, range, step, now, mem, sched⟩ := s.startChain_spec n (Nat.lt_succ_of_lt lt)
  rw [Dev.askRange_eq lt, Dev.goRange_starts alone free idle other]
  simp only [Dev.modSl_irange, Dev.modSl_fld, Dev.sl_modSl_same, Dev.modSl_now, Dev.modSl_mem, Dev.modSl_sched]
  exact ⟨target, phase, range, step, now, mem, sched⟩

/-- Asked of a slice in park it is in force at once. -/
theorem Dev.askRange_atOnce (lt : k < 15) (alone : s.gang n = [n]) (park : s.inPark n = true) (idle : (s.sl n).rstep = none) :
    (s.askRange n k).irange n = k ∧ (s.askRange n k).fld (sB n) SLICE_RANGE_STATUS_TARGET = k ∧ ((s.askRange n k).sl n).rstep = none ∧
      (s.askRange n k).sched = s.sched ∧ (s.askRange n k).mem = s.mem := by
  have same := (s.rangeAtOnce_course n k).modSl n (fun x => { x with downRun := 0 })
  rw [Dev.askRange_eq lt, Dev.goRange_atOnce alone park]
  exact ⟨(Dev.modSl_irange _ _ _ _).trans (s.rangeAtOnce_irange n (Nat.lt_succ_of_lt lt)),
    (Dev.modSl_fld _ _ _ _ _).trans (s.rangeAtOnce_target n (Nat.lt_succ_of_lt lt)), (same.rstep n).trans idle, same.sched, same.mem⟩

end GoRange

/-- Settles O23: a refusal is the first check that fails; a chain starts by `startChain_spec`, and a range is in force at once by
`rangeAtOnce_course`. -/
theorem rangeCommandStartsAChain : Obligations.RangeCommandStartsAChain := by
  unfold Obligations.RangeCommandStartsAChain
  refine ⟨fun s h r p k => ⟨?irange, ?vrange, ?auto, ?mask, ?irangeLimit, ?vrangeLimit⟩, ?current, ?noSlice⟩
  case irange => exact fun bad => by rw [exec_range_ready k, Dev.rangeCmd_bad_irange bad]
  case vrange => exact fun hi bad => by rw [exec_range_ready k, Dev.rangeCmd_bad_vrange hi bad]
  case auto => exact fun hi hv bad => by rw [exec_range_ready k, Dev.rangeCmd_bad_auto hi hv bad]
  case mask => exact fun hi hv ha bad => by rw [exec_range_ready k, Dev.rangeCmd_bad_mask hi hv ha (GroupRec.maskOk_of_bad bad)]
  case irangeLimit =>
    intro hi hv ha mask beyond
    rw [exec_range_ready k, Dev.rangeCmd_irange_limit hi.le hv ha mask hi.ne (by simpa using beyond)]
  case vrangeLimit =>
    intro hi hv ha mask beyond
    rw [exec_range_ready k, Dev.rangeCmd_vrange_limit hi.le hv.le ha mask hi hv.ne (by simpa using beyond)]
  case current =>
    intro s h r p n k first size gang group lt vrange auto mask max other idle
    have alone : (s.taken h.ring).gang n = [n] := by rw [Dev.taken_gang]; simp [Dev.gang, group, gang]
    have command := Dev.rangeCmd_one (s := s.taken h.ring) (c := ownCtx h 0x02) lt vrange auto
      (by rw [mask, GroupRec.maskOk_one size gang]) (by rw [mask, GroupRec.masked_one first size]) (by simpa using max) (by simpa using other)
    rw [Dev.taken_inPark] at command
    rw [exec_range_ready k, command]
    refine ⟨fun runs => ⟨_, rfl, ?starts⟩, fun park => ⟨_, rfl, ?atOnce⟩⟩
    case starts =>
      obtain ⟨target, phase, range, step, now, mem, sched⟩ :=
        Dev.askRange_starts lt alone (by simpa using runs) (by simpa using idle) (by simpa using other)
      rw [State.withDev_toDev, if_neg (by simp [runs])]
      simp only [Dev.schedule_irange, Dev.schedule_fld, Dev.schedule_sl, Dev.schedule_now, Dev.schedule_mem, Dev.schedule_sched, target, phase, range, step,
        now, mem, sched, first, Dev.taken_irange, Dev.taken_mem, Dev.taken_sched]
      trivial
    case atOnce =>
      obtain ⟨range, target, step, sched, mem⟩ := Dev.askRange_atOnce lt alone (by simpa using park) (by simpa using idle)
      rw [State.withDev_toDev, if_pos park]
      refine ⟨(Dev.complete_fld_slice _ _ _ n _).trans range, (Dev.complete_fld_slice _ _ _ n _).trans target, ?_, ?_, ?_⟩
      · rw [(Dev.complete_same _ _ _).sl, step]
      · rw [Dev.complete_sched, sched, Dev.taken_sched]
      · rw [Dev.complete_mem, mem, Dev.taken_mem]
  case noSlice =>
    intro s h r p k hi hv ha mask
    rw [exec_range_ready k, Dev.rangeCmd_none hi hv ha (by rw [mask, GroupRec.maskOk_zero]) (by rw [mask, GroupRec.masked_zero])]

end Sys2Proof.Machine

namespace Sys2Proof.Machine
open Sys2Proof

/-! ## Clamp trips, holds and releases (R149, R158, R160) -/

/-- What a change of a slice leaves of it, it leaves of every slice. -/
theorem Dev.modSl_leaves {α : Type} (g : Slice → α) {f : Slice → Slice} (hf : ∀ x, g (f x) = g x) (s : Dev) (n m : SliceId) :
    g ((s.modSl n f).sl m) = g (s.sl m) := by
  by_cases e : n = m
  · rw [← e, Dev.sl_modSl_same, hf]
  · rw [Dev.sl_modSl_other _ _ _ _ e]

/-! ### Levels of the clamps -/

/-- The output of CLAMP_HI (`high`) or CLAMP_LO in CMP_STATUS. -/
abbrev clampFld (high : Bool) : Fld := ⟨SLICE_CMP_STATUS, if high then 0 else 1, 1⟩

/-- A clamp is active where its output is at its own side. -/
theorem Dev.clampOn_eq (s : Dev) (n : SliceId) (high : Bool) : s.clampOn n high = (s.flag (sB n) (clampFld high) == high) := by
  have bit : bitOf (s.fld (sB n) SLICE_CMP_STATUS_LEVEL) (if high then 0 else 1) = s.flag (sB n) (clampFld high) := by
    have level (x : Nat) (i : Nat) (lt : i < 4) : bitOf (getBits x 0 4) i = (getBits x i 1 == 1) := by
      unfold bitOf getBits
      interval_cases i <;> simp <;> omega
    exact level _ (if high then 0 else 1) (by cases high <;> decide)
  rw [Dev.clampOn, bit]

theorem clampFld_apart (high : Bool) : (clampFld high).lo + 1 ≤ (clampFld (!high)).lo ∨ (clampFld (!high)).lo + 1 ≤ (clampFld high).lo := by
  cases high <;> decide

/-- BAND_UNDECIDED lies beside the outputs. -/
theorem Dev.clampOn_decided (s : Dev) (n : SliceId) (a b v : Bool) : (s.setFlag (sB n) (undecFld a) v).clampOn n b = s.clampOn n b := by
  rw [Dev.clampOn_eq, Dev.clampOn_eq, Dev.flag_setFlag_bits _ _ _ (undecFld a) (clampFld b) _ ?word ?fits ?beside]
  case word => cases a <;> rfl
  all_goals cases a <;> cases b <;> decide

@[simp] theorem Dev.clampOn_upTo (s : Dev) (c : Nat) (n : SliceId) (high : Bool) : (s.upTo c).clampOn n high = s.clampOn n high := by
  simp [Dev.clampOn]

theorem Dev.clampActive_alone {s : Dev} {n : SliceId} (alone : s.gang n = [n]) (high : Bool) :
    s.clampActive n = (s.clampOn n high || s.clampOn n (!high)) := by
  cases high <;> simp [Dev.clampActive, alone, Bool.or_comm]

section CmpEdge

variable (s : Dev) (n : SliceId) (high above : Bool)

/-- The output of a clamp moves; beside it its edge is noted, or the mark of a parity error is taken. -/
theorem Dev.cmpEdge_flag (f : Fld) (off : f.off = SLICE_CMP_STATUS) : (s.cmpEdge n (if high then 0 else 1) above).flag (sB n) f
    = (s.setFlag (sB n) (clampFld high) above).flag (sB n) f := by
  unfold Dev.cmpEdge
  dsimp only
  split
  · rw [Dev.modSl_flag]
  · rw [Dev.flag_setFlag_word _ _ _ _ _ _ (by simp [off])]

theorem Dev.cmpEdge_clampOn : (s.cmpEdge n (if high then 0 else 1) above).clampOn n high = (above == high) := by
  rw [Dev.clampOn_eq, Dev.cmpEdge_flag _ _ _ _ _ rfl, Dev.flag_setFlag_same _ _ _ _ ?fits rfl]
  cases high <;> decide

theorem Dev.cmpEdge_clampOn_other : (s.cmpEdge n (if high then 0 else 1) above).clampOn n (!high) = s.clampOn n (!high) := by
  rw [Dev.clampOn_eq, Dev.clampOn_eq, Dev.cmpEdge_flag _ _ _ _ _ rfl,
    Dev.flag_setFlag_bits _ _ _ (clampFld high) (clampFld !high) _ rfl ?fits (clampFld_apart high).symm]
  cases high <;> decide

theorem Dev.cmpEdge_spec (i : Nat) : s.keeps (s.cmpEdge n i above) [sB n + SLICE_CMP_STATUS, sB n + SLICE_CMP_FLAGS] ∧
    (s.cmpEdge n i above).now = s.now := by
  have moved := (Dev.keeps_refl s [sB n + SLICE_CMP_STATUS, sB n + SLICE_CMP_FLAGS]).setFlag (sB n) ⟨SLICE_CMP_STATUS, i, 1⟩ above (by simp)
  unfold Dev.cmpEdge
  dsimp only
  split
  · exact ⟨moved.modSl _ _, by rw [Dev.modSl_now, Dev.setFlag_now]⟩
  · exact ⟨moved.setFlag _ _ _ (by simp), by rw [Dev.setFlag_now, Dev.setFlag_now]⟩

end CmpEdge

/-! ### Holds -/

/-- CLAMP_N is pulled low, and no hold is about to end. -/
def Slice.pullClampN (x : Slice) : Slice := { x with clampN := true, holdEnds := false }

/-- Slice `n` of a gang is held: CLAMP_N falls, and out of park its FDAC holds. -/
def Dev.clampHoldOne (s : Dev) (n : SliceId) : Dev :=
  let d := s.modSl n Slice.pullClampN
  if s.inPark n then d else (d.setFlag (sB n) SLICE_FORCE_STATUS_CLAMP_HOLD true).setFlag (sB n) SLICE_CLAMP_STATUS_HOLD true

theorem Dev.clampHold_eq (s : Dev) (n : SliceId) : s.clampHold n = s.each (s.gang n) Dev.clampHoldOne := rfl

/-- CLAMP_N of slice `n` is low, and out of park the hold is shown. -/
def Dev.Held (n : SliceId) (s : Dev) : Prop := (s.sl n).clampN = true ∧
  (s.inPark n = false → s.flag (sB n) SLICE_FORCE_STATUS_CLAMP_HOLD = true ∧ s.flag (sB n) SLICE_CLAMP_STATUS_HOLD = true)

section Holds

variable (s : Dev) (n m : SliceId)

theorem Dev.inPark_of_phase {s t : Dev} {n : SliceId} (h : (t.sl n).phase = (s.sl n).phase) : t.inPark n = s.inPark n := by
  unfold Dev.inPark
  rw [h]

theorem Dev.pullClampN_inPark : (s.modSl n Slice.pullClampN).inPark m = s.inPark m :=
  Dev.inPark_of_phase (Dev.modSl_leaves (f := Slice.pullClampN) (·.phase) (fun _ => rfl) s n m)

/-- A hold takes no cycle, and leaves the stores and every phase. -/
theorem Dev.clampHoldOne_kept : ((s.clampHoldOne n).mem, (s.clampHoldOne n).now, (s.clampHoldOne n).inPark m) = (s.mem, s.now, s.inPark m) := by
  have park : (s.clampHoldOne n).inPark m = (s.modSl n Slice.pullClampN).inPark m :=
    Dev.inPark_of_phase (by unfold Dev.clampHoldOne; dsimp only; split <;> simp)
  rw [park, Dev.pullClampN_inPark]
  unfold Dev.clampHoldOne
  dsimp only
  split
  · rw [Dev.modSl_mem, Dev.modSl_now]
  · simp only [Dev.setFlag_mem, Dev.setFlag_now, Dev.modSl_mem, Dev.modSl_now]

theorem Dev.clampHoldOne_held : Dev.Held n (s.clampHoldOne n) := by
  have park : (s.clampHoldOne n).inPark n = s.inPark n := congrArg (·.2.2) (s.clampHoldOne_kept n n)
  unfold Dev.Held
  rw [park]
  unfold Dev.clampHoldOne
  dsimp only
  split
  next parked => exact ⟨by rw [Dev.sl_modSl_same]; rfl, fun out => absurd (parked.symm.trans out) (by decide)⟩
  next =>
    refine ⟨by simp [Slice.pullClampN], fun _ => ⟨?_, Dev.flag_setFlag_same _ _ _ _ (by decide) rfl⟩⟩
    rw [Dev.flag_setFlag_word _ _ _ _ _ _ (by simp)]
    exact Dev.flag_setFlag_same _ _ _ _ (by decide) rfl

/-- The hold of another slice touches neither slice `m` nor its registers. -/
theorem Dev.clampHoldOne_other (h : n ≠ m) : (s.clampHoldOne n).sl m = s.sl m ∧
    ∀ f : Fld, f.off < 0x10000 → (s.clampHoldOne n).flag (sB m) f = s.flag (sB m) f := by
  have other := Dev.sl_modSl_other s n m Slice.pullClampN h
  have apart {a b : Nat} (ha : a < 0x10000) (hb : b < 0x10000) : sB n + a ≠ sB m + b := sB_add_ne ha hb (.inr h)
  unfold Dev.clampHoldOne
  dsimp only
  split
  · exact ⟨other, fun f _ => rfl⟩
  · refine ⟨by simpa using other, fun f lt => ?_⟩
    rw [Dev.flag_setFlag_word _ _ _ _ _ _ (apart (by decide) lt), Dev.flag_setFlag_word _ _ _ _ _ _ (apart (by decide) lt), Dev.modSl_flag]

theorem Dev.clampHoldOne_held_kept (h : Dev.Held m s) : Dev.Held m (s.clampHoldOne n) := by
  by_cases e : n = m
  · exact e ▸ s.clampHoldOne_held n
  · obtain ⟨slice, flags⟩ := s.clampHoldOne_other n m e
    unfold Dev.Held Dev.inPark
    rw [slice, flags _ (by decide), flags _ (by decide)]
    exact h

theorem Dev.clampHold_kept : ((s.clampHold n).mem, (s.clampHold n).now, (s.clampHold n).inPark m) = (s.mem, s.now, s.inPark m) := by
  rw [Dev.clampHold_eq]
  exact Dev.each_keeps (fun d => (d.mem, d.now, d.inPark m)) (fun d k => d.clampHoldOne_kept k m) (s.gang n) s

theorem Dev.clampHold_mem : (s.clampHold n).mem = s.mem := congrArg (·.1) (s.clampHold_kept n n)
theorem Dev.clampHold_now : (s.clampHold n).now = s.now := congrArg (·.2.1) (s.clampHold_kept n n)

variable {s n m}

/-- A trip holds every slice that acts with its own, those in park by CLAMP_N alone (R149). -/
theorem Dev.clampHold_holds (mem : m ∈ s.gang n) : ((s.clampHold n).sl m).clampN = true ∧ (s.inPark m = false →
    (s.clampHold n).flag (sB m) SLICE_FORCE_STATUS_CLAMP_HOLD = true ∧ (s.clampHold n).flag (sB m) SLICE_CLAMP_STATUS_HOLD = true) := by
  obtain ⟨low, held⟩ : Dev.Held m (s.clampHold n) := by
    rw [Dev.clampHold_eq]
    exact Dev.each_forall (p := Dev.Held) Dev.clampHoldOne_held (fun d x y => d.clampHoldOne_held_kept x y) (.inl mem)
  have park : (s.clampHold n).inPark m = s.inPark m := congrArg (·.2.2) (s.clampHold_kept n m)
  exact ⟨low, fun out => held (park.trans out)⟩

theorem Dev.clampHit_eq : s.clampHit n = if s.fld (sB n) SLICE_CLAMP_CFG_MODE = 2 ∧ s.inPark n = false then
    (((s.clampHold n).raiseSlice n 4 0).upTo (((s.clampHold n).raiseSlice n 4 0).now + 2)).parkBegin n else (s.clampHold n).raiseSlice n 4 0 := by
  simp [Dev.clampHit]

/-- The hold of a slice that acts alone ends at the next tick. -/
theorem Dev.endHold_alone (alone : s.gang n = [n]) : s.endHold n = s.modSl n (fun x => { x with holdEnds := true }) := by
  rw [Dev.endHold, alone, Dev.each_one]

end Holds

/-! ### What the events answer -/

/-- A clamp crosses its threshold on a device that is awake. -/
theorem exec_clampTrip_awake {s : State} (hs : s.awake = true) (armed : 8 ≤ s.boot.step) (n : SliceId) (high : Bool) :
    exec (.clampTrip n high) s = .next (s.withDev (s.clampTrip n high)) := by
  rw [exec_clampTrip, execClampTrip, State.on_eq]
  simp [Dev.resetN_of_awake hs, Dev.frozen_of_awake _ hs, Dev.clampsArmed, armed]

/-- In freeze a clamp's output moves as its input crosses, and is decided. -/
def Dev.clampMoved (s : Dev) (n : SliceId) (high : Bool) : Dev :=
  (s.setFlag (sB n) (clampFld high) high).setFlag (sB n) (undecFld high) false

/-- In freeze the output moves, and the hold begins (R11, R14). -/
theorem exec_clampTrip_frozen {s : State} (on : s.pins.resetN = true) (armed : 8 ≤ s.boot.step) (frozen : s.frz.frozen = true) (n : SliceId)
    (high : Bool) (idle : s.clampOn n high = false) : exec (.clampTrip n high) s = .next (s.withDev
      (((s.clampMoved n high).clampHold n).modSl n (fun x => { x with tripped := true }))) := by
  rw [exec_clampTrip, execClampTrip, State.on_eq]
  simp [on, frozen, Dev.clampsArmed, armed, idle, Dev.clampMoved]

/-- The quiet time of a slice that acts alone begins with the return of its last clamp. -/
theorem Dev.clampQuiet_alone {s : Dev} {n : SliceId} (alone : s.gang n = [n]) (quiet : s.clampActive n = false) :
    s.clampQuiet n = s.modSl n (fun x => { x with quietAt := s.now, clampN := x.clampN && !s.inPark n }) := by
  rw [Dev.clampQuiet, if_neg (by simp [quiet]), alone, Dev.each_one]

theorem exec_clampInputReturn_awake {s : State} (hs : s.awake = true) (armed : 8 ≤ s.boot.step) (n : SliceId) (high : Bool) :
    exec (.clampInputReturn n high) s = .next (s.withDev (s.clampReturn n high)) := by
  rw [exec_clampInputReturn, execClampInputReturn, State.on_eq]
  simp [Dev.resetN_of_awake hs, Dev.frozen_of_awake _ hs, Dev.clampsArmed, armed]

/-- The output of a clamp of slice `n` is inactive again, 6 cycles after its input came back. -/
def Dev.clampBack (s : Dev) (n : SliceId) (high : Bool) : Dev :=
  ((s.upTo (s.now + 6)).setFlag (sB n) (undecFld high) false).cmpEdge n (if high then 0 else 1) (!high)

theorem Dev.clampBack_spec {s : Dev} {n : SliceId} {high : Bool} (hs : s.awake = true) (other : s.clampOn n (!high) = false) :
    (s.clampBack n high).clampOn n high = false ∧ (s.clampBack n high).clampOn n (!high) = false ∧ (s.clampBack n high).now = s.now + 6 ∧
    s.keeps (s.clampBack n high) [sB n + SLICE_CMP_STATUS, sB n + SLICE_CMP_FLAGS] := by
  obtain ⟨keeps, now⟩ := ((s.upTo (s.now + 6)).setFlag (sB n) (undecFld high) false).cmpEdge_spec n (!high) (if high then 0 else 1)
  refine ⟨?_, ?_, ?_, ?_⟩
  · rw [Dev.clampBack, Dev.cmpEdge_clampOn]
    cases high <;> rfl
  · rw [Dev.clampBack, Dev.cmpEdge_clampOn_other, Dev.clampOn_decided, Dev.clampOn_upTo, other]
  · rw [Dev.clampBack, now, Dev.setFlag_now, Dev.upTo_now _ _ hs]
    omega
  · exact Dev.keeps.trans (((Dev.keeps_refl s _).upTo _).setFlag _ _ _ (by cases high <;> simp [undecFld])) keeps

/-- Settles O25: the hold of a gang is `clampHold_holds`, a trip `clampHit_eq`; a return is `clampBack_spec` and the quiet time after it, and
a hold ends by `endHold_alone`. -/
theorem clampsTripHoldAndRelease : Obligations.ClampsTripHoldAndRelease := by
  unfold Obligations.ClampsTripHoldAndRelease
  refine ⟨⟨?trips, ?frozen, fun s n m mem => Dev.clampHold_holds mem, fun s n => ⟨s.clampHold_mem n, s.clampHold_now n⟩, ?hit⟩,
    ?returns, ?auto, ?clear, ?refused⟩
  case trips =>
    intro s n high hs armed
    rw [exec_clampTrip_awake hs armed, Dev.clampTrip]
    exact ⟨fun idle => by simp [idle], fun active => by simp [active]⟩
  case frozen =>
    intro s n high on armed frozen idle
    refine ⟨_, exec_clampTrip_frozen on armed frozen n high idle, fun m mem => ?held, ?tripped, ?now, ?mem⟩
    case held =>
      have gang : (s.clampMoved n high).gang n = s.gang n := Dev.gang_of_plates (by simp [Dev.clampMoved]) n
      have slices : (s.clampMoved n high).sl m = s.sl m := by simp [Dev.clampMoved]
      obtain ⟨low, held⟩ := Dev.clampHold_holds (gang.symm ▸ mem)
      refine ⟨(Dev.modSl_leaves (·.clampN) (f := fun x => { x with tripped := true }) (fun _ => rfl) _ n m).trans low, fun out => ?_⟩
      exact (held ((Dev.inPark_of_phase (congrArg Slice.phase slices)).trans out)).1
    case tripped => simp
    case now => rw [State.withDev_toDev, Dev.modSl_now, Dev.clampHold_now, Dev.clampMoved, Dev.setFlag_now, Dev.setFlag_now]
    case mem => rw [State.withDev_toDev, Dev.modSl_mem, Dev.clampHold_mem, Dev.clampMoved, Dev.setFlag_mem, Dev.setFlag_mem]
  case hit =>
    rintro s d n rfl
    exact Dev.clampHit_eq
  case returns =>
    intro s n high hs armed alone active other
    obtain ⟨back, still, now, keeps⟩ := Dev.clampBack_spec hs other
    have gang := (Dev.gang_of_plates keeps.2.2.2 n).trans alone
    have quiet : (s.clampBack n high).clampActive n = false := by rw [Dev.clampActive_alone gang high, back, still]; rfl
    have returned : s.clampReturn n high = (s.clampBack n high).clampQuiet n := by
      rw [Dev.clampReturn, if_pos active, Dev.clampBack]
    refine ⟨_, exec_clampInputReturn_awake hs armed n high, ?_⟩
    rw [State.withDev_toDev, returned, Dev.clampQuiet_alone gang quiet]
    exact ⟨back, still, by rw [Dev.sl_modSl_same, now], now, keeps.modSl _ _⟩
  case auto =>
    intro s n hs alone held mode quiet
    refine ⟨_, (exec_clampAutoRelease n s).trans (State.onAwake_of_awake _ _ hs), ?_⟩
    rw [State.withDev_toDev, if_pos (by simp [held, mode, quiet]),
      Dev.endHold_alone ((Dev.gang_of_plates (Dev.upTo_plates _ _) n).trans alone)]
    exact ⟨by rw [Dev.sl_modSl_same], Dev.upTo_now _ _ hs, ((Dev.keeps_refl s.toDev []).upTo _).modSl _ _⟩
  case clear =>
    intro s n hs alone held mode quiet
    refine ⟨_, (exec_clampClear n s).trans (State.onAwake_of_awake _ _ hs), ?_⟩
    rw [State.withDev_toDev, Dev.clampClear, if_neg (by simp [quiet]), if_pos (by simp [held, mode]), Dev.endHold_alone alone]
    exact ⟨by rw [Dev.sl_modSl_same], Dev.modSl_now _ _ _, (Dev.keeps_refl s.toDev []).modSl _ _⟩
  case refused =>
    intro s n hs active
    refine ⟨_, (exec_clampClear n s).trans (State.onAwake_of_awake _ _ hs), ?_⟩
    rw [State.withDev_toDev, Dev.clampClear, if_pos active]
    exact ⟨Dev.flag_setFlag_same _ _ _ _ (by decide) rfl, (Dev.keeps_refl _ _).setFlag _ _ _ (by simp), Dev.setFlag_slices _ _ _ _⟩

end Sys2Proof.Machine

namespace Sys2Proof.Machine
open Sys2Proof

/-! ## WIN in both modes (R156, R157, R160 to R162) -/

/-! ### The window's decision -/

section WindowState

variable {v lo hi h : Int}

/-- From inside a window leaves at the thresholds themselves. -/
theorem windowState_inside_iff : windowState 0 v lo hi h = 0 ↔ lo ≤ v ∧ v ≤ hi := by
  unfold windowState
  split
  next above => simp_all
  next notAbove => split <;> simp_all

/-- From above it leaves below HI − HYST. -/
theorem windowState_above_iff (hyst : 0 ≤ h) : windowState 2 v lo hi h = 2 ↔ hi - h ≤ v := by
  unfold windowState
  split
  next above => simp_all; omega
  next notAbove => split <;> simp_all

/-- From below it leaves above LO + HYST. -/
theorem windowState_below_iff (hyst : 0 ≤ h) (notAbove : v ≤ hi) : windowState 1 v lo hi h = 1 ↔ v ≤ lo + h := by
  unfold windowState
  rw [if_neg (by simpa using notAbove)]
  split
  next below => simp_all; omega
  next notBelow => simp_all

theorem windowState_le_two (st : Nat) : windowState st v lo hi h ≤ 2 := by
  unfold windowState
  split
  · decide
  · split <;> decide

end WindowState

/-! ### Edges and levels of a comparator -/

section Edges

variable {s : Dev} {n : SliceId} {i : Nat} {above : Bool}

/-- The level of a comparator is its bit of LEVEL. -/
theorem Dev.cmpLevel_eq_flag (s : Dev) (n : SliceId) (i : Nat) : s.cmpLevel n i = s.flag (sB n) ⟨SLICE_CMP_STATUS, i, 1⟩ := rfl

/-- With no parity error in the way the output moves and its edge is noted (R160). -/
theorem Dev.cmpEdge_of_clean (clean : (s.sl n).dropEdge = false) : s.cmpEdge n i above = (s.setFlag (sB n) ⟨SLICE_CMP_STATUS, i, 1⟩
    above).setFlag (sB n) ⟨SLICE_CMP_FLAGS, 2 * i + (if above then 0 else 1), 1⟩ true := by
  unfold Dev.cmpEdge
  dsimp only
  rw [if_neg (by simp [clean])]

theorem Dev.cmpEdge_slices (clean : (s.sl n).dropEdge = false) : (s.cmpEdge n i above).slices = s.slices := by
  rw [Dev.cmpEdge_of_clean clean, Dev.setFlag_slices, Dev.setFlag_slices]

theorem Dev.cmpEdge_level (clean : (s.sl n).dropEdge = false) (fits : i < 32) : (s.cmpEdge n i above).cmpLevel n i = above := by
  rw [Dev.cmpLevel_eq_flag, Dev.cmpEdge_of_clean clean, Dev.flag_setFlag_word _ _ _ _ _ _ (by simp)]
  exact Dev.flag_setFlag_same _ _ _ _ fits rfl

@[simp] theorem Dev.setFlag_awake (s : Dev) (b : Nat) (f : Fld) (v : Bool) : (s.setFlag b f v).awake = s.awake := rfl

@[simp] theorem Dev.modSl_awake (s : Dev) (n : SliceId) (f : Slice → Slice) : (s.modSl n f).awake = s.awake := rfl

theorem Dev.cmpEdge_awake : (s.cmpEdge n i above).awake = s.awake := by
  unfold Dev.cmpEdge
  dsimp only
  split
  · rw [Dev.modSl_awake, Dev.setFlag_awake]
  · rw [Dev.setFlag_awake, Dev.setFlag_awake]

/-- A field beside a flag that is set, in the same word. -/
theorem Dev.fld_setFlag_bits {s : Dev} {b b' : Nat} {f f' : Fld} (v : Bool) (word : b + f.off = b' + f'.off) (fits : f.lo + f.w ≤ 32)
    (beside : f'.lo + f'.w ≤ f.lo ∨ f.lo + f.w ≤ f'.lo) : (s.setFlag b f v).fld b' f' = s.fld b' f' :=
  Dev.fld_setFld_bits _ _ _ _ _ _ word fits beside

/-- The event of an edge that EDGE does not name is none (R161). -/
theorem Dev.winEvent_silent (rise : Bool) (silent : s.fld (sB n) SLICE_WIN_CFG_EDGE = 0) : s.winEvent n rise = s := by
  unfold Dev.winEvent
  dsimp only
  rw [silent, if_neg (by cases rise <;> decide)]

end Edges

/-! ### Continuous mode -/

section Continuous

variable {s : State} {n : SliceId}

theorem exec_winCrossing_awake (hs : s.awake = true) (on : s.flag (sB n) SLICE_WIN_CFG_ENABLE = true)
    (mode : s.flag (sB n) SLICE_WIN_CFG_MODE = false) (above : Bool) :
    exec (.winCrossing n above) s = .next (s.withDev (s.winCross n above)) := by
  rw [exec_winCrossing, execWinCrossing, State.on_eq]
  simp [Dev.resetN_of_awake hs, Dev.frozen_of_awake _ hs, on, mode]

/-- An output of WIN that was undecided is decided, 6 cycles after the crossing. -/
def Dev.winDecided (s : Dev) (n : SliceId) : Dev := (s.upTo (s.now + 6)).setFlag (sB n) SLICE_CMP_STATUS_UNDEC_WIN false

/-- The output has moved, and it is the cycle of its event. -/
def Dev.winCrossed (s : Dev) (n : SliceId) (above : Bool) : Dev := ((s.winDecided n).cmpEdge n 3 above).upTo (s.now + 7)

theorem Dev.winDecided_now {s : Dev} (hs : s.awake = true) (n : SliceId) : (s.winDecided n).now = s.now + 6 := by
  rw [Dev.winDecided, Dev.setFlag_now, Dev.upTo_now _ _ hs]
  omega

theorem Dev.winCross_moves {s : Dev} {above : Bool} (hs : s.awake = true) (level : s.cmpLevel n 3 = !above)
    (clean : (s.sl n).dropEdge = false) : s.winCross n above = (s.winCrossed n above).winEvent n above := by
  unfold Dev.winCross
  dsimp only
  rw [level, if_neg (by cases above <;> decide), clean, if_neg (by decide), ← Dev.winDecided, s.winDecided_now hs, Dev.winCrossed]

theorem Dev.winCrossed_spec {s : Dev} (hs : s.awake = true) (clean : (s.sl n).dropEdge = false) (above : Bool) :
    (s.winCrossed n above).cmpLevel n 3 = above ∧
    (s.winCrossed n above).flag (sB n) (if above then SLICE_CMP_FLAGS_WIN_RISE else SLICE_CMP_FLAGS_WIN_FALL) = true ∧
    (s.winCrossed n above).now = s.now + 7 ∧ s.keeps (s.winCrossed n above) [sB n + SLICE_CMP_STATUS, sB n + SLICE_CMP_FLAGS] ∧
    (s.winCrossed n above).slices = s.slices := by
  have still : ((s.winDecided n).sl n).dropEdge = false := by simpa [Dev.winDecided] using clean
  have awake : ((s.winDecided n).cmpEdge n 3 above).awake = true := by
    rw [Dev.cmpEdge_awake, Dev.winDecided, Dev.setFlag_awake, Dev.upTo_awake, hs]
  obtain ⟨keeps, now⟩ := (s.winDecided n).cmpEdge_spec n above 3
  refine ⟨?level, ?flag, ?now, ?keeps, ?slices⟩
  case level => rw [Dev.winCrossed, Dev.cmpLevel_eq_flag, Dev.upTo_flag, ← Dev.cmpLevel_eq_flag, Dev.cmpEdge_level still (by decide)]
  case flag =>
    rw [Dev.winCrossed, Dev.upTo_flag, Dev.cmpEdge_of_clean still]
    cases above <;> exact Dev.flag_setFlag_same _ _ _ _ (by decide) rfl
  case now =>
    rw [Dev.winCrossed, Dev.upTo_now _ _ awake, now, s.winDecided_now hs]
    omega
  case keeps => exact ((((Dev.keeps_refl s _).upTo _).setFlag _ _ _ (by simp)).trans keeps).upTo _
  case slices => rw [Dev.winCrossed, Dev.upTo_slices, Dev.cmpEdge_slices still, Dev.winDecided, Dev.setFlag_slices, Dev.upTo_slices]

end Continuous

/-! ### Sampled mode -/

section Sampled

variable {s : State} {n : SliceId}

theorem Dev.le_convTick (s : Dev) (last k : Nat) : s.now ≤ s.convTick last k + 202 := by
  unfold Dev.convTick
  dsimp only
  omega

/-- The conversion of cycle `c` is over: its value shows, and what was undecided is decided. -/
def Dev.winConverted (s : Dev) (n : SliceId) (v : BitVec 12) (c : Nat) : Dev :=
  (((s.upTo (c + 202)).setFld (sB n) SLICE_WIN_VALUE_VALUE v.toNat).modSl n (fun x => { x with winTick := c })).setFlag (sB n)
    SLICE_CMP_STATUS_UNDEC_WIN false

theorem Dev.winConverted_spec {s : Dev} (hs : s.awake = true) (v : BitVec 12) {c : Nat} (later : s.now ≤ c + 202) :
    (s.winConverted n v c).fld (sB n) SLICE_WIN_VALUE_VALUE = v.toNat ∧ (s.winConverted n v c).now = c + 202 ∧
    ((s.winConverted n v c).sl n).winTick = c ∧ s.keeps (s.winConverted n v c) [sB n + SLICE_WIN_VALUE, sB n + SLICE_CMP_STATUS] := by
  refine ⟨?value, ?now, ?tick, ?keeps⟩
  case value =>
    rw [Dev.winConverted, Dev.fld_setFlag_word _ _ _ _ _ _ (by simp), Dev.modSl_fld, Dev.fld_setFld_same _ _ _ _ (by decide)]
    exact Nat.mod_eq_of_lt v.isLt
  case now => rw [Dev.winConverted, Dev.setFlag_now, Dev.modSl_now, Dev.setFld_now, Dev.upTo_now _ _ hs, Nat.max_eq_right later]
  case tick => simp [Dev.winConverted]
  case keeps => exact ((((Dev.keeps_refl s _).upTo _).setFld _ _ _ (by simp)).modSl _ _).setFlag _ _ _ (by simp)

/-- The state of WIN and its output after a decision. -/
def Dev.showWin (s : Dev) (n : SliceId) (st : Nat) : Dev :=
  (s.setFld (sB n) SLICE_CMP_STATUS_WIN_STATE st).setFlag (sB n) ⟨SLICE_CMP_STATUS, 3, 1⟩ (st == 2)

theorem Dev.showWin_keeps (s : Dev) (n : SliceId) (st : Nat) : s.keeps (s.showWin n st) [sB n + SLICE_CMP_STATUS, sB n + SLICE_CMP_FLAGS] :=
  ((Dev.keeps_refl s _).setFld _ _ _ (by simp)).setFlag _ _ _ (by simp)

theorem Dev.showWin_now (s : Dev) (n : SliceId) (st : Nat) : (s.showWin n st).now = s.now := by simp [Dev.showWin]
theorem Dev.showWin_sl (s : Dev) (n : SliceId) (st : Nat) : (s.showWin n st).sl n = s.sl n := by simp [Dev.showWin]

theorem Dev.showWin_state (s : Dev) (n : SliceId) {st : Nat} (small : st ≤ 2) : (s.showWin n st).fld (sB n) SLICE_CMP_STATUS_WIN_STATE = st := by
  rw [Dev.showWin, Dev.fld_setFlag_bits _ (by rfl) (by decide) (by decide), Dev.fld_setFld_same _ _ _ _ (by decide)]
  exact Nat.mod_eq_of_lt (by simp only; omega)

/-- Where EDGE names no event a move of WIN shows its state, and no more than a flag beside it. -/
theorem Dev.winMove_cases {s : Dev} (silent : s.fld (sB n) SLICE_WIN_CFG_EDGE = 0) (st : Nat) : s.winMove n st = s.showWin n st ∨
    ∃ f : Fld, f.off = SLICE_CMP_FLAGS ∧ s.winMove n st = (s.showWin n st).setFlag (sB n) f true := by
  have edge {f : Fld} (off : f.off = SLICE_CMP_FLAGS) : ((s.showWin n st).setFlag (sB n) f true).fld (sB n) SLICE_WIN_CFG_EDGE = 0 :=
    ((((s.showWin_keeps n st).setFlag _ f _ (by simp [off])).fld (by simp))).trans silent
  unfold Dev.winMove
  dsimp only
  split
  · exact .inr ⟨_, rfl, Dev.winEvent_silent _ (edge rfl)⟩
  · split
    · exact .inr ⟨_, rfl, Dev.winEvent_silent _ (edge rfl)⟩
    · exact .inl rfl

theorem Dev.winMove_silent {s : Dev} (silent : s.fld (sB n) SLICE_WIN_CFG_EDGE = 0) {st : Nat} (small : st ≤ 2) :
    (s.winMove n st).fld (sB n) SLICE_CMP_STATUS_WIN_STATE = st ∧ (s.winMove n st).now = s.now ∧ (s.winMove n st).sl n = s.sl n ∧
    s.keeps (s.winMove n st) [sB n + SLICE_CMP_STATUS, sB n + SLICE_CMP_FLAGS] := by
  have shown := s.showWin_state n small
  obtain moved | ⟨f, off, moved⟩ := Dev.winMove_cases silent st
  · rw [moved]
    exact ⟨shown, s.showWin_now n st, s.showWin_sl n st, s.showWin_keeps n st⟩
  · rw [moved, Dev.fld_setFlag_word _ _ _ _ _ _ (by simp [off])]
    exact ⟨shown, (Dev.setFlag_now _ _ _ _).trans (s.showWin_now n st), (Dev.setFlag_sl _ _ _ _ _).trans (s.showWin_sl n st),
      (s.showWin_keeps n st).setFlag _ _ _ (by simp [off])⟩

/-- The state of WIN after a conversion `v` (R161). -/
abbrev Dev.winState (s : Dev) (n : SliceId) (v : BitVec 12) : Nat :=
  windowState (s.fld (sB n) SLICE_CMP_STATUS_WIN_STATE) (halfMv v.toNat) (halfMv (s.fld (sB n) SLICE_WIN_THR_THR_LO))
    (halfMv (s.fld (sB n) SLICE_WIN_THR_THR_HI)) (2 * s.fld (sB n) SLICE_CMP_HYST_HYST_WIN)

theorem exec_winSampledTick_decided (hs : s.domains = true) (on : s.flag (sB n) SLICE_WIN_CFG_ENABLE = true)
    (mode : s.flag (sB n) SLICE_WIN_CFG_MODE = true) (decided : s.flag (sB n) SLICE_CMP_STATUS_UNDEC_WIN = false) (v : BitVec 12) :
    exec (.winSampledTick n v) s = .next (s.withDev ((s.winConverted n v
      (s.convTick (s.sl n).winTick (1000 * s.fld (sB n) SLICE_WIN_CFG_TICK_US))).winMove n (s.winState n v))) := by
  rw [exec_winSampledTick, execWinSampledTick, State.onAwake_of_awake _ _ (Dev.awake_of_domains hs)]
  simp only [hs, on, mode, decided, Bool.not_true, Bool.or_self, Bool.false_and, Bool.false_eq_true, if_false]
  rfl

end Sampled

/-! ### Configuration -/

section Configuration

variable (s : Dev) (n : SliceId)

/-- Arming WIN decides its output, and touches no other register. -/
theorem Dev.winArm_keeps (input : Nat) : s.keeps (s.winArm n input) [sB n + SLICE_CMP_STATUS] := by
  unfold Dev.winArm
  dsimp only
  split
  · exact ((((Dev.keeps_refl s _).setFlag _ _ _ (by simp)).modSl _ _).setFld _ _ _ (by simp)).setFlag _ _ _ (by simp)
  · exact (((Dev.keeps_refl s _).setFlag _ _ _ (by simp)).modSl _ _).setFlag _ _ _ (by simp)

/-- A refusal shows in CMP_STATUS alone. -/
theorem Dev.cmpRefused_spec : (s.setFlag (sB n) SLICE_CMP_STATUS_REFUSED true).flag (sB n) SLICE_CMP_STATUS_REFUSED = true ∧
    s.keeps (s.setFlag (sB n) SLICE_CMP_STATUS_REFUSED true) [sB n + SLICE_CMP_STATUS] :=
  ⟨Dev.flag_setFlag_same _ _ _ _ (by decide) rfl, (Dev.keeps_refl s _).setFlag _ _ _ (by simp)⟩

variable {s n} {v : Word}

theorem Dev.winCfgWrite_refused (bad : getBits v.toNat 2 2 = 3 ∨ getBits v.toNat 16 10 = 0 ∨ 1000 < getBits v.toNat 16 10) (x : BitVec 12) :
    s.winCfgWrite n v x = s.setFlag (sB n) SLICE_CMP_STATUS_REFUSED true := if_pos (by simpa [or_assoc] using bad)

theorem Dev.winCfgWrite_stored (input : getBits v.toNat 2 2 ≠ 3) (pos : getBits v.toNat 16 10 ≠ 0) (most : getBits v.toNat 16 10 ≤ 1000)
    (x : BitVec 12) : (s.store (sB n + SLICE_WIN_CFG) v).keeps (s.winCfgWrite n v x) [sB n + SLICE_CMP_STATUS] := by
  unfold Dev.winCfgWrite
  dsimp only
  rw [if_neg (by simpa [input, pos] using most)]
  exact .ite (Dev.winArm_keeps _ _ _) (Dev.keeps_refl _ _)

end Configuration

/-- Settles O26: a crossing is `winCross_moves`, with what it shows in `winCrossed_spec`; a conversion is `exec_winSampledTick_decided`
with `winConverted_spec` and `winMove_silent`; the hysteresis is that of `windowState`. -/
theorem windowComparator : Obligations.WindowComparator := by
  unfold Obligations.WindowComparator
  refine ⟨⟨?continuous, ?sampled, ?config⟩, fun v lo hi h hyst _ => ⟨windowState_inside_iff, windowState_above_iff hyst,
    windowState_below_iff hyst, fun st => windowState_le_two st⟩⟩
  case continuous =>
    intro s n above hs on mode level clean
    have run := exec_winCrossing_awake hs on mode above
    rw [Dev.winCross_moves hs level clean] at run
    refine ⟨run, fun silent => ⟨_, run, ?_⟩⟩
    obtain ⟨shown, flag, now, keeps, slices⟩ := Dev.winCrossed_spec hs clean above
    rw [State.withDev_toDev, Dev.winEvent_silent above ((keeps.fld (by simp)).trans silent)]
    exact ⟨shown, flag, now, keeps, slices⟩
  case sampled =>
    rintro s n v c st hs on mode decided rfl rfl
    have run := exec_winSampledTick_decided hs on mode decided v
    refine ⟨run, fun silent => ⟨_, run, ?_⟩⟩
    obtain ⟨value, now, tick, keeps⟩ := Dev.winConverted_spec (Dev.awake_of_domains hs) (n := n) v (s.le_convTick (s.sl n).winTick
      (1000 * s.fld (sB n) SLICE_WIN_CFG_TICK_US))
    obtain ⟨shown, moved, slice, moves⟩ := Dev.winMove_silent ((keeps.fld (by simp)).trans silent) (windowState_le_two _)
    rw [State.withDev_toDev]
    exact ⟨(moves.fld (by simp)).trans value, shown, moved.trans now, (congrArg Slice.winTick slice).trans tick,
      (keeps.mono (by simp)).trans (moves.mono (by simp))⟩
  case config =>
    intro s n v x hs
    have run := (exec_winCfgWrite n v x s).trans (State.onAwake_of_awake _ _ hs)
    refine ⟨fun bad => ⟨_, run, ?_⟩, fun input pos most => ⟨_, run, ?_⟩⟩
    · rw [State.withDev_toDev, Dev.winCfgWrite_refused bad]
      exact s.cmpRefused_spec n
    · have stored := Dev.winCfgWrite_stored (s := s.toDev) (n := n) input pos most x
      rw [State.withDev_toDev]
      exact ⟨stored.1 _ (by simp), ((Dev.keeps_refl s.toDev _).store _ _ (by simp)).trans (stored.mono (by simp))⟩
end Sys2Proof.Machine

namespace Sys2Proof.Machine
open Sys2Proof

/-! ## Sampled monitors and the comparators' thresholds (R156, R162, R163, R172) -/

/-! ### What a stored word shows -/

section Store

variable {s : Dev} {v : Word}

/-- A slice's word is described by the row of its table. -/
theorem regRow_slice (n : SliceId) {k : Nat} (hk : k < 0x10000) : regRow (sB n + k) = rowsSlice.find? (fun r => r.holds k) := by
  have lt := n.isLt
  have word : (sB n + k) % 0x10000 = k := by simp only [sB, sliceBase]; omega
  unfold regRow regBlock
  repeat rw [if_neg (by simp only [sB, sliceBase]; omega)]
  rw [if_pos (by simp only [sB, sliceBase]; omega), word]

/-- A monitor's word is described by the row of its table. -/
theorem regRow_mon (m : SliceId) {k : Nat} (hk : k < 16) : regRow (monBase m.val + k) = rowsMon.find? (fun r => r.holds k) := by
  have lt := m.isLt
  have word : (monBase m.val + k - 0x90000) % 16 = k := by simp only [monBase]; omega
  unfold regRow regBlock
  repeat rw [if_neg (by simp only [monBase]; omega)]
  rw [if_pos (by simp only [monBase]; omega), if_pos (by simp only [monBase]; omega), word]

/-- A field that is readable and writable throughout shows what is stored in it (R3, R4). -/
theorem Dev.fld_store {b : Nat} {f : Fld} {r : RegRow} (row : regRow (b + f.off) = some r) (plain : r.w1c = 0) (fits : f.lo + f.w ≤ 32)
    (writable : ∀ i < f.w, r.rw.testBit (f.lo + i) = true) : (s.store (b + f.off) v).fld b f = getBits v.toNat f.lo f.w := by
  apply Nat.eq_of_testBit_eq
  intro i
  rw [Dev.fld, getBits_testBit, getBits_testBit]
  by_cases inside : i < f.w
  · have mask : (BitVec.ofNat 32 r.rw).getLsbD (f.lo + i) = true := by
      rw [BitVec.getLsbD_ofNat, writable i inside, decide_eq_true (by omega), Bool.and_self]
    have bit : ((s.store (b + f.off) v).rd (b + f.off)).getLsbD (f.lo + i) = v.getLsbD (f.lo + i) := by
      simp only [Dev.store, row, Dev.rd_wr_same, plain, BitVec.getLsbD_and, BitVec.getLsbD_or, BitVec.getLsbD_not, mask]
      simp [show f.lo + i < 32 by omega]
    rw [BitVec.testBit_toNat, BitVec.testBit_toNat, bit]
  · simp [inside]

end Store

/-! ### A conversion of a monitor -/

section Conversion

/-- A conversion of cycle `c` is over: its value shows, and the tick is counted. -/
def Dev.monSampled (s : Dev) (m : SliceId) (v : BitVec 12) (c : Nat) : Dev :=
  ((s.upTo (c + 202)).setFld (monBase m.val) MON_STATUS_VALUE v.toNat).modMon m (fun x => { x with ticks := (x.ticks + 1) % 256, at_ := c })

/-- What was undecided is decided. -/
def Dev.monDecided (s : Dev) (m : SliceId) (v : BitVec 12) (c : Nat) : Dev := (s.monSampled m v c).setFlag (monBase m.val) MON_STATUS_UNDECIDED false

/-- The state of monitor `m` after a conversion `v` (R162). -/
abbrev Dev.monNext (s : Dev) (m : SliceId) (v : BitVec 12) : Nat :=
  windowState (s.monState m.val) (2 * v.toInt) (2 * signed 12 (s.fld (monBase m.val) MON_THR_LO))
    (2 * signed 12 (s.fld (monBase m.val) MON_THR_HI)) (s.fld (monBase m.val) MON_CFG_HYST)

/-- A code at either end of the scale raises the overrange source. -/
def Dev.monOverrange (s : Dev) (m : SliceId) (v : BitVec 12) : Dev :=
  if v == 0x800 || v == 0x7FF then s.raise (0x360 + m.val) 0 0 m.val else s

/-- With ACTION 2 a monitor outside its window parks its slice at cycle `c`. -/
def Dev.monActs (s : Dev) (m : SliceId) (c : Nat) : Dev :=
  if s.monAction m.val == 2 && s.monState m.val != 0 && !s.parked m then
    ((s.upTo c).modSl m (fun x => { x with monPark := true })).parkBegin m
  else s

variable {s : Dev} {m : SliceId} {v : BitVec 12} {c : Nat}

/-- A conversion shows its value, and leaves every field beside it. -/
theorem Dev.monSampled_fld {f : Fld} (beside : f.off ≠ MON_STATUS ∨ 12 ≤ f.lo) :
    (s.monSampled m v c).fld (monBase m.val) f = s.fld (monBase m.val) f := by
  rw [Dev.monSampled, Dev.modMon_fld]
  by_cases word : f.off = MON_STATUS
  · rw [Dev.fld_setFld_bits _ _ _ MON_STATUS_VALUE f _ (by rw [word]) (by decide) (.inr (beside.resolve_left (not_not_intro word))),
      Dev.upTo_fld]
  · rw [Dev.fld_setFld_word _ _ _ _ _ _ (by simpa using Ne.symm word), Dev.upTo_fld]

theorem Dev.monSampled_undecided : (s.monSampled m v c).flag (monBase m.val) MON_STATUS_UNDECIDED = s.flag (monBase m.val) MON_STATUS_UNDECIDED :=
  congrArg (· == 1) (Dev.monSampled_fld (.inr (by decide)))

theorem Dev.monSampled_next : (s.monSampled m v c).monNext m v = s.monNext m v := by
  have state : (s.monSampled m v c).monState m.val = s.monState m.val := Dev.monSampled_fld (.inr (by decide))
  rw [Dev.monNext, state, Dev.monSampled_fld (.inl (by decide)), Dev.monSampled_fld (.inl (by decide)), Dev.monSampled_fld (.inl (by decide))]

theorem Dev.monDecided_state : (s.monDecided m v c).monState m.val = s.monState m.val :=
  (Dev.fld_setFlag_bits (f := MON_STATUS_UNDECIDED) (f' := MON_STATUS_STATE) _ rfl (by decide) (by decide)).trans
    (Dev.monSampled_fld (.inr (by decide)))

/-- ACTION is a matter of the PINS plate. -/
theorem Dev.monAction_of_plates {s t : Dev} (h : t.plates = s.plates) (k : Nat) : t.monAction k = s.monAction k := by
  rw [Dev.monAction, Dev.monAction, h]

theorem exec_smonTick_decided {s : State} (hs : s.domains = true) (on : s.monOn m.val = true)
    (decided : s.flag (monBase m.val) MON_STATUS_UNDECIDED = false)
    (tick : c = s.convTick (s.mons.get m).at_ (1000 * s.fld (monBase m.val) MON_CFG_TICK_US)) (v : BitVec 12) :
    exec (.smonTick m v) s = .next (s.withDev ((((s.monDecided m v c).monMove m (s.monNext m v)).monOverrange m v).monActs m (c + 204))) := by
  rw [exec_smonTick, execSmonTick, State.onAwake_of_awake _ _ (Dev.awake_of_domains hs)]
  dsimp only
  rw [if_neg (by simp [hs, on]), ← tick, ← Dev.monSampled, Dev.monSampled_undecided, decided, Bool.false_and]
  simp only [Bool.false_eq_true, if_false]
  rw [← Dev.monDecided, ← Dev.monNext, Dev.monSampled_next]
  rfl

theorem Dev.monOverrange_eq (s : Dev) (m : SliceId) (v : BitVec 12) :
    s.monOverrange m v = if v = 0x800 ∨ v = 0x7FF then s.raise (0x360 + m.val) 0 0 m.val else s := by
  unfold Dev.monOverrange
  exact if_congr (by simp) rfl rfl

theorem Dev.monOverrange_inside (low : v ≠ 0x800) (high : v ≠ 0x7FF) : s.monOverrange m v = s := by
  rw [Dev.monOverrange_eq, if_neg (not_or.mpr ⟨low, high⟩)]

theorem Dev.monActs_none (idle : s.monAction m.val ≠ 2 ∨ s.monState m.val = 0 ∨ s.parked m = true) : s.monActs m c = s :=
  if_neg (by rcases idle with idle | idle | idle <;> simp [idle])

theorem Dev.monActs_parks (park : s.monAction m.val = 2) (outside : s.monState m.val ≠ 0) (out : s.parked m = false) :
    s.monActs m c = ((s.upTo c).modSl m (fun x => { x with monPark := true })).parkBegin m := if_pos (by simp [park, outside, out])

theorem Dev.mons_modMon_same (s : Dev) (m : SliceId) (f : Mon → Mon) : (s.modMon m f).mons.get m = f (s.mons.get m) := by
  simp [Dev.modMon, vector_get_set]

theorem Dev.keeps.modMon {s t : Dev} {l : List Nat} (h : s.keeps t l) (m : SliceId) (f : Mon → Mon) : s.keeps (t.modMon m f) l := ⟨h.1, h.2⟩

/-- A decision that leaves the state shows it and no more. -/
theorem Dev.monMove_same : s.monMove m (s.monState m.val) = s.setFld (monBase m.val) MON_STATUS_STATE (s.monState m.val) :=
  if_pos (by simp)

/-- From inside to above, with no vector: RISE and the source of R163. -/
theorem Dev.monMove_rises (inside : s.monState m.val = 0) (quiet : s.flag (monBase m.val) MON_CFG_IRQ_EN = false) :
    s.monMove m 2 = ((s.setFld (monBase m.val) MON_STATUS_STATE 2).setFlag (monBase m.val) MON_STATUS_RISE true).raise (0x340 + m.val) 0 0 m.val := by
  have still : ((s.setFld (monBase m.val) MON_STATUS_STATE 2).setFlag (monBase m.val) MON_STATUS_RISE true).flag (monBase m.val)
      MON_CFG_IRQ_EN = false := by
    rw [Dev.flag_setFlag_word _ _ _ _ _ _ (by simp), Dev.flag_setFld_word _ _ _ _ _ _ (by simp), quiet]
  unfold Dev.monMove
  dsimp only
  rw [inside, if_neg (show ¬ ((0 : Nat) == 2) = true by decide), if_pos (show stateRank 0 < stateRank 2 by decide), still]
  rfl

/-- A conversion that leaves the state of its monitor shows its value alone. -/
theorem Dev.monDecided_stays (hs : s.awake = true) (later : s.now ≤ c + 202) {d : Dev}
    (hd : d = (s.monDecided m v c).setFld (monBase m.val) MON_STATUS_STATE (s.monState m.val)) :
    d.fld (monBase m.val) MON_STATUS_VALUE = v.toNat ∧ d.monState m.val = s.monState m.val ∧ d.now = c + 202 ∧
    s.keeps d [monBase m.val + MON_STATUS] ∧ (d.mons.get m).ticks = ((s.mons.get m).ticks + 1) % 256 ∧ (d.mons.get m).at_ = c := by
  subst hd
  have small : s.monState m.val < 4 := getBits_lt _ _ _
  refine ⟨?value, ?state, ?now, ?keeps, ?ticks, ?tick⟩
  case value =>
    rw [Dev.fld_setFld_bits _ _ _ _ _ _ (by rfl) (by decide) (by decide), Dev.monDecided, Dev.fld_setFlag_bits _ (by rfl) (by decide) (by decide),
      Dev.monSampled, Dev.modMon_fld, Dev.fld_setFld_same _ _ _ _ (by decide)]
    exact Nat.mod_eq_of_lt v.isLt
  case state =>
    rw [Dev.monState, Dev.fld_setFld_same _ _ _ _ (by decide)]
    exact Nat.mod_eq_of_lt small
  case now =>
    rw [Dev.setFld_now, Dev.monDecided, Dev.setFlag_now, Dev.monSampled, Dev.modMon_now, Dev.setFld_now, Dev.upTo_now _ _ hs, Nat.max_eq_right later]
  case keeps =>
    exact (((((Dev.keeps_refl s _).upTo _).setFld _ _ _ (by simp)).modMon _ _).setFlag _ _ _ (by simp)).setFld _ _ _ (by simp)
  all_goals simp [Dev.monDecided, Dev.monSampled, Dev.mons_modMon_same]

end Conversion

/-! ### Writes of the comparators' registers -/

section Writes

variable {s : Dev} {n m : SliceId} {v : Word}

/-- One field of a write of CMP_HYST. -/
def Dev.hystOne (s : Dev) (n : SliceId) (v : Word) (f : Fld) : Dev :=
  if 50 < getBits v.toNat f.lo f.w then s.setFlag (sB n) SLICE_CMP_STATUS_REFUSED true else s.setFld (sB n) f (getBits v.toNat f.lo f.w)

theorem Dev.hystWrite_eq (s : Dev) (n : SliceId) (v : Word) : s.hystWrite n v =
    ((s.hystOne n v SLICE_CMP_HYST_HYST_HI).hystOne n v SLICE_CMP_HYST_HYST_LO).hystOne n v SLICE_CMP_HYST_HYST_WIN := rfl

section HystOne

variable {f g : Fld} (off : f.off = SLICE_CMP_HYST)

include off

/-- A field above 50 mV keeps its value, any other is stored (R156). -/
theorem Dev.hystOne_own (fits : f.lo + f.w ≤ 32) : (s.hystOne n v f).fld (sB n) f =
    if 50 < getBits v.toNat f.lo f.w then s.fld (sB n) f else getBits v.toNat f.lo f.w := by
  unfold Dev.hystOne
  split
  · rw [Dev.fld_setFlag_word _ _ _ _ _ _ (by simp [off])]
  · rw [Dev.fld_setFld_same _ _ _ _ fits, Nat.mod_eq_of_lt (getBits_lt _ _ _)]

theorem Dev.hystOne_other (off' : g.off = SLICE_CMP_HYST) (fits : f.lo + f.w ≤ 32) (beside : g.lo + g.w ≤ f.lo ∨ f.lo + f.w ≤ g.lo) :
    (s.hystOne n v f).fld (sB n) g = s.fld (sB n) g := by
  unfold Dev.hystOne
  split
  · rw [Dev.fld_setFlag_word _ _ _ _ _ _ (by simp [off'])]
  · rw [Dev.fld_setFld_bits _ _ _ f g _ (by rw [off, off']) fits beside]

theorem Dev.hystOne_refused : (s.hystOne n v f).flag (sB n) SLICE_CMP_STATUS_REFUSED =
    (decide (50 < getBits v.toNat f.lo f.w) || s.flag (sB n) SLICE_CMP_STATUS_REFUSED) := by
  unfold Dev.hystOne
  split
  next above => rw [Dev.flag_setFlag_same _ _ _ _ (by decide) rfl, decide_eq_true above, Bool.true_or]
  next within => rw [Dev.flag_setFld_word _ _ _ _ _ _ (by simp [off]), decide_eq_false within, Bool.false_or]

theorem Dev.hystOne_keeps : s.keeps (s.hystOne n v f) [sB n + SLICE_CMP_HYST, sB n + SLICE_CMP_STATUS] ∧ (s.hystOne n v f).slices = s.slices := by
  unfold Dev.hystOne
  split
  · exact ⟨(Dev.keeps_refl s _).setFlag _ _ _ (by simp), Dev.setFlag_slices _ _ _ _⟩
  · exact ⟨(Dev.keeps_refl s _).setFld _ _ _ (by simp [off]), Dev.setFld_slices _ _ _ _⟩

end HystOne

/-- Each of the three fields is judged on its own (R156). -/
theorem Dev.hystWrite_fld : ∀ f ∈ [SLICE_CMP_HYST_HYST_HI, SLICE_CMP_HYST_HYST_LO, SLICE_CMP_HYST_HYST_WIN], (s.hystWrite n v).fld (sB n) f =
    if 50 < getBits v.toNat f.lo f.w then s.fld (sB n) f else getBits v.toNat f.lo f.w := by
  intro f mem
  simp only [List.mem_cons, List.not_mem_nil, or_false] at mem
  rw [Dev.hystWrite_eq]
  obtain rfl | rfl | rfl := mem
  · rw [Dev.hystOne_other rfl rfl (by decide) (by decide), Dev.hystOne_other rfl rfl (by decide) (by decide), Dev.hystOne_own rfl (by decide)]
  · rw [Dev.hystOne_other rfl rfl (by decide) (by decide), Dev.hystOne_own rfl (by decide), Dev.hystOne_other rfl rfl (by decide) (by decide)]
  · rw [Dev.hystOne_own rfl (by decide), Dev.hystOne_other rfl rfl (by decide) (by decide), Dev.hystOne_other rfl rfl (by decide) (by decide)]

theorem Dev.hystWrite_refused : ∀ f ∈ [SLICE_CMP_HYST_HYST_HI, SLICE_CMP_HYST_HYST_LO, SLICE_CMP_HYST_HYST_WIN],
    50 < getBits v.toNat f.lo f.w → (s.hystWrite n v).flag (sB n) SLICE_CMP_STATUS_REFUSED = true := by
  intro f mem above
  simp only [List.mem_cons, List.not_mem_nil, or_false] at mem
  rw [Dev.hystWrite_eq, Dev.hystOne_refused rfl, Dev.hystOne_refused rfl, Dev.hystOne_refused rfl]
  obtain rfl | rfl | rfl := mem <;> simp [above]

theorem Dev.hystWrite_keeps : s.keeps (s.hystWrite n v) [sB n + SLICE_CMP_HYST, sB n + SLICE_CMP_STATUS] ∧ (s.hystWrite n v).slices = s.slices := by
  obtain ⟨k1, s1⟩ := Dev.hystOne_keeps (s := s) (n := n) (v := v) (f := SLICE_CMP_HYST_HYST_HI) rfl
  obtain ⟨k2, s2⟩ := Dev.hystOne_keeps (s := s.hystOne n v SLICE_CMP_HYST_HYST_HI) (n := n) (v := v) (f := SLICE_CMP_HYST_HYST_LO) rfl
  obtain ⟨k3, s3⟩ := Dev.hystOne_keeps (s := (s.hystOne n v SLICE_CMP_HYST_HYST_HI).hystOne n v SLICE_CMP_HYST_HYST_LO) (n := n) (v := v)
    (f := SLICE_CMP_HYST_HYST_WIN) rfl
  rw [Dev.hystWrite_eq]
  exact ⟨(k1.trans k2).trans k3, s3.trans (s2.trans s1)⟩

/-- A write in a slice's block. -/
theorem Dev.comparatorWrite_slice (s : Dev) (n : SliceId) (v : Word) {k : Nat} (hk : k < 0x10000) : s.comparatorWrite (sB n + k) v =
    if k == SLICE_CMP_HYST then s.hystWrite n v else if k == SLICE_WIN_THR then s.winThrWrite n v else s := by
  have lt := n.isLt
  have word : (sB n + k) % 0x10000 = k := by simp only [sB, sliceBase]; omega
  have slice : (sB n + k - 0x100000) / 0x10000 = n.val := by simp only [sB, sliceBase]; omega
  unfold Dev.comparatorWrite
  rw [if_neg (by simp only [Bool.and_eq_true, decide_eq_true_eq, sB, sliceBase]; omega),
    if_pos (by simp only [Bool.and_eq_true, decide_eq_true_eq, sB, sliceBase]; omega), word, slice, Dev.sid_val]

/-- A write of a monitor's register. -/
theorem Dev.comparatorWrite_mon (s : Dev) (m : SliceId) (v : Word) {k : Nat} (hk : k < 16) :
    s.comparatorWrite (monBase m.val + k) v = s.monWrite m.val k v := by
  have lt := m.isLt
  have word : (monBase m.val + k) % 16 = k := by simp only [monBase]; omega
  have unit : (monBase m.val + k - 0x90000) / 16 = m.val := by simp only [monBase]; omega
  unfold Dev.comparatorWrite
  rw [if_pos (by simp only [Bool.and_eq_true, decide_eq_true_eq, monBase]; omega), word, unit]

theorem Dev.winThr_stored : ((s.store (sB n + SLICE_WIN_THR) v).fld (sB n) SLICE_WIN_THR_THR_HI = getBits v.toNat 0 12) ∧
    ((s.store (sB n + SLICE_WIN_THR) v).fld (sB n) SLICE_WIN_THR_THR_LO = getBits v.toNat 16 12) := by
  have row : regRow (sB n + SLICE_WIN_THR) = some ⟨0x310, 1, 4, 0xfff0fff, 0x0, 0x0, 0xfff⟩ := (regRow_slice n (by decide)).trans (by decide)
  exact ⟨Dev.fld_store (f := SLICE_WIN_THR_THR_HI) row rfl (by decide) (by decide),
    Dev.fld_store (f := SLICE_WIN_THR_THR_LO) row rfl (by decide) (by decide)⟩

theorem Dev.monThr_stored : ((s.store (monBase m.val + MON_THR) v).fld (monBase m.val) MON_THR_LO = getBits v.toNat 0 12) ∧
    ((s.store (monBase m.val + MON_THR) v).fld (monBase m.val) MON_THR_HI = getBits v.toNat 16 12) := by
  have row : regRow (monBase m.val + MON_THR) = some ⟨0x4, 1, 4, 0xfff0fff, 0x0, 0x0, 0x7ff0800⟩ := (regRow_mon m (by decide)).trans (by decide)
  exact ⟨Dev.fld_store (f := MON_THR_LO) row rfl (by decide) (by decide), Dev.fld_store (f := MON_THR_HI) row rfl (by decide) (by decide)⟩

/-- A monitor's tick of 0 or above 1,000 µs is refused (R162). -/
theorem Dev.monWrite_tick_refused (on : s.monOn m.val = true) (bad : getBits v.toNat 0 10 = 0 ∨ 1000 < getBits v.toNat 0 10) :
    s.monWrite m.val MON_CFG v = s.setFlag (monBase m.val) MON_STATUS_REFUSED true := by
  unfold Dev.monWrite
  dsimp only
  rw [if_neg (by simp [on]), if_pos (by simpa using .inl bad)]

theorem Dev.monWrite_thr_stored (on : s.monOn m.val = true) (order : signed 12 (getBits v.toNat 0 12) < signed 12 (getBits v.toNat 16 12)) :
    s.monWrite m.val MON_THR v = s.store (monBase m.val + MON_THR) v := by
  unfold Dev.monWrite
  dsimp only
  rw [if_neg (by simp [on]), if_neg (by simpa using order)]

end Writes

/-- Settles O27: a conversion is `exec_smonTick_decided`, its move `monMove_rises` and `monDecided_stays`; the fields of CMP_HYST are judged one
by one in `hystWrite_fld`, and the thresholds that are stored are `winThr_stored` and `monThr_stored`. -/
theorem monitorsAndThresholds : Obligations.MonitorsAndThresholds := by
  unfold Obligations.MonitorsAndThresholds
  refine ⟨⟨?conversion, fun s m inside quiet => Dev.monMove_rises inside quiet⟩, ?hysteresis, ?window, ?monitor⟩
  case conversion =>
    rintro s m v c _ d hs on decided tick rfl hd
    have run := exec_smonTick_decided hs on decided tick v
    replace hd : d = (s.monDecided m v c).monMove m (s.monNext m v) := hd
    rw [← hd] at run
    refine ⟨?acts, ?stays⟩
    case acts =>
      rintro e he
      rw [Dev.monOverrange_eq, ← he] at run
      exact ⟨fun idle => by rw [run, Dev.monActs_none idle], fun park outside out => by rw [run, Dev.monActs_parks park outside out]⟩
    case stays =>
      intro same low high act
      have later : s.now ≤ c + 202 := tick ▸ s.le_convTick _ _
      have plain : d = (s.monDecided m v c).setFld (monBase m.val) MON_STATUS_STATE (s.monState m.val) := by
        replace same : s.monNext m v = s.monState m.val := same
        rw [hd, same, ← Dev.monDecided_state (v := v) (c := c), Dev.monMove_same]
      have shown := Dev.monDecided_stays (Dev.awake_of_domains hs) later plain
      have action : d.monAction m.val = s.monAction m.val := Dev.monAction_of_plates (by simp [plain, Dev.monDecided, Dev.monSampled]) _
      rw [Dev.monOverrange_inside low high, Dev.monActs_none (.inl (action ▸ act))] at run
      exact ⟨_, run, shown⟩
  case hysteresis =>
    intro s n v hs
    refine ⟨_, (exec_comparatorWrite _ v s).trans (State.onAwake_of_awake _ _ hs), ?_⟩
    rw [State.withDev_toDev, Dev.comparatorWrite_slice _ _ _ (by decide), if_pos (by decide)]
    refine ⟨fun f mem => ⟨fun within => ?_, fun above => ⟨?_, Dev.hystWrite_refused f mem above⟩⟩, Dev.hystWrite_keeps⟩
    · rw [Dev.hystWrite_fld f mem, if_neg (by omega)]
    · rw [Dev.hystWrite_fld f mem, if_pos above]
  case window =>
    intro s n v hs
    have run := (exec_comparatorWrite (sB n + SLICE_WIN_THR) v s).trans (State.onAwake_of_awake _ _ hs)
    rw [Dev.comparatorWrite_slice _ _ _ (by decide), if_neg (by decide), if_pos (by decide), Dev.winThrWrite] at run
    refine ⟨fun bad => ⟨_, run, ?_⟩, fun order => ⟨_, run, ?_⟩⟩
    · rw [State.withDev_toDev, if_pos bad]
      exact s.cmpRefused_spec n
    · rw [State.withDev_toDev, if_neg (by omega)]
      exact ⟨Dev.winThr_stored.1, Dev.winThr_stored.2, (Dev.keeps_refl s.toDev _).store _ _ (by simp)⟩
  case monitor =>
    intro s m v hs on
    refine ⟨fun bad => ⟨_, (exec_comparatorWrite _ v s).trans (State.onAwake_of_awake _ _ hs), ?_⟩,
      fun order => ⟨_, (exec_comparatorWrite _ v s).trans (State.onAwake_of_awake _ _ hs), ?_⟩⟩
    · rw [State.withDev_toDev, Dev.comparatorWrite_mon _ _ _ (by decide), Dev.monWrite_tick_refused on bad]
      exact ⟨Dev.flag_setFlag_same _ _ _ _ (by decide) rfl, (Dev.keeps_refl _ _).setFlag _ _ _ (by simp)⟩
    · rw [State.withDev_toDev, Dev.comparatorWrite_mon _ _ _ (by decide), Dev.monWrite_thr_stored on order]
      exact ⟨Dev.monThr_stored.1, Dev.monThr_stored.2, (Dev.keeps_refl s.toDev _).store _ _ (by simp)⟩

end Sys2Proof.Machine

namespace Sys2Proof.Machine
open Sys2Proof

/-! ## The pre-regulator (R164 to R168, R171) -/

/-! ### A period -/

section Period

variable {n : SliceId} {cs : List (Nat × Int)} {v : BitVec 12} {k c : Nat}

theorem Dev.le_nextPhase (s : Dev) (n : SliceId) (k : Nat) : s.now ≤ s.nextPhase n k := by
  unfold Dev.nextPhase
  dsimp only
  omega

/-- The period of cycle `c` begins: its rail conversion is taken. -/
def Dev.prgOpened (s : Dev) (n : SliceId) (v : BitVec 12) (c : Nat) : Dev :=
  ((s.upTo c).setFld (sB n) SLICE_PRG_RAIL_CODE v.toNat).modSl n (fun x => { x with prgAt := c })

/-- The pulse of a period rises and falls, after `run` periods in a row that the comparator ended at the end of blanking. -/
def Dev.prgPulsed (s : Dev) (n : SliceId) (run rise fall : Nat) : Dev :=
  s.modSl n (fun x => { x with prgOc := run, prgPwm := some (rise, fall) })

/-- PRG has become active and inactive again. -/
def Dev.prgEdges (s : Dev) (n : SliceId) : Dev := (s.cmpEdge n 2 true).cmpEdge n 2 false

/-- What a period of cycle `c` and length `k` that has a pulse does, the comparator active first in cycle `act` of it: `run` periods in a row
have been ended at the end of blanking, of the `count` that stop the switching (R164, R168). -/
def Dev.prgEnd (s : Dev) (n : SliceId) (k c : Nat) (act : Option Nat) (count run : Nat) : Dev :=
  let d := if act.isSome then s.prgEdges n else s
  let long := match act with
    | some t => decide (10 + 9 * k < 10 * max (t + 5) 41)
    | none => true
  let stop := match act with
    | some t => if long then 1 + 9 * k / 10 else max (t + 5) 41
    | none => 1 + 9 * k / 10
  let e := (if long then d.setFlag (sB n) SLICE_PRG_STATUS_MAXDUTY true else d).prgPulsed n (if act = some 31 then run + 1 else 0) (c + 1) (c + stop)
  if count != 0 && decide (count ≤ if act = some 31 then run + 1 else 0) then e.overcurrent n else e

section Ends

variable {s : Dev} {count run : Nat}

/-- A pulse the comparator does not end falls after nine tenths of the period. -/
theorem Dev.prgEnd_longest : s.prgEnd n k c none count run =
    (s.setFlag (sB n) SLICE_PRG_STATUS_MAXDUTY true).prgPulsed n 0 (c + 1) (c + (1 + 9 * k / 10)) :=
  if_neg (by simp)

/-- One the comparator ends after blanking falls 5 cycles later, no sooner than cycle 41. -/
theorem Dev.prgEnd_ended {a : Nat} (after : 31 < a) (short : 10 * max (a + 5) 41 ≤ 10 + 9 * k) : s.prgEnd n k c (some a) count run =
    (s.prgEdges n).prgPulsed n 0 (c + 1) (c + max (a + 5) 41) := by
  have late : (some a = some 31) = False := by simpa using after.ne'
  unfold Dev.prgEnd
  dsimp only
  rw [decide_eq_false (Nat.not_lt.mpr short)]
  simp only [late, if_false, Bool.false_eq_true, Option.isSome_some, if_true]
  exact if_neg (by simp)

/-- As many periods in a row as FAULT_COUNT that it ends at the end of blanking stop the switching. -/
theorem Dev.prgEnd_overcurrent (counts : count ≠ 0) (full : count ≤ run + 1) (period : 500 ≤ k) : s.prgEnd n k c (some 31) count run =
    ((s.prgEdges n).prgPulsed n (run + 1) (c + 1) (c + 41)).overcurrent n := by
  have short : decide (10 + 9 * k < 10 * max (31 + 5) 41) = false := decide_eq_false (by omega)
  unfold Dev.prgEnd
  dsimp only
  rw [short]
  simp only [if_false, Bool.false_eq_true, Option.isSome_some, if_true]
  exact if_pos (by simp [counts, full])

end Ends

theorem Dev.prgOpened_ctrl (s : Dev) : (s.prgOpened n v c).fld (sB n) SLICE_PRG_STATUS_CTRL = s.fld (sB n) SLICE_PRG_STATUS_CTRL := by
  rw [Dev.prgOpened, Dev.modSl_fld, Dev.fld_setFld_word _ _ _ _ _ _ (by simp), Dev.upTo_fld]

theorem Dev.prgOpened_spec {s : Dev} (hs : s.awake = true) (later : s.now ≤ c) :
    (s.prgOpened n v c).fld (sB n) SLICE_PRG_RAIL_CODE = v.toNat ∧ (s.prgOpened n v c).now = c ∧
    s.keeps (s.prgOpened n v c) [sB n + SLICE_PRG_RAIL] := by
  refine ⟨?rail, ?now, (((Dev.keeps_refl s _).upTo _).setFld _ _ _ (by simp)).modSl _ _⟩
  case rail =>
    rw [Dev.prgOpened, Dev.modSl_fld, Dev.fld_setFld_same _ _ _ _ (by decide)]
    exact Nat.mod_eq_of_lt v.isLt
  case now => rw [Dev.prgOpened, Dev.modSl_now, Dev.setFld_now, Dev.upTo_now _ _ hs, Nat.max_eq_right later]

theorem Dev.prgOpened_sl (s : Dev) : (s.prgOpened n v c).sl n = { s.sl n with prgAt := c } := by simp [Dev.prgOpened]

section Runs

variable {s : State} (hs : s.domains = true) (on : s.flag (sB n) SLICE_PRG_STATUS_RUNNING = true) (hk : k = s.fld (sB n) SLICE_PRG_CFG_PERIOD)
  (hc : c = s.nextPhase n k)

include hs on hk hc

/-- With a control code of 0 a period has no pulse (R165). -/
theorem exec_prgPeriod_skipped (ctrl : s.fld (sB n) SLICE_PRG_STATUS_CTRL = 0) :
    exec (.prgPeriodStart n cs v) s = .next (s.withDev ((s.prgOpened n v c).modSl n (fun x => { x with prgOc := 0 }))) := by
  rw [exec_prgPeriodStart, execPrgPeriodStart, State.onAwake_of_awake _ _ (Dev.awake_of_domains hs)]
  dsimp only
  rw [if_neg (by simp [hs, on]), ← hk, ← hc, ← Dev.prgOpened, Dev.prgOpened_ctrl, ctrl, if_pos (by decide)]

theorem exec_prgPeriod_pulse (ctrl : s.fld (sB n) SLICE_PRG_STATUS_CTRL ≠ 0) :
    exec (.prgPeriodStart n cs v) s = .next (s.withDev ((s.prgOpened n v c).prgEnd n k c
      (prgActive cs (s.fld (sB n) SLICE_PRG_STATUS_CTRL) (s.fld (sB n) SLICE_PRG_CFG_SLOPE) k) (s.fld (sB n) SLICE_PRG_CFG_FAULT_COUNT)
      (s.sl n).prgOc)) := by
  rw [exec_prgPeriodStart, execPrgPeriodStart, State.onAwake_of_awake _ _ (Dev.awake_of_domains hs)]
  dsimp only
  rw [if_neg (by simp [hs, on]), ← hk, ← hc, ← Dev.prgOpened, Dev.prgOpened_ctrl, if_neg (by simpa using ctrl)]
  rfl

end Runs

/-- The edges of the comparator of a period leave its output inactive. -/
theorem Dev.prgEdges_spec {s : Dev} (clean : (s.sl n).dropEdge = false) : (s.prgEdges n).cmpLevel n 2 = false ∧ (s.prgEdges n).now = s.now ∧
    (s.prgEdges n).sl n = s.sl n ∧ s.keeps (s.prgEdges n) [sB n + SLICE_CMP_STATUS, sB n + SLICE_CMP_FLAGS] := by
  obtain ⟨rise, riseNow⟩ := s.cmpEdge_spec n true 2
  obtain ⟨fall, fallNow⟩ := (s.cmpEdge n 2 true).cmpEdge_spec n false 2
  have slice : (s.cmpEdge n 2 true).sl n = s.sl n := congrArg (·.get n) (Dev.cmpEdge_slices clean)
  have still : ((s.cmpEdge n 2 true).sl n).dropEdge = false := (congrArg Slice.dropEdge slice).trans clean
  exact ⟨Dev.cmpEdge_level still (by decide), fallNow.trans riseNow, (congrArg (·.get n) (Dev.cmpEdge_slices still)).trans slice, rise.trans fall⟩

/-- A pulse touches no register, and nothing of the slice but its pulse and its run. -/
theorem Dev.prgPulsed_spec {s t : Dev} {l : List Nat} (h : s.keeps t l) (run rise fall : Nat) : s.keeps (t.prgPulsed n run rise fall) l ∧
    ((t.prgPulsed n run rise fall).sl n).prgOc = run ∧ ((t.prgPulsed n run rise fall).sl n).prgPwm = some (rise, fall) :=
  ⟨h.modSl _ _, congrArg Slice.prgOc (Dev.sl_modSl_same _ _ _), congrArg Slice.prgPwm (Dev.sl_modSl_same _ _ _)⟩

theorem Dev.prgPulsed_now (s : Dev) (run rise fall : Nat) : (s.prgPulsed n run rise fall).now = s.now := Dev.modSl_now _ _ _
theorem Dev.prgPulsed_fld (s : Dev) (run rise fall b : Nat) (f : Fld) : (s.prgPulsed n run rise fall).fld b f = s.fld b f := Dev.modSl_fld _ _ _ _ _
theorem Dev.prgPulsed_flag (s : Dev) (run rise fall b : Nat) (f : Fld) : (s.prgPulsed n run rise fall).flag b f = s.flag b f :=
  Dev.modSl_flag _ _ _ _ _
theorem Dev.prgPulsed_level (s : Dev) (run rise fall i : Nat) : (s.prgPulsed n run rise fall).cmpLevel n i = s.cmpLevel n i := by
  rw [Dev.cmpLevel_eq_flag, Dev.prgPulsed_flag, Dev.cmpLevel_eq_flag]

end Period

/-! ### The headroom loop -/

section Headroom

variable {n : SliceId}

/-- u after a headroom tick in soft start (R166, R167). -/
def Dev.softU (s : Dev) (n : SliceId) : Int :=
  let e := getBits (s.headPair n).toNat 0 16 * 4096 - s.head n
  let u := (s.sl n).prgU + (s.fld (sB n) SLICE_PRG_LOOP_KP : Int) * (e - (s.sl n).prgE) + (s.fld (sB n) SLICE_PRG_LOOP_KI : Int) * e
  clampI 0 ((s.fld (sB n) SLICE_PRG_LIMIT_CTRL_MAX : Int) * 16777216)
    (min u ((s.sl n).prgU + (s.fld (sB n) SLICE_PRG_LIMIT_SOFT_STEP : Int) * 16777216))

theorem Dev.softU_bounds {s : Dev} (pos : 0 ≤ (s.sl n).prgU) : 0 ≤ s.softU n ∧
    s.softU n ≤ (s.fld (sB n) SLICE_PRG_LIMIT_CTRL_MAX : Int) * 16777216 ∧
    s.softU n ≤ (s.sl n).prgU + (s.fld (sB n) SLICE_PRG_LIMIT_SOFT_STEP : Int) * 16777216 := by
  unfold Dev.softU clampI
  dsimp only
  omega

/-- The control code of a u up to CTRL_MAX is no greater than CTRL_MAX. -/
theorem roundDiv_le {u : Int} {most : Nat} (pos : 0 ≤ u) (le : u ≤ (most : Int) * 16777216) : (roundDiv u 16777216).toNat ≤ most := by
  unfold roundDiv
  rw [if_pos pos]
  omega

/-- In soft start no run of low headroom is counted (R168). -/
theorem Dev.headLaw_soft {s : Dev} (soft : s.flag (sB n) SLICE_PRG_STATUS_SOFT = true) : ∃ (f : Slice → Slice) (room : Nat) (more : Bool),
    (∀ x, (f x).prgU = s.softU n) ∧ s.headLaw n = (((s.modSl n f).setFld (sB n) SLICE_PRG_STATUS_CTRL (roundDiv (s.softU n) 16777216).toNat).setFld
      (sB n) SLICE_PRG_STATUS_HEADROOM room).setFlag (sB n) SLICE_PRG_STATUS_SOFT more := by
  unfold Dev.headLaw
  dsimp only
  rw [soft, Bool.not_true, Bool.false_and]
  simp only [Bool.false_eq_true, if_false, if_true]
  rw [if_neg (by simp)]
  exact ⟨_, _, _, fun _ => rfl, rfl⟩

theorem Dev.headLaw_soft_spec {s : Dev} (soft : s.flag (sB n) SLICE_PRG_STATUS_SOFT = true) (pos : 0 ≤ (s.sl n).prgU) :
    ((s.headLaw n).sl n).prgU = s.softU n ∧
    (s.headLaw n).fld (sB n) SLICE_PRG_STATUS_CTRL = (roundDiv (s.softU n) 16777216).toNat ∧ s.keeps (s.headLaw n) [sB n + SLICE_PRG_STATUS] := by
  obtain ⟨lower, upper, -⟩ := Dev.softU_bounds pos
  have most : s.fld (sB n) SLICE_PRG_LIMIT_CTRL_MAX < 2 ^ 10 := getBits_lt _ _ _
  have small := roundDiv_le lower upper
  obtain ⟨f, room, more, u, law⟩ := Dev.headLaw_soft soft
  rw [law]
  refine ⟨?u, ?ctrl, ?keeps⟩
  case u => rw [Dev.setFlag_sl, Dev.setFld_sl, Dev.setFld_sl, Dev.sl_modSl_same, u]
  case ctrl =>
    rw [Dev.fld_setFlag_bits _ (by rfl) (by decide) (by decide), Dev.fld_setFld_bits _ _ _ _ _ _ (by rfl) (by decide) (by decide),
      Dev.fld_setFld_same _ _ _ _ (by decide)]
    exact Nat.mod_eq_of_lt (by simp only; omega)
  case keeps => exact ((((Dev.keeps_refl s _).modSl _ _).setFld _ _ _ (by simp)).setFld _ _ _ (by simp)).setFlag _ _ _ (by simp)

/-- A headroom tick of a pre-regulator that runs, or that overcurrent has stopped, when M_H inner samples have passed (R166). -/
theorem exec_headroomTick_due {s : State} (hs : s.domains = true) (on : s.flag (sB n) SLICE_PRG_STATUS_RUNNING = true ∨ (s.sl n).prgStop = true)
    (rate : s.fld (sB n) SLICE_PRG_RATE_M_H ≠ 0 → s.fld (sB n) SLICE_PRG_RATE_M_H ≤ (s.sl n).prgTick)
    (most : s.fld (sB n) SLICE_PRG_RATE_M_H = 0 → 4096 ≤ (s.sl n).prgTick) : exec (.headroomTick n) s = .next (s.withDev
      (if (s.sl (s.owner n)).vhold.isSome || s.loopState (s.owner n) == 2 || decide (0 < s.fld (sB (s.owner n)) SLICE_FB_STATUS_STALE_RUN) then
        s.modSl n (fun x => { x with prgTick := 0 })
      else (if s.rd (sB n + SLICE_PRG_HEAD_C) == ~~~s.rd (sB n + SLICE_PRG_HEAD_V) then s.modSl n (fun x => { x with prgTick := 0 })
        else (s.modSl n (fun x => { x with prgTick := 0 })).mismatch n).headLaw n)) := by
  have due : ¬ (s.sl n).prgTick < (if s.fld (sB n) SLICE_PRG_RATE_M_H == 0 then 4096 else s.fld (sB n) SLICE_PRG_RATE_M_H) := by
    by_cases zero : s.fld (sB n) SLICE_PRG_RATE_M_H = 0
    · simpa [zero] using most zero
    · simpa [zero] using rate zero
  rw [exec_headroomTick, execHeadroomTick, State.onAwake_of_awake _ _ (Dev.awake_of_domains hs)]
  dsimp only
  rw [if_neg (by rw [decide_eq_false due, hs]; rcases on with h | h <;> simp [h])]
  rfl

end Headroom

/-! ### Configuration -/

section PrgConfiguration

variable {s : Dev} {n : SliceId} {v : Word}

theorem Dev.prgCfg_refused (bad : getBits v.toNat 8 12 < 500 ∨ 4000 < getBits v.toNat 8 12 ∨
    (bitOf v.toNat 0 ≠ s.flag (sB n) SLICE_PRG_CFG_EN ∧ s.parked n = false)) : s.prgWrite n SLICE_PRG_CFG v = s.prgRefuse n := by
  unfold Dev.prgWrite
  dsimp only
  rw [if_pos (by simpa [or_assoc] using bad)]

/-- A period in its span, with EN as it is or the slice in park, is stored; the control code stays at or below CTRL_MAX (R165). -/
theorem Dev.prgCfg_stored (least : 500 ≤ getBits v.toNat 8 12) (most : getBits v.toNat 8 12 ≤ 4000)
    (free : bitOf v.toNat 0 = s.flag (sB n) SLICE_PRG_CFG_EN ∨ s.parked n = true) : s.prgWrite n SLICE_PRG_CFG v =
      (s.store (sB n + SLICE_PRG_CFG) v).setFld (sB n) SLICE_PRG_STATUS_CTRL
        (min (s.fld (sB n) SLICE_PRG_STATUS_CTRL) (s.fld (sB n) SLICE_PRG_LIMIT_CTRL_MAX)) := by
  have kept := (Dev.keeps_refl s [sB n + SLICE_PRG_CFG]).store (sB n + SLICE_PRG_CFG) v (by simp)
  unfold Dev.prgWrite
  dsimp only
  rw [if_neg (by simpa [least, most] using or_iff_not_imp_left.mp free), kept.fld (by simp), kept.fld (by simp)]

end PrgConfiguration

/-- Settles O28: a period is `exec_prgPeriod_skipped` or `exec_prgPeriod_pulse` with the ends of `prgEnd`; a headroom tick is
`exec_headroomTick_due`, its law in soft start `headLaw_soft_spec`; a write is `prgCfg_refused` or `prgCfg_stored`. -/
theorem preRegulator : Obligations.PreRegulator := by
  unfold Obligations.PreRegulator
  refine ⟨?period, ⟨?tick, ?soft⟩, ?config⟩
  case period =>
    intro s n cs v k c hs on hk hc
    obtain ⟨rail, now, keeps⟩ := Dev.prgOpened_spec (n := n) (v := v) (Dev.awake_of_domains hs) (hc ▸ s.le_nextPhase n k)
    refine ⟨fun ctrl => ⟨_, exec_prgPeriod_skipped hs on hk hc ctrl, ?_⟩, fun ctrl never => ?longest, fun a ctrl active after short _ clean => ?ended,
      fun ctrl active counts full period => ?overcurrent⟩
    · rw [State.withDev_toDev, Dev.modSl_fld, Dev.sl_modSl_same, Dev.prgOpened_sl]
      exact ⟨rail, rfl, (Dev.modSl_now _ _ _).trans now, rfl, rfl, keeps.modSl _ _⟩
    all_goals have run := exec_prgPeriod_pulse (cs := cs) (v := v) hs on hk hc ctrl
    case longest =>
      rw [never, Dev.prgEnd_longest] at run
      have shown := (keeps.mono (m := [sB n + SLICE_PRG_RAIL, sB n + SLICE_PRG_STATUS]) (by simp)).setFlag (sB n)
        SLICE_PRG_STATUS_MAXDUTY true (by simp)
      obtain ⟨pulsed, oc, pwm⟩ := Dev.prgPulsed_spec (n := n) shown 0 (c + 1) (c + (1 + 9 * k / 10))
      refine ⟨_, run, ?_⟩
      rw [State.withDev_toDev, Dev.prgPulsed_fld, Dev.fld_setFlag_word _ _ _ _ _ _ (by simp), Dev.prgPulsed_now, Dev.setFlag_now, Dev.prgPulsed_flag,
        Dev.flag_setFlag_same _ _ _ _ (by decide) rfl]
      exact ⟨rail, oc, now, pwm, rfl, pulsed⟩
    case ended =>
      rw [active, Dev.prgEnd_ended after short] at run
      have still : ((s.prgOpened n v c).sl n).dropEdge = false := by rw [Dev.prgOpened_sl]; exact clean
      obtain ⟨level, edgesNow, -, edges⟩ := Dev.prgEdges_spec still
      have shown := (keeps.mono (m := [sB n + SLICE_PRG_RAIL, sB n + SLICE_CMP_STATUS, sB n + SLICE_CMP_FLAGS]) (by simp)).trans
        (edges.mono (by simp))
      obtain ⟨pulsed, oc, pwm⟩ := Dev.prgPulsed_spec (n := n) shown 0 (c + 1) (c + max (a + 5) 41)
      refine ⟨_, run, ?_⟩
      rw [State.withDev_toDev, Dev.prgPulsed_fld, edges.fld (by simp), Dev.prgPulsed_now, edgesNow, Dev.prgPulsed_level, level]
      exact ⟨rail, oc, now, pwm, rfl, pulsed⟩
    case overcurrent =>
      rw [active, Dev.prgEnd_overcurrent counts full period] at run
      exact run
  case tick =>
    intro s n hs on rate most
    have run := exec_headroomTick_due hs on rate most
    refine ⟨fun held => ?held, fun free closed fresh => ?law⟩
    case held =>
      rw [if_pos (by simpa [or_assoc] using held)] at run
      refine ⟨_, run, ?_⟩
      rw [State.withDev_toDev, Dev.sl_modSl_same]
      exact ⟨rfl, rfl, rfl, (Dev.keeps_refl s.toDev _).modSl _ _⟩
    case law =>
      rw [if_neg (by simp [free, closed, fresh])] at run
      exact ⟨fun pair => by rw [run, if_pos (by simpa using pair)], fun pair => by rw [run, if_neg (by simpa using pair)]⟩
  case soft =>
    intro s n soft pos
    obtain ⟨lower, upper, step⟩ := Dev.softU_bounds pos
    obtain ⟨u, ctrl, keeps⟩ := Dev.headLaw_soft_spec soft pos
    rw [u]
    exact ⟨lower, upper, step, ctrl, keeps⟩
  case config =>
    intro s n v hs
    have run := (exec_prgCfgWrite n v s).trans (State.onAwake_of_awake _ _ hs)
    refine ⟨fun bad => ⟨_, run, ?refused⟩, fun least most free => ⟨_, run, ?stored⟩⟩
    case refused =>
      rw [State.withDev_toDev, Dev.prgCfg_refused bad]
      exact ⟨Dev.flag_setFlag_same _ _ _ _ (by decide) rfl, (Dev.keeps_refl _ _).setFlag _ _ _ (by simp)⟩
    case stored =>
      have ctrl : s.fld (sB n) SLICE_PRG_STATUS_CTRL < 2 ^ 10 := getBits_lt _ _ _
      rw [State.withDev_toDev, Dev.prgCfg_stored least most free, Dev.rd_setFld_other _ _ _ _ _ (by simp), Dev.fld_setFld_same _ _ _ _ (by decide)]
      exact ⟨rfl, Nat.mod_eq_of_lt (by simp only; omega), ((Dev.keeps_refl s.toDev _).store _ _ (by simp)).setFld _ _ _ (by simp)⟩
end Sys2Proof.Machine

namespace Sys2Proof.Machine
open Sys2Proof

/-! ## Segments made ready, and jumps that are requested (R161, R249, R255, R260, R262) -/

/-! ### SEGMENT_READY -/

section Segments

variable {s : Dev} {c : Ctx} {k op : Nat}

theorem Dev.seg_setSeg_same (s : Dev) (k : Nat) (v : Nat × Bool) : (s.setSeg k v).seg k = v := by
  unfold Dev.seg Dev.setSeg
  rw [vector_get_set, if_pos rfl]

theorem Dev.seg_setSeg_other (v : Nat × Bool) {j : Nat} (hk : k < 64) (hj : j < 64) (other : j ≠ k) : (s.setSeg k v).seg j = s.seg j := by
  have apart : Fin.ofNat 64 k ≠ Fin.ofNat 64 j := fun e => other (by
    have := congrArg Fin.val e
    simp only [Fin.val_ofNat, Nat.mod_eq_of_lt hk, Nat.mod_eq_of_lt hj] at this
    exact this.symm)
  unfold Dev.seg Dev.setSeg
  rw [vector_get_set, if_neg apart]

theorem Dev.taken_seg (s : Dev) (r : RingId) (k : Nat) : (s.taken r).seg k = s.seg k := by simp [Dev.seg]

theorem Dev.complete_seg (s : Dev) (c : Ctx) (st k : Nat) : (s.complete c st).seg k = s.seg k :=
  congrArg (·.get (Fin.ofNat 64 k)) (s.complete_same c st).segs

/-- What SEGMENT_READY makes of a segment (R249): 0 READY, 1 READY with KEEP, 2 FREE. -/
def segAfter (op : Nat) : Nat × Bool := if op = 2 then (0, false) else (1, op == 1)

theorem Dev.segmentCmd_beyond (bad : 63 < k) : s.segmentCmd c k op = s.completeAt c BAD_PARAM 0 s.time := if_pos bad

/-- The owner a GROUP plate gives to segment `k` is another group than the command's. -/
def Dev.segForeign (s : Dev) (c : Ctx) (k : Nat) : Bool :=
  s.plates.segOwner.getD k 0xFF != 0xFF && s.plates.segOwner.getD k 0xFF != c.hdr.group.toNat % 32

theorem Dev.segForeign_of_other (owned : s.plates.segOwner.getD k 0xFF ≠ 0xFF)
    (other : s.plates.segOwner.getD k 0xFF ≠ c.hdr.group.toNat % 32) : s.segForeign c k = true := by
  rw [Dev.segForeign, bne_iff_ne.mpr owned, bne_iff_ne.mpr other, Bool.and_self]

theorem Dev.segForeign_of_own (own : s.plates.segOwner.getD k 0xFF = 0xFF ∨ s.plates.segOwner.getD k 0xFF = c.hdr.group.toNat % 32) :
    s.segForeign c k = false := by
  unfold Dev.segForeign
  rcases own with own | own <;> rw [own] <;> simp

theorem Dev.taken_segForeign (s : Dev) (r : RingId) (c : Ctx) (k : Nat) : (s.taken r).segForeign c k = s.segForeign c k := by
  rw [Dev.segForeign, Dev.taken_plates, Dev.segForeign]

section Within

variable (within : k ≤ 63) (small : op ≤ 2)

include within small

theorem Dev.segmentCmd_foreign (foreign : s.segForeign c k = true) : s.segmentCmd c k op = s.completeAt c BAD_PARAM 0 s.time := by
  unfold Dev.segmentCmd
  dsimp only
  rw [if_neg (by omega), if_neg (by omega), ← Dev.segForeign, if_pos foreign]

theorem Dev.segmentCmd_active (own : s.segForeign c k = false) (active : (s.seg k).1 = 2) : s.segmentCmd c k op = s.complete c BUSY := by
  unfold Dev.segmentCmd
  dsimp only
  rw [if_neg (by omega), if_neg (by omega), ← Dev.segForeign, if_neg (Bool.eq_false_iff.mp own), if_pos (by simpa using active)]

theorem Dev.segmentCmd_changes (own : s.segForeign c k = false) (idle : (s.seg k).1 ≠ 2) :
    s.segmentCmd c k op = (s.setSeg k (segAfter op)).complete c OK := by
  unfold Dev.segmentCmd segAfter
  dsimp only
  rw [if_neg (by omega), if_neg (by omega), ← Dev.segForeign, if_neg (Bool.eq_false_iff.mp own), if_neg (by simpa using idle)]
  by_cases free : op = 2
  · rw [if_pos (by simpa using free), if_pos free]
  · rw [if_neg (by simpa using free), if_neg free]

/-- The segment is as the command says, and every other one as it was. -/
theorem Dev.segmentCmd_spec (own : s.segForeign c k = false) (idle : (s.seg k).1 ≠ 2) : (s.segmentCmd c k op).seg k = segAfter op ∧
    (∀ j, j < 64 → j ≠ k → (s.segmentCmd c k op).seg j = s.seg j) ∧ (s.segmentCmd c k op).mem = s.mem := by
  rw [Dev.segmentCmd_changes within small own idle, Dev.complete_mem, Dev.complete_seg, Dev.seg_setSeg_same]
  refine ⟨rfl, fun j hj other => ?_, rfl⟩
  rw [Dev.complete_seg, Dev.seg_setSeg_other _ (by omega) hj other]

end Within

/-- The command of OP `op` on a ready ring. -/
theorem exec_segment_ready {s : State} {h : Hdr} {r : GroupRec} (ready : s.ready h r) (k : Byte) (op : Byte) :
    s.onAwake (fun d => d.ringCmd h 0x10 (.segmentReady op k) (fun s c _ => s.segmentCmd c k.toNat op.toNat)) =
      .next (s.withDev ((s.taken h.ring).segmentCmd (ownCtx h 0x10) k.toNat op.toNat)) := by
  rw [State.onAwake_of_awake _ _ ready.1, Dev.ringCmd_ready ready]

end Segments

/-! ### Jump requests -/

section Jumps

variable {g : GroupId} {r : GroupRec}

/-- A request that finds the latch empty stands in it (R255). -/
theorem Dev.arrive_empty {s : Dev} (empty : (s.eng g).latch = none) (j : JumpReq) : s.arrive g j =
    (s.modEng g (fun e => { e with latch := some j })).setFlag (tB g) TRAV_STATUS_JUMP_PENDING true := by
  unfold Dev.arrive
  rw [empty]
  rfl

theorem Dev.arrive_spec {s : Dev} (empty : (s.eng g).latch = none) (j : JumpReq) : ((s.arrive g j).eng g).latch = some j ∧
    (s.arrive g j).flag (tB g) TRAV_STATUS_JUMP_PENDING = true ∧ s.keeps (s.arrive g j) [tB g + TRAV_STATUS] := by
  rw [Dev.arrive_empty empty]
  exact ⟨by simp, Dev.flag_setFlag_same _ _ _ _ (by decide) rfl, ((Dev.keeps_refl s _).modEng _ _).setFlag _ _ _ (by simp)⟩

/-- With the armed window filled a request arrives at its cycle (R255). -/
theorem Dev.armedRequest_filled {s : Dev} (first : r.first = g.val) (filled : (s.eng g).armed.isSome = true) (rank c : Nat) :
    s.armedRequest r rank c = s.arrive g ⟨none, s.fld (tB g) TRAV_JUMP_CFG_TARGET, c, rank⟩ := by
  have engine : sid r.first = g := by rw [first, Dev.sid_val]
  unfold Dev.armedRequest
  dsimp only
  rw [engine, if_pos filled]

/-- The WIN event that stands on slice `n` is taken. -/
def Dev.takeWinOffer (s : Dev) (n : SliceId) : Dev := s.modSl n (fun x => { x with winOffer := none })

theorem Dev.takeWinOffer_eng (s : Dev) (n : SliceId) : (s.takeWinOffer n).eng g = s.eng g := Dev.modSl_eng _ _ _ _
theorem Dev.takeWinOffer_fld (s : Dev) (n : SliceId) (b : Nat) (f : Fld) : (s.takeWinOffer n).fld b f = s.fld b f := Dev.modSl_fld _ _ _ _ _
theorem Dev.takeWinOffer_offer (s : Dev) (n : SliceId) : ((s.takeWinOffer n).sl n).winOffer = none :=
  congrArg Slice.winOffer (Dev.sl_modSl_same _ _ _)
theorem Dev.takeWinOffer_keeps (s : Dev) (n : SliceId) (l : List Nat) : s.keeps (s.takeWinOffer n) l := (Dev.keeps_refl s l).modSl _ _

variable {s : State}

theorem exec_jumpRequest_trigger (hs : s.domains = true) (hg : s.group g.val = some r) {k : Fin 4}
    (enabled : s.flag (tB g) TRAV_JUMP_CFG_TRIG_EN = true) (selected : s.fld (tB g) TRAV_JUMP_CFG_TRIG_SEL = k.val)
    (ball : s.trigOn k.val = true) : exec (.jumpRequest g (.trigger k)) s = .next (s.withDev (s.armedRequest r 1 (s.now + 2))) := by
  rw [exec_jumpRequest, execJumpRequest, State.onAwake_onEngine hs hg]
  dsimp only
  rw [if_pos (by simp [enabled, selected, ball])]

theorem exec_jumpRequest_comparator (hs : s.domains = true) (hg : s.group g.val = some r) {n : SliceId}
    (enabled : s.flag (tB g) TRAV_JUMP_CFG_CMP_EN = true) (selected : r.first + s.fld (tB g) TRAV_JUMP_CFG_CMP_SLICE = n.val)
    (offered : (s.sl n).winOffer.isSome = true) : exec (.jumpRequest g (.comparator n)) s =
      .next (s.withDev ((s.takeWinOffer n).armedRequest r 0 s.now)) := by
  rw [exec_jumpRequest, execJumpRequest, State.onAwake_onEngine hs hg]
  dsimp only
  rw [if_pos (by simp [enabled, selected, offered]), Dev.takeWinOffer]

theorem exec_jumpRequest_disabled (disabled : s.flag (tB g) TRAV_JUMP_CFG_TRIG_EN = false) (k : Fin 4) :
    exec (.jumpRequest g (.trigger k)) s = .next s := by
  rw [exec_jumpRequest, execJumpRequest]
  apply State.onAwake_of_id
  unfold Dev.onEngine
  dsimp only
  rw [disabled]
  simp only [Bool.false_and, Bool.false_eq_true, if_false, ite_self]
  split <;> rfl

/-! ### TRAV_JUMP_CFG -/

theorem Dev.jumpCfgWrite_refused {s : Dev} {v : Word} (hg : s.group g.val = some r)
    (bad : r.size ≤ getBits v.toNat 4 5 ∨ s.trigOn (getBits v.toNat 1 2) = false) : s.jumpCfgWrite g v = s := by
  unfold Dev.jumpCfgWrite
  rw [hg]
  exact if_pos (by simpa using bad)

/-- A write that is taken discards the armed window, so that it fills again (R260). -/
theorem Dev.jumpCfgWrite_taken {s : Dev} {v : Word} (hg : s.group g.val = some r) (slice : getBits v.toNat 4 5 < r.size)
    (ball : s.trigOn (getBits v.toNat 1 2) = true) (empty : (s.eng g).latch = none) : s.jumpCfgWrite g v =
      ((s.store (tB g + TRAV_JUMP_CFG) v).modEng g (fun e => { e with armed := none, armWait := none })).sweep := by
  unfold Dev.jumpCfgWrite
  rw [hg]
  dsimp only
  rw [if_neg (by simpa [ball] using slice), empty]
  rfl

end Jumps

/-- Settles O38: SEGMENT_READY is `segmentCmd_spec` and the refusals before it; an armed request is `armedRequest_filled` with `arrive_spec`,
and a write of TRAV_JUMP_CFG `jumpCfgWrite_refused` or `jumpCfgWrite_taken`. -/
theorem segmentsAndJumps : Obligations.SegmentsAndJumps := by
  unfold Obligations.SegmentsAndJumps
  refine ⟨fun s h r k ready => ?segments, ?trigger, ?comparator, ?disabled, ?filled, ?refused, ?taken⟩
  case segments =>
    have run (op : Byte) := exec_segment_ready ready k op
    have plain : exec (.segmentReady h k) s = _ := run 0
    have keep : exec (.segmentReadyKeep h k) s = _ := run 1
    have free : exec (.segmentFree h k) s = _ := run 2
    refine ⟨fun bad => ?beyond, fun within owned other => ?foreign, fun within own => ⟨fun active => ?busy, fun idle => ?changes⟩⟩
    case beyond => rw [plain, Dev.segmentCmd_beyond bad]
    case foreign =>
      rw [plain, Dev.segmentCmd_foreign within (by decide) ((Dev.taken_segForeign _ _ _ _).trans (Dev.segForeign_of_other owned other))]
    all_goals
      have mine : (s.taken h.ring).segForeign (ownCtx h 0x10) k.toNat = false := (Dev.taken_segForeign _ _ _ _).trans (Dev.segForeign_of_own own)
    case busy => rw [plain, Dev.segmentCmd_active within (by decide) mine (by rwa [Dev.taken_seg])]
    case changes =>
      have spec (op : Byte) (small : op.toNat ≤ 2) := Dev.segmentCmd_spec within small mine (by rwa [Dev.taken_seg])
      simp only [Dev.taken_seg, Dev.taken_mem] at spec
      exact ⟨⟨_, plain, spec 0 (by decide)⟩, ⟨_, keep, spec 1 (by decide)⟩, ⟨_, free, spec 2 (by decide)⟩⟩
  case trigger =>
    intro s g r k hs hg first enabled selected ball filled empty
    refine ⟨_, exec_jumpRequest_trigger hs hg enabled selected ball, ?_⟩
    rw [State.withDev_toDev, Dev.armedRequest_filled first filled]
    exact Dev.arrive_spec empty _
  case comparator =>
    intro s g r n hs hg first enabled selected offered filled empty
    have latch : ((s.takeWinOffer n).eng g).latch = none := by rw [Dev.takeWinOffer_eng, empty]
    refine ⟨_, exec_jumpRequest_comparator hs hg enabled selected offered, ?_⟩
    rw [State.withDev_toDev, Dev.armedRequest_filled first (by rwa [Dev.takeWinOffer_eng]), Dev.takeWinOffer_fld]
    obtain ⟨stands, pending, keeps⟩ := Dev.arrive_spec latch ⟨none, s.fld (tB g) TRAV_JUMP_CFG_TARGET, s.now, 0⟩
    refine ⟨stands, ?_, pending, (s.takeWinOffer_keeps n _).trans keeps⟩
    rw [Dev.arrive_empty latch, Dev.setFlag_sl, Dev.modEng_sl, Dev.takeWinOffer_offer]
  case disabled => exact fun s g k disabled => exec_jumpRequest_disabled disabled k
  case filled =>
    intro s g r hs hg
    refine ⟨fun j filling => ?command, fun empty waits => ?armed⟩
    all_goals rw [exec_jumpWindowFilled, execJumpWindowFilled, State.onAwake_onEngine hs hg]
    case command => rw [if_pos rfl, filling]
    case armed =>
      dsimp only
      rw [if_neg (by decide), empty, if_neg (by decide), waits]
  case refused =>
    intro s g r v hg bad
    exact (exec_jumpCfgWrite g v s).trans (State.onAwake_of_id (Dev.jumpCfgWrite_refused hg bad))
  case taken =>
    intro s g r v hs hg slice ball empty
    rw [exec_jumpCfgWrite, execJumpCfgWrite, State.onAwake_of_awake _ _ hs, Dev.jumpCfgWrite_taken hg slice ball empty]

end Sys2Proof.Machine

namespace Sys2Proof.Machine
open Sys2Proof

/-! ## Outer ticks and the restore of a lane (R174, R206, R208, R209) -/

/-! ### The sample that waits for its outer tick -/

/-- A word behind the outer variable of slice `n` has not changed since the previous outer tick (R209). -/
def Dev.outerStale (s : Dev) (n : SliceId) : Bool := ((s.sl n).outTags.zip (s.outerTags n)).any (fun p => p.1 == p.2)

/-- The outer tick of slice `n` is taken: its sample waits no longer, and the words behind its variable are noted. -/
def Dev.takeOuter (s : Dev) (n : SliceId) : Dev := s.modSl n (fun x => { x with outerWait := none, outTags := s.outerTags n })

/-- Skipped outer ticks of slice `n` in a row, with this one (R209). -/
def Dev.skips (s : Dev) (n : SliceId) : Nat := min 255 (s.fld (sB n) SLICE_OUTER_STATUS_STALE_RUN + 1)

/-- The outer law of slice `n` is skipped, and that is counted. -/
def Dev.skipOuter (s : Dev) (n : SliceId) (run : Nat) : Dev :=
  (s.setFlag (sB n) SLICE_OUTER_STATUS_STALE true).setFld (sB n) SLICE_OUTER_STATUS_STALE_RUN run

section OuterTick

variable {s : Dev} {n : SliceId} {c e : Nat}

theorem Dev.skipOuter_sl (s : Dev) (n m : SliceId) (run : Nat) : (s.skipOuter n run).sl m = s.sl m := by
  rw [Dev.skipOuter, Dev.setFld_sl, Dev.setFlag_sl]

theorem Dev.skipOuter_holdLimit (s : Dev) (n : SliceId) (run : Nat) :
    (s.skipOuter n run).fld (sB n) SLICE_LOOP_CFG_HOLD_LIMIT = s.fld (sB n) SLICE_LOOP_CFG_HOLD_LIMIT := by
  rw [Dev.skipOuter, Dev.fld_setFld_unit _ _ _ _ _ (by decide), Dev.fld_setFlag_word _ _ _ _ _ _ (by simp)]

theorem Dev.outerTickEvent_idle (idle : (s.sl n).outerWait = none) : s.outerTickEvent n = s := by
  unfold Dev.outerTickEvent
  rw [idle]

/-- New words behind the variable: the outer law, then the sample's own. -/
theorem Dev.outerTickEvent_fresh (waits : (s.sl n).outerWait = some (c, e)) (fresh : s.outerStale n = false) :
    s.outerTickEvent n = ((((s.takeOuter n).outerLaw n).lawAndWork n true c e).observe n) := by
  have differ : ((s.sl n).outTags.length == (s.outerTags n).length && s.outerStale n) = false := by rw [fresh, Bool.and_false]
  unfold Dev.outerTickEvent
  rw [waits]
  exact if_neg (Bool.eq_false_iff.mp differ)

/-- A word that stands as it was: the outer law is skipped, and HOLD_LIMIT decides between a park and the sample's own law. -/
theorem Dev.outerTickEvent_stale (waits : (s.sl n).outerWait = some (c, e)) (lengths : (s.sl n).outTags.length = (s.outerTags n).length)
    (stale : s.outerStale n = true) : s.outerTickEvent n =
      let d := (s.takeOuter n).skipOuter n (s.skips n)
      if s.fld (sB n) SLICE_LOOP_CFG_HOLD_LIMIT ≤ s.skips n then ((d.causePark n).raiseSlice n 1 1).observe n
      else ((if (s.sl n).closing || (s.sl n).reinit then d.outerStart n else d).lawAndWork n true c e).observe n := by
  have limit : ((s.takeOuter n).skipOuter n (s.skips n)).fld (sB n) SLICE_LOOP_CFG_HOLD_LIMIT = s.fld (sB n) SLICE_LOOP_CFG_HOLD_LIMIT :=
    (Dev.skipOuter_holdLimit _ _ _).trans (Dev.modSl_fld _ _ _ _ _)
  have closing : (((s.takeOuter n).skipOuter n (s.skips n)).sl n).closing = (s.sl n).closing := by
    rw [Dev.skipOuter_sl, Dev.takeOuter, Dev.sl_modSl_same]
  have reinit : (((s.takeOuter n).skipOuter n (s.skips n)).sl n).reinit = (s.sl n).reinit := by
    rw [Dev.skipOuter_sl, Dev.takeOuter, Dev.sl_modSl_same]
  have same : ((s.sl n).outTags.length == (s.outerTags n).length && s.outerStale n) = true := by rw [lengths, stale, beq_self_eq_true, Bool.and_self]
  rw [← limit, ← closing, ← reinit]
  unfold Dev.outerTickEvent
  rw [waits]
  exact if_pos same

end OuterTick

/-- The event is the whole of OUTER_TICK: the sample has waited for it (notes/assumptions/21.md). -/
theorem exec_outerTick_awake {s : State} (hs : s.awake = true) (n : SliceId) : exec (.outerTick n) s = .next (s.withDev (s.outerTickEvent n)) :=
  (exec_outerTick n s).trans (State.onAwake_of_awake _ _ hs)

/-! ### The hold of a restore -/

section LaneRestore

variable {s : Dev} {n : SliceId}

theorem Dev.holdLoop_closed (closed : s.fld (sB n) SLICE_LOOP_STATUS_STATE = 1) :
    s.holdLoop n = (s.setFld (sB n) SLICE_LOOP_STATUS_STATE 2).setFlag (sB n) SLICE_FORCE_STATUS_HOLD true :=
  if_pos (by rw [closed, beq_self_eq_true])

theorem Dev.restoreHold_running (running : (s.sl n).phase = .running) :
    s.restoreHold n = ((s.holdLoop n).modSl n (fun x => { x with restoring := true })).setFlag (sB n) SLICE_LOOP_STATUS_RESTORE true := by
  unfold Dev.restoreHold
  rw [running]

theorem Dev.restoreHold_spec (running : (s.sl n).phase = .running) (closed : s.fld (sB n) SLICE_LOOP_STATUS_STATE = 1) :
    (s.restoreHold n).fld (sB n) SLICE_LOOP_STATUS_STATE = 2 ∧ (s.restoreHold n).flag (sB n) SLICE_FORCE_STATUS_HOLD = true ∧
    (s.restoreHold n).flag (sB n) SLICE_LOOP_STATUS_RESTORE = true ∧ ((s.restoreHold n).sl n).restoring = true ∧
    s.keeps (s.restoreHold n) [sB n + SLICE_LOOP_STATUS, sB n + SLICE_FORCE_STATUS] := by
  rw [Dev.restoreHold_running running, Dev.holdLoop_closed closed]
  refine ⟨?state, ?hold, Dev.flag_setFlag_same _ _ _ _ (by decide) rfl, ?restoring, ?keeps⟩
  case state =>
    rw [Dev.fld_setFlag_bits _ (by rfl) (by decide) (by decide), Dev.modSl_fld, Dev.fld_setFlag_word _ _ _ _ _ _ (by simp)]
    exact Dev.fld_setFld_same _ _ _ _ (by decide)
  case hold =>
    rw [Dev.flag_setFlag_word _ _ _ _ _ _ (by simp), Dev.modSl_flag]
    exact Dev.flag_setFlag_same _ _ _ _ (by decide) rfl
  case restoring => rw [Dev.setFlag_sl, Dev.sl_modSl_same]
  case keeps =>
    exact ((((Dev.keeps_refl s _).setFld _ _ _ (by simp)).setFlag _ _ _ (by simp)).modSl _ _).setFlag _ _ _ (by simp)

end LaneRestore

/-- A parity error in a lane that serves no slice is noted, and no source is raised. -/
theorem exec_laneParityError_none {s : State} {l : LaneId} (hs : s.awake = true) (served : s.served l.val = []) (empty : s.col.queue = []) :
    exec (.laneParityError l) s = .next (s.withDev (s.modCol (fun c => { c with lanes := addNat l.val c.lanes }))) := by
  rw [exec_laneParityError, execLaneParityError, State.onAwake_of_awake _ _ hs, served]
  have drained : (s.modCol (fun c => { c with lanes := addNat l.val c.lanes })).col.queue = [] := empty
  dsimp only [Dev.each, List.foldl_nil]
  rw [drained, List.length_nil, Dev.drain]

theorem exec_laneParityError_one {s : State} {l : LaneId} {n : SliceId} (hs : s.awake = true) (served : s.served l.val = [n]) :
    exec (.laneParityError l) s = .next (s.withDev (((s.restoreHold n).modCol (fun c => { c with lanes := addNat l.val c.lanes })).raise
      (n.val * 8 + 7) 0 0 n.val)) := by
  rw [exec_laneParityError, execLaneParityError, State.onAwake_of_awake _ _ hs, served]
  rfl

/-- With a restore of the lane in progress its slices are restored, and the block reset ends with it (R174, R344). -/
theorem exec_laneRestoreDone_resetting {s : State} {l : LaneId} (hs : s.awake = true) (busy : s.resetting (target 0 l.val) = true) :
    exec (.laneRestoreDone l) s = .next (s.withDev ((s.each (s.served l.val) Dev.restoreSlice).endReset (target 0 l.val))) := by
  rw [exec_laneRestoreDone, execLaneRestoreDone, State.onAwake_of_awake _ _ hs, Dev.laneRestored, if_pos busy]

/-- Settles O32: an outer tick is `Dev.outerTickEvent_fresh` or, with a word that stands as it was, `Dev.outerTickEvent_stale`, whose limit
the skips in a row reach or do not; the hold of a restore is `Dev.restoreHold_spec`. -/
theorem outerLawAndLaneRestore : Obligations.OuterLawAndLaneRestore := by
  unfold Obligations.OuterLawAndLaneRestore
  refine ⟨⟨?tick, ?idle⟩, ?unserved, ?served, ?hold, ?done⟩
  case tick =>
    intro s n c e run d hs waits taken counted
    have skips : run = s.skips n := counted
    have took : d = s.takeOuter n := taken
    subst took skips
    rw [exec_outerTick_awake hs]
    refine ⟨fun fresh => ?fresh, fun lengths stale closing reinit below => ?skipped, fun lengths stale reached => ?parked⟩
    case fresh => rw [Dev.outerTickEvent_fresh waits fresh]
    case skipped =>
      rw [Dev.outerTickEvent_stale waits lengths stale]
      dsimp only
      rw [if_neg (Nat.not_le.mpr below), closing, reinit, Bool.or_self, if_neg Bool.false_ne_true, Dev.skipOuter]
    case parked =>
      rw [Dev.outerTickEvent_stale waits lengths stale]
      dsimp only
      rw [if_pos reached, Dev.skipOuter]
  case idle => exact fun s n idle => (exec_outerTick n s).trans (State.onAwake_of_id (Dev.outerTickEvent_idle idle))
  case unserved => exact fun s l hs served empty => ⟨_, exec_laneParityError_none hs served empty, mem_addNat _ _, rfl, rfl⟩
  case served => exact fun s l n hs served => exec_laneParityError_one hs served
  case hold => exact fun s n running closed => Dev.restoreHold_spec running closed
  case done => exact fun s l hs busy => exec_laneRestoreDone_resetting hs busy

end Sys2Proof.Machine

namespace Sys2Proof.Machine
open Sys2Proof

/-! ## LOOP_OPEN and LOOP_CLOSE (R198 to R200) -/

/-- The mask of one slice names that slice. -/
theorem sliceList_bit32 (n : SliceId) : sliceList (bit32 n.val) = [n] := by
  revert n
  decide

/-- A scheduled command that an event picks, alone and due, leaves the schedule. -/
theorem Dev.takeDue_alone {s : Dev} {r : GroupRec} {sel : RingCmd → Bool} {x : Sched} (alone : s.sched = [x]) (kind : sel x.cmd = true)
    (group : x.group = r.first) (due : x.due (s.effectAt r).1 (s.effectAt r).2 = true) :
    s.takeDue r sel = ({ s with sched := [] }, [x]) := by
  simp [Dev.takeDue, alone, kind, group, due]

@[simp] theorem Dev.taken_direct (s : Dev) (r : RingId) (n : SliceId) : (s.taken r).direct n = s.direct n := Dev.taken_flag _ _ _ _
@[simp] theorem Dev.taken_running (s : Dev) (r : RingId) (n : SliceId) : (s.taken r).running n = s.running n := by simp [Dev.running]
@[simp] theorem Dev.taken_coefBaseOk (s : Dev) (r : RingId) (n : SliceId) : (s.taken r).coefBaseOk n = s.coefBaseOk n := by
  simp [Dev.coefBaseOk]

/-! ### Their checks -/

theorem exec_loopOpen_ready {s : State} {h : Hdr} {r : GroupRec} (k : s.ready h r) (m : Word) :
    exec (.loopOpen h m) s = .next (s.withDev ((s.taken h.ring).loopOpenCmd (ownCtx h 0x03) r m)) := by
  rw [exec_loopOpen, execLoopOpen, State.onAwake_of_awake _ _ k.1, Dev.ringCmd_ready k]

theorem exec_loopClose_ready {s : State} {h : Hdr} {r : GroupRec} (k : s.ready h r) (m : Word) :
    exec (.loopClose h m) s = .next (s.withDev ((s.taken h.ring).loopCloseCmd (ownCtx h 0x04) r m)) := by
  rw [exec_loopClose, execLoopClose, State.onAwake_of_awake _ _ k.1, Dev.ringCmd_ready k]

section Commands

variable {s : Dev} {c : Ctx} {r : GroupRec} {m : Word}

theorem Dev.loopOpenCmd_bad_mask (bad : r.maskOk m = false) : s.loopOpenCmd c r m = s.completeAt c BAD_PARAM 0 s.time := by
  simp [Dev.loopOpenCmd, bad]

theorem Dev.loopOpenCmd_all_open (mask : r.maskOk m = true) (idle : ∀ n ∈ r.masked m, s.loopState n = 0) :
    s.loopOpenCmd c r m = s.complete c OK := by
  have none : (r.masked m).filter (fun n => s.loopState n != 0) = [] := by simpa using idle
  simp [Dev.loopOpenCmd, mask, none, maskOf]

theorem Dev.loopOpenCmd_waits (mask : r.maskOk m = true) (some : maskOf ((r.masked m).filter (fun n => s.loopState n != 0)) ≠ 0) :
    s.loopOpenCmd c r m =
      s.schedule c (.loopOpen m) r.first (maskOf ((r.masked m).filter (fun n => s.loopState n != 0))) (s.now + 1) 0 := by
  rw [Dev.loopOpenCmd, if_neg (by simp [mask]), if_neg (by simpa using some)]

theorem Dev.loopCloseCmd_bad (bad : r.maskOk m = false ∨ ∃ n ∈ r.masked m, s.direct n = true) :
    s.loopCloseCmd c r m = s.completeAt c BAD_PARAM 0 s.time := by
  rw [Dev.loopCloseCmd, if_pos (by simpa using bad)]

theorem Dev.loopCloseCmd_parked (mask : r.maskOk m = true) (looped : ∀ n ∈ r.masked m, s.direct n = false)
    (parked : ∃ n ∈ r.masked m, s.running n = false) : s.loopCloseCmd c r m = s.complete c PARKED := by
  rw [Dev.loopCloseCmd, if_neg (by simpa [mask] using looped), if_pos (by simp [parked])]

theorem Dev.loopCloseCmd_waits (mask : r.maskOk m = true)
    (looped : ∀ n ∈ r.masked m, s.direct n = false) (running : ∀ n ∈ r.masked m, s.running n = true)
    (based : ∀ n ∈ r.masked m, s.coefBaseOk n = true) (interlock : s.pins.interlockN = true)
    (some : maskOf ((r.masked m).filter (fun n => s.loopState n == 0)) ≠ 0) :
    s.loopCloseCmd c r m =
      s.schedule c (.loopClose m) r.first (maskOf ((r.masked m).filter (fun n => s.loopState n == 0))) (s.now + 200) 0 := by
  rw [Dev.loopCloseCmd, if_neg (by simpa [mask] using looped), if_neg (by simpa [interlock] using running),
    if_neg (by simpa using based), if_neg (by simpa using some)]

end Commands

/-! ### Their effects at the tick -/

/-- The loop of a slice opens with its hold ended; its code, the schedule and the store stay. -/
theorem Dev.openLoop_spec (s : Dev) (n : SliceId) : (s.openLoop n).loopState n = 0 ∧
    (s.openLoop n).flag (sB n) SLICE_FORCE_STATUS_HOLD = false ∧ (s.openLoop n).sched = s.sched ∧
    (s.openLoop n).fld (sB n) SLICE_FORCE_STATUS_CODE = s.fld (sB n) SLICE_FORCE_STATUS_CODE ∧ (s.openLoop n).now = s.now ∧
    (s.openLoop n).mem = s.mem := by
  refine ⟨s.openLoop_state n, ?hold, s.openLoop_sched n, ?code, by simp [Dev.openLoop], by simp [Dev.openLoop]⟩
  case hold =>
    unfold Dev.openLoop Dev.flag Dev.setFlag
    simp (disch := decide) only [Dev.modSl_fld, Dev.fld_setFld_same, Dev.fld_setFld_unit]
    rfl
  case code =>
    unfold Dev.openLoop Dev.setFlag
    simp (disch := decide) only [Dev.modSl_fld, Dev.fld_setFld_unit, Dev.fld_setFld_beside]

/-- A slice that runs by itself opens its loop at the tick. -/
theorem Dev.openAt_running {s : Dev} {n : SliceId} (running : (s.sl n).phase = .running) (alone : s.gang n = [n]) :
    s.openAt n = s.openLoop n := by
  simp [Dev.openAt, running, alone, Dev.each]

section Effects

variable {s : State} {g : GroupId} {r : GroupRec} {x : Sched} {m : Word} (domains : s.domains = true) (group : s.group g.val = some r)
  (first : r.first = g.val) (only : s.sched = [x]) (named : x.group = g.val) (mask : x.mask = bit32 g.val)
  (due : x.due (s.effectAt r).1 (s.effectAt r).2 = true)

include domains group first only named mask due

theorem exec_loopOpenEffect_alone (cmd : x.cmd = .loopOpen m) (alone : s.gang g = [g]) (running : (s.sl g).phase = .running) :
    exec (.loopOpenEffect g) s =
      .next (s.withDev (({ s.toDev with sched := [] }.openLoop g).completeAt x.ctx OK 0xFF (s.effectAt r).2)) := by
  have opens : ({ s.toDev with sched := [] } : Dev).openAt g = ({ s.toDev with sched := [] } : Dev).openLoop g :=
    Dev.openAt_running running ((Dev.gang_of_plates rfl g).trans alone)
  rw [exec_loopOpenEffect, execLoopOpenEffect, State.onAwake_onEngine domains group,
    Dev.takeDue_alone only (by rw [cmd, isLoopOpen]) (named.trans first.symm) due]
  simp only [Dev.each, List.foldl_cons, List.foldl_nil, mask, sliceList_bit32, opens]

theorem exec_loopCloseEffect_alone (cmd : x.cmd = .loopClose m) (running : s.running g = true) (idle : s.loopState g = 0)
    (looped : s.direct g = false) :
    exec (.loopCloseEffect g) s =
      .next (s.withDev (({ s.toDev with sched := [] }.closeAt g).completeAt x.ctx OK 0xFF (s.effectAt r).2)) := by
  have runs : ({ s.toDev with sched := [] } : Dev).running g = true := running
  have closes : ({ s.toDev with sched := [] } : Dev).loopState g = 0 := idle
  have law : ({ s.toDev with sched := [] } : Dev).direct g = false := looped
  rw [exec_loopCloseEffect, execLoopCloseEffect, State.onAwake_onEngine domains group,
    Dev.takeDue_alone only (by rw [cmd, isLoopClose]) (named.trans first.symm) due]
  simp [Dev.each, mask, sliceList_bit32, runs, closes, law]

end Effects

/-- Settles O30: a command that is ready answers what its case above says; at the tick the loop opens as `Dev.openLoop_spec` says, and
what completes the command touches nothing of the slice. -/
theorem loopsOpenAndClose : Obligations.LoopsOpenAndClose := by
  unfold Obligations.LoopsOpenAndClose
  refine ⟨⟨?openCmd, ?openEffect⟩, ?closeCmd, ?closeEffect⟩
  case openCmd =>
    intro s h r m k
    rw [exec_loopOpen_ready k]
    refine ⟨fun bad => ?_, fun mask idle => ?_, fun mask some => ?_⟩
    · rw [Dev.loopOpenCmd_bad_mask bad]
    · rw [Dev.loopOpenCmd_all_open mask (by simpa using idle)]
    · rw [Dev.loopOpenCmd_waits mask (by simpa using some)]
      simp only [Dev.taken_loopState]
  case openEffect =>
    intro s g r x m domains group first alone only cmd named mask due running
    obtain ⟨state, hold, sched, code, now, mem⟩ := Dev.openLoop_spec { s.toDev with sched := [] } g
    have same := ({ s.toDev with sched := [] }.openLoop g).completeAt_same x.ctx OK 0xFF (s.effectAt r).2
    have unit (f : Fld) : 0x80000 ≤ sB g + f.off := by simp only [sB, sliceBase]; omega
    exact ⟨_, exec_loopOpenEffect_alone domains group first only named mask due cmd alone running,
      (same.fld _ _ (.inr (unit _))).trans state, (same.flag _ _ (.inr (unit _))).trans hold, same.sched.trans sched,
      (same.fld _ _ (.inr (unit _))).trans code, same.now.trans now, same.mem.trans mem⟩
  case closeCmd =>
    intro s h r m k
    rw [exec_loopClose_ready k]
    refine ⟨fun bad => ?_, fun mask looped parked => ?_, fun mask fit interlock some => ?_⟩
    · rw [Dev.loopCloseCmd_bad (by simpa using bad)]
    · rw [Dev.loopCloseCmd_parked mask (by simpa using looped) (by simpa using parked)]
    · obtain ⟨looped, works⟩ := forall₂_and.mp fit
      obtain ⟨running, based⟩ := forall₂_and.mp works
      rw [Dev.loopCloseCmd_waits mask (by simpa using looped) (by simpa using running) (by simpa using based) (by simpa using interlock)
        (by simpa using some)]
      simp only [Dev.taken_loopState]
  case closeEffect =>
    exact fun s g r x m domains group first only cmd named mask due running idle looped =>
      exec_loopCloseEffect_alone domains group first only named mask due cmd running idle looped

end Sys2Proof.Machine

namespace Sys2Proof.Machine
open Sys2Proof

/-! ## Accesses to BAR2 (R202, R250, R302, R305, R325) -/

@[simp] theorem Dev.put_regs (s : Dev) (a : Nat) (l : List Byte) : (s.put a l).regs = s.regs := by rw [Dev.put_eq]
@[simp] theorem Dev.put_nvm (s : Dev) (a : Nat) (l : List Byte) : (s.put a l).nvm = s.nvm := by rw [Dev.put_eq]

/-- A byte written is read back. -/
theorem Dev.put_byte_within (s : Dev) {a i : Nat} {l : List Byte} (h : i < l.length) : (s.put a l).byte (a + i) = l.getD i 0 := by
  rw [Dev.put_byte, Dev.byte_setBytes, if_pos (by omega)]
  simp

/-! ### What becomes of a write to a store -/

section StoreWrite

variable {s : Dev} {a : Nat} {l : List Byte} {reader : Nat}

theorem Dev.storeWrite_nowhere (h : backed a = false ∨ s.readOnly2 a = true) : s.storeWrite a l reader = s :=
  if_pos (by simpa using h)

variable (place : backed a = true) (free : s.readOnly2 a = false)

include place free

theorem Dev.storeWrite_set_in_force (hit : s.setsHit a l.length ≠ []) : s.storeWrite a l reader =
    s.each (s.setsHit a l.length) (fun d n => (d.setFlag (sB n) SLICE_COEF_WSTATUS_REFUSED_WR true).note n) := by
  rw [Dev.storeWrite, if_neg (by simp [place, free]), if_pos (by simpa using hit)]

variable (miss : s.setsHit a l.length = [])

include miss

theorem Dev.storeWrite_active (traverse : a < 0x1000000) (active : (s.segs.toList.getD (a / 262144) (0, false)).1 = 2) :
    s.storeWrite a l reader = s.raise 0x301 0 a 0xFF := by
  rw [Dev.storeWrite, if_neg (by simp [place, free]), if_neg (by simp [miss]), if_pos (by simpa [traverse] using active)]

theorem Dev.storeWrite_word (len : l.length = 8) (idle : 0x1000000 ≤ a ∨ (s.segs.toList.getD (a / 262144) (0, false)).1 ≠ 2) :
    s.storeWrite a l reader = s.put a l := by
  rw [Dev.storeWrite, if_neg (by simp [place, free]), if_neg (by simp [miss]), if_neg ?other, if_pos (by simp [len])]
  case other =>
    simp only [Bool.and_eq_true, decide_eq_true_eq, beq_iff_eq]
    rintro ⟨traverse, active⟩
    exact idle.elim (Nat.not_le.mpr traverse) (· active)

end StoreWrite

/-! ### What an access to BAR2 reaches -/

section Bar2Write

variable {s : Dev} {rq : Requester} {a : Nat} {l : List Byte}

theorem Dev.bar2Write_alone (shape : accessOk a l.length = true) (reach : s.reach2 rq a = true) :
    s.bar2Write rq a l false none = s.storeWrite a l (readerOf rq) := by
  simp [Dev.bar2Write, shape, reach]

theorem Dev.bar2Write_unreached (p : Bool) (o : Option (Nat × List Byte)) (barred : s.reach2 rq a = false) :
    s.bar2Write rq a l p o = s := if_pos (by simp [barred])

theorem Dev.bar2Write_poisoned (o : Option (Nat × List Byte)) : s.bar2Write .host a l true o = s := if_pos (by simp)

/-- The host's and the Surveyor's writes of one mailbox word meet there (R305). -/
theorem Dev.bar2Write_mailbox {b : Nat} {m : List Byte} (shape : accessOk a l.length = true) (other : accessOk b m.length = true)
    (lo : 0x2800000 ≤ a) (hi : a < 0x2820000) (word : b / 8 = a / 8) (host : s.reach2 .host a = true) (surveyor : s.reach2 .surveyor b = true) :
    s.bar2Write .host a l false (some (b % 8, m)) = s.mailboxBoth (a, l) (b, m) := by
  have same : a / 8 * 8 + b % 8 = b := by omega
  simp [Dev.bar2Write, same, shape, other, lo, hi, host, surveyor, otherRequester]

end Bar2Write

/-- A word of eight bytes is of the access's shape where it is aligned. -/
theorem accessOk_eight {a n : Nat} (len : n = 8) (aligned : a % 8 = 0) : accessOk a n = true := by
  simp [accessOk, len, aligned]

section Bar2Read

variable {s : Dev} {rq : Requester} {a : Nat} {w : Bool} (aligned : a % (if w then 8 else 4) = 0)

include aligned

theorem accessOk_read : accessOk a (if w then 8 else 4) = true := by
  cases w <;> simpa [accessOk] using aligned

theorem Dev.bar2Read_unserved (h : backed a = false ∨ s.reach2 rq a = false) :
    s.bar2Read rq a w = { s with answer := ⟨0, false, false⟩ } := by
  rw [Dev.bar2Read, accessOk_read aligned]
  exact (if_neg Bool.false_ne_true).trans (if_pos (by simpa using h))

/-- Where no word has an error a read answers the bytes, and finds none. -/
theorem Dev.bar2Read_good (place : backed a = true) (reach : s.reach2 rq a = true) (good : s.memst.bad = []) :
    s.bar2Read rq a w = { s with answer := ⟨BitVec.ofNat 64 (s.num a (if w then 8 else 4)), false, false⟩ } := by
  have sound (b n : Nat) : s.uncorrectable b n = false := by simp [Dev.uncorrectable, good]
  have data (v : Nat) : s.capData a v = v := by simp [Dev.capData, sound]
  rw [Dev.bar2Read, accessOk_read aligned, place, reach]
  simp only [sound, data, Bool.not_true, Bool.false_and, Bool.or_self, Bool.false_eq_true, if_false, ite_self]
  refine Dev.eccRead_of_good ?_ _ _ _
  exact good

end Bar2Read

/-! ## Reads of BAR0 (R265, R362) -/

/-- After release the host reaches every block of a device that is no remote and not in D3hot. -/
theorem Dev.hostReach0_of_released {s : Dev} (released : s.released = true) (d3 : s.cfg.d3 = false) (hub : s.isRemote = false) (a : Nat) :
    s.hostReach0 a = true := by simp [Dev.hostReach0, released, d3, hub]

/-- TIME as its two words show it. -/
theorem Dev.view_time (s : Dev) (uid : Word64) : s.view uid MER_TIME_LO = s.time.extractLsb' 0 32 ∧
    s.view uid MER_TIME_HI = s.time.extractLsb' 32 32 := by
  have whole (w : Word) : w &&& 0xFFFFFFFF#32 = w := BitVec.and_allOnes
  have low : regRow MER_TIME_LO = some ⟨0x30000, 1, 4, 0, 0, 0, 0⟩ := by decide
  have high : regRow MER_TIME_HI = some ⟨0x30004, 1, 4, 0, 0, 0, 0⟩ := by decide
  constructor
  · rw [Dev.view, low]
    simp [whole]
  · rw [Dev.view, high]
    simp [whole]

section Bar0Read

variable {s : Dev} {f : Fuses} {rq : Requester} (reach : ∀ a, s.hostReach0 a = true)

include reach

theorem Dev.bar0Read_plain {a : Nat} (aligned : a % 4 = 0) (plain : latchBase a = none) :
    s.bar0Read f rq a = { s with answer := ⟨(s.view f.uid a).setWidth 64, false, false⟩ } := by
  simp [Dev.bar0Read, aligned, reach, plain]

/-- A read of TIME's low word answers it, and latches the high word for its requester. -/
theorem Dev.bar0Read_time_low : s.bar0Read f rq MER_TIME_LO = { s with
    answer := ⟨(s.time.extractLsb' 0 32).setWidth 64, false, false⟩
    latches := (rq, MER_TIME_LO, s.time.extractLsb' 32 32) ::
      s.latches.filter (fun x => !(decide (x.1 = rq) && x.2.1 == MER_TIME_LO)) } := by
  have aligned : MER_TIME_LO % 4 = 0 := by decide
  have base : latchBase MER_TIME_LO = some MER_TIME_LO := by decide
  obtain ⟨low, high⟩ := s.view_time f.uid
  simp [Dev.bar0Read, aligned, reach, base, low, high]

/-- A read of TIME's high word answers what was latched for its requester, and takes it. -/
theorem Dev.bar0Read_time_high {w : Word} {l : List (Requester × Nat × Word)} (latched : s.latches = (rq, MER_TIME_LO, w) :: l) :
    s.bar0Read f rq MER_TIME_HI = { s with
      answer := ⟨w.setWidth 64, false, false⟩
      latches := s.latches.filter (fun x => !(decide (x.1 = rq) && x.2.1 == MER_TIME_LO)) } := by
  have aligned : MER_TIME_HI % 4 = 0 := by decide
  have base : latchBase MER_TIME_HI = some MER_TIME_LO := by decide
  simp [Dev.bar0Read, aligned, reach, base, latched]

end Bar0Read

/-! ## Writes of BAR0 -/

section Bar0Write

variable {s : Dev} {f : Fuses} {rq : Requester} {a : Nat} {v : Word}

theorem Dev.bar0Write_barred (full : Bool) (h : s.reloadBars rq a = true ∨ a % 4 ≠ 0) : s.bar0Write f rq a v full = s :=
  if_pos (by simpa using h)

variable (plain : pairOf a = none)

include plain

theorem Dev.bar0Write_word (free : s.reloadBars rq a = false) (aligned : a % 4 = 0) (row : regRow a ≠ none) :
    s.bar0Write f rq a v true = s.writeWord f rq a v := by
  simp [Dev.bar0Write, plain, free, aligned, row]

theorem Dev.bar0Write_discarded (full : Bool) (h : full = false ∨ regRow a = none) : s.bar0Write f rq a v full = s := by
  rcases h with narrow | unoccupied
  · simp [Dev.bar0Write, plain, narrow]
  · simp [Dev.bar0Write, plain, unoccupied]

end Bar0Write

/-- Settles O56: an access of BAR2 that reaches the store is `Dev.storeWrite` or `Dev.mailboxBoth`, in the cases above; a read and an
access of BAR0 are their events' definitions with the premises put in. -/
theorem barAccesses : Obligations.BarAccesses := by
  unfold Obligations.BarAccesses
  refine ⟨?write, ?unreached, ?mailbox, ?read, ?lowWord, ?register⟩
  case write =>
    intro s rq a l hs len aligned reach
    have answer : exec (.bar2Write rq a l false none) s = .next (s.withDev (s.storeWrite a l (readerOf rq))) := by
      rw [exec_bar2Write, execBar2Write, State.onAwake_of_awake _ _ hs, Dev.bar2Write_alone (accessOk_eight len aligned) reach]
    rw [answer]
    refine ⟨fun place free miss idle => ⟨_, rfl, ?_⟩, fun nowhere => ?_, fun place free hit => ?_, fun place free miss traverse active => ?_,
      ?corrupt⟩
    case corrupt =>
      exact (exec_bar2Write _ _ _ _ _ s).trans (State.onAwake_of_id (Dev.bar2Write_poisoned none))
    · rw [State.withDev_toDev, Dev.storeWrite_word place free (len ▸ miss) len idle]
      exact ⟨fun i hi => s.put_byte_within (len ▸ hi), fun x hx => s.put_byte_other (len.symm ▸ hx), by simp, by simp, by simp⟩
    · rw [Dev.storeWrite_nowhere nowhere, State.withDev_self]
    · rw [Dev.storeWrite_set_in_force place free (len.symm ▸ hit), len]
    · rw [Dev.storeWrite_active place free (len.symm ▸ miss) traverse active]
  case unreached =>
    exact fun s rq a l _ barred => (exec_bar2Write _ _ _ _ _ s).trans (State.onAwake_of_id (Dev.bar2Write_unreached _ _ barred))
  case mailbox =>
    intro s a b l m hs shape other lo hi word host surveyor
    rw [exec_bar2Write, execBar2Write, State.onAwake_of_awake _ _ hs, Dev.bar2Write_mailbox shape other lo hi word host surveyor,
      Dev.mailboxBoth]
    exact ⟨fun agree => by rw [agree, if_neg Bool.false_ne_true], fun clash => by rw [clash, if_pos rfl]⟩
  case read =>
    intro s rq a w hs aligned
    rw [exec_bar2Read, execBar2Read, State.onAwake_of_awake _ _ hs]
    exact ⟨fun unserved => by rw [Dev.bar2Read_unserved aligned unserved],
      fun place reach good => by rw [Dev.bar2Read_good aligned place reach good]⟩
  case lowWord =>
    intro s rq hs released d3 hub
    have reach := Dev.hostReach0_of_released released d3 hub
    have answer (a : Nat) : exec (.lowWordRead rq a) s = .next (s.withDev (s.bar0Read s.fuses rq a)) :=
      (exec_lowWordRead rq a s).trans (State.onAwake_of_awake _ _ hs)
    refine ⟨fun a aligned plain => ?_, ⟨_, answer _, ?_⟩, fun w l latched => ⟨_, answer _, ?_⟩⟩
    · rw [answer, Dev.bar0Read_plain reach aligned plain]
    · rw [State.withDev_toDev, Dev.bar0Read_time_low reach]
      exact ⟨rfl, List.mem_cons_self, s.keeps_refl []⟩
    · rw [State.withDev_toDev, Dev.bar0Read_time_high reach latched]
      exact ⟨rfl, s.keeps_refl []⟩
  case register =>
    intro s rq a v hs
    have answer (full : Bool) : exec (.registerWrite rq a v full) s = .next (s.withDev (s.bar0Write s.fuses rq a v full)) :=
      (exec_registerWrite rq a v full s).trans (State.onAwake_of_awake _ _ hs)
    simp only [answer]
    refine ⟨fun free aligned plain row => ?_, fun plain => ?_, fun barred full => ?_, fun plain row full => ?_⟩
    · rw [Dev.bar0Write_word plain free aligned row]
    · rw [Dev.bar0Write_discarded plain _ (.inl rfl), State.withDev_self]
    · rw [Dev.bar0Write_barred full barred, State.withDev_self]
    · rw [Dev.bar0Write_discarded plain _ (.inr row), State.withDev_self]

end Sys2Proof.Machine

namespace Sys2Proof.Machine
open Sys2Proof

/-! ## CONTOUR_SET (R226) -/

/-- The bytes of a number are those written at its place within a longer write. -/
theorem Dev.put_num_within (s : Dev) {a k m : Nat} {l : List Byte} (fits : k + m ≤ l.length) :
    (s.put a l).num (a + k) m = leNat ((l.drop k).take m) := by
  rw [Dev.num]
  refine congrArg leNat (List.ext_getElem (by simp [Dev.bytes]; omega) (fun i hi _ => ?_))
  have lt : i < m := by simpa [Dev.bytes] using hi
  have at_ := s.put_byte_within (a := a) (show k + i < l.length by omega)
  simp only [Dev.bytes, List.getElem_map, List.getElem_range, List.getElem_take, List.getElem_drop, Nat.add_assoc, at_]
  exact List.getD_eq_getElem _ _ _

/-- A word among bytes that are written is read back. -/
theorem Dev.put_word_within (s : Dev) {a k : Nat} {l : List Byte} {w : Word} (fits : k + 4 ≤ l.length)
    (at_ : (l.drop k).take 4 = leBytes 4 w.toNat) : (s.put a l).word (a + k) = w := by
  rw [Dev.word, Dev.put_num_within s fits, at_, leNat_leBytes]
  exact BitVec.eq_of_toNat_eq (by simp [w.isLt])

@[simp] theorem Dev.complete_word (s : Dev) (c : Ctx) (st a : Nat) : (s.complete c st).word a = s.word a := by
  simp only [Dev.word, Dev.complete_num]

/-- The bytes of a contour set as stored: each word with its complement, and eight zero bytes. -/
def contourImage (p : ContourP) : List Byte :=
  leBytes 4 p.vel.toNat ++ leBytes 4 (~~~p.vel).toNat ++ (leBytes 4 p.acc.toNat ++ leBytes 4 (~~~p.acc).toNat)
    ++ (leBytes 4 p.jerk.toNat ++ leBytes 4 (~~~p.jerk).toNat) ++ leBytes 8 0

theorem contourImage_length (p : ContourP) : (contourImage p).length = 32 := by simp [contourImage, leBytes_length]

/-- Where set `j` of generator `n` stands. -/
def Dev.contourAddr (s : Dev) (n : SliceId) (j : Nat) : Nat := (s.rd (gB n + GEN_CONTOUR_BASE)).toNat + 32 * j

theorem exec_contourSet_ready {s : State} {h : Hdr} {r : GroupRec} (k : s.ready h r) (p : ContourP) :
    exec (.contourSet h p) s = .next (s.withDev ((s.taken h.ring).contourSet (ownCtx h 0x0B) r p)) := by
  rw [exec_contourSet, execContourSet, State.onAwake_of_awake _ _ k.1, Dev.ringCmd_ready k]

section ContourSet

variable {s : Dev} {c : Ctx} {r : GroupRec} {p : ContourP}

theorem Dev.contourSet_bad_set (bad : 14 < p.set.toNat) : s.contourSet c r p = s.completeAt c BAD_PARAM 0 s.time := if_pos bad

variable (set : p.set.toNat ≤ 14) (mask : r.maskOk p.mask = true)

include set mask

theorem Dev.contourSet_no_vel (zero : p.vel = 0) : s.contourSet c r p = s.completeAt c BAD_PARAM 8 s.time := by
  rw [Dev.contourSet, if_neg (Nat.not_lt.mpr set), if_neg (by simp [mask]), if_pos (by simp [zero])]

variable (vel : p.vel ≠ 0) (acc : p.acc ≠ 0) (jerk : p.jerk ≠ 0)

include vel acc jerk

theorem Dev.contourSet_mismatch (bad : p.imageC ≠ ~~~(p.jerk ++ p.acc ++ p.vel)) :
    s.contourSet c r p = s.completeAt c INTEGRITY 0x14 s.time := by
  rw [Dev.contourSet, if_neg (Nat.not_lt.mpr set), if_neg (by simp [mask]), if_neg (by simpa using vel), if_neg (by simpa using acc),
    if_neg (by simpa using jerk), if_pos (by simpa using bad)]

theorem Dev.contourSet_stores {n : SliceId} (one : r.masked p.mask = [n]) (good : p.imageC = ~~~(p.jerk ++ p.acc ++ p.vel)) :
    s.contourSet c r p = (s.put (s.contourAddr n p.set.toNat) (contourImage p)).complete c OK := by
  rw [Dev.contourSet, if_neg (Nat.not_lt.mpr set), if_neg (by simp [mask]), if_neg (by simpa using vel), if_neg (by simpa using acc),
    if_neg (by simpa using jerk), if_neg (by simp [good]), one]
  rfl

end ContourSet

/-- A set as stored: its words, the complement of the first, the zero bytes, and nothing beside its 32 bytes. -/
theorem Dev.put_contourImage (s : Dev) (a : Nat) (p : ContourP) : (s.put a (contourImage p)).word a = p.vel ∧
    (s.put a (contourImage p)).word (a + 4) = ~~~p.vel ∧ (s.put a (contourImage p)).word (a + 8) = p.acc ∧
    (s.put a (contourImage p)).word (a + 16) = p.jerk ∧ (s.put a (contourImage p)).num (a + 24) 8 = 0 ∧
    (∀ b, b < a ∨ a + 32 ≤ b → (s.put a (contourImage p)).byte b = s.byte b) := by
  have len := contourImage_length p
  exact ⟨Dev.put_word_within (k := 0) s (by omega) rfl, Dev.put_word_within s (by omega) rfl, Dev.put_word_within s (by omega) rfl,
    Dev.put_word_within s (by omega) rfl, (Dev.put_num_within s (by omega)).trans rfl, fun b beside => s.put_byte_other (by rwa [len])⟩

/-! ## GEN_SET (R232) -/

theorem Dev.keeps.schedule {s t : Dev} {l : List Nat} (h : s.keeps t l) (c : Ctx) (cmd : RingCmd) (g : Nat) (m : Word) (after : Nat)
    (x : Word64) : s.keeps (t.schedule c cmd g m after x) l := ⟨h.1, h.2⟩

theorem exec_genSet_ready {s : State} {h : Hdr} {r : GroupRec} (k : s.ready h r) (p : GenP) :
    exec (.genSet h p) s = .next (s.withDev ((s.taken h.ring).genSet (ownCtx h 0x0A) r p)) := by
  rw [exec_genSet, execGenSet, State.onAwake_of_awake _ _ k.1, Dev.ringCmd_ready k]

section GenSet

variable {s : Dev} {c : Ctx} {r : GroupRec} {p : GenP} {n : SliceId} (one : r.masked p.mask = [n]) (profile : p.profile.toNat ≤ 15)
  (flags : p.flags.toNat ≤ 1) (mask : r.maskOk p.mask = true)

include one profile flags mask

theorem Dev.genSet_busy (pending : s.flag (gB n) GEN_STATUS_PENDING = true) : s.genSet c r p = s.complete c BUSY := by
  rw [Dev.genSet, if_neg (Nat.not_lt.mpr profile), if_neg (Nat.not_lt.mpr flags), if_neg (by simp [mask]), one]
  exact if_pos (by simp [pending])

theorem Dev.genSet_waits (idle : s.flag (gB n) GEN_STATUS_PENDING = false) :
    s.genSet c r p = (s.setFlag (gB n) GEN_STATUS_PENDING true).schedule c (.genSet p) r.first (r.devMask p.mask) (s.now + 200) p.at_ := by
  rw [Dev.genSet, if_neg (Nat.not_lt.mpr profile), if_neg (Nat.not_lt.mpr flags), if_neg (by simp [mask]), one]
  exact if_neg (by simp [idle])

end GenSet

/-- A GEN_SET that waits has PENDING set, and touches no other register. -/
theorem Dev.pendingFlag_spec (s : Dev) (n : SliceId) : (s.setFlag (gB n) GEN_STATUS_PENDING true).flag (gB n) GEN_STATUS_PENDING = true ∧
    s.keeps (s.setFlag (gB n) GEN_STATUS_PENDING true) [gB n + GEN_STATUS] :=
  ⟨Dev.flag_setFlag_same _ _ _ _ (by decide) rfl, (Dev.keeps_refl s _).setFlag _ _ _ (by simp)⟩

/-- An engine with nothing due has no duty at the tick. -/
theorem Dev.duties_idle {s : Dev} {r : GroupRec} (idle : (s.eng (sid r.first)).due = false) : s.duties r = s := by
  rw [Dev.duties, idle]
  exact if_pos rfl

/-- At the tick a GEN_SET that waits alone loads its profile. -/
theorem exec_genSetEffect_alone {s : State} {g : GroupId} {r : GroupRec} {x : Sched} {p : GenP} (domains : s.domains = true)
    (group : s.group g.val = some r) (alone : s.sched = [x]) (cmd : x.cmd = .genSet p) (named : x.group = g.val)
    (idle : (s.eng (sid r.first)).due = false) (due : x.due (s.effectAt r).1 (s.effectAt r).2 = true) :
    exec (.genSetEffect g) s =
      .next (s.withDev (({ s.toDev with sched := [] }.genEffect x p (s.effectAt r).2).finishTick g)) := by
  rw [exec_genSetEffect, execGenSetEffect, State.onAwake_onEngine domains group, Dev.duties_idle idle]
  simp [alone, cmd, isGenSet, named, due, Dev.each_one]

/-- Profile 0 stops the generator. -/
theorem Dev.loadProfile_zero (s : Dev) (n : SliceId) : s.loadProfile n 0 =
    ((((s.wr (gB n + GEN_MODE) 0).wr (gB n + GEN_AMPL) 0).wr (gB n + GEN_OFFSET) 0).wr (gB n + GEN_NOISE_AMPL) 0, OK) := rfl

theorem Dev.loadProfile_zero_spec (s : Dev) (n : SliceId) : (s.loadProfile n 0).2 = OK ∧ (s.loadProfile n 0).1.rd (gB n + GEN_MODE) = 0 ∧
    (s.loadProfile n 0).1.rd (gB n + GEN_AMPL) = 0 ∧ (s.loadProfile n 0).1.rd (gB n + GEN_OFFSET) = 0 ∧
    (s.loadProfile n 0).1.rd (gB n + GEN_NOISE_AMPL) = 0 ∧
    s.keeps (s.loadProfile n 0).1 [gB n + GEN_MODE, gB n + GEN_AMPL, gB n + GEN_OFFSET, gB n + GEN_NOISE_AMPL] := by
  rw [Dev.loadProfile_zero]
  refine ⟨rfl, ?_, ?_, ?_, ?_, ((((Dev.keeps_refl s _).wr _ _ ?_).wr _ _ ?_).wr _ _ ?_).wr _ _ ?_⟩ <;> simp [Dev.rd_wr]

/-! ## A sample of a waveform with neither shape nor noise (R227, R230) -/

theorem Dev.rd48_wr48_same (s : Dev) {lo hi : Nat} (h : hi ≠ lo) (v : Nat) : (s.wr48 lo hi v).rd48 lo hi = v % 2 ^ 48 := by
  rw [Dev.rd48, Dev.wr48, Dev.rd64_wr64_same s h, BitVec.toNat_ofNat]
  omega

theorem Dev.keeps.wr48 {s t : Dev} {l : List Nat} (h : s.keeps t l) (a b v : Nat) (ha : a ∈ l) (hb : b ∈ l) : s.keeps (t.wr48 a b v) l :=
  h.wr64 a b _ ha hb

theorem satS_toInt (w : Word) : satS 32 w.toInt = w.toInt := by
  have low := w.le_toInt
  have high := w.toInt_lt
  unfold satS clampI
  omega

theorem word_of_toInt (w : Word) : BitVec.ofNat 32 (unsigned 32 w.toInt) = w := by
  have bits : BitVec.ofNat 32 (unsigned 32 w.toInt) = BitVec.ofInt 32 w.toInt := BitVec.eq_of_toNat_eq (by
    rw [BitVec.toNat_ofNat, BitVec.toNat_ofInt, unsigned]
    omega)
  rw [bits, BitVec.ofInt_toInt]

/-- The phase of generator `n` at its slice's sampling instant (R227). -/
def Dev.phaseAt (s : Dev) (n : SliceId) : Nat :=
  (s.rd48 (gB n + GEN_FREQ_LO) (gB n + GEN_FREQ_HI) * (s.sl n).instant.toNat
    + s.rd48 (gB n + GEN_PHASE0_LO) (gB n + GEN_PHASE0_HI)) % 2 ^ 48

/-- With neither shape nor noise a sample shows its phase and its offset; beside them it tells the correlators of a wrap. -/
theorem Dev.waveSample_silent {s : Dev} {n : SliceId} (shape : s.fld (gB n) GEN_MODE_SHAPE = 0) (noise : s.fld (gB n) GEN_MODE_NOISE = 0) :
    ∃ f, s.waveSample n =
      (((s.modGen n (fun g => { g with lfsr := (s.gen n).lfsr, w := (s.rd (gB n + GEN_OFFSET)).toInt })).wr48 (gB n + GEN_PHASE_LO)
        (gB n + GEN_PHASE_HI) (s.phaseAt n)).wr (gB n + GEN_VALUE) (s.rd (gB n + GEN_OFFSET))).modSl n f := by
  have flat (th : Nat) : s.shape n th = (0, false) := by simp [Dev.shape, shape]
  have none (th : Nat) : s.fetched n th = [] := by simp [Dev.fetched, shape]
  have rest : roundDiv 0 2147483648 = 0 := by decide
  refine ⟨?wrap, ?eq⟩
  case eq =>
    unfold Dev.waveSample
    simp only [flat, none, noise, rest, draws, satS_toInt, word_of_toInt, Int.mul_zero, Int.add_zero, beq_self_eq_true, if_true,
      Bool.false_eq_true, if_false, List.foldl_nil]
    rfl

theorem Dev.waveSample_silent_spec {s : Dev} {n : SliceId} (shape : s.fld (gB n) GEN_MODE_SHAPE = 0)
    (noise : s.fld (gB n) GEN_MODE_NOISE = 0) : (s.waveSample n).theta n = s.phaseAt n ∧
    (s.waveSample n).rd (gB n + GEN_VALUE) = s.rd (gB n + GEN_OFFSET) ∧
    ((s.waveSample n).gen n).w = (s.rd (gB n + GEN_OFFSET)).toInt ∧ ((s.waveSample n).gen n).lfsr = (s.gen n).lfsr ∧
    s.keeps (s.waveSample n) [gB n + GEN_PHASE_LO, gB n + GEN_PHASE_HI, gB n + GEN_VALUE] := by
  obtain ⟨f, sample⟩ := Dev.waveSample_silent shape noise
  have gen : (s.waveSample n).gen n = { s.gen n with w := (s.rd (gB n + GEN_OFFSET)).toInt } := by
    rw [sample, Dev.gen, Dev.modSl_gens, Dev.wr_gens, Dev.wr48, Dev.wr64_gens, ← Dev.gen, Dev.gen_modGen_same]
  refine ⟨?phase, ?value, by rw [gen], by rw [gen], ?keeps⟩ <;> rw [sample]
  case phase =>
    rw [Dev.theta, Dev.rd48, Dev.modSl_rd64, Dev.rd64_wr_other _ _ (by simp) (by simp), ← Dev.rd48, Dev.rd48_wr48_same _ (by simp)]
    exact Nat.mod_eq_of_lt (Nat.mod_lt _ (by decide))
  case value => exact (Dev.modSl_rd _ _ _ _).trans (Dev.rd_wr_same _ _ _)
  case keeps => exact ((((Dev.keeps_refl s _).modGen n _).wr48 _ _ _ (by simp) (by simp)).wr _ _ (by simp)).modSl _ _

/-! ## Writes of the generator registers (R234, R236) -/

/-- A generator's word is described by the row of its table. -/
theorem regRow_gen (n : SliceId) {k : Nat} (hk : k < 0x1000) : regRow (gB n + k) = rowsGen.find? (fun r => r.holds k) := by
  have lt := n.isLt
  have word : (gB n + k) % 0x1000 = k := by simp only [gB, genBase]; omega
  unfold regRow regBlock
  repeat rw [if_neg (by simp only [gB, genBase]; omega)]
  rw [if_pos (by simp only [gB, genBase]; omega), word]

/-- A word that is readable and writable throughout reads as it was stored (R3, R4). -/
theorem Dev.rd_store_full {s : Dev} {a : Nat} {r : RegRow} (row : regRow a = some r) (plain : r.w1c = 0) (full : r.rw = 0xFFFFFFFF) (v : Word) :
    (s.store a v).rd a = v := by
  have all : BitVec.ofNat 32 0xFFFFFFFF = BitVec.allOnes 32 := by decide
  rw [Dev.store, row]
  simp only [Dev.rd_wr_same, plain, full, all, BitVec.allOnes_or, BitVec.not_allOnes, BitVec.and_zero, BitVec.zero_or, BitVec.and_allOnes,
    BitVec.not_zero]

theorem exec_genRegisterWrite_awake {s : State} (hs : s.awake = true) (n : SliceId) (o : Nat) (v : Word) :
    exec (.genRegisterWrite n o v) s = .next (s.withDev (s.genWrite n o v)) :=
  (exec_genRegisterWrite n o v s).trans (State.onAwake_of_awake _ _ hs)

/-- A refused write sets REFUSED of GEN_STATUS, and nothing else. -/
theorem Dev.genRefuse_spec (s : Dev) (n : SliceId) : (s.genRefuse n false).flag (gB n) GEN_STATUS_REFUSED = true ∧
    s.keeps (s.genRefuse n false) [gB n + GEN_STATUS] :=
  ⟨Dev.flag_setFlag_same _ _ _ _ (by decide) rfl, (Dev.keeps_refl s _).setFlag _ _ _ (by simp)⟩

section GenWrite

variable {s : Dev} {n : SliceId} {v : Word}

theorem Dev.genWrite_seed_zero : s.genWrite n GEN_NOISE_SEED 0 = s.genRefuse n false := rfl

theorem Dev.genWrite_seed (nonzero : v ≠ 0) : s.genWrite n GEN_NOISE_SEED v = s.store (gB n + GEN_NOISE_SEED) v :=
  if_neg (by simpa using nonzero)

theorem Dev.genWrite_prof_unaligned (off : v.toNat % 64 ≠ 0) : s.genWrite n GEN_PROF_BASE v = s.genRefuse n false :=
  if_neg (by simp [off])

theorem Dev.genWrite_prof (aligned : v.toNat % 64 = 0) (fits : inSystem v.toNat 960 = true) (idle : s.flag (gB n) GEN_STATUS_PENDING = false) :
    s.genWrite n GEN_PROF_BASE v = s.store (gB n + GEN_PROF_BASE) v := if_pos (by simp [aligned, fits, idle])

theorem Dev.genWrite_table_one (one : getBits v.toNat 0 17 = 1) : s.genWrite n GEN_TABLE_LEN v = s.genRefuse n false :=
  if_neg (by simp [one])

/-- A register whose value no rule bounds takes what is written. -/
theorem Dev.genWrite_plain {o : Nat} (plain : o ∉ [GEN_CONTOUR_BASE, GEN_PROF_BASE, GEN_TABLE_BASE, GEN_TABLE_LEN, GEN_NOISE_SEED]) :
    s.genWrite n o v = s.store (gB n + o) v := by
  simp only [List.mem_cons, List.not_mem_nil, or_false, not_or] at plain
  obtain ⟨contour, prof, table, len, seed⟩ := plain
  simp [Dev.genWrite, contour, prof, table, len, seed]

end GenWrite

theorem Dev.seed_stored (s : Dev) (n : SliceId) (v : Word) : (s.store (gB n + GEN_NOISE_SEED) v).rd (gB n + GEN_NOISE_SEED) = v :=
  Dev.rd_store_full (r := ⟨0x14c, 1, 4, 0xffffffff, 0x0, 0x0, 0x0⟩) ((regRow_gen n (by decide)).trans (by decide)) rfl rfl v

theorem Dev.prof_stored (s : Dev) (n : SliceId) (v : Word) : (s.store (gB n + GEN_PROF_BASE) v).rd (gB n + GEN_PROF_BASE) = v :=
  Dev.rd_store_full (r := ⟨0x140, 1, 4, 0xffffffff, 0x0, 0x0, 0x0⟩) ((regRow_gen n (by decide)).trans (by decide)) rfl rfl v

/-- Settles O34: CONTOUR_SET and GEN_SET, taken from their ring, are their commands' definitions case by case; a set as stored is
`contourImage` at `Dev.contourAddr`, a sample without shape and noise is `Dev.waveSample_silent`, and a register write is refused by
`Dev.genRefuse_spec` or stored. -/
theorem generatorsAndContours : Obligations.GeneratorsAndContours := by
  unfold Obligations.GeneratorsAndContours
  refine ⟨?contour, ⟨?genSet, ?effect, ?profile⟩, ?sample, ?registers⟩
  case contour =>
    intro s h r p n k one
    rw [exec_contourSet_ready k]
    refine ⟨fun bad => ?_, fun set mask zero => ?_, fun set mask vel acc jerk bad => ?_, fun set mask vel acc jerk good => ⟨_, rfl, ?_⟩⟩
    · rw [Dev.contourSet_bad_set bad]
    · rw [Dev.contourSet_no_vel set mask zero]
    · rw [Dev.contourSet_mismatch set mask vel acc jerk bad]
    · have addr : (s.taken h.ring).contourAddr n p.set.toNat = (s.rd (gB n + GEN_CONTOUR_BASE)).toNat + 32 * p.set.toNat := by
        simp [Dev.contourAddr]
      obtain ⟨vel', velC, acc', jerk', zeros, beside⟩ := (s.taken h.ring).put_contourImage ((s.taken h.ring).contourAddr n p.set.toNat) p
      rw [State.withDev_toDev, Dev.contourSet_stores set mask vel acc jerk one good, ← addr]
      simp only [Dev.complete_word, Dev.complete_num, Dev.complete_byte]
      exact ⟨vel', velC, acc', jerk', zeros, fun a ha => (beside a ha).trans (Dev.taken_byte _ _ _), by simp, by simp⟩
  case genSet =>
    intro s h r p n k one profile flags mask
    rw [exec_genSet_ready k]
    refine ⟨fun pending => ?_, fun idle => ⟨_, rfl, ?_⟩⟩
    · rw [Dev.genSet_busy one profile flags mask (by simpa using pending)]
    · rw [State.withDev_toDev, Dev.genSet_waits one profile flags mask (by simpa using idle)]
      obtain ⟨pending, keeps⟩ := (s.taken h.ring).pendingFlag_spec n
      exact ⟨(Dev.schedule_flag _ _ _ _ _ _ _ _ _).trans pending,
        (((Dev.keeps_refl s.toDev _).taken h.ring).trans keeps).schedule _ _ _ _ _ _, by simp⟩
  case effect =>
    exact fun _ _ _ _ _ domains group alone cmd named idle due => exec_genSetEffect_alone domains group alone cmd named idle due
  case profile => exact Dev.loadProfile_zero_spec
  case sample => exact fun _ _ => Dev.waveSample_silent_spec
  case registers =>
    intro s n v hs
    simp only [exec_genRegisterWrite_awake hs]
    obtain ⟨refused, keeps⟩ := s.genRefuse_spec n
    have stored (o : Nat) : s.toDev.keeps (s.store (gB n + o) v) [gB n + o] := (Dev.keeps_refl s.toDev _).store _ _ (by simp)
    refine ⟨⟨_, rfl, ?_⟩, fun nonzero => ⟨_, rfl, ?_⟩, fun off => ⟨_, rfl, ?_⟩, fun one => ⟨_, rfl, ?_⟩,
      fun aligned fits idle => ⟨_, rfl, ?_⟩, fun o plain => ⟨_, rfl, ?_⟩⟩ <;> rw [State.withDev_toDev]
    · rw [Dev.genWrite_seed_zero]
      exact ⟨refused, keeps⟩
    · rw [Dev.genWrite_seed nonzero]
      exact ⟨s.seed_stored n v, stored _⟩
    · rw [Dev.genWrite_prof_unaligned off]
      exact ⟨refused, keeps⟩
    · rw [Dev.genWrite_table_one one]
      exact ⟨refused, keeps⟩
    · rw [Dev.genWrite_prof aligned fits idle]
      exact ⟨s.prof_stored n v, stored _⟩
    · rw [Dev.genWrite_plain plain]
      exact ⟨rfl, stored _⟩

end Sys2Proof.Machine

namespace Sys2Proof.Machine
open Sys2Proof

/-! ## Every step (R3, R266, R297, R421) -/

/-- With nothing for the collector to take, an idle step is one cycle. -/
theorem Dev.idle_of_quiet {s : Dev} (queue : s.col.queue = []) (slots : s.col.slots = []) : s.idle = s.pass 1 := by
  have slot : (s.pass 1).lowSlot = none := by simp [Dev.lowSlot, slots]
  unfold Dev.idle Dev.takeSlot
  rw [queue, slot, ite_self]

theorem Dev.keeps.pass {s t : Dev} {l : List Nat} (h : s.keeps t l) (k : Nat) : s.keeps (t.pass k) l :=
  ⟨fun a ha => (Dev.pass_rd _ _ _).trans (h.1 a ha), (Dev.pass_mem _ _).trans h.2.1, (Dev.pass_nvm _ _).trans h.2.2.1,
    (Dev.pass_plates _ _).trans h.2.2.2⟩

/-- Out of freeze cycles pass. -/
theorem Dev.pass_running {s : Dev} (h : s.frz.frozen = false) (k : Nat) : (s.pass k).now = s.now + k ∧
    (s.pass k).time = if s.awake && decide (4 ≤ s.boot.step) then s.time + BitVec.ofNat 64 (if s.fallback then 10 * k else k) else s.time := by
  simp [Dev.pass, h]

/-- In freeze they are counted. -/
theorem Dev.pass_frozen {s : Dev} (h : s.frz.frozen = true) (k : Nat) :
    (s.pass k).now = s.now ∧ (s.pass k).time = s.time ∧ (s.pass k).frz.span = s.frz.span + k := by
  simp [Dev.pass, h]

/-- With RESET_N low or in freeze TIME stands. -/
theorem Dev.pass_time_stopped {s : Dev} (h : s.awake = false) (k : Nat) : (s.pass k).time = s.time := by
  cases frozen : s.frz.frozen
  · rw [(Dev.pass_running frozen k).2, h, Bool.false_and, if_neg (by decide)]
  · exact (Dev.pass_frozen frozen k).2.1

/-- Settles O2: with the collector's queue and slots empty the step is `Dev.pass 1`. -/
theorem emptyQueueIsOneCycle : Obligations.EmptyQueueIsOneCycle := by
  unfold Obligations.EmptyQueueIsOneCycle
  intro s pending queue slots
  have idle : step s = .next (s.withDev (s.pass 1)) := by
    rw [step, pending]
    exact congrArg (fun d => Host.Outcome.next (s.withDev d)) (Dev.idle_of_quiet queue slots)
  refine ⟨_, idle, pending, rfl, (Dev.keeps_refl s.toDev []).pass 1, s.pass_slices 1, fun running => (Dev.pass_running running 1).1,
    fun frozen => Dev.pass_frozen frozen 1, fun awake clocked => ?_, fun stopped => Dev.pass_time_stopped stopped 1⟩
  refine ((Dev.pass_running (s.frozen_of_awake awake) 1).2.trans (if_pos (by simp [awake, clocked]))).trans ?_
  cases s.fallback <;> rfl

/-- Settles O3: a command changes the device by `exec_lifted`, and the three that may change the fuses as well keep the queue. -/
theorem everyCommandAnswersNext : Obligations.EveryCommandAnswersNext := by
  unfold Obligations.EveryCommandAnswersNext
  intro c s
  have cut : s.cutFuse.pending = s.pending := by unfold State.cutFuse; split <;> rfl
  by_cases done : c = .lifecycleCommandDone
  · subst done
    rw [exec_lifecycleCommandDone, execLifecycleCommandDone]
    split <;> exact ⟨_, rfl, rfl⟩
  by_cases low : c = .resetNLow
  · subst low
    rw [exec_resetNLow, execResetNLow]
    split
    · exact ⟨_, rfl, cut⟩
    · exact ⟨_, rfl, rfl⟩
  by_cases power : c = .powerOnReset
  · subst power
    exact ⟨_, rfl, cut⟩
  · obtain ⟨d, lifted⟩ := exec_lifted (s := s) done low power
    exact ⟨_, lifted, rfl⟩

/-- Settles O4: but for the end of a fuse command, which a stopped device ignores, and the commands listed, every command is an event of
the device's own logic. -/
theorem stoppedDeviceIgnoresCommands : Obligations.StoppedDeviceIgnoresCommands := by
  unfold Obligations.StoppedDeviceIgnoresCommands
  intro c s stopped unlisted
  cases c
  case lifecycleCommandDone => rw [exec_lifecycleCommandDone, execLifecycleCommandDone, if_neg (by simp [stopped])]
  case clampTrip | clampInputReturn | winCrossing | encoderEdge | perst | perstDeassert | pcieLinkDown | freezeNFall | jtagFreeze | jtagThaw | jtagStatus
      | scanSelect | scanRead | memSelect | memRead | unlockChallenge | unlockResponse | unlockVerifyDone | extest | samplePreload | bypass | resetNRise
      | resetNLow | powerOnReset | pwrfailNFall | pwrfailNRise | brownOut | brownOutRelease | interlockNFall | interlockNRise | pllLocked | standbyLockLost
      | activePllLockLost | pllBothLost | xinLost | xinReturn | graveWire | tempCritical => exact unlisted.elim
  all_goals
    delta exec
    exact State.onAwake_of_not_awake s _ stopped

/-! ## Paths (R246) -/

section Follow

variable (s : Dev) (g : GroupId) {p q : PathPos}

theorem Dev.follow_within (next : p.next = some q) : s.follow g p = (s, .step q) ∧ p.exits = false := by
  simp [Dev.follow, PathPos.exits, next]

theorem Dev.follow_exit (next : p.next = none) : s.follow g p = s.enterRead g p.desc.succ ∧ p.exits = bitOf p.desc.flags 3 := by
  simp [Dev.follow, PathPos.exits, next]

end Follow

theorem PathPos.next_step {p : PathPos} (more : p.step + 1 < p.desc.count) : p.next = some { p with step := p.step + 1 } := if_pos more

theorem PathPos.next_pass {p : PathPos} (last : p.desc.count ≤ p.step + 1)
    (again : p.desc.rep = 0xFFFFFFFF ∨ (p.pass + 1) % 2 ^ 32 ≠ p.desc.rep) : p.next = some { p with step := 0, pass := (p.pass + 1) % 2 ^ 32 } := by
  rw [PathPos.next, if_neg (by omega)]
  exact if_neg (by simp only [Bool.and_eq_true, bne_iff_ne, beq_iff_eq]; omega)

theorem PathPos.next_none {p : PathPos} (last : p.desc.count ≤ p.step + 1) (rep : p.desc.rep < 0xFFFFFFFF) (passed : p.pass + 1 = p.desc.rep) :
    p.next = none := by
  rw [PathPos.next, if_neg (by omega)]
  exact if_pos (by simp only [Bool.and_eq_true, bne_iff_ne, beq_iff_eq]; omega)

/-- Settles O35: the step that follows is `PathPos.next`, and behind the last pass the successor leg. -/
theorem pathsFollowTheirLegs : Obligations.PathsFollowTheirLegs := by
  unfold Obligations.PathsFollowTheirLegs
  intro s g p
  refine ⟨fun more => s.follow_within g (PathPos.next_step more), fun last rep => s.follow_within g (PathPos.next_pass last (.inl rep)),
    fun last rep more => ?_, fun last rep passed => s.follow_exit g (PathPos.next_none last rep passed), ?_⟩
  · have whole : (p.pass + 1) % 2 ^ 32 = p.pass + 1 := Nat.mod_eq_of_lt (by omega)
    have again := s.follow_within g (PathPos.next_pass last (.inr (by omega)))
    rwa [whole] at again
  · rw [Dev.enter, Dev.enterLeg]
    rfl

/-! ## What the collector records (R340, R345, R347, R348, R353) -/

/-- Settles O48: the table of floors, read off `kindFloor` by the place of the source among its eight. -/
theorem effectiveClassHasAFloor : Obligations.EffectiveClassHasAFloor := by
  unfold Obligations.EffectiveClassHasAFloor
  refine ⟨fun _ _ => rfl, fun n hn => ?slices, fun b hb => ?banks, fun x k hx apart => ?others⟩
  case slices =>
    have floor (k : Nat) (hk : k < 8) (j : Nat) : kindFloor (n * 8 + k) j =
        if k = 1 then (if j == 1 || j == 2 then 2 else 0) else if k = 2 then (if j == 2 then 2 else 0) else if k = 3 then (if j == 1 then 2 else 0) else 0 := by
      rw [kindFloor, if_pos (by omega), show (n * 8 + k) % 8 = k by omega]
      simp only [beq_iff_eq]
    refine ⟨floor 1 (by decide) _, floor 1 (by decide) _, floor 1 (by decide) _, floor 2 (by decide) _, floor 2 (by decide) _, floor 3 (by decide) _,
      floor 3 (by decide) _, floor 3 (by decide) _, fun k j hk one two three => ?_⟩
    rw [floor k hk, if_neg one, if_neg two, if_neg three]
  case banks =>
    have floor (j : Nat) : kindFloor (0x140 + b) j = if j == 2 || j == 4 then 2 else if j == 3 || j == 5 || j == 6 then 1 else 0 := by
      rw [kindFloor, if_neg (by omega)]
      exact if_pos (by simp; omega)
    exact ⟨floor _, floor _, floor _, floor _, floor _, floor _⟩
  case others =>
    rw [kindFloor, if_neg (by omega)]
    exact if_neg (by simp; omega)

theorem Dev.srcClass_lt (s : Dev) (x : Nat) : s.srcClass x < 4 := by
  unfold Dev.srcClass
  split
  · decide
  · exact getBits_lt _ _ 2

theorem kindFloor_le (x k : Nat) : kindFloor x k ≤ 2 := by
  unfold kindFloor
  repeat' split
  all_goals decide

theorem Dev.effClass_lt (s : Dev) (m : Msg) : s.effClass m < 4 :=
  max_lt (s.srcClass_lt _) ((kindFloor_le _ _).trans_lt (by decide))

/-- The registers a record of message `m` writes. -/
def recordRegs (m : Msg) : List Nat := [bankWord m.injected m.source.toNat, FAULT_SRC + 4 * m.source.toNat, FAULT_LAST_LO, FAULT_LAST_HI]

/-- A device with the bit and SEEN of message `m`, and the message as FAULT_LAST (R345). -/
def Dev.recorded (s : Dev) (m : Msg) : Dev :=
  ((((s.setSticky m.injected m.source.toNat).setFld (srcBase m.source.toNat) FAULT_SRC_SEEN
    (max (s.effClass m) (s.fld (srcBase m.source.toNat) FAULT_SRC_SEEN))).wr FAULT_LAST_LO (msgLo m)).wr FAULT_LAST_HI (msgHi m))

theorem Dev.record_eq (s : Dev) (m : Msg) : ∃ f, s.record m = ((s.recorded m).modCol f).when
    (((s.recorded m).modCol f).isRemote && ((s.recorded m).modCol f).reactions m &&& 0x44 != 0)
    (fun d => d.sendHub 0 (.fault m 0 (d.fld 0 GLOBAL_STATUS_STATE))) :=
  ⟨fun k => { k with wired := if m.injected then k.wired else k.wired.filter (fun y => y != m.source.toNat)
                     grave := if s.effClass m == 3 && !m.injected then addNat m.source.toNat k.grave else k.grave }, by unfold Dev.record Dev.recorded; rfl⟩

theorem Dev.recorded_keeps (s : Dev) (m : Msg) : s.keeps (s.recorded m) (recordRegs m) := by
  refine ((((Dev.keeps_refl s _).setBit _ _ ?_).setFld _ _ _ ?_).wr _ _ ?_).wr _ _ ?_ <;> simp [recordRegs, Nat.add_comm]

/-- On a hub a record touches registers and the collector alone. -/
theorem Dev.record_hub {s : Dev} (hub : s.isRemote = false) (m : Msg) : ∃ f, s.record m = (s.recorded m).modCol f := by
  obtain ⟨f, all⟩ := s.record_eq m
  have hub : ((s.recorded m).modCol f).isRemote = false := by rw [Dev.isRemote, Dev.modCol_plates, (s.recorded_keeps m).2.2.2]; exact hub
  exact ⟨f, by rw [all, Dev.when, if_neg (by simp [hub])]⟩

theorem Dev.sticky_wr_other {s : Dev} {a : Nat} {v : Word} {x : Nat} {inj : Bool} (h : a ≠ bankWord inj x) : (s.wr a v).sticky inj x = s.sticky inj x := by
  rw [Dev.sticky, Dev.rd_wr_other _ _ _ _ h, Dev.sticky]

/-- FAULT_LAST and a source's word lie beside the banks. -/
theorem Dev.recorded_sticky (s : Dev) (m : Msg) {inj : Bool} {x : Nat} (hx : x < 1024) :
    (s.recorded m).sticky inj x = (s.setSticky m.injected m.source.toNat).sticky inj x := by
  obtain ⟨low, high⟩ := bankWord_range inj hx
  simp only [FAULT_REAL, FAULT_CAUSE] at low high
  rw [Dev.recorded, Dev.sticky_wr_other (by simp only [FAULT_LAST_HI]; omega), Dev.sticky_wr_other (by simp only [FAULT_LAST_LO]; omega),
    Dev.sticky_setFld_other (by simp only [srcBase]; omega)]

/-- The words of the two banks are apart. -/
theorem bankWord_other {inj : Bool} {x y : Nat} (hx : x < 1024) (hy : y < 1024) : bankWord inj x ≠ bankWord (!inj) y := by
  cases inj <;> simp only [bankWord, Bool.not_false, Bool.not_true, if_true, if_false, FAULT_INJ, FAULT_REAL, Bool.false_eq_true] <;> omega

theorem Dev.sticky_setSticky_other (s : Dev) {inj : Bool} {x y : Nat} (hx : x < 1024) (hy : y < 1024) :
    (s.setSticky inj x).sticky (!inj) y = s.sticky (!inj) y := by
  unfold Dev.setSticky Dev.setBit
  exact Dev.sticky_setFld_other (by simpa using bankWord_other hx hy)

theorem Dev.recorded_seen (s : Dev) (m : Msg) : (s.recorded m).fld (srcBase m.source.toNat) FAULT_SRC_SEEN =
    max (s.effClass m) (s.fld (srcBase m.source.toNat) FAULT_SRC_SEEN) := by
  have lt : max (s.effClass m) (s.fld (srcBase m.source.toNat) FAULT_SRC_SEEN) < 4 := max_lt (s.effClass_lt m) (getBits_lt _ _ 2)
  have word (a : Nat) (v : Word) (t : Dev) (h : a < 0x41000) : (t.wr a v).fld (srcBase m.source.toNat) FAULT_SRC_SEEN =
      t.fld (srcBase m.source.toNat) FAULT_SRC_SEEN := by
    rw [Dev.fld, Dev.rd_wr_other _ _ _ _ (by simp only [srcBase]; omega), Dev.fld]
  rw [Dev.recorded, word _ _ _ (by decide), word _ _ _ (by decide), Dev.fld_setFld_same _ _ _ _ (by decide)]
  exact Nat.mod_eq_of_lt lt

theorem Dev.recorded_last (s : Dev) (m : Msg) : (s.recorded m).rd FAULT_LAST_LO = msgLo m ∧ (s.recorded m).rd FAULT_LAST_HI = msgHi m :=
  ⟨by rw [Dev.recorded, Dev.rd_wr_other _ _ _ _ (by decide), Dev.rd_wr_same], Dev.rd_wr_same _ _ _⟩

/-- A record sets the bit of its bank, on a hub as on a remote. -/
theorem Dev.record_sticky (s : Dev) (m : Msg) : (s.record m).sticky m.injected m.source.toNat = true := by
  have lt : m.source.toNat < 1024 := m.source.isLt
  obtain ⟨f, all⟩ := s.record_eq m
  have set : ((s.recorded m).modCol f).sticky m.injected m.source.toNat = true := by
    rw [Dev.modCol_sticky, s.recorded_sticky m lt]
    exact s.sticky_setBit_same _ _ _
  rw [all, Dev.when]
  split
  · have range := bankWord_range m.injected lt
    simp only [FAULT_REAL, FAULT_CAUSE] at range
    unfold Dev.sticky at set ⊢
    rw [Dev.sendHub, Dev.send, (Dev.sendFrom_same _ _ _ _ _ _).rd _ (by omega), set]
  · exact set

section Enqueue

variable {s : Dev} {m : Msg}

theorem Dev.enqueue_merged (full : 64 ≤ s.col.queue.length) (slot : s.col.slots.find? (fun q => q.source == m.source) = none)
    (set : s.sticky m.injected m.source.toNat = true) (low : s.effClass m ≤ s.fld (srcBase m.source.toNat) FAULT_SRC_SEEN) :
    s.enqueue m = s.bumpSat FAULT_MERGED := by
  rw [Dev.enqueue, if_neg (by omega), slot]
  exact if_pos (by simp [set, low])

/-- A device with message `m` in the overflow slot of its source, and otherwise the collector's `f` (R347). -/
def Dev.slotted (s : Dev) (m : Msg) (f : Collector → Collector) : Dev :=
  (((s.setSticky m.injected m.source.toNat).setFld (srcBase m.source.toNat) FAULT_SRC_SEEN
    (max (s.effClass m) ((s.fld (srcBase m.source.toNat) FAULT_SRC_SEEN)))).setFlag (srcBase m.source.toNat) FAULT_SRC_PENDING true).modCol f

theorem Dev.enqueue_slotted (full : 64 ≤ s.col.queue.length) (slot : s.col.slots.find? (fun q => q.source == m.source) = none)
    (clear : s.sticky m.injected m.source.toNat = false) :
    ∃ f, s.enqueue m = s.slotted m f ∧ m ∈ (f s.col).slots ∧ (f s.col).queue = s.col.queue := by
  rw [Dev.enqueue, if_neg (by omega), slot]
  exact ⟨_, if_neg (by simp [clear]), List.mem_append_right _ (List.mem_singleton_self m), rfl⟩

theorem Dev.slotted_col (s : Dev) (m : Msg) (f : Collector → Collector) : (s.slotted m f).col = f s.col := by
  rw [Dev.slotted, Dev.modCol_col]
  simp [Dev.setSticky]

theorem Dev.slotted_pending (s : Dev) (m : Msg) (f : Collector → Collector) : (s.slotted m f).flag (srcBase m.source.toNat) FAULT_SRC_PENDING = true := by
  rw [Dev.slotted, Dev.modCol_flag]
  exact Dev.flag_setFlag_same _ _ _ _ (by decide) (by decide)

theorem Dev.slotted_sticky (s : Dev) (m : Msg) (f : Collector → Collector) : (s.slotted m f).sticky m.injected m.source.toNat = true := by
  have word : FAULT_SRC + 4 * m.source.toNat ≠ bankWord m.injected m.source.toNat := srcWord_ne_bankWord _ m.source.isLt
  rw [Dev.slotted, Dev.modCol_sticky, Dev.setFlag, Dev.sticky_setFld_other (by rwa [Nat.add_comm]), Dev.sticky_setFld_other (by rwa [Nat.add_comm])]
  exact s.sticky_setBit_same _ _ _

end Enqueue

/-- Settles O49: a record is `Dev.recorded`, and a message that meets a full queue is merged or `Dev.slotted`. -/
theorem collectorRecordsMessages : Obligations.CollectorRecordsMessages := by
  unfold Obligations.CollectorRecordsMessages
  refine ⟨fun d m hub => ?record, fun d m full slot => ⟨Dev.enqueue_merged full slot, fun clear => ?slotted⟩, fun d m room => ?queued⟩
  case record =>
    obtain ⟨f, all⟩ := Dev.record_hub hub m
    refine ⟨d.record_sticky m, ?_⟩
    rw [all, Dev.modCol_fld, Dev.modCol_rd, Dev.modCol_rd]
    refine ⟨d.recorded_seen m, (d.recorded_last m).1, (d.recorded_last m).2, fun x hx => ?_, (d.recorded_keeps m).modCol f⟩
    rw [Dev.modCol_sticky, d.recorded_sticky m hx, d.sticky_setSticky_other m.source.isLt hx]
  case slotted =>
    obtain ⟨f, all, slot, queue⟩ := Dev.enqueue_slotted full slot clear
    rw [all, d.slotted_col m f]
    exact ⟨slot, d.slotted_pending m f, d.slotted_sticky m f, queue⟩
  case queued =>
    rw [Dev.enqueue, if_pos (by omega)]
    rw [Dev.when, if_neg (by simp; omega)]

/-- The block a message's reactions reset, where they ask for it. -/
def Dev.resetIf (s : Dev) (q : Msg) (asked : Bool) : Dev :=
  match s.resetTarget q with
  | some t => if asked then s.requestReset t [q.source.toNat] else s
  | none => s

/-- A message that follows from no other is recorded and reacts. -/
theorem Dev.dispatch_alone {d : Dev} {q : Msg} (alone : d.consequential q = false) :
    d.dispatch q = (((d.record q).react q).laneRestore q).resetIf q
      (d.reactions q &&& 0x10 != 0 && d.reactions q &&& 0x20 == 0 && (!q.injected || d.live)) :=
  if_neg (by rw [alone]; decide)

/-- A real one resets its block whether or not reactions to injected ones are live. -/
theorem Dev.dispatch_real {d : Dev} {q : Msg} (real : q.injected = false) (alone : d.consequential q = false) :
    d.dispatch q = (((d.record q).react q).laneRestore q).resetIf q (d.reactions q &&& 0x10 != 0 && d.reactions q &&& 0x20 == 0) := by
  rw [Dev.dispatch_alone alone, real, Bool.not_false, Bool.true_or, Bool.and_true]

/-- Settles O51: the message at the head of the queue is collected, as `Dev.dispatch` has it for a real one, and the injected one of
its source is dropped. -/
theorem realMessageWinsOverInjected : Obligations.RealMessageWinsOverInjected := by
  unfold Obligations.RealMessageWinsOverInjected
  refine ⟨fun s v q l awake short queue real same => ?_, fun d q real alone => ?_, fun d q real => ?_⟩
  · have queue : (s.upTo (s.now + 1)).col.queue = q :: l := by rw [Dev.upTo_col, queue]
    rw [exec_faultInject, execFaultInject, State.onAwake_of_awake _ _ awake, Dev.faultInject, if_neg (by omega)]
    dsimp only
    rw [queue]
    dsimp only
    rw [if_pos (by simp [same]), Dev.collect, queue]
  · exact Dev.dispatch_real real alone
  · exact real ▸ d.record_sticky q

end Sys2Proof.Machine

namespace Sys2Proof.Machine
open Sys2Proof

/-! ## Reads beside a write -/

/-- Two fields share no bit: they stand in different words, or beside each other in one. -/
abbrev apart (b : Nat) (f : Fld) (b' : Nat) (f' : Fld) : Prop :=
  f.lo + f.w ≤ 32 ∧ (b + f.off ≠ b' + f'.off ∨ f'.lo + f'.w ≤ f.lo ∨ f.lo + f.w ≤ f'.lo)

section Apart

variable {s : Dev} {b b' : Nat} {f f' : Fld}

theorem Dev.fld_setFld_apart (h : apart b f b' f') (v : Nat) : (s.setFld b f v).fld b' f' = s.fld b' f' := by
  by_cases word : b + f.off = b' + f'.off
  · exact Dev.fld_setFld_bits _ _ _ _ _ _ word h.1 (h.2.resolve_left (absurd word))
  · exact Dev.fld_setFld_word _ _ _ _ _ _ word

theorem Dev.flag_setFld_apart (h : apart b f b' f') (v : Nat) : (s.setFld b f v).flag b' f' = s.flag b' f' := by
  unfold Dev.flag
  rw [Dev.fld_setFld_apart h]

theorem Dev.fld_setFlag_apart (h : apart b f b' f') (v : Bool) : (s.setFlag b f v).fld b' f' = s.fld b' f' := Dev.fld_setFld_apart h _

theorem Dev.flag_setFlag_apart (h : apart b f b' f') (v : Bool) : (s.setFlag b f v).flag b' f' = s.flag b' f' := Dev.flag_setFld_apart h _

theorem Dev.flag_addFld_apart (h : apart b f b' f') (k : Nat) : (s.addFld b f k).flag b' f' = s.flag b' f' := Dev.flag_setFld_apart h _

end Apart

/-! ## The PLLs (R293 to R297) -/

/-- The register of PLL b. -/
abbrev pllReg (b : Bool) : Nat := if b then CLK_PLL_B else CLK_PLL_A

/-- The word of the clock sources' causes. -/
abbrev clockCauses : Nat := FAULT_CAUSE + 4 * 20

theorem Dev.pllSearch_keeps (s : Dev) (b : Bool) : s.keeps (s.pllSearch b) [pllReg b, CLK_STATUS] := by
  cases b <;> exact ((((Dev.keeps_refl s _).setFlag _ _ _ (by simp)).setFlag _ _ _ (by simp)).setFlag _ _ _ (by simp)).setFlag _ _ _ (by simp)

/-- A search leaves the PLL without lock and no standby ready; the other PLL and the selection stay. -/
theorem Dev.pllSearch_shows (s : Dev) (b : Bool) : (s.pllSearch b).pllIsLocked b = false ∧ (s.pllSearch b).pllIsLocked (!b) = s.pllIsLocked (!b) ∧
    (s.pllSearch b).flag 0 CLK_STATUS_STANDBY_READY = false ∧
    (s.pllSearch b).flag 0 (if b then CLK_PLL_B_SEARCHING else CLK_PLL_A_SEARCHING) = true ∧ (s.pllSearch b).active = s.active ∧
    (s.pllSearch b).fallback = s.fallback := by
  cases b <;> simp (disch := decide) only [Dev.pllSearch, Dev.pllIsLocked, Dev.active, Dev.fallback, Bool.not_true, Bool.not_false, Bool.false_eq_true, if_false, if_true,
    Dev.flag_setFlag_apart, Dev.flag_setFlag_same, and_self]

theorem Dev.pllSearch_same (s : Dev) (b : Bool) : (s.pllSearch b).now = s.now ∧ (s.pllSearch b).boot = s.boot := by cases b <;> exact ⟨rfl, rfl⟩

theorem Dev.pllSearch_frz (s : Dev) (b : Bool) : (s.pllSearch b).frz = s.frz := by cases b <;> rfl

/-- The cause of a PLL's source changes no clock register. -/
theorem Dev.cause_clockFlag (s : Dev) (b v : Bool) {f : Fld} (h : f.off < FAULT_CAUSE) : (s.cause (0x280 + b.toNat) v).flag 0 f = s.flag 0 f :=
  Dev.cause_flag_word s v (by omega)

theorem clockCause (b : Bool) : FAULT_CAUSE + 4 * ((0x280 + b.toNat) / 32) = clockCauses := by cases b <;> rfl

theorem Dev.keeps.clockCause {s t : Dev} {l : List Nat} (h : s.keeps t l) (b v : Bool) (listed : clockCauses ∈ l) : s.keeps (t.cause (0x280 + b.toNat) v) l :=
  h.cause _ v (by rwa [Machine.clockCause])

/-- The losses of PLL b, counted once the device is released. -/
def Dev.countLoss (s : Dev) (b : Bool) : Dev := if s.released then s.addFld 0 (if b then CLK_PLL_B_LOSSES else CLK_PLL_A_LOSSES) 1 else s

theorem Dev.countLoss_active (s : Dev) (b : Bool) : (s.countLoss b).active = s.active := by
  unfold Dev.countLoss Dev.active
  split
  · exact Dev.flag_addFld_apart (by cases b <;> decide) _
  · rfl

theorem Dev.pllLost_shows (s : Dev) (b : Bool) : (s.pllLost b).pllIsLocked b = false ∧ (s.pllLost b).flag 0 CLK_STATUS_STANDBY_READY = false ∧
    (s.pllLost b).flag 0 (if b then CLK_PLL_B_SEARCHING else CLK_PLL_A_SEARCHING) = true ∧ (s.pllLost b).active = s.active ∧
    (s.pllLost b).now = s.now ∧ s.keeps (s.pllLost b) [pllReg b, CLK_STATUS, clockCauses] := by
  obtain ⟨locked, -, standby, search, active, -⟩ := (s.countLoss b).pllSearch_shows b
  have clock {f : Fld} (h : f.off < FAULT_CAUSE) : (s.pllLost b).flag 0 f = ((s.countLoss b).pllSearch b).flag 0 f := Dev.cause_clockFlag _ b true h
  have counted : s.keeps (s.countLoss b) [pllReg b, CLK_STATUS, clockCauses] := by
    unfold Dev.countLoss
    split
    · cases b <;> exact (Dev.keeps_refl s _).addFld _ _ _ (by simp)
    · exact Dev.keeps_refl s _
  refine ⟨(clock (by cases b <;> decide)).trans locked, (clock (by decide)).trans standby, (clock (by cases b <;> decide)).trans search,
    (clock (by decide)).trans (active.trans (s.countLoss_active b)), ?_, ?_⟩
  · refine (Dev.cause_now _ _ _).trans (((s.countLoss b).pllSearch_same b).1.trans ?_)
    unfold Dev.countLoss
    split <;> rfl
  · exact (counted.trans (((s.countLoss b).pllSearch_keeps b).mono (by simp))).clockCause b true (by simp)

/-- The lock of PLL b is shown by its register, and by CLK_STATUS. -/
theorem Dev.lockShown_pll (s : Dev) (b : Bool) : (s.lockShown b).pllIsLocked b = true ∧ (s.lockShown b).pllIsLocked (!b) = s.pllIsLocked (!b) ∧
    (s.lockShown b).fld 0 (if b then CLK_PLL_B_BAND else CLK_PLL_A_BAND) = 32 ∧
    (s.lockShown b).flag 0 (if b then CLK_PLL_B_SEARCHING else CLK_PLL_A_SEARCHING) = false ∧ (s.lockShown b).active = s.active := by
  cases b <;> simp (disch := decide) only [Dev.lockShown, Dev.pllIsLocked, Dev.active, Bool.not_true, Bool.not_false, Bool.false_eq_true, if_false, if_true,
    Dev.flag_setFlag_apart, Dev.flag_setFlag_same, Dev.flag_setFld_apart, Dev.fld_setFlag_apart, Dev.fld_setFld_same, and_self, true_and] <;> decide

theorem Dev.lockShown_keeps (s : Dev) (b : Bool) : s.keeps (s.lockShown b) [pllReg b, CLK_STATUS] := by
  cases b <;> exact ((((Dev.keeps_refl s _).setFld _ _ _ (by simp)).setFlag _ _ _ (by simp)).setFlag _ _ _ (by simp)).setFlag _ _ _ (by simp)

/-- A change of the standby alone shows the PLLs as they were. -/
theorem Dev.standby_shows (s : Dev) (v : Bool) {f : Fld} (h : apart 0 CLK_STATUS_STANDBY_READY 0 f) :
    (s.setFlag 0 CLK_STATUS_STANDBY_READY v).flag 0 f = s.flag 0 f ∧ (s.setFlag 0 CLK_STATUS_STANDBY_READY v).fld 0 f = s.fld 0 f :=
  ⟨Dev.flag_setFlag_apart h v, Dev.fld_setFlag_apart h v⟩

/-- A PLL that locks: in band 32, no longer in search, and with the other locked a ready standby. -/
theorem Dev.pllLock_shows (s : Dev) (b : Bool) : (s.pllLock b).pllIsLocked b = true ∧
    (s.pllLock b).flag 0 (if b then CLK_STATUS_B_LOCKED else CLK_STATUS_A_LOCKED) = true ∧
    (s.pllLock b).fld 0 (if b then CLK_PLL_B_BAND else CLK_PLL_A_BAND) = 32 ∧
    (s.pllLock b).flag 0 (if b then CLK_PLL_B_SEARCHING else CLK_PLL_A_SEARCHING) = false ∧
    (s.pllIsLocked (!b) = true → (s.pllLock b).flag 0 CLK_STATUS_STANDBY_READY = true) ∧ (s.pllLock b).active = s.active ∧
    (s.pllLock b).now = s.now ∧ s.keeps (s.pllLock b) [pllReg b, CLK_STATUS, clockCauses] := by
  have shown := (s.pllLock_flag b b).trans (if_pos rfl)
  have causes {f : Fld} (h : f.off < FAULT_CAUSE) := s.cause_clockFlag b false h
  obtain ⟨locked, other, band, search, active⟩ := (s.cause (0x280 + b.toNat) false).lockShown_pll b
  have keeps := (((Dev.keeps_refl s _).clockCause b false (by simp)).trans ((Dev.lockShown_keeps _ b).mono (by simp)) :
    s.keeps ((s.cause (0x280 + b.toNat) false).lockShown b) [pllReg b, CLK_STATUS, clockCauses])
  have other : ((s.cause (0x280 + b.toNat) false).lockShown b).pllIsLocked (!b) = s.pllIsLocked (!b) := other.trans (causes (by cases b <;> decide))
  have active : ((s.cause (0x280 + b.toNat) false).lockShown b).active = s.active := active.trans (causes (by decide))
  have now : ((s.cause (0x280 + b.toNat) false).lockShown b).now = s.now := by cases b <;> rfl
  refine ⟨?_, shown, ?_⟩ <;> rw [Dev.pllLock_eq] <;> generalize (s.cause (0x280 + b.toNat) false).lockShown b = t at * <;> split
  case refine_1.isFalse => exact locked
  case refine_1.isTrue => exact (t.standby_shows true (by cases b <;> decide)).1.trans locked
  case refine_2.isFalse none => exact ⟨band, search, fun h => absurd (other.trans h) none, active, now, keeps⟩
  case refine_2.isTrue =>
    exact ⟨(t.standby_shows true (by cases b <;> decide)).2.trans band, (t.standby_shows true (by cases b <;> decide)).1.trans search,
      fun _ => Dev.flag_setFlag_same _ _ _ _ (by decide) rfl, (t.standby_shows true (by decide)).1.trans active, now, keeps.setFlag _ _ _ (by simp)⟩

theorem exec_pllLocked_awake {s : State} (awake : s.awake = true) (step : 4 ≤ s.boot.step) (xin : s.flag 0 CLK_STATUS_XIN_OK = true) (b : Bool) :
    exec (.pllLocked b) s = .next (s.withDev (((s.pllLock b).clkEvent s.toDev).endReset (target 3 b.toNat))) := by
  have runs : ((s.pllLock b).clkEvent s.toDev).awake = true := by
    have same := s.pllLock_sameBut b
    have event : ((s.pllLock b).clkEvent s.toDev).awake = (s.pllLock b).awake := by
      rcases Dev.clkEvent_cases (s.pllLock b) s.toDev with e | e <;> rw [e]
      rfl
    rw [event, Dev.awake, same.pins, same.frz]
    exact awake
  rw [exec_pllLocked, execPllLocked, State.on_eq, if_neg (by simp [Dev.resetN_of_awake awake, xin]; omega)]
  exact congrArg (fun d => Host.Outcome.next (s.withDev d)) (if_pos runs)

/-- The selector moves the domains to the other PLL, with its step met. -/
theorem Dev.pllSwitch_shows (s : Dev) (k : Nat) : (s.pllSwitch k).active = !s.active ∧ (s.pllSwitch k).flag 0 CLK_STATUS_SWITCHED = true ∧
    (s.pllSwitch k).fld 0 CLK_SWITCHES_LAST_STEP_PS = k % 2 ^ 16 ∧ (∀ b, (s.pllSwitch k).pllIsLocked b = s.pllIsLocked b) ∧
    s.keeps (s.pllSwitch k) [CLK_STATUS, CLK_SWITCHES] := by
  refine ⟨?_, ?_, Dev.fld_setFld_same _ _ _ _ (by decide), fun b => ?_,
    ((((Dev.keeps_refl s _).setFlag _ _ _ (by simp)).setFlag _ _ _ (by simp)).addFld _ _ _ (by simp)).setFld _ _ _ (by simp)⟩
  · simp (disch := decide) only [Dev.pllSwitch, Dev.active, Dev.flag_setFld_apart, Dev.flag_addFld_apart, Dev.flag_setFlag_apart, Dev.flag_setFlag_same]
  · simp (disch := decide) only [Dev.pllSwitch, Dev.flag_setFld_apart, Dev.flag_addFld_apart, Dev.flag_setFlag_same]
  · cases b <;> simp (disch := decide) only [Dev.pllSwitch, Dev.pllIsLocked, Bool.false_eq_true, if_false, if_true, Dev.flag_setFld_apart,
      Dev.flag_addFld_apart, Dev.flag_setFlag_apart]

theorem Dev.pllSwitch_col (s : Dev) (k : Nat) : (s.pllSwitch k).col = s.col := by simp only [Dev.pllSwitch, Dev.setFld_col, Dev.addFld_col, Dev.setFlag_col]

theorem Dev.pllSwitch_now (s : Dev) (k : Nat) : (s.pllSwitch k).now = s.now := by simp only [Dev.pllSwitch, Dev.setFld_now, Dev.addFld_now, Dev.setFlag_now]

section ClockSwitch

variable {s : State} (awake : s.awake = true) (x : BitVec 16)

include awake

theorem exec_clockSwitch_awake : exec (.clockSwitch x) s = .next (s.withDev ((s.clockSwitch x.toNat).clkEvent s.toDev)) := by
  rw [exec_clockSwitch, execClockSwitch, State.onAwake_of_awake _ _ awake, Dev.clkDo]

end ClockSwitch

/-- Settles O44: a switch that is asked for is `Dev.pllSwitch` three cycles later, and the standby is ready when its PLL locks. -/
theorem manualSwitchIsTheSameSwitch : Obligations.ManualSwitchIsTheSameSwitch := by
  unfold Obligations.ManualSwitchIsTheSameSwitch
  refine ⟨fun s x awake ready running => ⟨_, exec_clockSwitch_awake awake x, ?switch⟩, fun s awake step xin locked => ?standby,
    fun s x awake barred => ⟨_, exec_clockSwitch_awake awake x, ?refused⟩⟩
  case switch =>
    have switch : s.clockSwitch x.toNat = ((s.upTo (s.now + 3)).pllSwitch (min x.toNat 50)).setFlag 0 CLK_STATUS_STANDBY_READY false :=
      if_neg (by simp [ready, running])
    obtain ⟨active, switched, step, locked, keeps⟩ := (s.upTo (s.now + 3)).pllSwitch_shows (min x.toNat 50)
    have small : min x.toNat 50 % 2 ^ 16 = min x.toNat 50 := Nat.mod_eq_of_lt (by omega)
    have now : (s.upTo (s.now + 3)).now = s.now + 3 := by rw [Dev.upTo_now _ _ awake]; omega
    simp only [State.withDev_toDev, switch, Dev.active, Dev.pllIsLocked, Dev.clkEvent_flag, Dev.clkEvent_fld, Dev.clkEvent_now, Dev.clkEvent_col]
    have shows {f : Fld} (h : apart 0 CLK_STATUS_STANDBY_READY 0 f) := ((s.upTo (s.now + 3)).pllSwitch (min x.toNat 50)).standby_shows false h
    have switches : s.keeps ((s.upTo (s.now + 3)).pllSwitch (min x.toNat 50)) [CLK_STATUS, CLK_SWITCHES] := ((Dev.keeps_refl s.toDev _).upTo _).trans keeps
    exact ⟨(shows (by decide)).1.trans (active.trans (by rw [Dev.active, Dev.upTo_flag])), (shows (by decide)).1.trans switched,
      Dev.flag_setFlag_same _ _ _ _ (by decide) rfl, (shows (by decide)).2.trans (step.trans small), by rw [Dev.setFlag_now, Dev.pllSwitch_now, now],
      fun b => (shows (by cases b <;> decide)).1.trans ((locked b).trans (Dev.upTo_flag _ _ _ _)), (by rw [Dev.setFlag_col, Dev.pllSwitch_col, Dev.upTo_col]),
      (switches.setFlag _ _ _ (by simp)).clkEvent _⟩
  case standby =>
    obtain ⟨shown, -, -, -, ready, active, -⟩ := s.pllLock_shows (!s.active)
    refine ⟨_, exec_pllLocked_awake awake step xin (!s.active), ?_, ?_, ?_⟩
    · exact (Dev.clkEvent_flag _ _ _ _).trans (ready (by rwa [Bool.not_not]))
    · exact (Dev.clkEvent_flag _ _ _ _).trans shown
    · exact (Dev.clkEvent_flag _ _ _ _).trans active
  case refused =>
    have refused : s.clockSwitch x.toNat = s.setFlag 0 CLK_STATUS_REFUSED true := by
      rcases barred with h | h <;> exact if_pos (by simp [h])
    simp only [State.withDev_toDev, refused, Dev.active, Dev.clkEvent_flag, Dev.clkEvent_col]
    exact ⟨Dev.flag_setFlag_same _ _ _ _ (by decide) rfl, Dev.flag_setFlag_apart (by decide) _, Dev.setFlag_col _ _ _ _,
      ((Dev.keeps_refl s.toDev _).setFlag _ _ _ (by simp)).clkEvent _⟩

/-! ## Loss, runaway and the fallback clock (R294 to R297) -/

theorem exec_standbyLockLost_awake {s : State} (reset : s.pins.resetN = true) (locked : s.pllIsLocked (!s.active) = true) :
    exec .standbyLockLost s = .next (s.withDev (((s.pllLost (!s.active)).raiseClk (0x280 + (!s.active).toNat)).clkEvent s.toDev)) := by
  rw [exec_standbyLockLost, execStandbyLockLost, State.on_eq, if_neg (by simp [reset, locked]), Dev.clkDo]

section ActiveLost

variable {s : State} (reset : s.pins.resetN = true) (locked : s.pllIsLocked s.active = true)

include reset locked

theorem exec_activePllLockLost_locked (x : BitVec 16) : exec (.activePllLockLost x) s = .next (s.withDev ((s.activeLost x.toNat).clkEvent s.toDev)) := by
  rw [exec_activePllLockLost, execActivePllLockLost, State.on_eq, if_neg (by simp [reset, locked]), Dev.clkDo]

theorem exec_pllBothLost_locked (running : s.fallback = false) : exec .pllBothLost s = .next (s.withDev (s.bothLost.clkEvent s.toDev)) := by
  rw [exec_pllBothLost, execPllBothLost, State.on_eq, if_neg (by simp [reset, locked, running]), Dev.clkDo]

end ActiveLost

/-- A loss leaves the freeze state as it was. -/
theorem Dev.pllLost_frz (s : Dev) (b : Bool) : (s.pllLost b).frz = s.frz := by
  rw [Dev.pllLost, Dev.cause_frz, Dev.pllSearch_frz]
  split <;> simp

/-- Without a standby that is ready the double loss is that of the active PLL. -/
theorem Dev.bothLost_alone {s : Dev} (thawed : s.frz.frozen = false) (none : s.flag 0 CLK_STATUS_STANDBY_READY = false) :
    s.bothLost = (s.pllLost s.active).graveClock 0x282 := by
  have frz : (s.pllLost s.active).frz.frozen = false := by rw [Dev.pllLost_frz, thawed]
  simp [Dev.bothLost, none, frz]

theorem exec_runaway_awake {s : State} (awake : s.awake = true) (step : 4 ≤ s.boot.step) (running : s.fallback = false) (x : Int) :
    exec (.runaway x) s = .next (s.withDev (if 200000 < x ∨ x < -200000 then (s.putInt CLK_CORE_ERR x).clkDo (fun d => d.graveClock 0x283)
      else s.putInt CLK_CORE_ERR x)) := by
  rw [exec_runaway, execRunaway, State.onAwake_of_awake _ _ awake, if_neg (by simp [running]; omega)]
  simp only [Bool.or_eq_true, decide_eq_true_eq]

theorem Dev.clkEvent_pins (s o : Dev) : (s.clkEvent o).pins = s.pins := by
  rcases Dev.clkEvent_cases s o with e | e <;> rw [e]
  rfl

/-- The pin XIN stands or not. -/
def Dev.withXin (s : Dev) (x : Bool) : Dev := s.modPins fun p => { p with xin := x }

theorem exec_xinReturn_released {s : State} (reset : s.pins.resetN = true) : exec .xinReturn s = .next (s.withDev
    ((((s.withXin true).modClk (fun c => { c with osc := false })).setFlag 0 CLK_STATUS_XIN_OK true).clkEvent (s.withXin true))) := by
  rw [exec_xinReturn, execXinReturn, State.on_eq]
  have released : ¬(!s.pins.resetN) = true := by simp [reset]
  exact congrArg (fun d => Host.Outcome.next (s.withDev d)) (if_neg released)

theorem exec_xinLost_released {s : State} (reset : s.pins.resetN = true) (xin : s.flag 0 CLK_STATUS_XIN_OK = true) :
    exec .xinLost s = .next (s.withDev (((((s.withXin false).modClk (fun c => { c with osc := true })).setFlag 0 CLK_STATUS_XIN_OK false).graveClock
      0x284).clkEvent (s.withXin false))) := by
  rw [exec_xinLost, execXinLost, State.on_eq]
  have stands : ¬(!s.pins.resetN || !s.flag 0 CLK_STATUS_XIN_OK) = true := by simp [reset, xin]
  exact congrArg (fun d => Host.Outcome.next (s.withDev d)) (if_neg stands)

/-- With no inductive slice in its ramp and no CHIP_RESET waiting, the move to the fallback clock makes both PLLs search. -/
theorem Dev.fallbackMove_eq {s : Dev} (chip : s.boot.chip = false) (still : ∀ n k, (s.sl n).phase ≠ .ramp k) (c : Nat) : s.fallbackMove c =
    ((((((s.upTo (c + 8)).setFlag 0 CLK_STATUS_FALLBACK true).pllSearch false).pllSearch true).cause 0x280 true).cause 0x281 true) := by
  have waits {d : Dev} (h : d.boot.chip = false) : d.chipTry = d := by simp [Dev.chipTry, h]
  have boot : ((s.upTo (c + 8)).setFlag 0 CLK_STATUS_FALLBACK true).boot = s.boot := by simp
  unfold Dev.fallbackMove
  dsimp only
  rw [Dev.each_of_id fun n _ => ?idle, waits ?chip]
  case chip => rw [Dev.cause_boot, Dev.cause_boot, (Dev.pllSearch_same _ _).2, (Dev.pllSearch_same _ _).2, boot, chip]
  case idle =>
    split
    · exact absurd ‹_› (by simpa using still n _)
    · rfl

theorem Dev.fallbackMove_shows {s : Dev} (awake : s.awake = true) (chip : s.boot.chip = false) (still : ∀ n k, (s.sl n).phase ≠ .ramp k) (c : Nat) :
    (s.fallbackMove c).fallback = true ∧ (s.fallbackMove c).now = max s.now (c + 8) ∧ (s.fallbackMove c).pllIsLocked false = false ∧
    (s.fallbackMove c).pllIsLocked true = false ∧ s.keeps (s.fallbackMove c) [CLK_STATUS, CLK_PLL_A, CLK_PLL_B, clockCauses] := by
  rw [Dev.fallbackMove_eq chip still]
  have now : ((s.upTo (c + 8)).setFlag 0 CLK_STATUS_FALLBACK true).now = max s.now (c + 8) := by rw [Dev.setFlag_now, Dev.upTo_now _ _ awake]
  have falls : ((s.upTo (c + 8)).setFlag 0 CLK_STATUS_FALLBACK true).fallback = true := Dev.flag_setFlag_same _ _ _ _ (by decide) rfl
  have keeps := ((Dev.keeps_refl s [CLK_STATUS, CLK_PLL_A, CLK_PLL_B, clockCauses]).upTo (c + 8)).setFlag 0 CLK_STATUS_FALLBACK true (by simp)
  generalize (s.upTo (c + 8)).setFlag 0 CLK_STATUS_FALLBACK true = t at *
  obtain ⟨lockA, -, -, -, -, fallA⟩ := t.pllSearch_shows false
  obtain ⟨lockB, other, -, -, -, fallB⟩ := (t.pllSearch false).pllSearch_shows true
  have searched := (keeps.trans ((t.pllSearch_keeps false).mono (by simp))).trans (((t.pllSearch false).pllSearch_keeps true).mono (by simp))
  have time : ((t.pllSearch false).pllSearch true).now = t.now := ((Dev.pllSearch_same _ _).1).trans (Dev.pllSearch_same _ _).1
  have lockA := other.trans lockA
  have falls := fallB.trans (fallA.trans falls)
  generalize (t.pllSearch false).pllSearch true = u at *
  have shows {f : Fld} (h : f.off < FAULT_CAUSE) : ((u.cause 0x280 true).cause 0x281 true).flag 0 f = u.flag 0 f :=
    ((u.cause 0x280 true).cause_clockFlag true true h).trans (u.cause_clockFlag false true h)
  exact ⟨(shows (by decide)).trans falls, by rw [Dev.cause_now, Dev.cause_now, time, now], (shows (by decide)).trans lockA, (shows (by decide)).trans lockB,
    (searched.clockCause false true (by simp)).clockCause true true (by simp)⟩

/-- Settles O43: each event is its definition with the premises put in; a lock is `Dev.pllLock_shows`, a loss `Dev.pllLost_shows` and the
move to the fallback clock `Dev.fallbackMove_shows`. -/
theorem pllsLockAndSwitch : Obligations.PllsLockAndSwitch := by
  unfold Obligations.PllsLockAndSwitch
  refine ⟨fun s b awake step xin => ⟨_, exec_pllLocked_awake awake step xin b, ?lock⟩, fun s reset locked => exec_standbyLockLost_awake reset locked,
    fun s x reset locked => ⟨fun running ready => ?takeOver, fun fallback => ?fallback, fun thawed running none => ?double⟩, fun d b => d.pllLost_shows b,
    fun s x awake step running => ⟨fun low high => ⟨_, (exec_runaway_awake awake step running x).trans (by rw [if_neg (by omega)]), ?inRange⟩, fun beyond => ?beyond⟩,
    fun s reset xin => ⟨s.withXin false, exec_xinLost_released reset xin, rfl, rfl, fun _ _ => rfl, rfl, rfl, rfl⟩,
    fun s reset => ⟨_, exec_xinReturn_released reset, ?returned⟩, fun s x thawed => ?grave, fun d c awake chip still => Dev.fallbackMove_shows awake chip still c⟩
  case lock =>
    obtain ⟨locked, shown, band, search, standby, active, now, keeps⟩ := s.pllLock_shows b
    have flags (f : Fld) : (((s.pllLock b).clkEvent s.toDev).endReset (target 3 b.toNat)).flag 0 f = (s.pllLock b).flag 0 f := Dev.clkEvent_flag _ _ _ _
    exact ⟨(flags _).trans locked, (flags _).trans shown, (Dev.clkEvent_fld _ _ _ _).trans band, (flags _).trans search,
      fun other => (flags _).trans (standby other), (flags _).trans active, (Dev.clkEvent_now _ _).trans now, (keeps.clkEvent _).modCol _⟩
  case takeOver => exact (exec_activePllLockLost_locked reset locked x).trans (by rw [Dev.activeLost, if_neg (by simp [running]), if_pos ready])
  case fallback => exact (exec_activePllLockLost_locked reset locked x).trans (by rw [Dev.activeLost, if_pos fallback])
  case double =>
    exact ⟨(exec_activePllLockLost_locked reset locked x).trans
        (by rw [Dev.activeLost, if_neg (by simp [running]), if_neg (by simp [none]), Dev.bothLost_alone thawed none]),
      (exec_pllBothLost_locked reset locked running).trans (by rw [Dev.bothLost_alone thawed none])⟩
  case inRange => exact ⟨Dev.rd_wr_same _ _ _, (Dev.keeps_refl s.toDev _).wr _ _ (by simp)⟩
  case beyond => exact (exec_runaway_awake awake step running x).trans (by rw [if_pos beyond, Dev.clkDo])
  case returned =>
    have keeps : s.keeps ((s.withXin true).modClk (fun c => { c with osc := false })) [CLK_STATUS] := ⟨fun _ _ => rfl, rfl, rfl, rfl⟩
    rw [State.withDev_toDev, Dev.clkEvent_flag, Dev.clkEvent_clk, Dev.setFlag_clk, Dev.clkEvent_pins, Dev.setFlag_pins]
    exact ⟨Dev.flag_setFlag_same _ _ _ _ (by decide) rfl, rfl, rfl, (keeps.setFlag _ _ _ (by simp)).clkEvent _⟩
  case grave => exact if_neg (by simp [thawed])

end Sys2Proof.Machine

namespace Sys2Proof.Machine
open Sys2Proof

/-! ## The cleaner (R289 to R292) -/

/-- A value that fits its register is read back as it was put. -/
theorem Dev.putInt_toInt (s : Dev) (a : Nat) {i : Int} (low : -1759218604 ≤ i) (high : i ≤ 1759218604) : ((s.putInt a i).rd a).toInt = i := by
  have fits : satS 32 i = i := by unfold satS clampI; omega
  have bits : BitVec.ofNat 32 (unsigned 32 i) = BitVec.ofInt 32 i := BitVec.eq_of_toNat_eq (by
    rw [BitVec.toNat_ofNat, BitVec.toNat_ofInt, unsigned]
    omega)
  rw [Dev.putInt, Dev.rd_wr_same, fits, bits, BitVec.toInt_ofInt]
  exact Int.bmod_eq_of_le (by omega) (by omega)

/-- The CORR an update comes to: a step of the rate of R290, within the ±100 ppm of R289. -/
def Dev.corrNext (s : Dev) (phase freq : Int) : Int := clampI (-1759218604) 1759218604 ((s.rd CLK_CORR).toInt +
  clampI (-s.corrStep) s.corrStep (Config.approx s.freeCtr [phase, freq]))

theorem Dev.corrNext_range (s : Dev) (phase freq : Int) : -1759218604 ≤ s.corrNext phase freq ∧ s.corrNext phase freq ≤ 1759218604 := by
  unfold Dev.corrNext clampI
  omega

theorem Dev.corrNext_near {s : Dev} (low : -1759218604 ≤ (s.rd CLK_CORR).toInt) (high : (s.rd CLK_CORR).toInt ≤ 1759218604) (phase freq : Int) :
    s.corrNext phase freq ≤ (s.rd CLK_CORR).toInt + s.corrStep ∧ (s.rd CLK_CORR).toInt - s.corrStep ≤ s.corrNext phase freq := by
  have step : 0 ≤ s.corrStep := by unfold Dev.corrStep; split <;> decide
  unfold Dev.corrNext clampI
  omega

/-- The trim a phase error leaves: a new one within ±2 ns, and otherwise the one that runs. -/
def Dev.trimFor (s : Dev) (phase : Int) : Dev := if smallPhase phase then s.newTrim (-phase) else s.runTrim

theorem Dev.trimFor_modClk (s : Dev) (phase : Int) : ∃ f, s.trimFor phase = s.modClk f := by
  unfold Dev.trimFor Dev.newTrim Dev.runTrim
  split
  · exact ⟨_, rfl⟩
  · exact ⟨_, rfl⟩

theorem Dev.trimFor_small (s : Dev) {phase : Int} (small : smallPhase phase = true) : (s.trimFor phase).clk.trim = -phase ∧ (s.trimFor phase).clk.trimAt = s.now := by
  rw [Dev.trimFor, if_pos small]
  exact ⟨rfl, rfl⟩

/-- Updates within ±2 ns in a row. -/
def Dev.goodRun (s : Dev) (phase : Int) : Nat := if smallPhase phase then s.clk.okRun + 1 else 0

theorem Dev.cleanerUpdate_unlocked {s : Dev} (unlocked : s.flag 0 CLK_STATUS_REF_LOCKED = false) (phase freq : Int) : s.cleanerUpdate phase freq =
    ((((((s.draw.putInt CLK_CORR (s.corrNext phase freq)).putInt CLK_REF_OFFSET freq).trimFor phase).modClk
      (fun c => { c with last := some phase })).putInt CLK_PHASE_ERR phase).modClk (fun c => { c with okRun := min (s.goodRun phase) 1000 })).setFlag 0
      CLK_STATUS_REF_LOCKED (decide ((if s.fld 0 CLK_STATUS_CLEANER_SRC == 1 then 1000 else 10) ≤ s.goodRun phase)) := by
  unfold Dev.cleanerUpdate
  simp only [unlocked, Bool.false_and, Bool.false_or, Bool.false_eq_true, if_false]
  rfl

theorem Dev.cleanerUpdate_shows {s : Dev} (unlocked : s.flag 0 CLK_STATUS_REF_LOCKED = false) (phase freq : Int) :
    ((s.cleanerUpdate phase freq).rd CLK_CORR).toInt = s.corrNext phase freq ∧
    (s.cleanerUpdate phase freq).rd CLK_PHASE_ERR = BitVec.ofNat 32 (unsigned 32 (satS 32 phase)) ∧
    (s.cleanerUpdate phase freq).rd CLK_REF_OFFSET = BitVec.ofNat 32 (unsigned 32 (satS 32 freq)) ∧
    (smallPhase phase = false → (s.cleanerUpdate phase freq).flag 0 CLK_STATUS_REF_LOCKED = false ∧ (s.cleanerUpdate phase freq).clk.okRun = 0) ∧
    (smallPhase phase = true → (s.cleanerUpdate phase freq).clk.trim = -phase ∧ (s.cleanerUpdate phase freq).clk.trimAt = s.now) ∧
    (s.cleanerUpdate phase freq).time = s.time ∧ s.keeps (s.cleanerUpdate phase freq) [CLK_CORR, CLK_REF_OFFSET, CLK_PHASE_ERR, CLK_STATUS] := by
  rw [Dev.cleanerUpdate_unlocked unlocked]
  obtain ⟨low, high⟩ := s.corrNext_range phase freq
  have corr := s.draw.putInt_toInt CLK_CORR low high
  have small := ((s.draw.putInt CLK_CORR (s.corrNext phase freq)).putInt CLK_REF_OFFSET freq).trimFor_small (phase := phase)
  obtain ⟨f, trim⟩ := ((s.draw.putInt CLK_CORR (s.corrNext phase freq)).putInt CLK_REF_OFFSET freq).trimFor_modClk phase
  rw [trim] at small ⊢
  have needs : 0 < (if s.fld 0 CLK_STATUS_CLEANER_SRC == 1 then 1000 else 10) := by split <;> decide
  generalize (if s.fld 0 CLK_STATUS_CLEANER_SRC == 1 then 1000 else 10) = need at *
  refine ⟨?corr, ?error, ?frequency, fun large => ?large, fun h => ?small, ?time, ?keeps⟩
  case corr =>
    rw [Dev.setFlag, Dev.rd_setFld_other _ _ _ _ _ (by decide), Dev.modClk_rd, Dev.putInt, Dev.rd_wr_other _ _ _ _ (by decide), Dev.modClk_rd,
      Dev.modClk_rd, Dev.putInt, Dev.rd_wr_other _ _ _ _ (by decide), corr]
  case error => rw [Dev.setFlag, Dev.rd_setFld_other _ _ _ _ _ (by decide), Dev.modClk_rd, Dev.putInt, Dev.rd_wr_same]
  case frequency =>
    rw [Dev.setFlag, Dev.rd_setFld_other _ _ _ _ _ (by decide), Dev.modClk_rd, Dev.putInt, Dev.rd_wr_other _ _ _ _ (by decide), Dev.modClk_rd,
      Dev.modClk_rd, Dev.putInt, Dev.rd_wr_same]
  case large =>
    have zero : s.goodRun phase = 0 := by simp [Dev.goodRun, large]
    rw [zero, decide_eq_false (by omega)]
    exact ⟨Dev.flag_setFlag_same _ _ _ _ (by decide) rfl, rfl⟩
  case small => exact small h
  case time => exact Dev.setFlag_time _ _ _ _
  case keeps => exact ((((((Dev.keeps_refl s _).draw.wr _ _ (by simp)).wr _ _ (by simp)).modClk _).modClk _).wr _ _ (by simp)).modClk _ |>.setFlag _ _ _ (by simp)

theorem exec_cleanerUpdate_runs {s : State} (awake : s.awake = true) (step : 8 ≤ s.boot.step) (source : s.fld 0 CLK_STATUS_CLEANER_SRC ≠ 0)
    (runs : s.flag 0 CLK_STATUS_COASTING = false) (phase freq : Int) :
    exec (.cleanerUpdate phase freq) s = .next (s.withDev ((s.cleanerUpdate phase freq).clkEvent s.toDev)) := by
  rw [exec_cleanerUpdate, execCleanerUpdate, State.onAwake_of_awake _ _ awake, if_neg (by simp [source, runs]; omega), Dev.clkDo]

/-! ## A reference lost and a forced coast (R291) -/

theorem Dev.coast_shows (s : Dev) : s.coast.flag 0 CLK_STATUS_COASTING = true ∧ s.coast.flag 0 CLK_STATUS_REF_LOCKED = false ∧ s.coast.clk.trim = 0 ∧
    s.keeps s.coast [CLK_STATUS] :=
  ⟨(Dev.flag_setFlag_apart (by decide) _).trans (Dev.flag_setFlag_same _ _ _ _ (by decide) rfl), Dev.flag_setFlag_same _ _ _ _ (by decide) rfl, rfl,
    ((((Dev.keeps_refl s _).modClk _).modClk _).setFlag _ _ _ (by simp)).setFlag _ _ _ (by simp)⟩

/-- To coast changes no flag but the two it shows. -/
theorem Dev.coast_flag (s : Dev) {f : Fld} (locked : apart 0 CLK_STATUS_REF_LOCKED 0 f) (coasting : apart 0 CLK_STATUS_COASTING 0 f) :
    s.coast.flag 0 f = s.flag 0 f := by
  rw [Dev.coast, Dev.flag_setFlag_apart locked, Dev.flag_setFlag_apart coasting, Dev.modClk_flag, Dev.newTrim, Dev.modClk_flag]

/-- REFIN is lost: the device coasts, without a source, from now on. -/
def Dev.refDrop (s : Dev) : Dev :=
  ((s.coast.modClk (fun c => { c with refLost := true, lostAt := s.now })).setFlag 0 CLK_STATUS_REF_QUALIFIED false).setFld 0 CLK_STATUS_CLEANER_SRC 0

theorem Dev.refDrop_shows (s : Dev) : s.refDrop.flag 0 CLK_STATUS_COASTING = true ∧ s.refDrop.flag 0 CLK_STATUS_REF_QUALIFIED = false ∧
    s.refDrop.flag 0 CLK_STATUS_REF_LOCKED = false ∧ s.refDrop.clk.trim = 0 ∧ s.refDrop.clk.refLost = true ∧ s.refDrop.clk.lostAt = s.now ∧
    s.refDrop.fld 0 CLK_STATUS_CLEANER_SRC = 0 ∧ s.keeps s.refDrop [CLK_STATUS] := by
  obtain ⟨coasting, locked, trim, keeps⟩ := s.coast_shows
  have later {f : Fld} (src : apart 0 CLK_STATUS_CLEANER_SRC 0 f) (qualified : apart 0 CLK_STATUS_REF_QUALIFIED 0 f) :
      s.refDrop.flag 0 f = s.coast.flag 0 f := by
    rw [Dev.refDrop, Dev.flag_setFld_apart src, Dev.flag_setFlag_apart qualified, Dev.modClk_flag]
  have clk : s.refDrop.clk = { s.coast.clk with refLost := true, lostAt := s.now } := by
    rw [Dev.refDrop, Dev.setFld_clk, Dev.setFlag_clk, Dev.modClk_clk]
  rw [clk]
  exact ⟨(later (by decide) (by decide)).trans coasting,
    (Dev.flag_setFld_apart (by decide) _).trans (Dev.flag_setFlag_same _ _ _ _ (by decide) rfl), (later (by decide) (by decide)).trans locked, trim, rfl, rfl,
    Dev.fld_setFld_same _ _ _ _ (by decide), ((keeps.modClk _).setFlag _ _ _ (by simp)).setFld _ _ _ (by simp)⟩

theorem exec_refinLost_runs {s : State} (awake : s.awake = true) (step : 8 ≤ s.boot.step) (refin : s.fld 0 CLK_CFG_REFIN_FREQ ≠ 0)
    (present : s.clk.refLost = false) (range : Bool) : exec (.refinLost range) s = .next (s.withDev
      (((if range then s.refDrop else s.refDrop.setFlag 0 CLK_STATUS_REF_PRESENT false).raiseClk (if range then 0x286 else 0x285)).clkEvent s.toDev)) := by
  rw [exec_refinLost, execRefinLost, State.onAwake_of_awake _ _ awake, if_neg (by simp [refin, present]; omega), Dev.clkDo]
  rfl

theorem exec_forceCoast_awake {s : State} (awake : s.awake = true) (on : Bool) :
    exec (.forceCoast on) s = .next (s.withDev ((s.forceCoast on).clkEvent s.toDev)) := by
  rw [exec_forceCoast, execForceCoast, State.onAwake_of_awake _ _ awake, Dev.clkDo]

/-! ## A reference that qualifies (R292) -/

/-- REFIN qualifies: it is the cleaner's source again, and has been seen. -/
def Dev.refTake (s : Dev) : Dev :=
  ((((s.modClk (fun c => { c with refLost := false, refSeen := true })).setFlag 0 CLK_STATUS_REF_PRESENT true).setFlag 0 CLK_STATUS_REF_QUALIFIED
    true).setFld 0 CLK_STATUS_CLEANER_SRC 1).setFlag 0 CLK_STATUS_COASTING false

theorem Dev.refTake_shows (s : Dev) : s.refTake.flag 0 CLK_STATUS_COASTING = false ∧ s.refTake.flag 0 CLK_STATUS_REF_QUALIFIED = true ∧
    s.refTake.flag 0 CLK_STATUS_REF_PRESENT = true ∧ s.refTake.fld 0 CLK_STATUS_CLEANER_SRC = 1 ∧ s.refTake.now = s.now ∧ s.refTake.time = s.time ∧
    s.keeps s.refTake [CLK_STATUS] := by
  refine ⟨Dev.flag_setFlag_same _ _ _ _ (by decide) rfl, ?_, ?_, ?_, by simp [Dev.refTake], by simp [Dev.refTake],
    (((((Dev.keeps_refl s _).modClk _).setFlag _ _ _ (by simp)).setFlag _ _ _ (by simp)).setFld _ _ _ (by simp)).setFlag _ _ _ (by simp)⟩
  · rw [Dev.refTake, Dev.flag_setFlag_apart (by decide), Dev.flag_setFld_apart (by decide), Dev.flag_setFlag_same _ _ _ _ (by decide) rfl]
  · rw [Dev.refTake, Dev.flag_setFlag_apart (by decide), Dev.flag_setFld_apart (by decide), Dev.flag_setFlag_apart (by decide),
      Dev.flag_setFlag_same _ _ _ _ (by decide) rfl]
  · rw [Dev.refTake, Dev.fld_setFlag_apart (by decide), Dev.fld_setFld_same _ _ _ _ (by decide)]
    rfl

theorem Dev.refTake_clk (s : Dev) : s.refTake.clk = { s.clk with refLost := false, refSeen := true } := by
  rw [Dev.refTake, Dev.setFlag_clk, Dev.setFld_clk, Dev.setFlag_clk, Dev.setFlag_clk, Dev.modClk_clk]

theorem exec_refinRequalified_runs {s : State} (awake : s.awake = true) (step : 8 ≤ s.boot.step) (refin : s.fld 0 CLK_CFG_REFIN_FREQ ≠ 0)
    (lost : s.flag 0 CLK_STATUS_REF_QUALIFIED = false) (free : s.flag 0 CLK_CTRL_FORCE_COAST = false) {u : Dev}
    (moment : u = s.upTo (s.clk.lostAt + 1000000 * s.fld 0 CLK_QUAL_QUAL_MS)) (j : Int) : exec (.refinRequalified j) s =
      .next (s.withDev ((if s.clk.refSeen then u.refTake.jump (s.reduceJump j) else u.refTake).clkEvent u)) := by
  have free : u.flag 0 CLK_CTRL_FORCE_COAST = false := by rw [moment, Dev.upTo_flag, free]
  have seen : u.clk.refSeen = s.clk.refSeen := by rw [moment, Dev.upTo_clk]
  have jump : u.reduceJump j = s.reduceJump j := by rw [moment, Dev.reduceJump, Dev.upTo_fld, Dev.reduceJump]
  rw [exec_refinRequalified, execRefinRequalified, State.onAwake_of_awake _ _ awake, if_neg (by simp [refin, lost]; omega), Dev.clkDo, ← moment, ← seen, ← jump]
  dsimp only
  rw [if_neg (by simp [free])]
  rfl

theorem Dev.jump_small (s : Dev) {j : Int} (small : smallPhase j = true) : s.jump j = (s.newTrim (-j)).modClk (fun c => { c with last := some 0 }) :=
  if_pos small

/-- The phase is rebuilt. -/
def Dev.rebuilt (s : Dev) : Dev := ((s.newTrim 0).modClk (fun c => { c with last := some 0 })).setFlag 0 CLK_STATUS_REBUILT true

theorem Dev.jump_large (s : Dev) {j : Int} (large : smallPhase j = false) : s.jump j = s.rebuilt.raiseClk 0x287 := if_neg (by simp [large])

theorem Dev.rebuilt_shows (s : Dev) : s.rebuilt.flag 0 CLK_STATUS_REBUILT = true ∧ s.rebuilt.flag 0 CLK_STATUS_COASTING = s.flag 0 CLK_STATUS_COASTING ∧
    s.rebuilt.clk.trim = 0 ∧ s.rebuilt.now = s.now ∧ s.rebuilt.time = s.time ∧ s.keeps s.rebuilt [CLK_STATUS] :=
  ⟨Dev.flag_setFlag_same _ _ _ _ (by decide) rfl, Dev.flag_setFlag_apart (by decide) _, rfl, Dev.setFlag_now _ _ _ _, Dev.setFlag_time _ _ _ _,
    (((Dev.keeps_refl s _).modClk _).modClk _).setFlag _ _ _ (by simp)⟩

/-- Settles O42: an update is `Dev.cleanerUpdate_shows`, a lost reference `Dev.refDrop_shows`, a forced coast `Dev.coast_shows`, and a
reference that qualifies `Dev.refTake_shows` with its jump. -/
theorem cleanerCoastsAndReturns : Obligations.CleanerCoastsAndReturns := by
  unfold Obligations.CleanerCoastsAndReturns
  refine ⟨fun s ph fr awake step source runs unlocked => ⟨_, exec_cleanerUpdate_runs awake step source runs ph fr, ?update⟩,
    fun s range awake step refin present => ⟨_, exec_refinLost_runs awake step refin present range, ?lost⟩,
    fun s awake => ⟨⟨_, exec_forceCoast_awake awake true, ?forced⟩, fun forced qualified => ⟨_, exec_forceCoast_awake awake false, ?released⟩⟩,
    fun s j awake step refin lost free => ⟨fun near => ⟨_, exec_refinRequalified_runs awake step refin lost free rfl j, ?near⟩,
      fun seen large => ⟨_, _, (exec_refinRequalified_runs awake step refin lost free rfl j).trans (by rw [if_pos seen, Dev.jump_large _ large]), rfl, ?far⟩⟩⟩
  case update =>
    obtain ⟨corr, error, frequency, large, small, time, keeps⟩ := s.cleanerUpdate_shows unlocked ph fr
    obtain ⟨low, high⟩ := s.corrNext_range ph fr
    simp only [State.withDev_toDev, Dev.clkEvent_rd, Dev.clkEvent_flag, Dev.clkEvent_clk, Dev.clkEvent_time, corr]
    exact ⟨high, low, fun below above => s.corrNext_near above below ph fr, error, frequency, large, small, time, keeps.clkEvent _⟩
  case lost =>
    obtain ⟨coasting, qualified, locked, trim, lost, since, source, keeps⟩ := s.refDrop_shows
    cases range
    case true => exact ⟨coasting, qualified, locked, trim, lost, since, source, fun h => absurd h (by decide), keeps⟩
    case false =>
      exact ⟨(Dev.flag_setFlag_apart (by decide) _).trans coasting, (Dev.flag_setFlag_apart (by decide) _).trans qualified,
        (Dev.flag_setFlag_apart (by decide) _).trans locked, trim, lost, since, (Dev.fld_setFlag_apart (by decide) _).trans source,
        fun _ => Dev.flag_setFlag_same _ _ _ _ (by decide) rfl, keeps.setFlag _ _ _ (by simp)⟩
  case forced =>
    obtain ⟨coasting, locked, trim, keeps⟩ := (s.setFlag 0 CLK_CTRL_FORCE_COAST true).coast_shows
    simp only [State.withDev_toDev, Dev.clkEvent_flag, Dev.clkEvent_clk, Dev.forceCoast, if_true]
    refine ⟨coasting, ?_, locked, trim, ?_⟩
    · exact (Dev.coast_flag _ (by decide) (by decide)).trans (Dev.flag_setFlag_same _ _ _ _ (by decide) rfl)
    · exact (((Dev.keeps_refl s.toDev _).setFlag _ _ _ (by simp)).trans (keeps.mono (by simp))).clkEvent _
  case released =>
    have ends : s.forceCoast false = (s.setFlag 0 CLK_CTRL_FORCE_COAST false).setFlag 0 CLK_STATUS_COASTING false := by
      simp [Dev.forceCoast, forced, qualified]
    rw [ends, State.withDev_toDev, Dev.clkEvent_flag, Dev.clkEvent_flag]
    exact ⟨Dev.flag_setFlag_same _ _ _ _ (by decide) rfl, (Dev.flag_setFlag_apart (by decide) _).trans (Dev.flag_setFlag_same _ _ _ _ (by decide) rfl),
      (((Dev.keeps_refl s.toDev _).setFlag _ _ _ (by simp)).setFlag _ _ _ (by simp)).clkEvent _⟩
  case near =>
    obtain ⟨coasting, qualified, present, source, now, -, keeps⟩ := (s.upTo (s.clk.lostAt + 1000000 * s.fld 0 CLK_QUAL_QUAL_MS)).refTake_shows
    have keeps := ((Dev.keeps_refl s.toDev _).upTo _).trans keeps
    have now := now.trans (s.upTo_now _ awake)
    have clk := (s.upTo (s.clk.lostAt + 1000000 * s.fld 0 CLK_QUAL_QUAL_MS)).refTake_clk
    rw [Dev.upTo_clk] at clk
    generalize (s.upTo (s.clk.lostAt + 1000000 * s.fld 0 CLK_QUAL_QUAL_MS)).refTake = t at *
    simp only [State.withDev_toDev, Dev.clkEvent_flag, Dev.clkEvent_fld, Dev.clkEvent_clk, Dev.clkEvent_now]
    cases seen : s.clk.refSeen
    case false => simp [coasting, qualified, present, source, clk, now, keeps.clkEvent]
    case true =>
      have small : smallPhase (s.reduceJump j) = true := near.resolve_left (by simp [seen])
      simp [Dev.jump_small t small, Dev.newTrim, coasting, qualified, present, source, clk, now, ((keeps.modClk _).modClk _).clkEvent]
  case far =>
    obtain ⟨coasting, -, -, -, now, time, keeps⟩ := (s.upTo (s.clk.lostAt + 1000000 * s.fld 0 CLK_QUAL_QUAL_MS)).refTake_shows
    obtain ⟨rebuilt, same, trim, now', time', keeps'⟩ := (s.upTo (s.clk.lostAt + 1000000 * s.fld 0 CLK_QUAL_QUAL_MS)).refTake.rebuilt_shows
    exact ⟨s.upTo_now _ awake, now'.trans now, same.trans coasting, rebuilt, trim, time'.trans time,
      (((Dev.keeps_refl s.toDev _).upTo _).trans keeps).trans keeps'⟩

end Sys2Proof.Machine

namespace Sys2Proof.Machine
open Sys2Proof

/-! ## The leg commands (R257 to R259) -/

section Taken

variable (s : Dev) (r : RingId)

@[simp] theorem Dev.taken_bytes (a n : Nat) : (s.taken r).bytes a n = s.bytes a n := by simp only [Dev.bytes, Dev.taken_byte]

@[simp] theorem Dev.taken_num (a n : Nat) : (s.taken r).num a n = s.num a n := by simp only [Dev.num, Dev.taken_bytes]

@[simp] theorem Dev.taken_uncorrectable (a n : Nat) : (s.taken r).uncorrectable a n = s.uncorrectable a n := by
  simp only [Dev.uncorrectable, Dev.taken_memst]

@[simp] theorem Dev.taken_leg (g : GroupId) (k : Nat) : (s.taken r).leg g k = s.leg g k := by simp only [Dev.leg, Dev.taken_num, Dev.taken_rd]

@[simp] theorem Dev.taken_legRsvOk (g : GroupId) (k : Nat) : (s.taken r).legRsvOk g k = s.legRsvOk g k := by
  simp only [Dev.legRsvOk, Dev.taken_num, Dev.taken_rd]

@[simp] theorem Dev.taken_legCrcOk (g : GroupId) (k : Nat) : (s.taken r).legCrcOk g k = s.legCrcOk g k := by
  simp only [Dev.legCrcOk, Dev.word, Dev.taken_num, Dev.taken_bytes, Dev.taken_rd, Dev.taken_uncorrectable]

@[simp] theorem Dev.taken_legStatus (g : GroupId) (k n : Nat) : (s.taken r).legStatus g k n = s.legStatus g k n := by
  simp only [Dev.legStatus, Dev.taken_leg, Dev.taken_legRsvOk, Dev.taken_legCrcOk]

@[simp] theorem Dev.taken_travState (g : GroupId) : (s.taken r).travState g = s.travState g := Dev.taken_fld _ _ _ _

theorem Dev.taken_enterLeg (g : GroupId) (f k : Nat) : (s.taken r).enterLeg g f k = s.enterLeg g f k := by
  induction f generalizing k with
  | zero => rfl
  | succ f ih => simp only [Dev.enterLeg, Dev.legOk, Dev.size, Dev.taken_leg, Dev.taken_legRsvOk, Dev.taken_legCrcOk, Dev.taken_group, ih]

theorem Dev.taken_mayEnter (g : GroupId) (i : Nat) : (s.taken r).mayEnter g i = s.mayEnter g i := by
  simp only [Dev.mayEnter, Dev.taken_seg, Dev.taken_plates]

theorem Dev.taken_powerFailing : (s.taken r).powerFailing = s.powerFailing := by
  simp only [Dev.powerFailing, Dev.anyParking, Dev.taken_boot, Dev.taken_flag]

end Taken

/-- With no bad word in the stores the read of a leg's descriptors leaves the device as it is. -/
theorem Dev.enterRead_of_good {s : Dev} (good : s.memst.bad = []) (g : GroupId) (k : Nat) : s.enterRead g k = (s, s.enter g k) := by
  rw [Dev.enterRead, Dev.each_of_id fun j _ => Dev.eccRead_of_good good _ _ _]
  rfl

/-! ### LEG_JUMP -/

section LegJump

variable {s : Dev} {c : Ctx} {r : GroupRec} {leg : Nat}

theorem Dev.legStatus_beyond (g : GroupId) (n : Nat) (beyond : 4095 < leg) : s.legStatus g leg n = BAD_PARAM := if_pos beyond

theorem Dev.legJump_bad (bad : s.legStatus (sid r.first) leg r.size = BAD_PARAM) : s.legJump c r leg = s.completeAt c BAD_PARAM 0 s.time := by
  unfold Dev.legJump
  simp only [bad]
  rfl

/-- With no jump under way the jump's window is filled at once where there is nothing to fill, and otherwise the jump waits for it (R255). -/
theorem Dev.legJump_fills (good : s.legStatus (sid r.first) leg r.size = OK) (free : (s.eng (sid r.first)).filling = none) {j : JumpReq}
    (request : j = ⟨some c, leg, s.now, 2⟩) {d : Dev} (waits : d = s.modEng (sid r.first) (fun e => { e with filling := some j, command := none })) :
    s.legJump c r leg = if d.nothingToFill (sid r.first) leg then
      ((d.fillWindow r leg true).modEng (sid r.first) (fun e => { e with filling := none })).arrive (sid r.first) j else d.sweep := by
  subst request waits
  unfold Dev.legJump
  simp only [good, free]
  rfl

end LegJump

/-! ### LEG_START and LEG_STOP -/

section LegStart

variable {s : Dev} {c : Ctx} {r : GroupRec} {p : StartP}

theorem Dev.legStart_busy (runs : s.travState (sid r.first) = 1 ∨ s.travState (sid r.first) = 2 ∨ s.travState (sid r.first) = 3) :
    s.legStart c r p = s.complete c BUSY := by
  have busy : s.travState (sid r.first) ≠ 0 ∧ s.travState (sid r.first) ≠ 4 := by omega
  exact if_pos (by simp [busy])

variable (rests : s.travState (sid r.first) = 0 ∨ s.travState (sid r.first) = 4) (idle : (s.eng (sid r.first)).start = none)
  (good : s.legStatus (sid r.first) p.leg.toNat r.size = OK)

include rests idle good

theorem Dev.legStart_parked (low : s.pins.interlockN = false) : s.legStart c r p = s.complete c PARKED := by
  unfold Dev.legStart
  rcases rests with h | h <;> simp [h, idle, good, low]

variable (bank : s.fld 0 DATUM_STATUS_BANK ≠ 3) (high : s.pins.interlockN = true) (power : s.powerFailing = false)

include bank high power

/-- A start that is taken enters its leg; where the leg leads nowhere it is done, and otherwise it waits 200 cycles for its tick (R258). -/
theorem Dev.legStart_enters {x : Dev × Place} (enters : x = s.enterRead (sid r.first) p.leg.toNat) :
    (x.2 = .idle → s.legStart c r p = (x.1.setFld (tB (sid r.first)) TRAV_STATUS_STATE 0).complete c OK) ∧
    (x.2 ≠ .idle → s.legStart c r p = (x.1.modEng (sid r.first) (fun e =>
      { e with start := some (c, p.leg.toNat, p.at_, s.now + 200), window := ⟨[], some x.2⟩ })).prefetch r) := by
  subst enters
  have taken : s.legStart c r p = match (s.enterRead (sid r.first) p.leg.toNat).2 with
      | .idle => ((s.enterRead (sid r.first) p.leg.toNat).1.setFld (tB (sid r.first)) TRAV_STATUS_STATE 0).complete c OK
      | q => ((s.enterRead (sid r.first) p.leg.toNat).1.modEng (sid r.first) (fun e =>
        { e with start := some (c, p.leg.toNat, p.at_, s.now + 200), window := ⟨[], some q⟩ })).prefetch r := by
    unfold Dev.legStart
    rcases rests with h | h <;> simp only [h, idle, good, high, power] <;> simp [bank] <;> rfl
  rw [taken]
  refine ⟨fun h => by rw [h], fun h => ?_⟩
  split
  · exact absurd ‹_› h
  · rfl

end LegStart

/-- Where the window's next segment may not be entered, the window keeps its place. -/
theorem Dev.prefetch_barred {s : Dev} {r : GroupRec} {q : PathPos} (empty : (s.eng (sid r.first)).window = ⟨[], some (.step q)⟩)
    (barred : s.mayEnter (sid r.first) (q.index r.size) = false) : s.prefetch r = s ∨
    s.prefetch r = s.modEng (sid r.first) (fun e => { e with window := { e.window with last := some (.step q) } }) := by
  unfold Dev.prefetch
  dsimp only
  split
  · exact .inl rfl
  · right
    simp [empty, barred]

section LegStop

variable {s : Dev} {c : Ctx} {r : GroupRec}

theorem Dev.legStop_waits (dwells : s.travState (sid r.first) = 1) :
    s.legStop c r 1 = s.modEng (sid r.first) (fun e => { e with stops := e.stops ++ [c] }) := by
  unfold Dev.legStop
  simp [dwells]

theorem Dev.legStop_elsewhere (other : s.travState (sid r.first) ≠ 1) : s.legStop c r 1 = (s.stopEngine (sid r.first)).complete c OK := by
  unfold Dev.legStop
  simp [other]

end LegStop

section Ready

variable {s : State} {h : Hdr} {r : GroupRec} (ready : s.ready h r)

include ready

theorem exec_legJump_ready (leg : BitVec 16) : exec (.legJump h leg) s = .next (s.withDev ((s.taken h.ring).legJump (ownCtx h 0x07) r leg.toNat)) := by
  rw [exec_legJump, execLegJump, State.onAwake_of_awake _ _ ready.1, Dev.ringCmd_ready ready]

theorem exec_legStart_ready (p : StartP) : exec (.legStart h p) s = .next (s.withDev ((s.taken h.ring).legStart (ownCtx h 0x06) r p)) := by
  rw [exec_legStart, execLegStart, State.onAwake_of_awake _ _ ready.1, Dev.ringCmd_ready ready]

theorem exec_legStopNow_ready : exec (.legStopNow h) s = .next (s.withDev ((s.taken h.ring).legStop (ownCtx h 0x08) r 0)) := by
  rw [exec_legStopNow, execLegStopNow, State.onAwake_of_awake _ _ ready.1, Dev.ringCmd_ready ready]

theorem exec_legStopAtBoundary_ready : exec (.legStopAtBoundary h) s = .next (s.withDev ((s.taken h.ring).legStop (ownCtx h 0x08) r 1)) := by
  rw [exec_legStopAtBoundary, execLegStopAtBoundary, State.onAwake_of_awake _ _ ready.1, Dev.ringCmd_ready ready]

end Ready

/-- Settles O39: each command, taken from its ring, is its case above; the window of a start that may not enter its segment keeps its place. -/
theorem legCommands : Obligations.LegCommands := by
  unfold Obligations.LegCommands
  intro s h r ready
  refine ⟨fun leg beyond => ?beyond, fun leg j d good free request waits => ⟨fun fill => ?fills, fun nothing => ?arrives⟩,
    fun d g j empty => Dev.arrive_spec empty j, fun p runs => ?busy, fun p rests idle good low => ?parked,
    fun p q rests idle good high bank power enters clean barred => ⟨_, exec_legStart_ready ready p, ?starts⟩,
    fun p x rests idle good high bank power enters => ⟨fun nowhere => ?nowhere, fun leads => ?leads⟩, exec_legStopNow_ready ready,
    fun dwells => ⟨_, exec_legStopAtBoundary_ready ready, ?waits⟩, fun other => ?elsewhere⟩
  case beyond =>
    rw [exec_legJump_ready ready, Dev.legJump_bad (Dev.legStatus_beyond _ _ beyond)]
  case fills => rw [exec_legJump_ready ready, Dev.legJump_fills (by simpa using good) (by simpa using free) request waits, if_neg (by simp [fill])]
  case arrives => rw [exec_legJump_ready ready, Dev.legJump_fills (by simpa using good) (by simpa using free) request waits, if_pos nothing]
  case busy => rw [exec_legStart_ready ready, Dev.legStart_busy (by simpa using runs)]
  case parked =>
    rw [exec_legStart_ready ready, Dev.legStart_parked (by simpa using Or.inl rests) (by simpa using idle) (by simpa using good) (by simpa using low)]
  case starts =>
    have reads : (s.taken h.ring).enterRead (sid r.first) p.leg.toNat = (s.taken h.ring, .step q) := by
      rw [Dev.enterRead_of_good (by rw [Dev.taken_memst, clean]), Dev.enter, Dev.taken_enterLeg]
      exact Prod.ext rfl enters
    have begins := (Dev.legStart_enters (s := s.taken h.ring) (c := ownCtx h 0x06) (by simpa using Or.inl rests) (by simpa using idle) (by simpa using good) (by simpa using bank)
      (by simpa using high) (by simpa [Dev.taken_powerFailing] using power) reads.symm).2 (by simp)
    rw [State.withDev_toDev, begins]
    have keeps := (Dev.keeps_refl s.toDev []).taken h.ring
    rcases Dev.prefetch_barred (s := (s.taken h.ring).modEng (sid r.first) (fun e =>
        { e with start := some (ownCtx h 0x06, p.leg.toNat, p.at_, (s.taken h.ring).now + 200), window := ⟨[], some (.step q)⟩ })) (r := r) (q := q)
        (by simp) ((s.taken_mayEnter h.ring _ _).trans barred) with e | e <;> rw [e]
    · exact ⟨by simp, rfl, by simp [Window.place], keeps.modEng _ _⟩
    · exact ⟨by simp, rfl, by simp [Window.place], (keeps.modEng _ _).modEng _ _⟩
  case nowhere =>
    rw [exec_legStart_ready ready, (Dev.legStart_enters (by simpa using rests) (by simpa using idle) (by simpa using good) (by simpa using bank) (by simpa using high)
      (by simpa [Dev.taken_powerFailing] using power) enters).1 nowhere]
  case leads =>
    rw [exec_legStart_ready ready, (Dev.legStart_enters (by simpa using rests) (by simpa using idle) (by simpa using good) (by simpa using bank) (by simpa using high)
      (by simpa [Dev.taken_powerFailing] using power) enters).2 leads]
  case waits =>
    rw [State.withDev_toDev, Dev.legStop_waits (by simpa using dwells)]
    exact ⟨by simp, ((Dev.keeps_refl s.toDev []).taken h.ring).modEng _ _⟩
  case elsewhere => rw [exec_legStopAtBoundary_ready ready, Dev.legStop_elsewhere (by simpa using other)]

end Sys2Proof.Machine

namespace Sys2Proof.Machine
open Sys2Proof

/-! ## The events of an engine that fall on a tick (R241, R243, R256, R258) -/

section Ticks

variable {s : Dev} {g : GroupId} {r : GroupRec} (engine : sid r.first = g) (due : (s.eng g).due = true)

include engine due

section Dwell

variable (dwells : s.travState g = 1) (free : (s.eng g).applied = false)

include dwells free

theorem Dev.dwellBoundary_stops (stops : (s.eng g).stops ≠ []) :
    s.dwellBoundary r = ((s.modEng g (fun e => { e with due := false })).leavePath g 0).finishTick g := by
  subst engine
  simp [Dev.dwellBoundary, dwells, due, free, stops]

theorem Dev.dwellBoundary_jumps {j : JumpReq} (stops : (s.eng g).stops = []) (jump : (s.eng g).sampled = some j) :
    s.dwellBoundary r = ((s.modEng g (fun e => { e with due := false })).takeJump r j).finishTick g := by
  subst engine
  simp [Dev.dwellBoundary, dwells, due, free, stops, jump]

theorem Dev.dwellBoundary_goes {p : PathPos} (stops : (s.eng g).stops = []) (stays : (s.eng g).sampled = none) (pos : (s.eng g).pos = some p) :
    s.dwellBoundary r = ((s.modEng g (fun e => { e with due := false })).goOn r p).finishTick g := by
  subst engine
  simp [Dev.dwellBoundary, dwells, due, free, stops, stays, pos]

end Dwell

section Timeout

variable {p : PathPos} {d : Dev} (waits : s.travState g = 2) (unmet : (s.eng g).metAt = none) (next : (s.eng g).next = some p)
  (fault : d = (s.modEng g (fun e => { e with due := false })).travFault g 4 (p.index r.size)) (still : d.travState g = 2)

include waits unmet next fault still

theorem Dev.waitTimeout_goes (act : getBits p.desc.flags 1 2 = 0) (markless : s.fld (tB g) TRAV_STATUS_WAIT ≠ 1) : s.waitTimeout r =
    (d.modEng g (fun e => { e with metAt := some (d.now + 4 - waitLatency (s.fld (tB g) TRAV_STATUS_WAIT)) })).finishTick g := by
  subst engine fault
  simp [Dev.waitTimeout, waits, due, unmet, next, still, act, markless]

theorem Dev.waitTimeout_stops (act : getBits p.desc.flags 1 2 = 1) : s.waitTimeout r = ((d.dropStarts g).leavePath g 0).finishTick g := by
  subst engine fault
  simp [Dev.waitTimeout, waits, due, unmet, next, still, act]

theorem Dev.waitTimeout_leaves (act : 2 ≤ getBits p.desc.flags 1 2) {x : Dev × Place}
    (leaves : x = ((d.modEng g (fun e => { e with window := .none, held := none })).legExit g (bitOf p.desc.flags 3)).enterRead g p.desc.succ) :
    s.waitTimeout r = ((x.1.goPlace r x.2).sweep).finishTick g := by
  subst engine fault leaves
  have other : getBits p.desc.flags 1 2 ≠ 0 ∧ getBits p.desc.flags 1 2 ≠ 1 := by omega
  simp [Dev.waitTimeout, waits, due, unmet, next, still, other]

end Timeout

section FirstStep

variable {c : Ctx} {leg a : Nat} {t : Word64} {d : Dev} (start : (s.eng g).start = some (c, leg, t, a)) (after : a ≤ (s.eng g).tickAt)
  (atTime : t.toNat ≤ (s.eng g).tickTime.toNat) (begins : d = s.modEng g (fun e => { e with start := none, due := false, waiters := [c] }))

include start after atTime begins

theorem Dev.firstStep_held {q : Place} (held : (s.eng g).window.place = some q) : s.firstStep r = (d.goPlace r q).finishTick g := by
  subst engine begins
  simp [Dev.firstStep, start, due, Engine.startDue, after, atTime, held]

theorem Dev.firstStep_read (empty : (s.eng g).window.place = none) :
    s.firstStep r = ((d.enterRead g leg).1.goPlace r (d.enterRead g leg).2).finishTick g := by
  subst engine begins
  simp [Dev.firstStep, start, due, Engine.startDue, after, atTime, empty]

end FirstStep

end Ticks

/-! ## Prefetch (R248, R249) -/

/-- With no bad word in the stores a window holds what they hold. -/
theorem Dev.readCell_of_good {s : Dev} (good : s.memst.bad = []) (l : List (Nat × List Byte)) (a n k : Nat) :
    Dev.readCell (s, l) a n k = (s, l ++ [(a, s.bytes a n)]) := by
  have clean : s.uncorrectable a n = false := by simp [Dev.uncorrectable, good]
  simp [Dev.readCell, Dev.eccRead_of_good good, clean]

/-- More reads go behind the first. -/
theorem Dev.readCells_of_good {s : Dev} (good : s.memst.bad = []) (k : Nat) (cs : List (Nat × Nat)) (x : Nat × List Byte) (l : List (Nat × List Byte)) :
    (cs.foldl (fun q c => Dev.readCell q c.1 c.2 k) (s, x :: l)).1 = s ∧
    (cs.foldl (fun q c => Dev.readCell q c.1 c.2 k) (s, x :: l)).2.head? = some x := by
  induction cs generalizing l with
  | nil => exact ⟨rfl, rfl⟩
  | cons c cs ih =>
    rw [List.foldl_cons, Dev.readCell_of_good good]
    exact ih _

/-- A READY segment becomes ACTIVE (R249). -/
def Dev.activate (s : Dev) (k : Nat) : Dev := if (s.seg k).1 == 1 then s.setSeg k (2, (s.seg k).2) else s

theorem Dev.activate_same (s : Dev) (k : Nat) : (s.activate k).memst = s.memst ∧ (∀ a n, (s.activate k).bytes a n = s.bytes a n) ∧ s.keeps (s.activate k) [] := by
  unfold Dev.activate
  split
  · exact ⟨rfl, fun _ _ => rfl, fun _ _ => rfl, rfl, rfl, rfl⟩
  · exact ⟨rfl, fun _ _ => rfl, Dev.keeps_refl s _⟩

theorem Dev.activate_active {s : Dev} {k : Nat} (usable : (s.seg k).1 = 1 ∨ (s.seg k).1 = 2) : ((s.activate k).seg k).1 = 2 := by
  unfold Dev.activate
  rcases usable with ready | active
  · rw [if_pos (by simp [ready]), Dev.seg_setSeg_same]
  · rw [if_neg (by simp [active]), active]

theorem Dev.enterSeg_eq (s : Dev) (g : GroupId) (k : Nat) : s.enterSeg g k =
    if ((s.activate k).seg k).1 == 2 && !((s.activate k).eng g).used.contains k then (s.activate k).modEng g (fun e => { e with used := k :: e.used })
    else s.activate k := rfl

/-- To enter a segment activates it, and changes nothing else but the engine. -/
theorem Dev.enterSeg_cases (s : Dev) (g : GroupId) (k : Nat) : s.enterSeg g k = s.activate k ∨ ∃ f, s.enterSeg g k = (s.activate k).modEng g f := by
  rw [Dev.enterSeg_eq]
  split
  · exact .inr ⟨_, rfl⟩
  · exact .inl rfl

theorem Dev.enterSeg_same (s : Dev) (g : GroupId) (k : Nat) : (s.enterSeg g k).memst = s.memst ∧ (∀ a n, (s.enterSeg g k).bytes a n = s.bytes a n) ∧
    s.keeps (s.enterSeg g k) [] := by
  obtain ⟨memst, bytes, keeps⟩ := s.activate_same k
  rcases s.enterSeg_cases g k with e | ⟨f, e⟩ <;> rw [e]
  · exact ⟨memst, bytes, keeps⟩
  · exact ⟨memst, bytes, keeps.modEng _ _⟩

theorem Dev.enterSeg_active {s : Dev} {k : Nat} (usable : (s.seg k).1 = 1 ∨ (s.seg k).1 = 2) (g : GroupId) : ((s.enterSeg g k).seg k).1 = 2 := by
  rcases s.enterSeg_cases g k with e | ⟨f, e⟩ <;> rw [e]
  · exact Dev.activate_active usable
  · exact Dev.activate_active usable

/-- To enter a segment leaves the windows as they are. -/
theorem Dev.enterSeg_window (s : Dev) (g : GroupId) (k : Nat) : ((s.enterSeg g k).eng g).window = (s.eng g).window := by
  have same : (s.activate k).eng g = s.eng g := by unfold Dev.activate; split <;> rfl
  rw [Dev.enterSeg_eq]
  split
  · rw [Dev.eng_modEng_same, same]
  · rw [same]

/-- The step at a place is held with its place, its index and its wait. -/
theorem Dev.fetchStep_shows (s : Dev) (r : GroupRec) (p : PathPos) : (s.fetchStep r p).2.pos = p ∧ (s.fetchStep r p).2.ix = p.index r.size ∧
    (s.fetchStep r p).2.wait = (s.station (p.index r.size)).wait := ⟨rfl, rfl, rfl⟩

/-- With no bad word in the stores the step's segment is entered and its words are held first. -/
theorem Dev.fetchStep_of_good {s : Dev} (good : s.memst.bad = []) (r : GroupRec) (p : PathPos) :
    (s.fetchStep r p).1 = s.enterSeg (sid r.first) (segOf (p.index r.size)) ∧
    (s.fetchStep r p).2.cells.head? = some (16 * p.index r.size, s.bytes (16 * p.index r.size) (16 * r.size)) := by
  obtain ⟨memst, bytes, -⟩ := s.enterSeg_same (sid r.first) (segOf (p.index r.size))
  have clean : (s.enterSeg (sid r.first) (segOf (p.index r.size))).memst.bad = [] := by rw [memst, good]
  have sound (a n : Nat) : s.uncorrectable a n = false := by simp [Dev.uncorrectable, good]
  unfold Dev.fetchStep
  simp only [Dev.readCell_of_good clean, sound, bytes, List.nil_append, Bool.false_eq_true, if_false]
  split
  · exact Dev.readCells_of_good clean _ _ _ _
  · split
    · exact Dev.readCells_of_good clean _ _ _ _
    · exact Dev.readCells_of_good clean _ _ _ _

section Prefetch

variable {s : Dev} {g : GroupId} {r : GroupRec} {q : PathPos} (engine : sid r.first = g) (may : s.mayEnter g (q.index r.size) = true)

include engine may

theorem Dev.prefetch_held (last : (s.eng g).window.last = some (.step q)) (room : ((s.eng g).window.steps.length + 2) * r.size ≤ 256) :
    s.prefetch r = (s.fetchStep r q).1.modEng g (fun e => { e with window := ⟨e.window.steps ++ [(s.fetchStep r q).2], none⟩ }) := by
  subst engine
  have few : ((s.eng (sid r.first)).next.isSome).toNat ≤ 1 := Bool.toNat_le _
  have fits : ¬256 < ((s.eng (sid r.first)).window.steps.length + 1 + ((s.eng (sid r.first)).next.isSome).toNat) * r.size :=
    Nat.not_lt.mpr (le_trans (Nat.mul_le_mul_right _ (by omega)) room)
  unfold Dev.prefetch
  simp only [fits, if_false, last, may, if_true]

theorem Dev.prefetch_next {p : PathPos} (window : (s.eng g).window = .none) (next : (s.eng g).next = none) (pos : (s.eng g).pos = some p)
    (small : r.size ≤ 32) (follows : p.next = some q) :
    s.prefetch r = (s.fetchStep r q).1.modEng g (fun e => { e with window := ⟨e.window.steps ++ [(s.fetchStep r q).2], none⟩ }) := by
  subst engine
  unfold Dev.prefetch
  have leads : s.follow (sid r.first) p = (s, .step q) := by rw [Dev.follow, follows]
  have fits : ¬256 < (0 + 1 + 0) * r.size := by omega
  simp only [window, next, pos, List.length_nil, Option.isSome_none, Bool.toNat_false, fits, if_false, Window.none, List.getLast?_nil, Option.none_or, leads, may, if_true]

end Prefetch

/-! ## An engine in HOLD whose segment is READY (R254) -/

section Resume

variable {s : State} {g : GroupId} {r : GroupRec} {p : PathPos} (domains : s.domains = true) (group : s.group g.val = some r)

include domains group

theorem exec_prefetchRead_runs (runs : s.travState g = 1 ∨ s.travState g = 2 ∨ (s.eng g).start.isSome = true) :
    exec (.prefetchRead g) s = .next (s.withDev (s.prefetch r)) := by
  rw [exec_prefetchRead, execPrefetchRead, State.onAwake_onEngine domains group]
  rcases runs with h | h | h <;> simp [h]

variable (next : (s.eng g).next = some p) (holds : s.travState g = 3) (unread : (s.eng g).resume = none)
  (may : s.mayEnter g (p.index r.size) = true)

include next holds unread may

theorem exec_underrunResume_step (resumes : bitOf p.desc.flags 0 = true) : exec (.underrunResume g) s = .next (s.withDev
    (((s.fetchStep r p).1.modEng g (fun e =>
      { e with next := some p, window := ⟨[(s.fetchStep r p).2], none⟩, resume := some (.step p) })).sweep)) := by
  have place : Window.place ⟨[(s.fetchStep r p).2], none⟩ = some (.step p) := rfl
  rw [exec_underrunResume, execUnderrunResume, State.onAwake_onEngine domains group]
  simp [next, holds, unread, may, resumes, place]

theorem exec_underrunResume_skip (skips : bitOf p.desc.flags 0 = false) {q : Dev × Window × Bool} {n : PathPos}
    (leads : q = Dev.skipOn g r 1048576 s.toDev p false) (goes : q.2.2 = false) (place : q.2.1.place = some (.step n)) :
    exec (.underrunResume g) s = .next (s.withDev ((q.1.modEng g (fun e =>
      { e with next := some n, window := q.2.1, resume := some (.step n) })).sweep)) := by
  rw [exec_underrunResume, execUnderrunResume, State.onAwake_onEngine domains group]
  simp [next, holds, unread, may, skips, ← leads, goes, place]

end Resume

/-- A window may go on into a segment that is READY or ACTIVE only. -/
theorem Dev.usable_of_mayEnter {s : Dev} {g : GroupId} {i : Nat} (may : s.mayEnter g i = true) : (s.seg (segOf i)).1 = 1 ∨ (s.seg (segOf i)).1 = 2 := by
  simp only [Dev.mayEnter, Bool.and_eq_true, Bool.or_eq_true, beq_iff_eq] at may
  exact may.1

/-- Settles O37: each event is its definition with the premises put in; a step read into the window is `Dev.fetchStep_of_good`. -/
theorem engineEventsAndPrefetch : Obligations.EngineEventsAndPrefetch := by
  unfold Obligations.EngineEventsAndPrefetch
  have place {r : GroupRec} {g : GroupId} (first : r.first = g.val) : sid r.first = g := by rw [first, Dev.sid_val]
  refine ⟨⟨fun s g r d domains group first dwells due free leaves => ?dwell,
      fun s g r p d x domains group first waits due unmet next fault still => ?timeout,
      fun s g r c leg a t d domains group first start due after atTime begins => ?start⟩,
    fun s g r q domains group first runs last room may => ?held,
    fun s g r p q domains group first good window next pos dwells small follows may => ⟨_, (s.fetchStep r q).2,
      exec_prefetchRead_runs domains group (.inl dwells), ?next⟩,
    fun s g r p domains group next holds unread may => ⟨exec_underrunResume_step domains group next holds unread may,
      fun q n skips leads goes place => exec_underrunResume_skip domains group next holds unread may skips leads goes place⟩, Dev.fetchStep_shows⟩
  case dwell =>
    subst leaves
    have event : exec (.dwellBoundary g) s = .next (s.withDev (s.dwellBoundary r)) := State.onAwake_onEngine domains group _
    rw [event]
    exact ⟨fun stops => by rw [Dev.dwellBoundary_stops (place first) due dwells free stops],
      fun j stops jump => by rw [Dev.dwellBoundary_jumps (place first) due dwells free stops jump],
      fun p stops stays pos => by rw [Dev.dwellBoundary_goes (place first) due dwells free stops stays pos]⟩
  case timeout =>
    have event : exec (.waitTimeout g) s = .next (s.withDev (s.waitTimeout r)) := State.onAwake_onEngine domains group _
    rw [event]
    exact ⟨fun act markless => by rw [Dev.waitTimeout_goes (place first) due waits unmet next fault still act markless],
      fun act => by rw [Dev.waitTimeout_stops (place first) due waits unmet next fault still act],
      fun act leaves => by rw [Dev.waitTimeout_leaves (place first) due waits unmet next fault still act leaves]⟩
  case start =>
    have event : exec (.legStartFirstStep g) s = .next (s.withDev (s.firstStep r)) := State.onAwake_onEngine domains group _
    rw [event]
    exact ⟨fun q held => by rw [Dev.firstStep_held (place first) due start after atTime begins held],
      fun empty => by rw [Dev.firstStep_read (place first) due start after atTime begins empty]⟩
  case held => rw [exec_prefetchRead_runs domains group runs, Dev.prefetch_held (place first) may last room]
  case next =>
    obtain ⟨entered, words⟩ := s.fetchStep_of_good good r q
    obtain ⟨-, -, keeps⟩ := s.enterSeg_same g (segOf (q.index r.size))
    have active := Dev.enterSeg_active (Dev.usable_of_mayEnter may) g
    rw [State.withDev_toDev, Dev.prefetch_next (place first) may window next pos small follows, entered, place first]
    refine ⟨?_, rfl, rfl, rfl, words, active, keeps.modEng _ _⟩
    rw [Dev.eng_modEng_same, Dev.enterSeg_window, window]
    rfl

end Sys2Proof.Machine

namespace Sys2Proof.Machine
open Sys2Proof

/-! ## SET (R375) -/

section Taken

variable (s : Dev) (r : RingId) (n : SliceId)

@[simp] theorem Dev.taken_mode : (s.taken r).mode n = s.mode n := Dev.taken_fld _ _ _ _

@[simp] theorem Dev.taken_vPins : (s.taken r).vPins n = s.vPins n := by simp only [Dev.vPins, Dev.vrange, Dev.taken_sl, Dev.taken_fld]

@[simp] theorem Dev.taken_hard : (s.taken r).hard n = s.hard n := by
  unfold Dev.hard Dev.hardRec
  rw [Dev.taken_sl, Dev.taken_plates]

theorem Dev.taken_groupOf (k : Nat) : (s.taken r).groupOf k = s.groupOf k := by
  unfold Dev.groupOf
  rw [Dev.taken_plates]

@[simp] theorem Dev.taken_limAt (a : Nat) : (s.taken r).limAt a = s.limAt a := by simp only [Dev.limAt, Dev.word64, Dev.taken_num]

@[simp] theorem Dev.taken_valueOk (m k v : Nat) (w : Word) : (s.taken r).valueOk n m k v w = s.valueOk n m k v w := by
  unfold Dev.valueOk Dev.vfs Dev.ifs Dev.serN Dev.parN
  rw [Dev.taken_hard, Dev.taken_fld, Dev.taken_flag, Dev.taken_direct, Dev.taken_sl, Dev.taken_groupOf]

@[simp] theorem Dev.taken_setValueOk (p : SetP) : (s.taken r).setValueOk n p = s.setValueOk n p := by
  simp only [Dev.setValueOk, Dev.taken_mode, Dev.taken_valueOk, Dev.taken_vPins, Dev.taken_sl, Dev.taken_fld]

@[simp] theorem Dev.taken_setLimitsOk (p : SetP) : (s.taken r).setLimitsOk n p = s.setLimitsOk n p := by
  simp only [Dev.setLimitsOk, Dev.taken_hard, Dev.taken_limAt, Dev.taken_rd]

end Taken

section Checks

variable {s : Dev} {c : Ctx} {r : GroupRec} {p : SetP}

theorem Dev.setCmd_torn (torn : p.valueC ≠ ~~~p.value) : s.setCmd c r p = s.completeAt c INTEGRITY 8 s.time := if_pos (by simp [torn])

variable (whole : p.valueC = ~~~p.value)

include whole

theorem Dev.setCmd_beyond (beyond : ∃ n ∈ r.masked p.mask, s.setValueOk n p = false) : s.setCmd c r p = s.completeAt c LIMIT 4 s.time := by
  obtain ⟨n, named, bad⟩ := beyond
  have some : (r.masked p.mask).all (fun n => s.setValueOk n p) = false := List.all_eq_false.mpr ⟨n, named, by simp [bad]⟩
  rw [Dev.setCmd, if_neg (by simp [whole]), some]
  rfl

variable (within : ∀ n ∈ r.masked p.mask, s.setValueOk n p = true ∧ s.setLimitsOk n p = true) (mask : r.maskOk p.mask = true)

include within mask

/-- Past the checks of its value, its limits and its mask SET checks the other fields. -/
theorem Dev.setCmd_fields : s.setCmd c r p = if 3 < p.mode.toNat then s.completeAt c BAD_PARAM 0x0C s.time
    else if p.limitSet != 0xFF && decide (15 < p.limitSet.toNat) then s.completeAt c BAD_PARAM 0x0D s.time
    else if 15 < p.contour.toNat then s.completeAt c BAD_PARAM 0x0E s.time
    else s.schedule c (.set p) r.first (r.devMask p.mask) (s.now + 200) p.at_ := by
  have values : (r.masked p.mask).all (fun n => s.setValueOk n p) = true := List.all_eq_true.mpr fun n named => (within n named).1
  have limits : (r.masked p.mask).all (fun n => s.setLimitsOk n p) = true := List.all_eq_true.mpr fun n named => (within n named).2
  rw [Dev.setCmd, if_neg (by simp [whole]), values, limits, mask]
  rfl

theorem Dev.setCmd_waits (mode : p.mode.toNat ≤ 3) (set : p.limitSet = 0xFF ∨ p.limitSet.toNat ≤ 15) (contour : p.contour.toNat ≤ 15) :
    s.setCmd c r p = s.schedule c (.set p) r.first (r.devMask p.mask) (s.now + 200) p.at_ := by
  have named : (p.limitSet != 0xFF && decide (15 < p.limitSet.toNat)) = false := by
    rcases set with h | h
    · simp [h]
    · simp [Nat.not_lt.mpr h]
  rw [Dev.setCmd_fields whole within mask, if_neg (Nat.not_lt.mpr mode), named, if_neg (by simp), if_neg (Nat.not_lt.mpr contour)]

end Checks

theorem exec_set_ready {s : State} {h : Hdr} {r : GroupRec} (ready : s.ready h r) (p : SetP) :
    exec (.set h p) s = .next (s.withDev ((s.taken h.ring).setCmd (ownCtx h 0x01) r p)) := by
  rw [exec_set, execSet, State.onAwake_of_awake _ _ ready.1, Dev.ringCmd_ready ready]

/-- At the tick a SET that waits alone gives each slice of its mask its values, and completes with the TIME of the tick. -/
theorem exec_setEffect_alone {s : State} {g : GroupId} {r : GroupRec} {x : Sched} {p : SetP} (domains : s.domains = true)
    (group : s.group g.val = some r) (alone : s.sched = [x]) (cmd : x.cmd = .set p) (named : x.group = g.val)
    (due : x.due (s.effectAt r).1 (s.effectAt r).2 = true) : exec (.setEffect g) s = .next (s.withDev
      ((({ s.toDev with sched := [] }).each (sliceList x.mask) (fun e n => e.setSlice n p)).completeAt x.ctx OK 0xFF (s.effectAt r).2)) := by
  rw [exec_setEffect, execSetEffect, State.onAwake_onEngine domains group]
  simp [alone, cmd, isSet, named, due, Dev.each_one]

/-- With neither the chain nor the hold of its mode in the way a setpoint is taken at once (R138, R142). -/
theorem Dev.useSp_free {s : Dev} {n : SliceId} (chain : s.mode n = 1 → s.chainRuns n = false)
    (hold : s.mode n = 0 → (s.sl n).vhold = none ∧ (s.sl n).vWait = none) (w : Word) : s.useSp n w = s.takeSp n w := by
  have free : ((s.mode n == 1 && s.chainRuns n) || (s.mode n == 0 && ((s.sl n).vhold.isSome || (s.sl n).vWait.isSome))) = false := by
    by_cases one : s.mode n = 1
    · simp [one, chain one]
    · by_cases zero : s.mode n = 0
      · simp [zero, hold zero]
      · simp [one, zero]
  rw [Dev.useSp]
  exact if_neg (by simp [free])

/-- Settles O33: SET, taken from its ring, answers by its first check that fails and waits past all of them; its effect is
`exec_setEffect_alone`. -/
theorem setChecksThenWaits : Obligations.SetChecksThenWaits := by
  unfold Obligations.SetChecksThenWaits
  refine ⟨fun s h r p ready => ?checks, fun s g r x p domains group alone cmd named due => exec_setEffect_alone domains group alone cmd named due,
    fun s n w chain hold => ?taken⟩
  case checks =>
    rw [exec_set_ready ready]
    refine ⟨fun torn => by rw [Dev.setCmd_torn torn], fun whole beyond => by rw [Dev.setCmd_beyond whole (by simpa using beyond)],
      fun whole within mask mode => ?mode, fun whole within mask mode set contour => ?waits⟩
    case mode => rw [Dev.setCmd_fields whole (by simpa using within) mask, if_pos mode]
    case waits => rw [Dev.setCmd_waits whole (by simpa using within) mask mode set contour]
  case taken =>
    rw [Dev.useSp_free chain hold]
    exact ⟨by simp [Dev.takeSp], by simp [Dev.takeSp], (Dev.keeps_refl s _).modSl _ _⟩

end Sys2Proof.Machine

namespace Sys2Proof.Machine
open Sys2Proof

/-- Two fields of one block share no bit wherever the block stands. -/
theorem apart_base (b : Nat) {f f' : Fld} (h : apart 0 f 0 f') : apart b f b f' := by
  obtain ⟨fits, word | bits⟩ := h
  · exact ⟨fits, .inl (by omega)⟩
  · exact ⟨fits, .inr bits⟩

/-! ## The pointers of a ring pair (R367 to R370, R379, R385) -/

section Pointers

variable {s : State} (awake : s.awake = true) (r : RingId)

include awake

theorem exec_cmdTailWrite_awake (v : Word) : exec (.cmdTailWrite r v) s = .next (s.withDev (s.cmdTailWrite r v)) := by
  rw [exec_cmdTailWrite, execCmdTailWrite, State.onAwake_of_awake _ _ awake]

theorem exec_commandFetch_awake (q : FetchResult) : exec (.commandFetch r q) s = .next (s.withDev (s.commandFetch r q)) := by
  rw [exec_commandFetch, execCommandFetch, State.onAwake_of_awake _ _ awake]

theorem exec_cplHeadWrite_awake (v : Word) : exec (.cplHeadWrite r v) s = .next (s.withDev (s.cplHeadWrite r v)) := by
  rw [exec_cplHeadWrite, execCplHeadWrite, State.onAwake_of_awake _ _ awake]

theorem exec_ringCfgWrite_awake (v : Word) : exec (.ringCfgWrite r v) s = .next (s.withDev (s.ringCfgWrite r v)) := by
  rw [exec_ringCfgWrite, execRingCfgWrite, State.onAwake_of_awake _ _ awake]

end Pointers

theorem exec_reservedOpcode_ready {s : State} {h : Hdr} {r : GroupRec} (ready : s.ready h r) {o : Byte} (reserved : o = 0 ∨ 0x13 ≤ o.toNat) :
    exec (.reservedOpcode h o) s = .next (s.withDev ((s.taken h.ring).complete (ownCtx h o) BAD_PARAM)) := by
  rw [exec_reservedOpcode, execReservedOpcode, State.onAwake_of_awake _ _ ready.1, if_pos (by simpa using reserved), Dev.ringCmd_ready ready]

theorem Dev.setFld_ring (s : Dev) (b : Nat) (f : Fld) (v : Nat) (k : RingId) : (s.setFld b f v).ring k = s.ring k := rfl

/-- A refused write of a HOST register shows REFUSED and changes nothing else. -/
theorem Dev.hostRefuse_spec (s : Dev) : s.hostRefuse.flag 0 HOST_STATUS_REFUSED = true ∧ s.keeps s.hostRefuse [HOST_STATUS] :=
  ⟨Dev.flag_setFlag_same _ _ _ _ (by decide) rfl, (Dev.keeps_refl s _).setFlag _ _ _ (by simp)⟩

theorem getBits_byte (v : Nat) : v % 256 % 2 ^ 8 = v % 256 := by omega

/-- Entries a fetch takes wait in the ring, and count as fetched and in flight. -/
theorem Dev.commandFetch_takes {s : Dev} {r : RingId} (ready : (!s.released || !s.hostUp || !s.flag (rB r) HOST_RING_CFG_ENABLE || (s.ring r).stopped ||
    s.fetchRoom r == 0) = false) : s.commandFetch r .error = s.ringError r 1 ∧ ∀ n, s.commandFetch r (.ok n) =
      ((s.modRing r (fun q => { q with fetched := q.fetched + min n (s.fetchRoom r) })).setFld (rB r) HOST_CMD_HEAD_HEAD
        (s.ringFld r HOST_CMD_HEAD_HEAD + min n (s.fetchRoom r))).setFld (rB r) HOST_RING_STATUS_IN_FLIGHT
        (s.ringFld r HOST_RING_STATUS_IN_FLIGHT + min n (s.fetchRoom r)) := by
  unfold Dev.commandFetch
  simp only [ready, Bool.false_eq_true, if_false]
  exact ⟨trivial, fun _ => trivial⟩

/-- A word of a ring pair is described by the row of its table. -/
theorem regRow_ring (r : RingId) {k : Nat} (hk : k < 0x40) : regRow (rB r + k) = rowsRing.find? (fun x => x.holds k) := by
  have lt := r.isLt
  have word : (rB r + k - 0x70100) % 0x40 = k := by simp only [rB, ringBase]; omega
  unfold regRow regBlock
  repeat rw [if_neg (by simp only [rB, ringBase]; omega)]
  rw [if_pos (by simp only [rB, ringBase]; omega), if_neg (by simp only [rB, ringBase]; omega), if_pos (by simp only [rB, ringBase]; omega), word]

/-- The word of RING_CFG as it is stored. -/
theorem Dev.ringCfg_stored (s : Dev) (r : RingId) (v : Word) {f : Fld} (off : f.off = HOST_RING_CFG) (within : f.lo + f.w ≤ 11) :
    (s.store (rB r + HOST_RING_CFG) v).fld (rB r) f = getBits v.toNat f.lo f.w := by
  have row : regRow (rB r + HOST_RING_CFG) = some ⟨0x0, 1, 4, 0x7ff, 0x0, 0x0, 0x0⟩ := (regRow_ring r (by decide)).trans rfl
  have writable (i : Nat) (hi : i < f.w) : (0x7ff : Nat).testBit (f.lo + i) = true := by
    rw [show (0x7ff : Nat) = 2 ^ 11 - 1 from rfl, Nat.testBit_two_pow_sub_one]
    exact decide_eq_true (by omega)
  rw [← off] at row ⊢
  exact Dev.fld_store row rfl (by omega) writable

/-- A binding of a stopped pair that no other pair is enabled for takes effect and enables the pair. -/
theorem Dev.ringCfgWrite_enables {s : Dev} {r : RingId} {v : Word} (stopped : s.flag (rB r) HOST_RING_STATUS_RUNNING = false)
    (off : s.flag (rB r) HOST_RING_CFG_ENABLE = false) (node : getBits v.toNat 1 4 ≤ 8) (on : bitOf v.toNat 0 = true)
    (cmd : s.rd64 (rB r + HOST_CMD_BASE_LO) (rB r + HOST_CMD_BASE_HI) ≠ 0) (cpl : s.rd64 (rB r + HOST_CPL_BASE_LO) (rB r + HOST_CPL_BASE_HI) ≠ 0)
    (others : ∀ q, q ≠ r → s.flag (rB q) HOST_RING_CFG_ENABLE = false) : s.ringCfgWrite r v =
      ((s.store (rB r + HOST_RING_CFG) v).setFlag (rB r) HOST_RING_STATUS_RUNNING true).modRing r (fun q => { q with stopped := false, phase := true }) := by
  have alone : ((List.range 32).map sid).any (fun q => q != r && s.flag (rB q) HOST_RING_CFG_ENABLE
      && s.ringFld q HOST_RING_CFG_NODE == getBits v.toNat 1 4 && s.ringFld q HOST_RING_CFG_GROUP == getBits v.toNat 6 5) = false :=
    List.any_eq_false.mpr fun q _ => by
      by_cases own : q = r
      · simp [own]
      · simp [others q own]
  have bases : (s.rd64 (rB r + HOST_CMD_BASE_LO) (rB r + HOST_CMD_BASE_HI) != 0 && s.rd64 (rB r + HOST_CPL_BASE_LO) (rB r + HOST_CPL_BASE_HI) != 0) = true := by
    simpa using And.intro cmd cpl
  unfold Dev.ringCfgWrite
  dsimp only
  rw [alone, stopped, off, on, bases]
  simp [Nat.not_lt.mpr node]

/-- Settles O52: each write and fetch is its definition with the premises put in; a binding of a stopped pair is `Dev.ringCfgWrite_enables`. -/
theorem ringPointers : Obligations.RingPointers := by
  unfold Obligations.RingPointers
  refine ⟨fun s r v awake => ⟨fun room onward => ⟨_, exec_cmdTailWrite_awake awake r v, ?tail⟩, fun bad => ?tailBad⟩,
    fun s r n awake released up enabled runs room => ?fetch, fun s h r o ready reserved => exec_reservedOpcode_ready ready reserved,
    fun s r v awake => ⟨fun written => ⟨_, exec_cplHeadWrite_awake awake r v, ?head⟩, fun beyond => ⟨_, exec_cplHeadWrite_awake awake r v, ?headBad⟩⟩,
    fun s r v awake => ⟨fun node => ⟨_, exec_ringCfgWrite_awake awake r v, ?node⟩, fun on unwritten => ⟨_, exec_ringCfgWrite_awake awake r v, ?unwritten⟩,
      fun stopped off node on cmd cpl others => ⟨_, exec_ringCfgWrite_awake awake r v, ?binds⟩⟩⟩
  case tail =>
    have taken : s.cmdTailWrite r v = s.setFld (rB r) HOST_CMD_TAIL_TAIL (v.toNat % 256) := if_neg (by simp [room, onward])
    rw [State.withDev_toDev, taken]
    exact ⟨(Dev.fld_setFld_same _ _ _ _ (by decide)).trans (getBits_byte _), (Dev.keeps_refl s.toDev _).setFld _ _ _ (by simp), rfl⟩
  case tailBad =>
    rw [exec_cmdTailWrite_awake awake r v]
    exact congrArg (fun d => Host.Outcome.next (s.withDev d)) (if_pos (by simpa using bad))
  case fetch =>
    obtain ⟨error, takes⟩ := Dev.commandFetch_takes (s := s.toDev) (r := r) (by simp [released, up, enabled, runs, room])
    refine ⟨⟨_, exec_commandFetch_awake awake r (.ok n), ?_⟩, by rw [exec_commandFetch_awake awake, error]⟩
    rw [State.withDev_toDev, takes n]
    refine ⟨by rw [Dev.setFld_ring, Dev.setFld_ring, Dev.ring_modRing_same], ?_, ?_, ((Dev.keeps_refl s.toDev _).modRing _ _ |>.setFld _ _ _ (by simp)).setFld _ _ _ (by simp)⟩
    · exact (Dev.fld_setFld_apart (apart_base _ (by decide)) _).trans (Dev.fld_setFld_same _ _ _ _ (by decide))
    · exact Dev.fld_setFld_same _ _ _ _ (by decide)
  case head =>
    have freed : s.cplHeadWrite r v = (s.setFld (rB r) HOST_CPL_HEAD_HEAD (v.toNat % 256)).modRing r (fun q =>
      { q with cpl := q.cpl.drop (ringDist (s.ringFld r HOST_CPL_HEAD_HEAD) (v.toNat % 256)) }) := if_neg (by simpa using written)
    rw [State.withDev_toDev, freed]
    exact ⟨(Dev.modRing_fld _ _ _ _ _).trans ((Dev.fld_setFld_same _ _ _ _ (by decide)).trans (getBits_byte _)),
      by rw [Dev.ring_modRing_same, Dev.setFld_ring],
      ((Dev.keeps_refl s.toDev _).setFld _ _ _ (by simp)).modRing _ _⟩
  case headBad =>
    have refused : s.cplHeadWrite r v = s.hostRefuse := if_pos beyond
    rw [State.withDev_toDev, refused]
    exact ⟨s.hostRefuse_spec.1, s.hostRefuse_spec.2, rfl⟩
  case node =>
    have refused : s.ringCfgWrite r v = s.hostRefuse := if_pos (by simp [node])
    rw [State.withDev_toDev, refused]
    exact s.hostRefuse_spec
  case unwritten =>
    have refused : s.ringCfgWrite r v = s.hostRefuse := if_pos (by simp [on, unwritten])
    rw [State.withDev_toDev, refused]
    exact s.hostRefuse_spec
  case binds =>
    rw [State.withDev_toDev, Dev.ringCfgWrite_enables stopped off node on cmd cpl others]
    have stored {f : Fld} (word : f.off = HOST_RING_CFG) (within : f.lo + f.w ≤ 11) := s.ringCfg_stored r v word within
    have keeps := (Dev.keeps_refl s.toDev [rB r + HOST_RING_CFG, rB r + HOST_RING_STATUS]).store (rB r + HOST_RING_CFG) v (by simp)
    generalize s.store (rB r + HOST_RING_CFG) v = d at *
    have later {f : Fld} (word : f.off = HOST_RING_CFG) : (d.setFlag (rB r) HOST_RING_STATUS_RUNNING true).fld (rB r) f = d.fld (rB r) f :=
      Dev.fld_setFlag_apart ⟨by decide, .inl (by rw [word]; simp)⟩ _
    have enable : d.flag (rB r) HOST_RING_CFG_ENABLE = true := (congrArg (· == 1) (stored rfl (by decide))).trans (by simpa [bitOf, getBits] using on)
    refine ⟨(Dev.modRing_flag _ _ _ _ _).trans ?_, (Dev.modRing_fld _ _ _ _ _).trans ((later rfl).trans (stored rfl (by decide))),
      (Dev.modRing_fld _ _ _ _ _).trans ((later rfl).trans (stored rfl (by decide))),
      (Dev.modRing_flag _ _ _ _ _).trans (Dev.flag_setFlag_same _ _ _ _ (by decide) rfl),
      by rw [Dev.ring_modRing_same], by rw [Dev.ring_modRing_same], (keeps.setFlag _ _ _ (by simp)).modRing _ _⟩
    exact (congrArg (· == 1) (later rfl)).trans enable

end Sys2Proof.Machine

namespace Sys2Proof.Machine
open Sys2Proof

/-! ## Completions and the vectors of ring pairs (R366, R369, R382) -/

theorem Dev.vector_ring (s : Dev) (v : Fin 40) (r : RingId) : (s.vector v).ring r = s.ring r := rfl

/-- A completion stands in its ring behind the others, with the pointers and counts moved on (R367 to R369). -/
def Dev.posted (s : Dev) (r : RingId) (c : Cpl) : Dev :=
  (((s.modRing r (fun x => { x with cpl := x.cpl ++ [{ c with phase := x.phase }], phase := if s.ringFld r HOST_CPL_TAIL_TAIL % 128 == 127 then !x.phase else x.phase })).setFld
    (rB r) HOST_CPL_TAIL_TAIL (s.ringFld r HOST_CPL_TAIL_TAIL + 1)).setFld (rB r) HOST_RING_STATUS_IN_FLIGHT
    (s.ringFld r HOST_RING_STATUS_IN_FLIGHT - 1)).setFlag (rB r) HOST_RING_STATUS_RUNNING
    (s.flag (rB r) HOST_RING_CFG_ENABLE || decide (0 < s.ringFld r HOST_RING_STATUS_IN_FLIGHT - 1))

theorem Dev.postCpl_eq (s : Dev) (r : RingId) (c : Cpl) (irq : Bool) : s.postCpl r c irq =
    if irq && s.flag (rB r) HOST_RING_CFG_IRQ_EN then ((s.posted r c).setFlag (rB r) HOST_RING_CAUSE_COMPLETION true).vector (ringVector r)
    else s.posted r c := rfl

theorem Dev.posted_ring (s : Dev) (r : RingId) (c : Cpl) : (s.posted r c).ring r = { s.ring r with
    cpl := (s.ring r).cpl ++ [{ c with phase := (s.ring r).phase }]
    phase := if s.ringFld r HOST_CPL_TAIL_TAIL % 128 == 127 then !(s.ring r).phase else (s.ring r).phase } := by
  rw [Dev.posted, Dev.setFlag, Dev.setFld_ring, Dev.setFld_ring, Dev.setFld_ring, Dev.ring_modRing_same]

theorem Dev.posted_shows (s : Dev) (r : RingId) (c : Cpl) : (s.posted r c).ringFld r HOST_CPL_TAIL_TAIL = (s.ringFld r HOST_CPL_TAIL_TAIL + 1) % 256 ∧
    (s.posted r c).ringFld r HOST_RING_STATUS_IN_FLIGHT = s.ringFld r HOST_RING_STATUS_IN_FLIGHT - 1 ∧ (s.posted r c).vects = s.vects ∧
    s.keeps (s.posted r c) [rB r + HOST_CPL_TAIL, rB r + HOST_RING_STATUS] := by
  have small : s.ringFld r HOST_RING_STATUS_IN_FLIGHT < 2 ^ 8 := Nat.mod_lt _ (by decide)
  refine ⟨?tail, ?left, rfl, ((((Dev.keeps_refl s _).modRing _ _).setFld _ _ _ (by simp)).setFld _ _ _ (by simp)).setFlag _ _ _ (by simp)⟩
  case tail =>
    exact (Dev.fld_setFlag_apart (apart_base _ (by decide)) _).trans ((Dev.fld_setFld_apart (apart_base _ (by decide)) _).trans
      (Dev.fld_setFld_same _ _ _ _ (by decide)))
  case left =>
    exact (Dev.fld_setFlag_apart (apart_base _ (by decide)) _).trans ((Dev.fld_setFld_same _ _ _ _ (by decide)).trans (Nat.mod_eq_of_lt (lt_of_le_of_lt (Nat.sub_le _ _) small)))

theorem Dev.postCpl_shows (s : Dev) (r : RingId) (c : Cpl) (irq : Bool) :
    (s.postCpl r c irq).ringFld r HOST_CPL_TAIL_TAIL = (s.ringFld r HOST_CPL_TAIL_TAIL + 1) % 256 ∧ (s.postCpl r c irq).ring r = (s.posted r c).ring r ∧
    (s.postCpl r c irq).ringFld r HOST_RING_STATUS_IN_FLIGHT = s.ringFld r HOST_RING_STATUS_IN_FLIGHT - 1 ∧
    s.keeps (s.postCpl r c irq) [rB r + HOST_CPL_TAIL, rB r + HOST_RING_STATUS, rB r + HOST_RING_CAUSE] := by
  obtain ⟨tail, left, -, keeps⟩ := s.posted_shows r c
  have keeps := keeps.mono (m := [rB r + HOST_CPL_TAIL, rB r + HOST_RING_STATUS, rB r + HOST_RING_CAUSE]) (by simp)
  rw [Dev.postCpl_eq]
  split
  · have later {f : Fld} (h : apart 0 HOST_RING_CAUSE_COMPLETION 0 f) :
        (((s.posted r c).setFlag (rB r) HOST_RING_CAUSE_COMPLETION true).vector (ringVector r)).ringFld r f = (s.posted r c).ringFld r f := by
      rw [Dev.ringFld, Dev.vector_fld, Dev.fld_setFlag_apart (apart_base _ h), Dev.ringFld]
    exact ⟨(later (by decide)).trans tail, by rw [Dev.vector_ring, Dev.setFlag, Dev.setFld_ring], (later (by decide)).trans left,
      (keeps.setFlag _ _ _ (by simp)).vector _⟩
  · exact ⟨tail, rfl, left, keeps⟩

/-- With the ring's interrupt enabled a requested one is a cause of its vector. -/
theorem Dev.postCpl_causes {s : Dev} {r : RingId} (enabled : s.flag (rB r) HOST_RING_CFG_IRQ_EN = true) (c : Cpl) :
    (s.postCpl r c true).flag (rB r) HOST_RING_CAUSE_COMPLETION = true ∧
    (((s.postCpl r c true).vects.get (ringVector r)).pending = true ∨ ((s.postCpl r c true).vects.get (ringVector r)).due = true) := by
  rw [Dev.postCpl_eq, if_pos (by simp [enabled])]
  exact ⟨(Dev.vector_flag _ _ _ _).trans (Dev.flag_setFlag_same _ _ _ _ (by decide) rfl), Dev.vector_sent _ _⟩

theorem Dev.groupEvent_bound {s : Dev} {g : Nat} {r : RingId} (bound : s.boundRing 0 g = some r) :
    s.groupEvent g = (s.setFlag (rB r) HOST_RING_CAUSE_GROUP_EVENT true).vector (ringVector r) := by
  rw [Dev.groupEvent, bound]

theorem Dev.boundRing_binds {s : Dev} {k g : Nat} {r : RingId} (bound : s.boundRing k g = some r) :
    s.ringFld r HOST_RING_CFG_NODE = k ∧ s.ringFld r HOST_RING_CFG_GROUP = g := by
  have binds := List.find?_some bound
  simp only [Bool.and_eq_true, beq_iff_eq] at binds
  exact ⟨binds.1.2, binds.2⟩

/-! ### A record that is written -/

/-- A record is written to the host's buffer, and shown. -/
def Dev.buffered (s : Dev) (c : RingId) (x : Rec) : Dev :=
  (s.modChan c (fun k => { k with written := (s.chan c).written + 16, out := some x })).showChan c

theorem Dev.countRecord_crosses {s : Dev} {r : RingId} (x : Rec) (rate : (s.rd (cB r + HOST_CAP_IRQ_BYTES)).toNat ≠ 0)
    (crosses : (s.chan r).written / (s.rd (cB r + HOST_CAP_IRQ_BYTES)).toNat ≠ ((s.chan r).written + 16) / (s.rd (cB r + HOST_CAP_IRQ_BYTES)).toNat) :
    s.countRecord r x = ((s.buffered r x).setFlag (rB r) HOST_RING_CAUSE_CAPTURE true).vector (ringVector r) := if_pos (by simp [rate, crosses])

/-- Settles O53: a completion is `Dev.postCpl_shows` and `Dev.postCpl_causes`, a group event that of `Dev.boundRing_binds`, a record that crosses
`Dev.countRecord_crosses`. -/
theorem completionsAndGroupEvents : Obligations.CompletionsAndGroupEvents := by
  unfold Obligations.CompletionsAndGroupEvents
  refine ⟨fun d r c irq => ?completion, fun d g => ⟨fun unbound => ?unbound, fun r bound => ?bound⟩, fun d k g r bound => Dev.boundRing_binds bound,
    fun d r x rate crosses => ?record⟩
  case completion =>
    obtain ⟨tail, ring, left, keeps⟩ := d.postCpl_shows r c irq
    rw [ring, d.posted_ring r c]
    refine ⟨rfl, tail, by simp, left, fun request enabled => ?_, fun none => ?_, keeps⟩
    · rw [request]
      exact Dev.postCpl_causes enabled c
    · rw [none, Dev.postCpl_eq, if_neg (by simp)]
      exact (d.posted_shows r c).2.2.1
  case unbound => rw [Dev.groupEvent, unbound]
  case bound =>
    rw [Dev.groupEvent_bound bound]
    exact ⟨(Dev.vector_flag _ _ _ _).trans (Dev.flag_setFlag_same _ _ _ _ (by decide) rfl), Dev.vector_sent _ _, rfl,
      ((Dev.keeps_refl d _).setFlag _ _ _ (by simp)).vector _⟩
  case record =>
    rw [Dev.countRecord_crosses x rate crosses]
    exact ⟨(Dev.vector_flag _ _ _ _).trans (Dev.flag_setFlag_same _ _ _ _ (by decide) rfl), Dev.vector_sent _ _⟩

end Sys2Proof.Machine

namespace Sys2Proof.Machine
open Sys2Proof

/-! ## BARRIER and FENCE (R377, R378) -/

section Hold

variable {s : State} {h : Hdr} {r : GroupRec} (ready : s.ready h r)

include ready

theorem exec_barrier_ready (p : BarrierP) : exec (.barrier h p) s = .next (s.withDev ((s.taken h.ring).barrierCmd (ownCtx h 0x11) p)) := by
  rw [exec_barrier, execBarrier, State.onAwake_of_awake _ _ ready.1, Dev.ringHold_ready ready]

theorem exec_fence_ready : exec (.fence h) s = .next (s.withDev ((s.taken h.ring).fenceCmd (ownCtx h 0x12))) := by
  rw [exec_fence, execFence, State.onAwake_of_awake _ _ ready.1, Dev.ringHold_ready ready]
  rfl

end Hold

/-- Ring `r` is held by the command of `c`, as the flag `f` shows. -/
def Dev.holdRing (s : Dev) (r : RingId) (c : Ctx) (mask : Word) (t : Option Nat) (f : Fld) : Dev :=
  (s.modRing r (fun q => { q with held := some (c, mask, t) })).setFlag (rB r) f true

section HoldRing

variable (s : Dev) (r : RingId) (c : Ctx) (mask : Word) (t : Option Nat) (f : Fld)

theorem Dev.holdRing_ring : (s.holdRing r c mask t f).ring r = { s.ring r with held := some (c, mask, t) } := by
  rw [Dev.holdRing, Dev.setFlag, Dev.setFld_ring, Dev.ring_modRing_same]

theorem Dev.holdRing_other {q : RingId} (other : q ≠ r) : (s.holdRing r c mask t f).ring q = s.ring q := by
  rw [Dev.holdRing, Dev.setFlag, Dev.setFld_ring, Dev.ring, Dev.modRing, vector_get_set, if_neg (Ne.symm other), Dev.ring]

theorem Dev.holdRing_fld {k : Fld} (h : apart 0 f 0 k) : (s.holdRing r c mask t f).fld (rB r) k = s.fld (rB r) k := by
  rw [Dev.holdRing, Dev.fld_setFlag_apart (apart_base _ h), Dev.modRing_fld]

theorem Dev.holdRing_keeps (status : f.off = HOST_RING_STATUS) : s.keeps (s.holdRing r c mask t f) [rB r + HOST_RING_STATUS] :=
  ((Dev.keeps_refl s _).modRing _ _).setFlag _ _ _ (by simp [status])

end HoldRing

theorem Dev.unhold_ring (s : Dev) (r : RingId) : (s.unhold r).ring r = { s.ring r with held := none } := by
  rw [Dev.unhold, Dev.setFlag, Dev.setFld_ring, Dev.setFlag, Dev.setFld_ring, Dev.ring_modRing_same]

theorem Dev.unhold_shows (s : Dev) (r : RingId) : (s.unhold r).flag (rB r) HOST_RING_STATUS_BARRIER_WAIT = false ∧
    s.keeps (s.unhold r) [rB r + HOST_RING_STATUS] :=
  ⟨(Dev.flag_setFlag_apart (apart_base _ (by decide)) _).trans (Dev.flag_setFlag_same _ _ _ _ (by decide) rfl),
    (((Dev.keeps_refl s _).modRing _ _).setFlag _ _ _ (by simp)).setFlag _ _ _ (by simp)⟩

/-! ### BARRIER -/

section Barrier

variable {d : Dev} {c : Ctx} {p : BarrierP}

theorem Dev.barrierCmd_foreign (missing : p.ringMask.getLsbD c.hdr.ring.val = false) : d.barrierCmd c p = d.completeAt c BAD_PARAM 0 d.time :=
  if_pos (by rw [missing]; rfl)

variable (own : p.ringMask.getLsbD c.hdr.ring.val = true) (enabled : ∀ i, p.ringMask.getLsbD i = true → d.flag (rB (sid i)) HOST_RING_CFG_ENABLE = true)

include own enabled

theorem Dev.barrier_mask_ok : (!p.ringMask.getLsbD c.hdr.ring.val || (maskList p.ringMask).any (fun i => !d.flag (rB (sid i)) HOST_RING_CFG_ENABLE)) = false := by
  have all : (maskList p.ringMask).any (fun i => !d.flag (rB (sid i)) HOST_RING_CFG_ENABLE) = false := List.any_eq_false.mpr fun i named => by
    simp [enabled i (List.mem_filter.mp named).2]
  rw [own, all]
  rfl

theorem Dev.barrierCmd_late (late : 10000000 < p.timeoutUs.toNat) : d.barrierCmd c p = d.completeAt c BAD_PARAM 4 d.time := by
  unfold Dev.barrierCmd
  dsimp only
  rw [Dev.barrier_mask_ok own enabled, if_pos late]
  rfl

/-- A BARRIER that passes its checks holds its ring, and lets its rings go if it is the last. -/
theorem Dev.barrierCmd_holds (timely : p.timeoutUs.toNat ≤ 10000000) : d.barrierCmd c p =
    (d.holdRing c.hdr.ring c p.ringMask (if p.timeoutUs == 0 then none else some (d.now + 1000 * p.timeoutUs.toNat)) HOST_RING_STATUS_BARRIER_WAIT).barrierMeet
      p.ringMask := by
  unfold Dev.barrierCmd
  dsimp only
  rw [Dev.barrier_mask_ok own enabled, if_neg (Nat.not_lt.mpr timely)]
  rfl

end Barrier

/-- While a ring of the mask has not come to its BARRIER none goes on. -/
theorem Dev.barrierMeet_waits {d : Dev} {m : Word} {q : RingId} (named : m.getLsbD q.val = true) (away : d.atBarrier q = false) : d.barrierMeet m = d := by
  refine if_neg fun all => ?_
  have listed : q ∈ (maskList m).map sid :=
    List.mem_map.mpr ⟨q.val, List.mem_filter.mpr ⟨List.mem_range.mpr q.isLt, named⟩, Dev.sid_val q⟩
  rw [List.all_eq_true.mp all q listed] at away
  exact absurd away (by decide)

/-- The mask of one ring names that ring alone. -/
theorem maskList_one (r : RingId) : (maskList (BitVec.twoPow 32 r.val)).map sid = [r] := by
  revert r
  decide

theorem Dev.barrierMeet_alone {d : Dev} {r : RingId} {c : Ctx} {m : Word} {t : Option Nat} (held : (d.ring r).held = some (c, m, t))
    (barrier : c.opcode = 0x11) : d.barrierMeet (BitVec.twoPow 32 r.val) = (d.unhold r).complete c OK := by
  have arrived : d.atBarrier r = true := by simp [Dev.atBarrier, held, barrier]
  unfold Dev.barrierMeet
  simp only [maskList_one, List.all_cons, List.all_nil, arrived, Bool.and_self, if_true, Dev.each, List.foldl_cons, List.foldl_nil, held]

theorem exec_barrierTimeout_held {s : State} {r : RingId} {c : Ctx} {m : Word} {x : Nat} (awake : s.awake = true) (held : (s.ring r).held = some (c, m, some x)) :
    exec (.barrierTimeout r) s = .next (s.withDev (((s.upTo x).unhold r).complete c TIMEOUT)) := by
  rw [exec_barrierTimeout, execBarrierTimeout, State.onAwake_of_awake _ _ awake]
  simp only [held]

/-! ### FENCE -/

/-- The ring as a FENCE holds it. -/
def Dev.fenced (s : Dev) (c : Ctx) : Dev := s.holdRing c.hdr.ring c 0 none HOST_RING_STATUS_FENCE_WAIT

theorem Dev.fenceCmd_eq (s : Dev) (c : Ctx) : s.fenceCmd c = (s.fenced c).fencePass c.hdr.ring := rfl

theorem Dev.fenced_held (s : Dev) (c : Ctx) : ((s.fenced c).ring c.hdr.ring).held = some (c, 0, none) := by rw [Dev.fenced, Dev.holdRing_ring]

theorem Dev.fenced_open (s : Dev) (c : Ctx) : (s.fenced c).open_ c.hdr.ring = s.open_ c.hdr.ring := by
  unfold Dev.open_ Dev.fenced
  rw [Dev.holdRing_ring, Dev.holdRing_fld _ _ _ _ _ _ (by decide)]

theorem Dev.fenced_keeps (s : Dev) (c : Ctx) : s.keeps (s.fenced c) [rB c.hdr.ring + HOST_RING_STATUS] := Dev.holdRing_keeps _ _ _ _ _ _ rfl

/-- While an earlier command of the ring is open the FENCE holds it. -/
theorem Dev.fenceCmd_waits {s : Dev} {c : Ctx} (more : s.open_ c.hdr.ring ≠ 1) : s.fenceCmd c = s.fenced c := by
  rw [Dev.fenceCmd_eq, Dev.fencePass, Dev.fenced_held]
  exact if_neg (by simp [Dev.fenced_open, more])

/-- A FENCE that is the ring's only open command completes OK. -/
theorem Dev.fenceCmd_passes {s : Dev} {c : Ctx} (fence : c.opcode = 0x12) (hub : s.ringFld c.hdr.ring HOST_RING_CFG_NODE = 0)
    (last : s.open_ c.hdr.ring = 1) (relayed : (s.ring c.hdr.ring).relayed = []) : s.fenceCmd c =
      ((s.fenced c).unhold c.hdr.ring).postCpl c.hdr.ring { tag := c.hdr.tag, status := OK, phase := false, relayed := false, opcode := 0x12
                                                            group := c.hdr.group.toNat % 32, node := 0, faultOff := 0xFF, time := (s.fenced c).time }
        (c.hdr.flags.getLsbD 0) := by
  have here : (s.fenced c).fld (rB c.hdr.ring) HOST_RING_CFG_NODE = 0 := (Dev.holdRing_fld _ _ _ _ _ _ (by decide)).trans hub
  have none : ((s.fenced c).ring c.hdr.ring).relayed = [] := by rw [Dev.fenced, Dev.holdRing_ring, relayed]
  rw [Dev.fenceCmd_eq, Dev.fencePass, Dev.fenced_held]
  simp only [fence, Dev.fenced_open, last, none, here, List.isEmpty_nil, beq_self_eq_true, Bool.and_self, if_true]

/-- Settles O54: a BARRIER that passes its checks is `Dev.barrierCmd_holds`, with `Dev.barrierMeet_waits` or `Dev.barrierMeet_alone`; a FENCE is
`Dev.fenceCmd_waits` or `Dev.fenceCmd_passes`. -/
theorem barrierAndFence : Obligations.BarrierAndFence := by
  unfold Obligations.BarrierAndFence
  refine ⟨fun s h r p ready => ⟨exec_barrier_ready ready p, exec_fence_ready ready⟩,
    fun d c p => ⟨fun missing => Dev.barrierCmd_foreign missing, fun own enabled => ⟨fun late => Dev.barrierCmd_late own enabled late,
      fun timely timed missing => ?waits, fun untimed alone barrier => ?alone⟩⟩,
    fun s r c m x awake held => exec_barrierTimeout_held awake held, fun d c fence hub => ⟨fun more => ?fenceWaits, fun last relayed =>
      ⟨(d.fenced c).unhold c.hdr.ring, _, Dev.fenceCmd_passes fence hub last relayed, rfl, rfl, rfl, by rw [Dev.unhold_ring],
        (d.fenced_keeps c).trans (Dev.unhold_shows _ _).2⟩⟩⟩
  case waits =>
    obtain ⟨q, other, named, away⟩ := missing
    rw [Dev.barrierCmd_holds own enabled timely, if_neg (by simpa using timed), Dev.barrierMeet_waits named
      (by rw [Dev.atBarrier, Dev.holdRing_other _ _ _ _ _ _ other]; exact away)]
    exact ⟨by rw [Dev.holdRing_ring], Dev.flag_setFlag_same _ _ _ _ (by decide) rfl, Dev.holdRing_keeps _ _ _ _ _ _ rfl⟩
  case alone =>
    have keeps := d.holdRing_keeps c.hdr.ring c p.ringMask none HOST_RING_STATUS_BARRIER_WAIT rfl
    have holds := Dev.barrierCmd_holds own enabled (by rw [untimed]; decide)
    rw [if_pos (by simp [untimed])] at holds
    rw [holds, alone, Dev.barrierMeet_alone (by rw [Dev.holdRing_ring]) barrier, ← alone]
    exact ⟨_, rfl, by rw [Dev.unhold_ring], (Dev.unhold_shows _ _).1, keeps.trans (Dev.unhold_shows _ _).2⟩
  case fenceWaits =>
    rw [Dev.fenceCmd_waits more]
    exact ⟨d.fenced_held c, Dev.flag_setFlag_same _ _ _ _ (by decide) rfl, d.fenced_keeps c⟩

end Sys2Proof.Machine

namespace Sys2Proof.Machine
open Sys2Proof

/-! ## Capture channels (R380 to R383) -/

/-- The registers in which a channel shows its levels. -/
abbrev levels (c : RingId) : List Nat := [cB c + HOST_CAP_STATUS, cB c + HOST_CAP_WRITTEN_LO, cB c + HOST_CAP_WRITTEN_HI]

theorem Dev.keeps.showChan {s t : Dev} {l : List Nat} (h : s.keeps t l) (c : RingId) (listed : levels c ⊆ l) : s.keeps (t.showChan c) l :=
  (h.wr64 _ _ _ (listed (by simp)) (listed (by simp))).setFlag _ _ _ (listed (by simp))

theorem Dev.showChan_written (s : Dev) (c : RingId) :
    (s.showChan c).rd64 (cB c + HOST_CAP_WRITTEN_LO) (cB c + HOST_CAP_WRITTEN_HI) = BitVec.ofNat 64 (s.chan c).written := by
  rw [Dev.showChan, Dev.rd64, Dev.setFlag, Dev.rd_setFld_other _ _ _ _ _ (by simp), Dev.rd_setFld_other _ _ _ _ _ (by simp), ← Dev.rd64,
    Dev.rd64_wr64_same _ (by simp)]

/-- Credits that are returned change the ports alone. -/
theorem Dev.returnCredits_same (s : Dev) : s.returnCredits.regs = s.regs ∧ s.returnCredits.chans = s.chans ∧ ∀ l, s.keeps s.returnCredits l := by
  unfold Dev.returnCredits
  refine ⟨Dev.each_keeps Dev.regs ?_ _ _, Dev.each_keeps Dev.chans ?_ _ _, fun l => (Dev.keeps_refl s l).each _ fun d _ => (Dev.keeps_refl d l).modPort _ _⟩
  · exact fun _ _ => rfl
  · exact fun _ _ => rfl

section CaptureStart

variable {s : Dev} {c : RingId} (idle : s.flag (cB c) HOST_CAP_STATUS_RUNNING = false)

include idle

theorem Dev.captureStart_empty (empty : s.fld (cB c) HOST_SGL_COUNT_COUNT = 0) (l : Option (List SglEntry)) : s.captureStart c l = s.capError c 1 := by
  simp [Dev.captureStart, idle, empty]

variable (listed : s.fld (cB c) HOST_SGL_COUNT_COUNT ≠ 0) (few : s.fld (cB c) HOST_SGL_COUNT_COUNT ≤ 4096)

include listed few

theorem Dev.captureStart_unread : s.captureStart c none = s.capError c 2 := by
  simp [Dev.captureStart, idle, listed, Nat.not_lt.mpr few]

/-- The channel with its list, nothing written and nothing consumed. -/
def Dev.capOpened (s : Dev) (c : RingId) (l : List SglEntry) : Dev :=
  ((s.modChan c (fun k => { k with sgl := l.map (fun e => (e.addr.toNat, e.len.toNat)), size := (l.map (fun e => e.len.toNat)).sum
                                   backed := 0, written := 0, consumed := 0 })).setFlag (cB c) HOST_CAP_STATUS_RUNNING true).wr64
    (cB c + HOST_CAP_CONSUMED_LO) (cB c + HOST_CAP_CONSUMED_HI) 0

theorem Dev.captureStart_opens {l : List SglEntry} (whole : l.length = s.fld (cB c) HOST_SGL_COUNT_COUNT) (good : sglOk l = true) :
    s.captureStart c (some l) = ((s.capOpened c l).showChan c).returnCredits := by
  have all : l.take (s.fld (cB c) HOST_SGL_COUNT_COUNT) = l := List.take_of_length_le (by omega)
  have size : (l.length < s.fld (cB c) HOST_SGL_COUNT_COUNT) = False := by simp [whole]
  unfold Dev.captureStart
  simp only [idle, all, good, size]
  simp [listed, Nat.not_lt.mpr few, Dev.capOpened]

end CaptureStart

theorem Dev.vector_chan (s : Dev) (v : Fin 40) (c : RingId) : (s.vector v).chan c = s.chan c := rfl

theorem Dev.wr64_chan (s : Dev) (a b : Nat) (v : Word64) (c : RingId) : (s.wr64 a b v).chan c = s.chan c := rfl

theorem Dev.capOpened_chan (s : Dev) (c : RingId) (l : List SglEntry) : ((s.capOpened c l).chan c).written = 0 ∧ ((s.capOpened c l).chan c).consumed = 0 ∧
    ((s.capOpened c l).chan c).size = (l.map (fun e => e.len.toNat)).sum := by
  rw [Dev.capOpened, Dev.wr64_chan, Dev.setFlag_chan, Dev.chan_modChan_same]
  exact ⟨rfl, rfl, rfl⟩

theorem Dev.capOpened_shows (s : Dev) (c : RingId) (l : List SglEntry) : (s.capOpened c l).flag (cB c) HOST_CAP_STATUS_RUNNING = true ∧
    s.keeps (s.capOpened c l) [cB c + HOST_CAP_STATUS, cB c + HOST_CAP_CONSUMED_LO, cB c + HOST_CAP_CONSUMED_HI] := by
  refine ⟨?_, (((Dev.keeps_refl s _).modChan _ _).setFlag _ _ _ (by simp)).wr64 _ _ _ (by simp) (by simp)⟩
  rw [Dev.capOpened, Dev.wr64, Dev.flag_wr_word _ _ _ _ _ (by simp), Dev.flag_wr_word _ _ _ _ _ (by simp)]
  exact Dev.flag_setFlag_same _ _ _ _ (by decide) rfl

/-! ### The stop and the records -/

theorem Dev.captureStop_runs {s : Dev} {c : RingId} (runs : s.flag (cB c) HOST_CAP_STATUS_RUNNING = true) :
    s.captureStop c = ((s.writeBack c).setFlag (cB c) HOST_CAP_STATUS_RUNNING false).showChan c := if_pos runs

theorem Dev.writeBack_chan (s : Dev) (c : RingId) : (s.writeBack c).chan c = { s.chan c with
    backed := if s.rd64 (cB c + HOST_CAP_WB_LO) (cB c + HOST_CAP_WB_HI) = 0 then (s.chan c).backed else (s.chan c).written } := by
  unfold Dev.writeBack
  by_cases nowhere : s.rd64 (cB c + HOST_CAP_WB_LO) (cB c + HOST_CAP_WB_HI) = 0
  · rw [if_pos (by simp [nowhere]), if_pos nowhere]
  · rw [if_neg (by simpa using nowhere), if_neg nowhere, Dev.chan_modChan_same]

theorem Dev.writeBack_keeps (s : Dev) (c : RingId) (l : List Nat) : s.keeps (s.writeBack c) l := by
  unfold Dev.writeBack
  split
  · exact Dev.keeps_refl s l
  · exact (Dev.keeps_refl s l).modChan _ _

theorem Dev.buffered_chan (s : Dev) (c : RingId) (x : Rec) : (s.buffered c x).chan c = { s.chan c with written := (s.chan c).written + 16, out := some x } := by
  rw [Dev.buffered, Dev.showChan_chan, Dev.chan_modChan_same]

theorem Dev.countRecord_cases (s : Dev) (c : RingId) (x : Rec) : s.countRecord c x = s.buffered c x ∨
    s.countRecord c x = ((s.buffered c x).setFlag (rB c) HOST_RING_CAUSE_CAPTURE true).vector (ringVector c) := by
  unfold Dev.countRecord
  dsimp only
  split
  · exact .inr rfl
  · exact .inl rfl

theorem Dev.countRecord_chan (s : Dev) (c : RingId) (x : Rec) :
    (s.countRecord c x).chan c = { s.chan c with written := (s.chan c).written + 16, out := some x } := by
  rcases s.countRecord_cases c x with e | e <;> rw [e]
  · exact s.buffered_chan c x
  · rw [Dev.vector_chan, Dev.setFlag_chan, Dev.buffered_chan]

theorem Dev.countRecord_keeps (s : Dev) (c : RingId) (x : Rec) : s.keeps (s.countRecord c x)
    [cB c + HOST_CAP_STATUS, cB c + HOST_CAP_WRITTEN_LO, cB c + HOST_CAP_WRITTEN_HI, rB c + HOST_RING_CAUSE] := by
  have buffered : s.keeps (s.buffered c x) [cB c + HOST_CAP_STATUS, cB c + HOST_CAP_WRITTEN_LO, cB c + HOST_CAP_WRITTEN_HI, rB c + HOST_RING_CAUSE] :=
    ((Dev.keeps_refl s _).modChan _ _).showChan c (by simp)
  rcases s.countRecord_cases c x with e | e <;> rw [e]
  · exact buffered
  · exact (buffered.setFlag _ _ _ (by simp)).vector _

section RecordWrite

variable {s : Dev} {c : RingId} (up : s.hostUp = true) (runs : s.flag (cB c) HOST_CAP_STATUS_RUNNING = true)
  (room : (s.chan c).written - (s.chan c).consumed + 16 ≤ (s.chan c).size)

include up runs room

theorem Dev.captureRecordWrite_remote {x : Rec} {l : List Rec} (remote : s.ringFld c HOST_RING_CFG_NODE ≠ 0) (queue : (s.chan c).queue = x :: l) :
    s.captureRecordWrite c = (s.modChan c (fun q => { q with queue := l })).countRecord c x := by
  unfold Dev.captureRecordWrite
  simp [up, runs, Nat.not_lt.mpr room, remote, queue]

theorem Dev.captureRecordWrite_own (own : s.ringFld c HOST_RING_CFG_NODE = 0) (region : s.capSize (sid (s.ringFld c HOST_RING_CFG_GROUP)) ≠ 0)
    (waits : s.capUsed (sid (s.ringFld c HOST_RING_CFG_GROUP)) ≠ 0) : s.captureRecordWrite c =
      ((s.eccRead (s.capAddr (sid (s.ringFld c HOST_RING_CFG_GROUP)) 0) 16 rdCap).capTake (sid (s.ringFld c HOST_RING_CFG_GROUP)) 1).countRecord c
        (s.capRec (sid (s.ringFld c HOST_RING_CFG_GROUP)) 0) := by
  unfold Dev.captureRecordWrite
  simp [up, runs, Nat.not_lt.mpr room, own, region, waits]

end RecordWrite

/-! ### CONSUMED -/

/-- The host's CONSUMED is taken, and the levels are shown. -/
def Dev.consumedTaken (s : Dev) (c : RingId) (v : Word) : Dev :=
  ((s.wr (cB c + HOST_CAP_CONSUMED_LO) v).modChan c (fun q => { q with consumed := (s.rd (cB c + HOST_CAP_CONSUMED_HI) ++ v).toNat })).showChan c

theorem Dev.consumedTaken_shows (s : Dev) (c : RingId) (v : Word) :
    ((s.consumedTaken c v).chan c).consumed = (s.rd (cB c + HOST_CAP_CONSUMED_HI) ++ v).toNat ∧ (s.consumedTaken c v).rd (cB c + HOST_CAP_CONSUMED_LO) = v ∧
    s.keeps (s.consumedTaken c v) [cB c + HOST_CAP_CONSUMED_LO, cB c + HOST_CAP_STATUS, cB c + HOST_CAP_WRITTEN_LO, cB c + HOST_CAP_WRITTEN_HI] := by
  refine ⟨by rw [Dev.consumedTaken, Dev.showChan_chan, Dev.chan_modChan_same], ?_,
    (((Dev.keeps_refl s _).wr _ _ (by simp)).modChan _ _).showChan c (by simp)⟩
  rw [Dev.consumedTaken, ((Dev.keeps_refl ((s.wr (cB c + HOST_CAP_CONSUMED_LO) v).modChan c
    (fun q => { q with consumed := (s.rd (cB c + HOST_CAP_CONSUMED_HI) ++ v).toNat })) (levels c)).showChan c (fun _ h => h)).1 _ (by simp)]
  exact Dev.rd_wr_same _ _ _

theorem Dev.consumedWrite_beyond {s : Dev} {c : RingId} {v : Word} (beyond : (s.chan c).written < (s.rd (cB c + HOST_CAP_CONSUMED_HI) ++ v).toNat) :
    s.consumedWrite c v = s.hostRefuse := if_pos (by simp [beyond])

theorem Dev.consumedWrite_within {s : Dev} {c : RingId} {v : Word} (written : (s.rd (cB c + HOST_CAP_CONSUMED_HI) ++ v).toNat ≤ (s.chan c).written)
    (onward : (s.chan c).consumed ≤ (s.rd (cB c + HOST_CAP_CONSUMED_HI) ++ v).toNat) (whole : (s.rd (cB c + HOST_CAP_CONSUMED_HI) ++ v).toNat % 16 = 0) :
    s.consumedWrite c v = s.consumedTaken c v ∨ s.consumedWrite c v = (s.consumedTaken c v).returnCredits := by
  have good : (decide ((s.chan c).written < (s.rd (cB c + HOST_CAP_CONSUMED_HI) ++ v).toNat) ||
      decide ((s.rd (cB c + HOST_CAP_CONSUMED_HI) ++ v).toNat < (s.chan c).consumed) || (s.rd (cB c + HOST_CAP_CONSUMED_HI) ++ v).toNat % 16 != 0) = false := by
    rw [decide_eq_false (Nat.not_lt.mpr written), decide_eq_false (Nat.not_lt.mpr onward), whole]
    rfl
  unfold Dev.consumedWrite
  dsimp only
  rw [good, if_neg (by decide)]
  split
  · exact .inr rfl
  · exact .inl rfl

/-! ## MSI-X vectors (R365) -/

theorem Dev.modVect_get (s : Dev) (v : Fin 40) (f : Vect → Vect) : (s.modVect v f).vects.get v = f (s.vects.get v) := by
  rw [Dev.modVect, vector_get_set, if_pos rfl]

theorem Dev.msixSend_sends {s : Dev} {v : Fin 40} (up : s.hostUp = true) (due : (s.vects.get v).due = true) (unmasked : (s.vects.get v).masked = false)
    (function : s.cfg.fmask = false) (enabled : s.cfg.msix = true) : s.msixSend v = (s.upTo (s.vects.get v).free).modVect v (fun y =>
      { y with due := false, sent := y.sent + 1, free := (s.upTo (s.vects.get v).free).now + s.fld 0 HOST_IRQ_HOLDOFF_NS }) := by
  simp [Dev.msixSend, due, up, unmasked, function, enabled]

theorem Dev.msixSend_pends {s : Dev} {v : Fin 40} (up : s.hostUp = true) (due : (s.vects.get v).due = true) (masked : (s.vects.get v).masked = true) :
    s.msixSend v = s.modVect v (fun y => { y with due := false, pending := true }) := by
  simp [Dev.msixSend, due, up, masked]

/-- A vector that nothing masks any more and was pending is due. -/
theorem Dev.releaseVectors_get {s : Dev} (enabled : s.cfg.msix = true) (unmasked : s.cfg.fmask = false) (v : Fin 40) : s.releaseVectors.vects.get v =
    if (s.vects.get v).pending && !(s.vects.get v).masked then { s.vects.get v with pending := false, due := true } else s.vects.get v := by
  have vects : s.releaseVectors.vects = s.vects.map (fun x => if x.pending && !x.masked then { x with pending := false, due := true } else x) := by
    rw [Dev.releaseVectors, if_pos (by simp [enabled, unmasked])]
  rw [vects]
  simp [Vector.get]

theorem Dev.releaseVectors_same (s : Dev) : s.releaseVectors.cfg = s.cfg ∧ ∀ l, s.keeps s.releaseVectors l := by
  unfold Dev.releaseVectors
  split
  · exact ⟨rfl, fun l => ⟨fun _ _ => rfl, rfl, rfl, rfl⟩⟩
  · exact ⟨rfl, Dev.keeps_refl s⟩

/-! ## Configuration requests (R52, R360) -/

/-- Configuration requests change the configuration space of the function. -/
def Dev.withCfg (s : Dev) (f : Cfg → Cfg) : Dev := { s with cfg := f s.cfg }

theorem Dev.withCfg_keeps (s : Dev) (f : Cfg → Cfg) (l : List Nat) : s.keeps (s.withCfg f) l := ⟨fun _ _ => rfl, rfl, rfl, rfl⟩

theorem Dev.configRequest_retried {s : Dev} (link : s.cfg.link = true) (retry : s.cfgRetry = true) (q : CfgReq) :
    s.configRequest q = { s with answer := ⟨0, false, true⟩ } := by
  simp [Dev.configRequest, link, retry]

/-- A request that is answered acts on the capability it names. -/
theorem Dev.configRequest_answered {s : Dev} (link : s.cfg.link = true) (answers : s.cfgRetry = false) :
    s.configRequest .read = { s with answer := ⟨0x32001F3E, false, false⟩ } ∧
    (∀ on, s.configRequest (.ptmEnable on) = s.withCfg (fun c => { c with ptm := on })) ∧
    (∀ en mask, s.configRequest (.msixControl en mask) = (s.withCfg (fun c => { c with msix := en, fmask := mask })).releaseVectors) ∧
    (s.cfg.d3 = false → s.configRequest (.powerState true) = s.d3Enter) ∧ (s.cfg.d3 = true → s.configRequest (.powerState false) = s.hostClear) ∧
    s.configRequest .otherWrite = s := by
  refine ⟨?_, fun on => ?_, fun en mask => ?_, fun up => ?_, fun low => ?_, ?_⟩
  · simp [Dev.configRequest, link, answers]
  · simp [Dev.configRequest, link, answers, Dev.withCfg]
  · simp [Dev.configRequest, link, answers, Dev.withCfg]
  · simp [Dev.configRequest, link, answers, up]
  · simp [Dev.configRequest, link, answers, low]
  · simp [Dev.configRequest, link, answers]

section Awake

variable {s : State} (awake : s.awake = true)

include awake

theorem exec_captureStart_awake (c : RingId) (l : Option (List SglEntry)) : exec (.captureStart c l) s = .next (s.withDev (s.captureStart c l)) := by
  rw [exec_captureStart, execCaptureStart, State.onAwake_of_awake _ _ awake]

theorem exec_captureStop_awake (c : RingId) : exec (.captureStop c) s = .next (s.withDev (s.captureStop c)) := by
  rw [exec_captureStop, execCaptureStop, State.onAwake_of_awake _ _ awake]

theorem exec_captureWriteback_runs {c : RingId} (up : s.hostUp = true) (runs : s.flag (cB c) HOST_CAP_STATUS_RUNNING = true) :
    exec (.captureWriteback c) s = .next (s.withDev (s.writeBack c)) := by
  rw [exec_captureWriteback, execCaptureWriteback, State.onAwake_of_awake _ _ awake, if_pos (by simp [up, runs])]

theorem exec_captureRecordWrite_awake (c : RingId) : exec (.captureRecordWrite c) s = .next (s.withDev (s.captureRecordWrite c)) := by
  rw [exec_captureRecordWrite, execCaptureRecordWrite, State.onAwake_of_awake _ _ awake]

theorem exec_consumedWrite_awake (c : RingId) (v : Word) : exec (.consumedWrite c v) s = .next (s.withDev (s.consumedWrite c v)) := by
  rw [exec_consumedWrite, execConsumedWrite, State.onAwake_of_awake _ _ awake]

theorem exec_msiXSend_awake (v : Fin 40) : exec (.msiXSend v) s = .next (s.withDev (s.msixSend v)) := by
  rw [exec_msiXSend, execMsiXSend, State.onAwake_of_awake _ _ awake]

theorem exec_msiXUnmask_one (v : Fin 40) : exec (.msiXUnmask (some v)) s = .next (s.withDev (s.modVect v (fun x => { x with masked := false })).releaseVectors) := by
  rw [exec_msiXUnmask, execMsiXUnmask, State.onAwake_of_awake _ _ awake]
  rfl

theorem exec_msiXUnmask_function : exec (.msiXUnmask none) s = .next (s.withDev (s.withCfg (fun c => { c with fmask := false })).releaseVectors) := by
  rw [exec_msiXUnmask, execMsiXUnmask, State.onAwake_of_awake _ _ awake]
  rfl

theorem exec_configurationRequest_awake (q : CfgReq) : exec (.configurationRequest q) s = .next (s.withDev (s.configRequest q)) := by
  rw [exec_configurationRequest, execConfigurationRequest, State.onAwake_of_awake _ _ awake]

end Awake

/-- Settles O55: a start, a stop, a record, a CONSUMED, a send, an unmask and a request are the lemmas above, each for its command. -/
theorem captureDmaAndVectors : Obligations.CaptureDmaAndVectors := by
  unfold Obligations.CaptureDmaAndVectors
  refine ⟨fun s c awake idle => ⟨fun empty l => ?empty, fun listed few => ⟨?unread, fun l whole good => ⟨_, exec_captureStart_awake awake c _, ?opens⟩⟩⟩,
    fun s c awake runs => ⟨⟨_, exec_captureStop_awake awake c, ?stops⟩, fun up address => ⟨_, exec_captureWriteback_runs awake up runs, ?back⟩,
      fun x l up room => ⟨fun remote queue => ⟨_, exec_captureRecordWrite_awake awake c, ?record⟩, fun own region waits => ?own⟩⟩,
    fun d c x => ?counted, fun s c v awake => ⟨fun beyond => ⟨_, exec_consumedWrite_awake awake c v, ?beyond⟩, fun written onward whole =>
      ⟨_, exec_consumedWrite_awake awake c v, ?within⟩⟩,
    fun s v awake up due => ⟨fun unmasked function enabled => ⟨_, exec_msiXSend_awake awake v, ?sends⟩, fun masked => ⟨_, exec_msiXSend_awake awake v, ?pends⟩⟩,
    fun s v awake enabled => ⟨fun function pending => ⟨_, exec_msiXUnmask_one awake v, ?one⟩, ⟨_, exec_msiXUnmask_function awake, ?function⟩⟩,
    fun s awake link => ⟨fun retry q => ?retry, fun answers => ?answers⟩⟩
  case empty => rw [exec_captureStart_awake awake, Dev.captureStart_empty idle empty]
  case unread => rw [exec_captureStart_awake awake, Dev.captureStart_unread idle listed few]
  case opens =>
    obtain ⟨written, consumed, size⟩ := s.capOpened_chan c l
    obtain ⟨runs, keeps⟩ := s.capOpened_shows c l
    obtain ⟨regs, chans, same⟩ := ((s.capOpened c l).showChan c).returnCredits_same
    have chan : (((s.capOpened c l).showChan c).returnCredits).chan c = (s.capOpened c l).chan c := by rw [Dev.chan, chans, ← Dev.chan, Dev.showChan_chan]
    have rd (a : Nat) : ((s.capOpened c l).showChan c).returnCredits.rd a = ((s.capOpened c l).showChan c).rd a := by rw [Dev.rd, regs, ← Dev.rd]
    rw [State.withDev_toDev, Dev.captureStart_opens idle listed few whole good]
    refine ⟨?_, by rw [chan, written], by rw [chan, consumed], by rw [chan, size], ?_, ?_⟩
    · rw [Dev.flag, Dev.fld, rd, ← Dev.fld, ← Dev.flag, Dev.showChan_running, runs]
    · rw [Dev.rd64, rd, rd, ← Dev.rd64, Dev.showChan_written, written]
      rfl
    · exact ((keeps.mono (by simp)).showChan c (by simp)).trans (same _)
  case stops =>
    rw [State.withDev_toDev, Dev.captureStop_runs runs, Dev.showChan_running, Dev.showChan_chan, Dev.setFlag_chan, Dev.writeBack_chan]
    exact ⟨Dev.flag_setFlag_same _ _ _ _ (by decide) rfl, rfl, rfl, ((s.writeBack_keeps c _).setFlag _ _ _ (by simp)).showChan c (by simp)⟩
  case back =>
    rw [State.withDev_toDev, Dev.writeBack_chan]
    exact ⟨if_neg address, s.writeBack_keeps c _⟩
  case record =>
    rw [State.withDev_toDev, Dev.captureRecordWrite_remote up runs room remote queue, Dev.countRecord_chan, Dev.chan_modChan_same]
    exact ⟨rfl, rfl, rfl, ((Dev.keeps_refl s.toDev _).modChan _ _).trans (Dev.countRecord_keeps _ _ _)⟩
  case own => rw [exec_captureRecordWrite_awake awake, Dev.captureRecordWrite_own up runs room own region waits]
  case counted => simp [Dev.countRecord_chan]
  case beyond =>
    rw [State.withDev_toDev, Dev.consumedWrite_beyond beyond]
    exact ⟨s.hostRefuse_spec.1, s.hostRefuse_spec.2, rfl⟩
  case within =>
    obtain ⟨consumed, low, keeps⟩ := s.consumedTaken_shows c v
    obtain ⟨regs, chans, same⟩ := (s.consumedTaken c v).returnCredits_same
    rw [State.withDev_toDev]
    rcases Dev.consumedWrite_within written onward whole with e | e <;> rw [e]
    · exact ⟨consumed, low, keeps⟩
    · exact ⟨by rw [Dev.chan, chans, ← Dev.chan, consumed], by rw [Dev.rd, regs, ← Dev.rd, low], keeps.trans (same _)⟩
  case sends =>
    rw [State.withDev_toDev, Dev.msixSend_sends up due unmasked function enabled, Dev.modVect_get, Dev.modVect_now, Dev.upTo_vects]
    exact ⟨rfl, rfl, s.upTo_now _ awake, rfl, ((Dev.keeps_refl s.toDev []).upTo _).modVect _ _⟩
  case pends =>
    rw [State.withDev_toDev, Dev.msixSend_pends up due masked, Dev.modVect_get]
    exact ⟨rfl, rfl, rfl, (Dev.keeps_refl s.toDev []).modVect _ _⟩
  case one =>
    have freed := Dev.releaseVectors_get (s := s.modVect v (fun x => { x with masked := false })) enabled function v
    rw [Dev.modVect_get] at freed
    rw [State.withDev_toDev, freed, if_pos (by simp [pending])]
    exact ⟨rfl, rfl, rfl, ((Dev.keeps_refl s.toDev []).modVect _ _).trans ((Dev.releaseVectors_same _).2 _)⟩
  case function =>
    have freed := Dev.releaseVectors_get (s := s.withCfg (fun c => { c with fmask := false })) enabled rfl v
    obtain ⟨cfg, same⟩ := (s.withCfg (fun c => { c with fmask := false })).releaseVectors_same
    rw [State.withDev_toDev, cfg]
    refine ⟨rfl, (s.withCfg_keeps _ []).trans (same []), fun unmasked pending => ?_⟩
    rw [freed, if_pos]
    exact Bool.and_eq_true_iff.mpr ⟨pending, congrArg (!·) unmasked⟩
  case retry => rw [exec_configurationRequest_awake awake, Dev.configRequest_retried link retry]
  case answers =>
    obtain ⟨read, ptm, msix, enters, leaves, other⟩ := Dev.configRequest_answered link answers
    refine ⟨by rw [exec_configurationRequest_awake awake, read], fun on => ⟨_, exec_configurationRequest_awake awake _, ?_⟩,
      fun en mask => ⟨_, exec_configurationRequest_awake awake _, ?_⟩, fun up => by rw [exec_configurationRequest_awake awake, enters up],
      fun low => by rw [exec_configurationRequest_awake awake, leaves low], by rw [exec_configurationRequest_awake awake, other, State.withDev_self]⟩
    · rw [State.withDev_toDev, ptm]
      exact ⟨rfl, s.withCfg_keeps _ _⟩
    · obtain ⟨cfg, same⟩ := (s.withCfg (fun c => { c with msix := en, fmask := mask })).releaseVectors_same
      rw [State.withDev_toDev, msix, cfg]
      exact ⟨rfl, rfl, (s.withCfg_keeps _ []).trans (same [])⟩

end Sys2Proof.Machine

namespace Sys2Proof.Machine
open Sys2Proof

/-! ## Scrub and exclusion ranges (R304, R309, R317) -/

/-- A word that awaits its scrub is taken from the queue. -/
def Dev.unscrub (s : Dev) (w : Nat) : Dev := s.modMem (fun m => { m with scrub := m.scrub.filter (fun x => x != w) })

theorem exec_scrubWrite_awaited {s : State} {w : Nat} (awake : s.awake = true) (awaited : s.memst.scrub.contains w = true) (bad : Bool) :
    exec (.scrubWrite w bad) s = .next (s.withDev (if bad then (s.unscrub w).queueRetest (s.tileOf (8 * w))
      else (s.unscrub w).modMem (fun m => { m with bad := m.bad.filter (fun b => b.1 != w) }))) := by
  rw [exec_scrubWrite, execScrubWrite, State.onAwake_of_awake _ _ awake, if_pos awaited]
  rfl

theorem exec_scrubWrite_dropped {s : State} {w : Nat} (dropped : s.memst.scrub.contains w = false) (bad : Bool) : exec (.scrubWrite w bad) s = .next s := by
  rw [exec_scrubWrite, execScrubWrite]
  exact State.onAwake_of_id (if_neg (by rw [dropped]; decide))

theorem Dev.queueRetest_spec (s : Dev) (t : Nat) : (s.queueRetest t).memst = { s.memst with retest := (s.queueRetest t).memst.retest } ∧
    (s.memst.retest.length < 4 → t ∈ (s.queueRetest t).memst.retest) ∧ ∀ l, s.keeps (s.queueRetest t) l := by
  unfold Dev.queueRetest
  split
  next full =>
    refine ⟨rfl, fun room => ?_, Dev.keeps_refl s⟩
    simpa [Nat.not_le.mpr room] using full
  next => exact ⟨rfl, fun _ => by simp, fun l => ⟨fun _ _ => rfl, rfl, rfl, rfl⟩⟩

theorem exec_exclusionWrite_awake {s : State} (awake : s.awake = true) (rq : Requester) (e : Fin 8) (len : Bool) (v : Word) :
    exec (.exclusionWrite rq e len v) s = .next (s.withDev (if rq = .surveyor ∧ (if len then exclusionOk (s.rd (MEM_EXCL_START + 8 * e.val)).toNat v.toNat
      else exclusionOk v.toNat (s.rd (MEM_EXCL_LEN + 8 * e.val)).toNat) = true then
        s.wr (if len then MEM_EXCL_LEN + 8 * e.val else MEM_EXCL_START + 8 * e.val) v else s.memRefuse)) := by
  rw [exec_exclusionWrite, execExclusionWrite, State.onAwake_of_awake _ _ awake]

theorem Dev.memRefuse_spec (s : Dev) : s.memRefuse.flag 0 MEM_STATUS_REFUSED = true ∧ s.keeps s.memRefuse [MEM_STATUS] :=
  ⟨Dev.flag_setFlag_same _ _ _ _ (by decide) rfl, (Dev.keeps_refl s _).setFlag _ _ _ (by simp)⟩

/-! ## Resurvey (R306, R308) -/

/-- The next pace tick. -/
def Dev.paceNext (s : Dev) : Dev :=
  (s.upTo (s.memst.paceAt + 1000 * s.fld 0 MEM_RS_CFG_PACE_US)).modMem (fun m =>
    { m with paceAt := (s.upTo (s.memst.paceAt + 1000 * s.fld 0 MEM_RS_CFG_PACE_US)).now })

theorem exec_resurveyPaceTick_runs {s : State} (awake : s.awake = true) (step : 9 ≤ s.boot.step) : exec .resurveyPaceTick s = .next (s.withDev
    (if !s.flag 0 MEM_RS_CFG_ENABLE then s.paceNext else if s.memst.test.isSome then s.paceNext.modMem (fun m => { m with due := true }) else s.paceNext.nextTest)) := by
  have flag : s.paceNext.flag 0 MEM_RS_CFG_ENABLE = s.flag 0 MEM_RS_CFG_ENABLE := by rw [Dev.paceNext, Dev.modMem_flag, Dev.upTo_flag]
  have test : s.paceNext.memst.test = s.memst.test := by rw [Dev.paceNext, Dev.modMem_memst, Dev.upTo_memst]
  rw [exec_resurveyPaceTick, execResurveyPaceTick, State.onAwake_of_awake _ _ awake, if_neg (by omega), ← flag, ← test]
  rfl

theorem Dev.paceNext_shows {s : Dev} (awake : s.awake = true) : s.paceNext.now = max s.now (s.memst.paceAt + 1000 * s.fld 0 MEM_RS_CFG_PACE_US) ∧
    s.paceNext.memst = { s.memst with paceAt := s.paceNext.now } ∧ s.keeps s.paceNext [] := by
  refine ⟨by rw [Dev.paceNext, Dev.modMem_now, Dev.upTo_now _ _ awake], ?_, ((Dev.keeps_refl s []).upTo _).modMem _⟩
  rw [Dev.paceNext, Dev.modMem_memst, Dev.upTo_memst, Dev.modMem_now]

/-- A test that is over. -/
def Dev.testOver (s : Dev) (x : TileTest) : Dev :=
  ((s.upTo (x.start + 392)).modMem (fun m => { m with test := none })).setFlag 0 MEM_RS_STATUS_BUSY false

theorem Dev.testOver_shows {s : Dev} (awake : s.awake = true) (x : TileTest) : (s.testOver x).now = max s.now (x.start + 392) ∧
    (s.testOver x).memst = { s.memst with test := none } ∧ (s.testOver x).flag 0 MEM_RS_STATUS_BUSY = false ∧
    (s.testOver x).flag 0 MEM_RS_STATUS_PATTERN = s.flag 0 MEM_RS_STATUS_PATTERN ∧ s.keeps (s.testOver x) [MEM_RS_STATUS] := by
  refine ⟨by rw [Dev.testOver, Dev.setFlag_now, Dev.modMem_now, Dev.upTo_now _ _ awake],
    by rw [Dev.testOver, Dev.setFlag_memst, Dev.modMem_memst, Dev.upTo_memst], Dev.flag_setFlag_same _ _ _ _ (by decide) rfl,
    by rw [Dev.testOver, Dev.flag_setFlag_apart (by decide), Dev.modMem_flag, Dev.upTo_flag],
    (((Dev.keeps_refl s _).upTo _).modMem _).setFlag _ _ _ (by simp)⟩

/-- A pass is counted, and the pattern changes, with its last position done. -/
theorem Dev.endPass_shows (s : Dev) : s.endPass.rd MEM_RS_PASS = s.rd MEM_RS_PASS + (if s.memst.next = 166400 then 1 else 0) ∧
    s.endPass.memst = { s.memst with next := if s.memst.next = 166400 then 0 else s.memst.next } ∧
    s.endPass.flag 0 MEM_RS_STATUS_PATTERN = (s.flag 0 MEM_RS_STATUS_PATTERN != decide (s.memst.next = 166400)) ∧
    s.endPass.flag 0 MEM_RS_STATUS_BUSY = s.flag 0 MEM_RS_STATUS_BUSY ∧ s.endPass.now = s.now ∧ s.keeps s.endPass [MEM_RS_STATUS, MEM_RS_PASS] := by
  by_cases last : s.memst.next = 166400
  · have ends : s.endPass = ((s.modMem (fun m => { m with next := 0 })).addWord MEM_RS_PASS 1).setFlag 0 MEM_RS_STATUS_PATTERN
        (!s.flag 0 MEM_RS_STATUS_PATTERN) := if_pos (by simp [last])
    rw [ends, if_pos last, if_pos last, decide_eq_true last]
    refine ⟨?_, rfl, (Dev.flag_setFlag_same _ _ _ _ (by decide) rfl).trans (by simp), ?_, by simp [Dev.addWord],
      (((Dev.keeps_refl s _).modMem _).wr _ _ (by simp)).setFlag _ _ _ (by simp)⟩
    · rw [Dev.setFlag, Dev.rd_setFld_other _ _ _ _ _ (by decide), Dev.addWord, Dev.rd_wr_same, Dev.modMem_rd]
      rfl
    · rw [Dev.flag_setFlag_apart (by decide), Dev.addWord, Dev.flag_wr_word _ _ _ _ _ (by decide), Dev.modMem_flag]
  · have goes : s.endPass = s := if_neg (by simp [last])
    rw [goes, if_neg last, if_neg last, decide_eq_false last]
    exact ⟨by simp, rfl, by simp, rfl, rfl, Dev.keeps_refl s _⟩

/-- With no test due the end of one that passes is `Dev.testOver`, the end of its pass, and the end of its bank's reset. -/
theorem exec_resurveyTestDone_passed {s : State} {x : TileTest} (awake : s.awake = true) (test : s.memst.test = some x) (idle : s.memst.due = false) :
    exec (.resurveyTestDone false) s = .next (s.withDev (((s.testOver x).endPass.endReset (target 2 x.tile)).modMem (fun m => { m with due := false }))) := by
  have due : ((s.testOver x).endPass.endReset (target 2 x.tile)).memst.due = false := by
    rw [Dev.endReset, Dev.modCol_memst, (s.testOver x).endPass_shows.2.1, (Dev.testOver_shows awake x).2.1, idle]
  rw [exec_resurveyTestDone, execResurveyTestDone, State.onAwake_of_awake _ _ awake]
  simp only [test]
  exact congrArg (fun d => Host.Outcome.next (s.withDev d)) (if_neg (by simp only [Bool.false_eq_true, if_false]; rw [← Dev.testOver, due]; simp))

/-! ## Repair (R310 to R312) -/

/-- An entry is in force, and stands in the list. -/
def Dev.repairEntered (s : Dev) (k : Nat) (e : Word) : Dev := (s.modMem (fun m => { m.apply e with entries := m.entries ++ [e] })).showSpares k

theorem MemSt.apply_commit (m : MemSt) (w : Word) : (m.apply w).commit = m.commit := by
  unfold MemSt.apply
  dsimp only
  split
  · rfl
  · split
    · rfl
    · split <;> rfl

theorem Dev.repairEntered_shows (s : Dev) (k : Nat) (e : Word) : (s.repairEntered k e).memst.entries = s.memst.entries ++ [e] ∧
    (s.repairEntered k e).memst.commit = s.memst.commit ∧ (s.repairEntered k e).mem = s.mem := by
  refine ⟨rfl, ?_, rfl⟩
  rw [Dev.repairEntered, Dev.showSpares, Dev.setFld_memst, Dev.modMem_memst]
  exact MemSt.apply_commit _ _

/-- While a commit is under way another one waits. -/
theorem Dev.startRepairCommit_waits {s : Dev} (busy : s.memst.commit.isSome = true) : s.startRepairCommit = s.modMem (fun m => { m with waiting := true }) :=
  if_pos (by simp [busy])

theorem Dev.tileFails_repaired {d : Dev} {p sp : Nat} (tile : p % 520 < 512) (spare : d.memst.freeSpare (p / 520) = some sp) : d.tileFails p =
    (((d.addFld 0 MEM_RS_FAILS_FAILS 1).repairEntered (p / 520) (repairEntry p sp false)).startRepairCommit).raise (0x140 + p / 520) 3 (d.servedOffset p) 0xFF := by
  have served : (d.addFld 0 MEM_RS_FAILS_FAILS 1).servedOffset p = d.servedOffset p := rfl
  have free : (d.addFld 0 MEM_RS_FAILS_FAILS 1).memst.freeSpare (p / 520) = some sp := spare
  unfold Dev.tileFails
  simp only [free, served]
  rw [if_neg (by simp [tile])]
  rfl

theorem Dev.setNv_same (s : Dev) (a : Nat) (l : List Byte) : (s.setNv a l).regs = s.regs ∧ (s.setNv a l).mem = s.mem ∧ (s.setNv a l).memst = s.memst := by
  induction l generalizing s a with
  | nil => exact ⟨rfl, rfl, rfl⟩
  | cons b l ih => exact ih _ _

/-- The list as the commit writes it. -/
def Dev.committed (s : Dev) : List Word := s.memst.entries.take 5120

/-- The sequence number of the copy a commit writes. -/
def Dev.repairSeq (s : Dev) : Nat :=
  match s.repairActive with
  | some c => s.nvNum (repairCopy c + 4) 4 + 1
  | none => 1

/-- The first byte of the inactive copy. -/
def Dev.repairPlace (s : Dev) : Nat :=
  repairCopy (match s.repairActive with
    | some 0 => 1
    | _ => 0)

/-- The list as the bytes of a good copy (R319). -/
def Dev.repairImage (s : Dev) : List Byte :=
  leBytes 4 0x50524552 ++ leBytes 4 s.repairSeq ++ leBytes 4 s.committed.length ++
    leBytes 4 (crc32 (s.committed.flatMap (fun e => leBytes 4 e.toNat))).toNat ++ s.committed.flatMap (fun e => leBytes 4 e.toNat)

/-- The device after a commit that reads back right: the inactive copy is written, and the status counts its entries. -/
def Dev.repairCommitted (s : Dev) : Dev :=
  ((((s.setNv s.repairPlace s.repairImage).modMem (fun m => { m with commit := none })).setFlag 0 MEM_REPAIR_STATUS_COMMIT_BUSY false).setFld 0
    MEM_REPAIR_STATUS_ENTRIES s.committed.length).setFld 0 MEM_REPAIR_STATUS_SEQ s.repairSeq

theorem Dev.repairCommitted_memst (s : Dev) : s.repairCommitted.memst = { s.memst with commit := none } := by
  rw [Dev.repairCommitted, Dev.setFld_memst, Dev.setFld_memst, Dev.setFlag_memst, Dev.modMem_memst, (Dev.setNv_same _ _ _).2.2]

/-- With no other commit waiting a commit that reads back right is over. -/
theorem exec_repairCommit_good {s : State} {c : Nat} (awake : s.awake = true) (commit : s.memst.commit = some c) (alone : s.memst.waiting = false) :
    exec (.repairCommit true) s = .next (s.withDev s.repairCommitted) := by
  have next : s.repairCommitted.nextCommit = s.repairCommitted := if_neg (by rw [Dev.repairCommitted_memst, alone]; decide)
  rw [exec_repairCommit, execRepairCommit, State.onAwake_of_awake _ _ awake]
  simp only [commit, if_true]
  exact congrArg (fun d => Host.Outcome.next (s.withDev d)) next

theorem Dev.repairCommitted_shows (s : Dev) : s.repairCommitted.flag 0 MEM_REPAIR_STATUS_COMMIT_BUSY = false ∧ s.repairCommitted.mem = s.mem ∧
    (∀ a, a ≠ MEM_REPAIR_STATUS → s.repairCommitted.rd a = s.rd a) ∧
    s.repairCommitted.fld 0 MEM_REPAIR_STATUS_ENTRIES = s.committed.length % 2 ^ MEM_REPAIR_STATUS_ENTRIES.w := by
  obtain ⟨regs, mem, -⟩ := s.setNv_same s.repairPlace s.repairImage
  refine ⟨?busy, ?mem, fun a other => ?other, ?entries⟩
  case busy =>
    rw [Dev.repairCommitted, Dev.flag_setFld_apart (by decide), Dev.flag_setFld_apart (by decide), Dev.flag_setFlag_same _ _ _ _ (by decide) rfl]
  case mem => rw [Dev.repairCommitted, Dev.setFld_mem, Dev.setFld_mem, Dev.setFlag_mem, Dev.modMem_mem, mem]
  case other =>
    have off : 0 + MEM_REPAIR_STATUS ≠ a := by simpa using Ne.symm other
    rw [Dev.repairCommitted, Dev.rd_setFld_other _ _ _ _ _ off, Dev.rd_setFld_other _ _ _ _ _ off, Dev.setFlag, Dev.rd_setFld_other _ _ _ _ _ off, Dev.modMem_rd,
      Dev.rd, regs, ← Dev.rd]
  case entries => rw [Dev.repairCommitted, Dev.fld_setFld_apart (by decide), Dev.fld_setFld_same _ _ _ _ (by decide)]

/-- Settles O45: a scrub, a range, a pace tick, the end of a test, a tile that fails and a commit are the lemmas above, each for its command. -/
theorem memoryRepairsItself : Obligations.MemoryRepairsItself := by
  unfold Obligations.MemoryRepairsItself
  refine ⟨fun s w awake => ⟨fun awaited => ⟨⟨_, exec_scrubWrite_awaited awake awaited false, ?scrubbed⟩, ⟨_, exec_scrubWrite_awaited awake awaited true, ?stillBad⟩⟩,
      fun dropped => ⟨exec_scrubWrite_dropped dropped false, exec_scrubWrite_dropped dropped true⟩⟩,
    fun s e v awake => ⟨fun good => ⟨_, exec_exclusionWrite_awake awake .surveyor e false v, ?start⟩,
      fun good => ⟨_, exec_exclusionWrite_awake awake .surveyor e true v, ?length⟩,
      fun bad => ⟨_, exec_exclusionWrite_awake awake .surveyor e false v, ?bad⟩, fun len => ⟨_, exec_exclusionWrite_awake awake .host e len v, ?host⟩⟩,
    fun s awake step => ⟨fun idle => ⟨_, exec_resurveyPaceTick_runs awake step, ?paced⟩, fun enabled free => ⟨s.paceNext, ?pace, ?paceShows⟩⟩,
    fun s x awake test idle => ⟨_, exec_resurveyTestDone_passed awake test idle, ?passed⟩,
    fun d p sp tile spare commit => ⟨_, Dev.tileFails_repaired tile spare, ?fails⟩,
    fun s c awake commit alone => ⟨_, exec_repairCommit_good awake commit alone, ?commit⟩⟩
  case scrubbed => exact ⟨rfl, rfl, rfl, ((Dev.keeps_refl s.toDev []).modMem _).modMem _⟩
  case stillBad =>
    obtain ⟨memst, listed, keeps⟩ := (s.unscrub w).queueRetest_spec (s.tileOf (8 * w))
    rw [State.withDev_toDev, if_pos rfl]
    exact ⟨by rw [memst]; rfl, by rw [memst]; rfl, listed, ((Dev.keeps_refl s.toDev []).modMem _).trans (keeps [])⟩
  case start =>
    rw [State.withDev_toDev, if_pos ⟨rfl, by simpa using good⟩]
    exact ⟨Dev.rd_wr_same _ _ _, (Dev.keeps_refl s.toDev _).wr _ _ (by simp)⟩
  case length =>
    rw [State.withDev_toDev, if_pos ⟨rfl, by simpa using good⟩]
    exact ⟨Dev.rd_wr_same _ _ _, (Dev.keeps_refl s.toDev _).wr _ _ (by simp)⟩
  case bad =>
    rw [State.withDev_toDev, if_neg (by simp [bad])]
    exact s.memRefuse_spec
  case host =>
    rw [State.withDev_toDev, if_neg (by simp)]
    exact s.memRefuse_spec
  case paced =>
    obtain ⟨now, memst, keeps⟩ := Dev.paceNext_shows awake
    rw [State.withDev_toDev]
    by_cases enabled : s.flag 0 MEM_RS_CFG_ENABLE = true
    · have busy : s.memst.test.isSome = true := Option.isSome_iff_ne_none.mpr (idle.resolve_left (by simp [enabled]))
      rw [if_neg (by simp [enabled]), if_pos busy]
      exact ⟨by rw [Dev.modMem_now, now], by rw [Dev.modMem_memst, memst, Dev.modMem_now], by rw [Dev.modMem_memst, memst], fun _ => rfl, keeps.modMem _⟩
    · rw [if_pos (by simpa using enabled)]
      exact ⟨now, by rw [memst], by rw [memst], fun on => absurd on enabled, keeps⟩
  case pace => rw [exec_resurveyPaceTick_runs awake step, if_neg (by simp [enabled]), if_neg (by simp [free])]
  case paceShows =>
    obtain ⟨now, memst, keeps⟩ := Dev.paceNext_shows awake
    exact ⟨now, by rw [memst], keeps⟩
  case passed =>
    obtain ⟨now, memst, busy, pattern, keeps⟩ := Dev.testOver_shows awake x
    obtain ⟨pass, memst', pattern', busy', now', keeps'⟩ := (s.testOver x).endPass_shows
    rw [memst] at memst'
    rw [State.withDev_toDev, Dev.modMem_memst, Dev.endReset, Dev.modCol_memst, memst']
    refine ⟨rfl, busy'.trans busy, by rw [Dev.modMem_now, Dev.modCol_now, now', now], (((keeps.mono (by simp)).trans keeps').modCol _).modMem _, ?_, rfl, ?_⟩
    · exact pass.trans (by rw [memst, keeps.1 _ (by decide)])
    · exact pattern'.trans (by rw [memst, pattern])
  case fails =>
    obtain ⟨entries, busy, mem⟩ := (d.addFld 0 MEM_RS_FAILS_FAILS 1).repairEntered_shows (p / 520) (repairEntry p sp false)
    rw [Dev.startRepairCommit_waits (by rw [busy]; exact commit)]
    exact ⟨entries, rfl, mem⟩
  case commit =>
    obtain ⟨busy, mem, others, entries⟩ := s.repairCommitted_shows
    rw [State.withDev_toDev, s.repairCommitted_memst]
    exact ⟨rfl, busy, mem, rfl, others, entries⟩

end Sys2Proof.Machine

namespace Sys2Proof.Machine

open Sys2Proof

/-! Datum service (R326, R327): the set pair of a temperature, a slice's new targets, the ramps. -/

theorem setTemp_mono : ∀ j < 8, ∀ i ≤ j, setTemp i ≤ setTemp j := by decide

/-- Between the temperatures of sets `k` and `k + 1` the pair of sets is `k` and its successor. -/
theorem pickSet_between {x : Int} {k : Nat} (small : k ≤ 6) (low : setTemp k ≤ x) (high : x < setTemp (k + 1)) :
    pickSet x = (k, some ((x - setTemp k) * 65536 / (setTemp (k + 1) - setTemp k))) := by
  have above : ¬ x < -640 := not_lt.mpr ((setTemp_mono k (by omega) 0 (Nat.zero_le _)).trans low)
  have below : ¬ 1520 ≤ x := not_le.mpr (high.trans_le (setTemp_mono 7 (by decide) (k + 1) (by omega)))
  have upTo : ∀ j ∈ List.range 8, decide (setTemp j ≤ x) = decide (j ≤ k) := fun j hj => by
    rw [List.mem_range] at hj
    refine decide_eq_decide.mpr ⟨fun le => ?_, fun le => (setTemp_mono k (by omega) j le).trans low⟩
    by_contra beyond
    exact absurd (high.trans_le (setTemp_mono j hj (k + 1) (by omega))) (not_lt.mpr le)
  have count : ∀ k ≤ 6, ((List.range 8).filter (fun j => decide (j ≤ k))).length - 1 = k := by decide
  rw [pickSet, if_neg above, if_neg below]
  simp only [List.filter_congr upTo, count k small]

theorem setTemp_surrounds {x : Int} (low : -640 ≤ x) (high : x < 1520) : ∃ k ≤ 6, setTemp k ≤ x ∧ x < setTemp (k + 1) := by
  have intervals : (-640 ≤ x ∧ x < -320) ∨ (-320 ≤ x ∧ x < 0) ∨ (0 ≤ x ∧ x < 320) ∨ (320 ≤ x ∧ x < 640) ∨ (640 ≤ x ∧ x < 960) ∨
    (960 ≤ x ∧ x < 1280) ∨ (1280 ≤ x ∧ x < 1520) := by omega
  rcases intervals with h | h | h | h | h | h | h
  exacts [⟨0, by decide, h⟩, ⟨1, by decide, h⟩, ⟨2, by decide, h⟩, ⟨3, by decide, h⟩, ⟨4, by decide, h⟩, ⟨5, by decide, h⟩,
    ⟨6, by decide, h⟩]

theorem pickSet_spec (x : Int) : (x < -640 → pickSet x = (0, none)) ∧ (1520 ≤ x → pickSet x = (7, none)) ∧
    (-640 ≤ x → x < 1520 → (pickSet x).1 ≤ 6 ∧ setTemp (pickSet x).1 ≤ x ∧ x < setTemp ((pickSet x).1 + 1) ∧
      (pickSet x).2 = some ((x - setTemp (pickSet x).1) * 65536 / (setTemp ((pickSet x).1 + 1) - setTemp (pickSet x).1))) := by
  refine ⟨fun below => if_pos below, fun above => ?_, fun low high => ?_⟩
  · rw [pickSet, if_neg (by omega), if_pos above]
  · obtain ⟨k, small, le, lt⟩ := setTemp_surrounds low high
    rw [pickSet_between small le lt]
    exact ⟨small, le, lt, rfl⟩

section service

variable (d : Dev) (n : SliceId) (x : Int)

/-- The sets a temperature uses, all good. -/
def Dev.recordsGood (d : Dev) (n : SliceId) (x : Int) : Prop :=
  ∀ k, k = (pickSet x).1 ∨ (k = (pickSet x).1 + 1 ∧ (pickSet x).2 ≠ none) → imgRecOk d.workByte (recOff k n.val) = true

/-- The slice after the service gave it targets `ts` while ramping. -/
def Dev.retargeted (d : Dev) (n : SliceId) (ts : List Int) : Dev :=
  (d.setTargets n ts true).modSl n (fun y => { y with fsNext := (d.setTargets n ts true).storedFs n.val, fs := y.fs })

variable {d n x} in
theorem Dev.serviceSlice_good (good : d.recordsGood n x) : d.serviceSlice n x true = d.retargeted n (d.corrTargets n.val x) := by
  refine if_pos ?_
  have first := good (pickSet x).1 (.inl rfl)
  cases weight : (pickSet x).2 with
  | none => simp [first]
  | some w => simp [first, good ((pickSet x).1 + 1) (.inr ⟨rfl, by simp [weight]⟩)]

variable {d n x} in
theorem Dev.serviceSlice_bad (bad : imgRecOk d.workByte (recOff (pickSet x).1 n.val) = false) :
    d.serviceSlice n x true = (d.modDatum (fun q => { q with restore := addNat n.val q.restore })).raise 0x385 0 0 n.val := by
  refine if_neg ?_
  cases weight : (pickSet x).2 <;> simp [bad]

theorem Dev.setTargets_kept {ts : List Int} (same : (d.sl n).cT = ts) : d.setTargets n ts true = d := if_pos (by simp [same])

theorem Dev.setTargets_new {ts : List Int} (differ : (d.sl n).cT ≠ ts) : d.setTargets n ts true = d.modSl n (fun y =>
    { y with c0 := (List.range corrCount).map (d.corrOf n), cT := ts, cK := 0, cS := d.rampSteps, cAt := d.now,
             cLen := 1000000 * d.fld 0 DATUM_CFG_RAMP_MS }) :=
  if_neg (by simp [differ])

theorem Dev.modSl_storedFs (f : Slice → Slice) (m : Nat) : (d.modSl n f).storedFs m = d.storedFs m := by
  simp [Dev.storedFs, Dev.num, Dev.bytes, Dev.workBase]

theorem Dev.setTargets_frame (ts : List Int) : (d.setTargets n ts true).storedFs n.val = d.storedFs n.val ∧
    ((d.setTargets n ts true).sl n).cT = ts ∧ (∀ m, m ≠ n → (d.setTargets n ts true).sl m = d.sl m) ∧
    d.keeps (d.setTargets n ts true) [] := by
  by_cases same : (d.sl n).cT = ts
  · rw [Dev.setTargets_kept _ _ same]
    exact ⟨rfl, same, fun _ _ => rfl, Dev.keeps_refl _ _⟩
  · rw [Dev.setTargets_new _ _ same]
    exact ⟨Dev.modSl_storedFs _ _ _ _, congrArg Slice.cT (Dev.sl_modSl_same _ _ _), fun m hm => Dev.sl_modSl_other _ _ _ _ hm.symm,
      (Dev.keeps_refl _ _).modSl _ _⟩

theorem Dev.retargeted_sl (ts : List Int) : (d.retargeted n ts).sl n =
    { (d.setTargets n ts true).sl n with fsNext := d.storedFs n.val } := by
  rw [Dev.retargeted, Dev.sl_modSl_same, (Dev.setTargets_frame d n ts).1]

theorem Dev.retargeted_spec (ts : List Int) :
    ((d.retargeted n ts).sl n).cT = ts ∧ ((d.retargeted n ts).sl n).fsNext = d.storedFs n.val ∧
    ((d.sl n).cT ≠ ts → ((d.retargeted n ts).sl n).cS = d.rampSteps ∧ ((d.retargeted n ts).sl n).cK = 0 ∧
      ((d.retargeted n ts).sl n).cAt = d.now ∧ ((d.retargeted n ts).sl n).cLen = 1000000 * d.fld 0 DATUM_CFG_RAMP_MS ∧
      ((d.retargeted n ts).sl n).c0 = (List.range corrCount).map (d.corrOf n)) ∧
    (∀ m, m ≠ n → (d.retargeted n ts).sl m = d.sl m) ∧ d.keeps (d.retargeted n ts) [] := by
  obtain ⟨-, target, others, kept⟩ := Dev.setTargets_frame d n ts
  refine ⟨?_, ?_, fun differ => ?_, fun m hm => (Dev.sl_modSl_other _ _ _ _ hm.symm).trans (others m hm), kept.modSl _ _⟩
  · rw [Dev.retargeted_sl]
    exact target
  · rw [Dev.retargeted_sl]
  · rw [Dev.retargeted_sl, Dev.setTargets_new _ _ differ, Dev.sl_modSl_same]
    refine ⟨rfl, rfl, rfl, rfl, ?_⟩
    dsimp only

end service

theorem exec_datumServiceRun_due {s : State} (ts : List (Option Int)) (awake : s.awake = true) (step : 8 ≤ s.boot.step) :
    exec (.datumServiceRun ts) s = .next (s.withDev ((s.upTo (s.datum.serviceAt + 10000000)).datumService ts true)) := by
  rw [exec_datumServiceRun, execDatumServiceRun, State.onAwake_of_awake _ _ awake, if_neg (by omega)]

/-! Ramps. -/

/-- A walk that visits each slice of a list once changes each of them once. -/
theorem Dev.each_modSl_sl (f : Slice → Slice) {l : List SliceId} (once : l.Nodup) (s : Dev) (m : SliceId) :
    (s.each l (fun e n => e.modSl n f)).sl m = if m ∈ l then f (s.sl m) else s.sl m := by
  induction l generalizing s with
  | nil => rfl
  | cons n l ih =>
    obtain ⟨new, rest⟩ := List.nodup_cons.mp once
    change ((s.modSl n f).each l _).sl m = _
    rw [ih rest]
    by_cases same : n = m
    · subst same
      simp [new]
    · rw [Dev.sl_modSl_other _ _ _ _ same]
      simp [Ne.symm same]

theorem allSlices_nodup : Dev.allSlices.Nodup := by decide

/-- Every ramp whose step is due at `now` moves. -/
def Dev.rampMoved (s : Dev) : Dev := s.each Dev.allSlices (fun e n => e.modSl n (fun x => x.rampStep s.now))

theorem Dev.rampMoved_sl (s : Dev) (n : SliceId) : s.rampMoved.sl n = (s.sl n).rampStep s.now := by
  rw [Dev.rampMoved, Dev.each_modSl_sl _ allSlices_nodup, if_pos (mem_allSlices n)]

theorem Dev.rampMoved_keeps (s : Dev) : s.keeps s.rampMoved [] := (Dev.keeps_refl _ _).each _ fun _ _ => (Dev.keeps_refl _ _).modSl _ _

theorem Dev.rampMoved_now (s : Dev) : s.rampMoved.now = s.now := by
  rw [Dev.rampMoved]
  exact Dev.each_keeps Dev.now (fun _ _ => Dev.modSl_now _ _ _) _ _

theorem Dev.showRamp_active (s : Dev) : s.showRamp.flag 0 DATUM_STATUS_RAMP_ACTIVE = true ↔ ∃ n, (s.sl n).cS ≠ 0 := by
  rw [Dev.showRamp, Dev.flag_setFlag_same _ _ _ _ (by decide) rfl]
  simp [mem_allSlices]

section
variable {x : Slice} {t : Nat}

theorem Slice.rampStep_idle (idle : x.cS = 0) : x.rampStep t = x := if_pos (by simp [idle])

theorem Slice.rampStep_early (early : t < x.rampDue) : x.rampStep t = x := if_pos (by simp [early])

theorem Slice.rampStep_moves (due : x.rampDue ≤ t) (more : x.cK + 1 < x.cS) : x.rampStep t = { x with cK := x.cK + 1 } := by
  have runs : x.cS ≠ 0 := by omega
  rw [Slice.rampStep, if_neg (by simp [runs, due]), if_pos more]

theorem Slice.rampStep_ends (due : x.rampDue ≤ t) (runs : x.cS ≠ 0) (last : x.cS ≤ x.cK + 1) :
    x.rampStep t = { x with c0 := x.cT, cK := 0, cS := 0 } := by
  rw [Slice.rampStep, if_neg (by simp [runs, due]), if_neg (by omega)]

theorem Slice.rampStep_target : (x.rampStep t).cT = x.cT := by
  unfold Slice.rampStep
  split_ifs <;> rfl

end

theorem Dev.rampNext_least {d : Dev} {n : SliceId} (runs : (d.sl n).cS ≠ 0) :
    d.rampNext ≤ (d.sl n).rampDue ∧ ∃ m, (d.sl m).cS ≠ 0 ∧ d.rampNext = (d.sl m).rampDue := by
  have here : (d.sl n).rampDue ∈ ((Dev.allSlices.map d.sl).filter (fun x => x.cS != 0)).map Slice.rampDue :=
    List.mem_map_of_mem (List.mem_filter.mpr ⟨List.mem_map_of_mem (mem_allSlices n), by simp [runs]⟩)
  obtain ⟨least, found⟩ := Option.isSome_iff_exists.mp (List.isSome_min?_of_mem here)
  obtain ⟨listed, bound⟩ := List.min?_eq_some_iff.mp found
  have next : d.rampNext = least := by rw [Dev.rampNext, found, Option.getD_some]
  rw [next]
  refine ⟨bound _ here, ?_⟩
  obtain ⟨y, member, due⟩ := List.mem_map.mp listed
  obtain ⟨slice, running⟩ := List.mem_filter.mp member
  obtain ⟨m, -, rfl⟩ := List.mem_map.mp slice
  exact ⟨m, by simpa using running, due.symm⟩

theorem exec_datumRampStep_spec {s : State} (awake : s.awake = true) : ∃ t, exec .datumRampStep s = .next t ∧
    s.keeps t.toDev [DATUM_STATUS] ∧ t.now = max s.now s.rampNext ∧
    (t.flag 0 DATUM_STATUS_RAMP_ACTIVE = true ↔ ∃ n, (t.sl n).cS ≠ 0) ∧ ∀ n, t.sl n = (s.sl n).rampStep t.now := by
  have now : (s.upTo s.rampNext).rampMoved.showRamp.now = max s.now s.rampNext := by
    rw [Dev.showRamp, Dev.setFlag_now, Dev.rampMoved_now, Dev.upTo_now _ _ awake]
  refine ⟨s.withDev (s.upTo s.rampNext).rampMoved.showRamp, ?_, ?_, now, ?_, fun n => ?_⟩
  · rw [exec_datumRampStep, execDatumRampStep, State.onAwake_of_awake _ _ awake, Dev.rampMoved]
  · exact (((Dev.keeps_refl _ _).upTo _).trans ((Dev.rampMoved_keeps _).mono (List.nil_subset _))).setFlag _ _ _ (by decide)
  · rw [State.withDev_toDev, Dev.showRamp_active]
    simp only [Dev.showRamp, Dev.setFlag_sl]
  · rw [State.withDev_toDev, now, Dev.showRamp, Dev.setFlag_sl, Dev.rampMoved_sl, Dev.upTo_now _ _ awake, Dev.upTo_sl]

/-- Settles O46: the set pair by the interval of the temperature; the service through `Dev.retargeted`; a ramp's move by
`Slice.rampStep`, one slice at a time. -/
theorem datumServiceRampsToItsTargets : Obligations.DatumServiceRampsToItsTargets := by
  refine ⟨pickSet_spec, fun s ts => exec_datumServiceRun_due ts, fun d n x => ⟨fun good => ?_, Dev.serviceSlice_bad⟩, fun s awake => ?_,
    fun d n => Dev.rampNext_least⟩
  · rw [Dev.serviceSlice_good good]
    exact Dev.retargeted_spec d n _
  · obtain ⟨t, result, kept, now, active, moved⟩ := exec_datumRampStep_spec awake
    refine ⟨t, result, kept, now, active, fun n => ?_⟩
    rw [moved n]
    exact ⟨Slice.rampStep_target, Slice.rampStep_idle, Slice.rampStep_early,
      fun due more => by rw [Slice.rampStep_moves due more]; exact ⟨rfl, rfl⟩,
      fun due runs last => by rw [Slice.rampStep_ends due runs last]; exact ⟨rfl, rfl⟩⟩

end Sys2Proof.Machine

namespace Sys2Proof.Machine

open Sys2Proof

/-! CALIBRATE and DATUM_COMMIT (R328 to R335). -/

theorem Dev.setNv_only (s : Dev) (a : Nat) (l : List Byte) : ∃ nvm, s.setNv a l = { s with nvm := nvm } := by
  induction l generalizing s a with
  | nil => exact ⟨s.nvm, rfl⟩
  | cons b l ih =>
    obtain ⟨nvm, rest⟩ := ih { s with nvm := Store.set 0xFF s.nvm a b } (a + 1)
    exact ⟨nvm, rest⟩

theorem Dev.setNv_rd (s : Dev) (a : Nat) (l : List Byte) (x : Nat) : (s.setNv a l).rd x = s.rd x := by
  obtain ⟨nvm, only⟩ := s.setNv_only a l
  rw [only]
  rfl

theorem Dev.setNv_fld (s : Dev) (a : Nat) (l : List Byte) (b : Nat) (f : Fld) : (s.setNv a l).fld b f = s.fld b f := by
  obtain ⟨nvm, only⟩ := s.setNv_only a l
  rw [only]
  rfl

theorem Dev.setNv_flag (s : Dev) (a : Nat) (l : List Byte) (b : Nat) (f : Fld) : (s.setNv a l).flag b f = s.flag b f := by
  obtain ⟨nvm, only⟩ := s.setNv_only a l
  rw [only]
  rfl

theorem Dev.setNv_datum (s : Dev) (a : Nat) (l : List Byte) : (s.setNv a l).datum = s.datum := by
  obtain ⟨nvm, only⟩ := s.setNv_only a l
  rw [only]

theorem Dev.setNv_now (s : Dev) (a : Nat) (l : List Byte) : (s.setNv a l).now = s.now := by
  obtain ⟨nvm, only⟩ := s.setNv_only a l
  rw [only]

theorem Dev.nvByte_congr {s t : Dev} (same : t.nvm = s.nvm) (i : Nat) : t.nvByte i = s.nvByte i := congrArg (fun l => Store.get 0xFF l i) same

theorem Dev.nvByte_setNv_below (s : Dev) {a i : Nat} (l : List Byte) (below : i < a) : (s.setNv a l).nvByte i = s.nvByte i := by
  induction l generalizing s a with
  | nil => rfl
  | cons b l ih => exact (ih _ (by omega)).trans (Store.get_set_other _ _ _ _ _ _ (by omega))

theorem Dev.nvByte_setNv_replicate (s : Dev) (a n i : Nat) (b : Byte) (inside : i < n) :
    (s.setNv a (List.replicate n b)).nvByte (a + i) = b := by
  induction n generalizing s a i with
  | zero => exact absurd inside (Nat.not_lt_zero i)
  | succ n ih =>
    rw [List.replicate_succ]
    cases i with
    | zero => exact (Dev.nvByte_setNv_below _ _ (Nat.lt_succ_self a)).trans (Store.get_set_same _ _ _ _)
    | succ i =>
      have next := ih { s with nvm := Store.set 0xFF s.nvm a b } (a + 1) i (by omega)
      rwa [Nat.add_right_comm, Nat.add_assoc a i 1] at next

/-! CALIBRATE. -/

section calibrate

variable (d : Dev) {c : Ctx} {r : GroupRec} {k : Nat} {p : CalP}

/-- The device as a CALIBRATE begins: `DATUM_LAST` names no precondition. -/
def Dev.calCleared (d : Dev) : Dev := (d.setFld 0 DATUM_LAST_PRECOND 0).setFld 0 DATUM_LAST_SLICE 0

theorem Dev.calCleared_fld {f : Fld} (h : apart 0 DATUM_LAST_PRECOND 0 f) (h' : apart 0 DATUM_LAST_SLICE 0 f) :
    d.calCleared.fld 0 f = d.fld 0 f := (Dev.fld_setFld_apart h' 0).trans (Dev.fld_setFld_apart h 0)

theorem Dev.calCleared_datum : d.calCleared.datum = d.datum := (Dev.setFld_datum _ _ _ _).trans (Dev.setFld_datum _ _ _ _)

theorem Dev.calCleared_now : d.calCleared.now = d.now := (Dev.setFld_now _ _ _ _).trans (Dev.setFld_now _ _ _ _)

/-- Only an EXT_RANGE run looks at the device for its fields. -/
theorem Dev.calFault_of_point (t : Dev) (point : k < 2) : t.calFault r k p = d.calFault r k p := by
  have kind : (k == 2) = false := by simp; omega
  simp only [Dev.calFault, kind, Bool.false_and, Bool.false_eq_true, if_false]

/-- The run a good CALIBRATE starts. -/
def Dev.calRunOf (d : Dev) (c : Ctx) (r : GroupRec) (k : Nat) (p : CalP) : CalRun :=
  ⟨c, k, p, r.first, r.devMask p.mask, d.now, false, (List.range 4).map (fun o => d.octantTemp (sid (8 * o)))⟩

theorem Dev.calCleared_octantTemp (n : SliceId) : d.calCleared.octantTemp n = d.octantTemp n := by
  have off : apart 0 DATUM_LAST_PRECOND 0 ⟨DATUM_TEMP + 4 * (n.val / 8), 0, 16⟩ ∧ apart 0 DATUM_LAST_SLICE 0 ⟨DATUM_TEMP + 4 * (n.val / 8), 0, 16⟩ := by
    constructor <;> refine ⟨by decide, .inl ?_⟩ <;> simp only [DATUM_TEMP] <;> omega
  rw [Dev.octantTemp, Dev.calCleared_fld _ off.1 off.2, Dev.octantTemp]

theorem Dev.calCleared_calRunOf : d.calCleared.calRunOf c r k p = d.calRunOf c r k p := by
  simp only [Dev.calRunOf, Dev.calCleared_octantTemp, Dev.calCleared_now]

/-- The device with a run started. -/
def Dev.calStarted (d : Dev) (run : CalRun) : Dev :=
  (d.calCleared.modDatum (fun x => { x with cal := some run })).setFlag 0 DATUM_STATUS_CAL_BUSY true

variable {d}

theorem Dev.calibrateCmd_starts (point : k < 2) (fields : d.calFault r k p = none)
    (free : (d.datum.cal.isSome || d.datum.commit.isSome) = false) (bank : d.fld 0 DATUM_STATUS_BANK = 3 → p.scope ≠ 1)
    (pre : d.calCleared.calPrecond (d.calRunOf c r k p) = none) : d.calibrateCmd c r k p = d.calStarted (d.calRunOf c r k p) := by
  have kind : (k == 2) = false := by simp; omega
  have fault : d.calCleared.calFault r k p = none := (Dev.calFault_of_point _ _ point).trans fields
  have idle : (d.calCleared.datum.cal.isSome || d.calCleared.datum.commit.isSome) = false := by rwa [Dev.calCleared_datum]
  have held : (d.calCleared.fld 0 DATUM_STATUS_BANK == 3 && p.scope == 1) = false := by
    rw [Dev.calCleared_fld _ (by decide) (by decide)]
    simpa using bank
  have pins : ∀ e : Dev, e.calPins (d.calRunOf c r k p) (some false) = e := fun e => if_neg (by simp [Dev.calRunOf, kind])
  rw [← Dev.calCleared_calRunOf] at pre
  rw [Dev.calibrateCmd, ← Dev.calCleared, fault]
  simp only [kind, Bool.false_and, Bool.false_eq_true, if_false]
  rw [if_neg (by rw [idle]; decide), if_neg (by rw [held]; decide), ← Dev.calRunOf, pre, Dev.calCleared_calRunOf]
  exact pins _

theorem Dev.calStarted_shows (d : Dev) (run : CalRun) : (d.calStarted run).datum.cal = some run ∧
    (d.calStarted run).flag 0 DATUM_STATUS_CAL_BUSY = true ∧ d.keeps (d.calStarted run) [DATUM_STATUS, DATUM_LAST] := by
  refine ⟨?_, Dev.flag_setFlag_same _ _ _ _ (by decide) rfl, ?_⟩
  · rw [Dev.calStarted, Dev.setFlag_datum]
    rfl
  · exact ((((Dev.keeps_refl _ _).setFld _ _ _ (by decide)).setFld _ _ _ (by decide)).modDatum _).setFlag _ _ _ (by decide)

theorem exec_calibrationDone_running {s : State} {c : CalRun} (r : CalResult) (domains : s.domains = true) (running : s.datum.cal = some c) :
    exec (.calibrationDone r) s = .next (s.withDev (s.calibrationDone c r)) := by
  have awake : s.awake = true := by
    rw [Dev.domains, Bool.and_eq_true, Bool.and_eq_true] at domains
    exact domains.1.1
  rw [exec_calibrationDone, execCalibrationDone, State.onAwake_of_awake _ _ awake]
  simp only [running, domains, if_true]

end calibrate

/-! DATUM_COMMIT begins. -/

section begin

variable {d : Dev} {c : Ctx} {p : CommitP}

theorem Dev.userTarget_cases (d : Dev) : d.userTarget = 1 ∨ d.userTarget = 2 := by
  unfold Dev.userTarget
  split_ifs <;> simp

theorem Dev.commitCmd_bad_source (bad : 1 < p.source.toNat) : d.commitCmd c 0 p = d.completeAt c BAD_PARAM 1 d.time := by
  rw [Dev.commitCmd, if_neg (by decide), if_pos bad]

theorem Dev.commitCmd_work (source : p.source = 0) : d.commitCmd c 0 p = d.beginCommit c false none := by
  rw [Dev.commitCmd, if_neg (by decide), if_neg (by simp [source]), if_neg (by simp [source]), if_neg (by simp [source])]
  rfl

theorem Dev.beginCommit_same (same : d.sameSets d.workByte = true) : d.beginCommit c false none = d.datumDone c OK 0xFF :=
  if_pos (by simpa [Dev.commitSrc] using same)

variable (new : d.sameSets d.workByte = false)

include new in
theorem Dev.beginCommit_work (few : (d.rd (DATUM_CYCLES_F + 4 * d.userTarget)).toNat < 100000) : d.beginCommit c false none =
    if (d.datum.commit.isSome || d.datum.cal.isSome) = true then d.datumDone c BUSY 0xFF
    else if (d.noCommit || (false && !d.factoryOk)) = true then d.datumDone c PRECONDITION 0xFF
    else
      let s1 := (d.modDatum (fun x => { x with commit := some ⟨c, d.userTarget, none, d.now, d.time, false⟩ })).setFlag 0 DATUM_STATUS_COMMIT_BUSY true
      if s1.memst.commit.isSome then s1 else s1.commitBegin d.userTarget := by
  have source : (!false && d.sameSets (d.commitSrc none)) = false := by simpa [Dev.commitSrc] using new
  rw [Dev.beginCommit]
  dsimp only
  rw [if_neg (by rw [source]; decide), if_neg (by simp), if_neg (by simpa using few)]
  rfl

/-- A commit of the working copy has been taken, its header not yet erased. -/
def Dev.commitTaken (d : Dev) (c : Ctx) : Dev :=
  (d.modDatum (fun x => { x with commit := some ⟨c, d.userTarget, none, d.now, d.time, false⟩ })).setFlag 0 DATUM_STATUS_COMMIT_BUSY true

include new in
theorem Dev.beginCommit_starts (few : (d.rd (DATUM_CYCLES_F + 4 * d.userTarget)).toNat < 100000) (free : d.datum.commit = none)
    (idle : d.datum.cal = none) (may : d.noCommit = false) (alone : d.memst.commit = none) :
    d.beginCommit c false none = (d.commitTaken c).commitBegin d.userTarget := by
  have die : (d.commitTaken c).memst.commit = none := by rw [Dev.commitTaken, Dev.setFlag_memst, Dev.modDatum_memst, alone]
  rw [Dev.beginCommit_work new few, if_neg (by simp [free, idle]), if_neg (by simp [may]), ← Dev.commitTaken]
  exact if_neg (by rw [die]; decide)

end begin

/-- The header of bank `b` is erased, and its program cycle counted. -/
def Dev.commitErased (s : Dev) (b : Nat) : Dev :=
  ((s.setNv (bankBase b) (List.replicate 256 0xFF)).setFlag 0 (validFld b) false).wr (DATUM_CYCLES_F + 4 * b) (s.rd (DATUM_CYCLES_F + 4 * b) + 1)

section erased

variable (s : Dev) {b : Nat}

theorem Dev.commitBegin_eq (few : (s.rd (DATUM_CYCLES_F + 4 * b)).toNat < 89999) : ∃ copy bytes, s.commitBegin b =
    ((s.commitErased b).setNv (counterCopy copy) bytes).modDatum (fun x => { x with commit := x.commit.map (fun c => { c with begun := true }) }) := by
  have count : ((s.setNv (bankBase b) (List.replicate 256 0xFF)).setFlag 0 (validFld b) false).rd (DATUM_CYCLES_F + 4 * b) =
      s.rd (DATUM_CYCLES_F + 4 * b) := by
    rw [Dev.setFlag, Dev.rd_setFld_other _ _ _ _ _ (by simp only [validFld, DATUM_STATUS, DATUM_CYCLES_F]; omega), Dev.setNv_rd]
  have next : BitVec.ofNat 32 ((s.rd (DATUM_CYCLES_F + 4 * b)).toNat + 1) = s.rd (DATUM_CYCLES_F + 4 * b) + 1 := by
    rw [BitVec.ofNat_add, BitVec.ofNat_toNat, BitVec.setWidth_eq]
    rfl
  refine ⟨?copy, ?bytes, ?eq⟩
  case eq =>
    rw [Dev.commitBegin]
    simp only [count, next]
    rw [if_neg (by simp only [beq_iff_eq]; omega)]
    rfl

theorem Dev.commitErased_cycles : (s.commitErased b).rd (DATUM_CYCLES_F + 4 * b) = s.rd (DATUM_CYCLES_F + 4 * b) + 1 := Dev.rd_wr_same _ _ _

theorem Dev.commitErased_flag (f : Fld) (off : f.off = DATUM_STATUS) :
    (s.commitErased b).flag 0 f = ((s.setNv (bankBase b) (List.replicate 256 0xFF)).setFlag 0 (validFld b) false).flag 0 f :=
  Dev.flag_wr_word _ _ _ _ _ (by rw [off]; simp only [DATUM_STATUS, DATUM_CYCLES_F]; omega)

theorem Dev.commitErased_nvByte (i : Nat) (inside : i < 256) : (s.commitErased b).nvByte (bankBase b + i) = 0xFF := by
  rw [Dev.commitErased, Dev.nvByte_congr (Dev.wr_nvm _ _ _), Dev.nvByte_congr (Dev.setFlag_nvm _ _ _ _), Dev.nvByte_setNv_replicate s _ _ _ _ inside]

variable (user : b = 1 ∨ b = 2) (few : (s.rd (DATUM_CYCLES_F + 4 * b)).toNat < 89999)

include user few

theorem Dev.commitBegin_status : (s.commitBegin b).flag 0 DATUM_STATUS_COMMIT_BUSY = s.flag 0 DATUM_STATUS_COMMIT_BUSY ∧
    (s.commitBegin b).flag 0 (validFld b) = false := by
  obtain ⟨copy, bytes, begun⟩ := s.commitBegin_eq few
  rw [begun, Dev.modDatum_flag, Dev.setNv_flag, Dev.commitErased_flag _ _ rfl, Dev.modDatum_flag, Dev.setNv_flag, Dev.commitErased_flag _ _ rfl]
  constructor
  · rcases user with rfl | rfl <;> rw [Dev.flag_setFlag_apart (by decide), Dev.setNv_flag]
  · rcases user with rfl | rfl <;> exact Dev.flag_setFlag_same _ _ _ _ (by decide) rfl

theorem Dev.commitBegin_bank (i : Nat) (inside : i < 256) : (s.commitBegin b).bankByte b i = 0xFF := by
  obtain ⟨copy, bytes, begun⟩ := s.commitBegin_eq few
  have below : bankBase b + i < counterCopy copy := by rcases user with rfl | rfl <;> simp only [bankBase, counterCopy] <;> omega
  rw [begun]
  exact (Dev.nvByte_setNv_below _ _ below).trans (Dev.commitErased_nvByte _ _ inside)

omit user in
theorem Dev.commitBegin_rest : (s.commitBegin b).mem = s.mem ∧
    (s.commitBegin b).rd (DATUM_CYCLES_F + 4 * b) = s.rd (DATUM_CYCLES_F + 4 * b) + 1 ∧
    (s.commitBegin b).datum.commit = s.datum.commit.map (fun c => { c with begun := true }) := by
  obtain ⟨copy, bytes, begun⟩ := s.commitBegin_eq few
  rw [begun]
  refine ⟨?_, ?_, ?_⟩
  · rw [Dev.modDatum_mem, (Dev.setNv_same _ _ _).2.1, Dev.commitErased, Dev.wr_mem, Dev.setFlag_mem, (Dev.setNv_same _ _ _).2.1]
  · rw [Dev.modDatum_rd, Dev.setNv_rd, Dev.commitErased_cycles]
  · have kept : ((s.commitErased b).setNv (counterCopy copy) bytes).datum = s.datum := by
      rw [Dev.setNv_datum, Dev.commitErased, Dev.wr_datum, Dev.setFlag_datum, Dev.setNv_datum]
    rw [Dev.modDatum, kept]

end erased

/-! DATUM_COMMIT ends. -/

theorem Dev.loadCalRegs_rd (s : Dev) {a : Nat} (below : a < 0x50100) : s.loadCalRegs.rd a = s.rd a := by
  rw [Dev.loadCalRegs]
  refine Dev.each_keeps (fun d => d.rd a) (fun d n => ?_) _ _
  dsimp only
  have beyond : ∀ k, calBase n + k ≠ a := fun k => by simp only [calBase]; omega
  rw [Dev.wr64, Dev.rd_wr_other _ _ _ _ (beyond _), Dev.rd_wr_other _ _ _ _ (beyond _), Dev.rd_wr_other _ _ _ _ (beyond _)]

theorem Dev.loadCalRegs_same (s : Dev) : s.loadCalRegs.mem = s.mem ∧ s.loadCalRegs.datum = s.datum ∧ s.loadCalRegs.now = s.now := by
  rw [Dev.loadCalRegs]
  refine ⟨Dev.each_keeps Dev.mem (fun d n => ?_) _ _, Dev.each_keeps Dev.datum (fun d n => ?_) _ _, Dev.each_keeps Dev.now (fun d n => ?_) _ _⟩
  · dsimp only
    rw [Dev.wr64, Dev.wr_mem, Dev.wr_mem, Dev.wr_mem]
  · dsimp only
    rw [Dev.wr64, Dev.wr_datum, Dev.wr_datum, Dev.wr_datum]
  · dsimp only
    rw [Dev.wr64, Dev.wr_now, Dev.wr_now, Dev.wr_now]

/-- The body of the image is written, and the commit is over. -/
def Dev.commitEnded (s : Dev) (run : CommitRun) (body : List Byte) : Dev :=
  (((s.upTo (run.start + 393000)).setNv (bankBase run.bank + 0x100) body).setFlag 0 DATUM_STATUS_COMMIT_BUSY false).modDatum
    (fun d => { d with commit := none })

/-- Bank `b` comes into force with a header and a sequence number. -/
def Dev.bankInForce (s : Dev) (b : Nat) (head : List Byte) (seq : Word) : Dev :=
  (((((s.setNv (bankBase b) head).setFlag 0 (validFld b) true).setFld 0 DATUM_STATUS_BANK b).setFlag 0 DATUM_STATUS_DIRTY false).wr DATUM_SEQ
    seq).loadCalRegs

section ended

variable {s : Dev} {run : CommitRun} (begun : run.begun = true)

include begun in
theorem Dev.commitDone_bad : ∃ body, s.commitDone run false =
    (((s.commitEnded run body).raiseGlobal 0x382 0).datumDone run.ctx INTEGRITY 0xFF).nextCommit := by
  refine ⟨?body, ?eq⟩
  case eq =>
    rw [Dev.commitDone]
    simp only [begun, if_true]
    rfl

include begun in
theorem Dev.commitDone_good (staged : run.staged = none) (low : 1 ≤ run.bank) (high : run.bank ≤ 2) : ∃ body head seq, s.commitDone run true =
    (((s.commitEnded run body).bankInForce run.bank head seq).datumDone run.ctx OK 0xFF).nextCommit := by
  have user : (run.bank == 0) = false := by simp; omega
  have bank : ∀ e : Dev, ((e.setFld 0 DATUM_STATUS_BANK run.bank).setFlag 0 DATUM_STATUS_DIRTY false).fld 0 DATUM_STATUS_BANK = run.bank := fun e => by
    rw [Dev.fld_setFlag_apart (by decide), Dev.fld_setFld_same _ _ _ _ (by decide)]
    exact Nat.mod_eq_of_lt (by change run.bank < 4; omega)
  refine ⟨?body, ?head, ?seq, ?eq⟩
  case eq =>
    rw [Dev.commitDone]
    simp only [begun, staged, user, bank, if_true, beq_self_eq_true, Bool.false_eq_true, if_false, Bool.false_and, Option.isSome_none, Bool.and_false,
      Bool.not_true]
    rfl

theorem Dev.commitEnded_same (s : Dev) (run : CommitRun) (body : List Byte) : (s.commitEnded run body).datum.commit = none ∧
    (s.commitEnded run body).fld 0 DATUM_STATUS_BANK = s.fld 0 DATUM_STATUS_BANK ∧ (s.commitEnded run body).mem = s.mem ∧
    (s.commitEnded run body).now = (s.upTo (run.start + 393000)).now := by
  refine ⟨rfl, ?_, ?_, ?_⟩
  · rw [Dev.commitEnded, Dev.modDatum_fld, Dev.fld_setFlag_apart (by decide), Dev.setNv_fld, Dev.upTo_fld]
  · rw [Dev.commitEnded, Dev.modDatum_mem, Dev.setFlag_mem, (Dev.setNv_same _ _ _).2.1, Dev.upTo_mem]
  · rw [Dev.commitEnded, Dev.modDatum_now, Dev.setFlag_now, Dev.setNv_now]

theorem Dev.bankInForce_same (s : Dev) (b : Nat) (head : List Byte) (seq : Word) : (s.bankInForce b head seq).datum = s.datum ∧
    (s.bankInForce b head seq).mem = s.mem ∧ (s.bankInForce b head seq).now = s.now := by
  rw [Dev.bankInForce]
  obtain ⟨mem, datum, now⟩ := Dev.loadCalRegs_same (((((s.setNv (bankBase b) head).setFlag 0 (validFld b) true).setFld 0 DATUM_STATUS_BANK
    b).setFlag 0 DATUM_STATUS_DIRTY false).wr DATUM_SEQ seq)
  refine ⟨datum.trans ?_, mem.trans ?_, now.trans ?_⟩
  · rw [Dev.wr_datum, Dev.setFlag_datum, Dev.setFld_datum, Dev.setFlag_datum, Dev.setNv_datum]
  · rw [Dev.wr_mem, Dev.setFlag_mem, Dev.setFld_mem, Dev.setFlag_mem, (Dev.setNv_same _ _ _).2.1]
  · rw [Dev.wr_now, Dev.setFlag_now, Dev.setFld_now, Dev.setFlag_now, Dev.setNv_now]

theorem Dev.bankInForce_status (s : Dev) {b : Nat} (head : List Byte) (seq : Word) (low : 1 ≤ b) (high : b ≤ 2) :
    (s.bankInForce b head seq).fld 0 DATUM_STATUS_BANK = b ∧ (s.bankInForce b head seq).flag 0 (validFld b) = true ∧
    (s.bankInForce b head seq).flag 0 DATUM_STATUS_DIRTY = false := by
  have word : (s.bankInForce b head seq).rd DATUM_STATUS = ((((s.setNv (bankBase b) head).setFlag 0 (validFld b) true).setFld 0 DATUM_STATUS_BANK
      b).setFlag 0 DATUM_STATUS_DIRTY false).rd DATUM_STATUS := by
    rw [Dev.bankInForce, Dev.loadCalRegs_rd _ (by decide), Dev.rd_wr_other _ _ _ _ (by decide)]
  have field : ∀ f : Fld, f.off = DATUM_STATUS → (s.bankInForce b head seq).fld 0 f = ((((s.setNv (bankBase b) head).setFlag 0 (validFld b)
      true).setFld 0 DATUM_STATUS_BANK b).setFlag 0 DATUM_STATUS_DIRTY false).fld 0 f := fun f off => by
    simp only [Dev.fld, off, Nat.zero_add, word]
  have flag : ∀ f : Fld, f.off = DATUM_STATUS → (s.bankInForce b head seq).flag 0 f = ((((s.setNv (bankBase b) head).setFlag 0 (validFld b)
      true).setFld 0 DATUM_STATUS_BANK b).setFlag 0 DATUM_STATUS_DIRTY false).flag 0 f := fun f off => congrArg (· == 1) (field f off)
  refine ⟨?_, ?_, ?_⟩
  · rw [field _ rfl, Dev.fld_setFlag_apart (by decide), Dev.fld_setFld_same _ _ _ _ (by decide)]
    exact Nat.mod_eq_of_lt (by change b < 4; omega)
  · rw [flag _ rfl]
    obtain rfl | rfl : b = 1 ∨ b = 2 := by omega
    all_goals rw [Dev.flag_setFlag_apart (by decide), Dev.flag_setFld_apart (by decide), Dev.flag_setFlag_same _ _ _ _ (by decide) rfl]
  · rw [flag _ rfl, Dev.flag_setFlag_same _ _ _ _ (by decide) rfl]

end ended

theorem exec_datumCommitDone_running {s : State} {run : CommitRun} (ok : Bool) (awake : s.awake = true) (running : s.datum.commit = some run)
    (alone : s.memst.commit = none) : exec (.datumCommitDone ok) s = .next (s.withDev (s.commitDone run ok)) := by
  rw [exec_datumCommitDone, execDatumCommitDone, State.onAwake_of_awake _ _ awake]
  simp only [running, alone, Option.isSome_none, Bool.false_eq_true, if_false]

/-- A commit of the working copy that starts. -/
theorem Dev.commitCmd_starts {d : Dev} {c : Ctx} {p : CommitP} (source : p.source = 0) (new : d.sameSets d.workByte = false)
    (few : (d.rd (DATUM_CYCLES_F + 4 * d.userTarget)).toNat < 89999) (free : d.datum.commit = none) (idle : d.datum.cal = none)
    (may : d.noCommit = false) (alone : d.memst.commit = none) :
    (d.commitCmd c 0 p).datum.commit = some ⟨c, d.userTarget, none, d.now, d.time, true⟩ ∧ (d.commitCmd c 0 p).flag 0 DATUM_STATUS_COMMIT_BUSY = true ∧
    (d.commitCmd c 0 p).flag 0 (validFld d.userTarget) = false ∧ (d.commitCmd c 0 p).mem = d.mem ∧
    (d.commitCmd c 0 p).rd (DATUM_CYCLES_F + 4 * d.userTarget) = d.rd (DATUM_CYCLES_F + 4 * d.userTarget) + 1 ∧
    ∀ i, i < 256 → (d.commitCmd c 0 p).bankByte d.userTarget i = 0xFF := by
  rw [Dev.commitCmd_work source, Dev.beginCommit_starts new (by omega) free idle may alone]
  have cycles : (d.commitTaken c).rd (DATUM_CYCLES_F + 4 * d.userTarget) = d.rd (DATUM_CYCLES_F + 4 * d.userTarget) := by
    rw [Dev.commitTaken, Dev.setFlag, Dev.rd_setFld_other _ _ _ _ _ (by simp only [DATUM_CYCLES_F]; omega), Dev.modDatum_rd]
  have taken : (d.commitTaken c).datum.commit = some ⟨c, d.userTarget, none, d.now, d.time, false⟩ := by
    rw [Dev.commitTaken, Dev.setFlag_datum]
    rfl
  have few' : ((d.commitTaken c).rd (DATUM_CYCLES_F + 4 * d.userTarget)).toNat < 89999 := by rwa [cycles]
  obtain ⟨busy, valid⟩ := Dev.commitBegin_status _ d.userTarget_cases few'
  obtain ⟨mem, count, commit⟩ := Dev.commitBegin_rest _ few'
  refine ⟨?_, busy.trans (Dev.flag_setFlag_same _ _ _ _ (by decide) rfl), valid, mem.trans ?_, count.trans (by rw [cycles]),
    Dev.commitBegin_bank _ d.userTarget_cases few'⟩
  · rw [commit, taken]
    rfl
  · rw [Dev.commitTaken, Dev.setFlag_mem, Dev.modDatum_mem]

theorem exec_calibrations {s : State} {h : Hdr} {r : GroupRec} (ready : s.ready h r) (p : CalP) :
    exec (.calibrateSelf h p) s = .next (s.withDev ((s.taken h.ring).calibrateCmd (ownCtx h 0x0E) r 0 p)) ∧
    exec (.calibrateExtRef h p) s = .next (s.withDev ((s.taken h.ring).calibrateCmd (ownCtx h 0x0E) r 1 p)) ∧
    exec (.calibrateExtRange h p) s = .next (s.withDev ((s.taken h.ring).calibrateCmd (ownCtx h 0x0E) r 2 p)) := by
  refine ⟨?_, ?_, ?_⟩
  · rw [exec_calibrateSelf, execCalibrateSelf, State.onAwake_of_awake _ _ ready.1, Dev.ringCmd_ready ready]
  · rw [exec_calibrateExtRef, execCalibrateExtRef, State.onAwake_of_awake _ _ ready.1, Dev.ringCmd_ready ready]
  · rw [exec_calibrateExtRange, execCalibrateExtRange, State.onAwake_of_awake _ _ ready.1, Dev.ringCmd_ready ready]

theorem exec_datumCommits {s : State} {h : Hdr} {r : GroupRec} (ready : s.ready h r) (q : CommitP) :
    exec (.datumCommitUser h q) s = .next (s.withDev ((s.taken h.ring).commitCmd (ownCtx h 0x0F) 0 q)) ∧
    exec (.datumCommitFactory h q) s = .next (s.withDev ((s.taken h.ring).commitCmd (ownCtx h 0x0F) 1 q)) := by
  refine ⟨?_, ?_⟩
  · rw [exec_datumCommitUser, execDatumCommitUser, State.onAwake_of_awake _ _ ready.1, Dev.ringCmd_ready ready]
  · rw [exec_datumCommitFactory, execDatumCommitFactory, State.onAwake_of_awake _ _ ready.1, Dev.ringCmd_ready ready]

/-- Settles O47: a run by `Dev.calibrateCmd_starts`, a commit's start by `Dev.commitBegin_eq`, its end by `Dev.commitDone_good` and
`Dev.commitDone_bad`. -/
theorem calibrationAndCommit : Obligations.CalibrationAndCommit := by
  refine ⟨fun s h r p q ready => ?_, fun d c r k p point fields free bank pre => ?_, fun s c r => exec_calibrationDone_running r,
    fun d c p => ⟨Dev.commitCmd_bad_source, fun source same => ?same, fun source new few busy => ?busy, Dev.commitCmd_starts⟩,
    fun s run awake running alone begun staged low high => ⟨?good, ?bad⟩⟩
  · obtain ⟨self, ref, range⟩ := exec_calibrations ready p
    exact ⟨self, ref, range, exec_datumCommits ready q⟩
  · rw [Dev.calibrateCmd_starts point fields free bank pre]
    exact Dev.calStarted_shows d _
  case same => rw [Dev.commitCmd_work source, Dev.beginCommit_same same]
  case busy => rw [Dev.commitCmd_work source, Dev.beginCommit_work new few, if_pos busy]
  case good =>
    obtain ⟨body, head, seq, ended⟩ := Dev.commitDone_good (s := s.toDev) begun staged low high
    obtain ⟨commit, -, mem, now⟩ := Dev.commitEnded_same s.toDev run body
    obtain ⟨datum, mem', now'⟩ := Dev.bankInForce_same (s.commitEnded run body) run.bank head seq
    obtain ⟨bank, valid, clean⟩ := Dev.bankInForce_status (s.commitEnded run body) head seq low high
    exact ⟨_, by rw [exec_datumCommitDone_running _ awake running alone, ended], by rw [datum, commit], bank, valid, clean, mem'.trans mem,
      (now'.trans now).trans (Dev.upTo_now _ _ awake)⟩
  case bad =>
    obtain ⟨body, ended⟩ := Dev.commitDone_bad (s := s.toDev) begun
    obtain ⟨commit, bank, mem, -⟩ := Dev.commitEnded_same s.toDev run body
    exact ⟨_, by rw [exec_datumCommitDone_running _ awake running alone, ended], commit, bank, mem⟩

end Sys2Proof.Machine

namespace Sys2Proof.Machine

open Sys2Proof

/-! TIME (R266 to R270, R282, R283): sets, steps, discipline by PPS_IN, the slew. -/

/-- A 64-bit register holds what was last written to its two words. -/
theorem Dev.rd64_of_rd {t : Dev} {lo hi : Nat} {v : Word64} (low : t.rd lo = v.extractLsb' 0 32) (high : t.rd hi = v.extractLsb' 32 32) :
    t.rd64 lo hi = v := by
  rw [Dev.rd64, low, high]
  exact BitVec.extractLsb'_append_extractLsb'_eq_extractLsb' rfl |>.trans (by simp)

theorem Dev.rd_wr64_low (s : Dev) {lo hi : Nat} (v : Word64) (differ : hi ≠ lo) : (s.wr64 lo hi v).rd lo = v.extractLsb' 0 32 :=
  (Dev.rd_wr_other _ _ _ _ differ).trans (Dev.rd_wr_same _ _ _)

theorem Dev.rd_wr64_high (s : Dev) (lo hi : Nat) (v : Word64) : (s.wr64 lo hi v).rd hi = v.extractLsb' 32 32 := Dev.rd_wr_same _ _ _

theorem Dev.rd_wr64_other (s : Dev) {lo hi a : Nat} (v : Word64) (low : lo ≠ a) (high : hi ≠ a) : (s.wr64 lo hi v).rd a = s.rd a :=
  (Dev.rd_wr_other _ _ _ _ high).trans (Dev.rd_wr_other _ _ _ _ low)

/-! The request bits of `MER_TIME_CTRL`. -/

section ctrl

variable {s : Dev}

theorem Dev.merRefuse_spec (s : Dev) : s.merRefuse.flag 0 MER_TIME_STATUS_REFUSED = true ∧ s.merRefuse.time = s.time ∧
    s.merRefuse.flag 0 MER_TIME_STATUS_SET_PENDING = s.flag 0 MER_TIME_STATUS_SET_PENDING ∧ s.keeps s.merRefuse [MER_TIME_STATUS] :=
  ⟨Dev.flag_setFlag_same _ _ _ _ (by decide) rfl, Dev.setFlag_time _ _ _ _, Dev.flag_setFlag_apart (by decide) _,
    (Dev.keeps_refl _ _).setFlag _ _ _ (by decide)⟩

/-- A pending request as CANCEL leaves it. -/
def Dev.canceled (s : Dev) (c : Bool) : Dev := if c then s.setFlag 0 MER_TIME_STATUS_SET_PENDING false else s

theorem Dev.canceled_same (s : Dev) (c : Bool) : (s.canceled c).time = s.time ∧ (s.canceled c).now = s.now ∧
    s.keeps (s.canceled c) [MER_TIME_STATUS] := by
  cases c with
  | false => exact ⟨rfl, rfl, Dev.keeps_refl _ _⟩
  | true => exact ⟨Dev.setFlag_time _ _ _ _, Dev.setFlag_now _ _ _ _, (Dev.keeps_refl _ _).setFlag _ _ _ (by decide)⟩

theorem Dev.timeCtrl_now (own : s.timeFromLink = false) (c : Bool) :
    s.timeCtrl true false c = ((s.canceled c).upTo (s.now + 1)).setTime := by
  obtain ⟨-, now, -⟩ := s.canceled_same c
  rw [← now]
  exact if_neg (by simp [own])

theorem Dev.timeCtrl_now_linked (linked : s.timeFromLink = true) (c : Bool) : s.timeCtrl true false c = s.merRefuse := if_pos (by simp [linked])

theorem Dev.timeCtrl_pps (own : s.timeFromLink = false) (whole : s.epoch.toNat % 1000000000 = 0) (edge : s.plates.ppsEdge ≠ 0) (c : Bool) :
    s.timeCtrl false true c = (s.canceled c).setFlag 0 MER_TIME_STATUS_SET_PENDING true := if_neg (by simp [own, whole, edge])

theorem Dev.timeCtrl_pps_bad (bad : s.timeFromLink = true ∨ s.epoch.toNat % 1000000000 ≠ 0 ∨ s.plates.ppsEdge = 0) (c : Bool) :
    s.timeCtrl false true c = s.merRefuse := by
  refine if_pos ?_
  rcases bad with linked | part | none' <;> simp [*]

theorem Dev.timeCtrl_cancel (s : Dev) : s.timeCtrl false false true = s.setFlag 0 MER_TIME_STATUS_SET_PENDING false := rfl

end ctrl

/-! A step. -/

section step

variable (s : Dev) (x : Word64)

/-- TIME at its new value, the step recorded, and no sample period shortened. -/
def Dev.stepRecorded (s : Dev) (x : Word64) : Dev :=
  ((({ s with time := x }.wr64 MER_STEP_AT_LO MER_STEP_AT_HI x).wr64 MER_STEP_SIZE_LO MER_STEP_SIZE_HI (x - s.time)).each s.plates.groups
    (fun d r => d.modEng (sid r.first) (fun e => { e with tickMin := e.tickAt + d.period r.first }))).modMer (fun m => { m with stepPending := false })

/-- The slew is over, and STEPPED shows the step. -/
def Dev.stepShown (s : Dev) (x : Word64) : Dev := (((s.stepRecorded x).endSlew).setFlag 0 MER_TIME_STATUS_STEPPED true).merEvent 0

/-- A hub sends its step on. -/
def Dev.stepSent (s : Dev) (x : Word64) : Dev :=
  if (s.stepShown x).isRemote then s.stepShown x else (s.stepShown x).sendDown 1 (.timeStep x (x - s.time))

theorem Dev.stepTime_eq : s.stepTime x = ((s.stepSent x).passMarks (fun a => a == 0) (fun _ => false)).raiseGlobal 0x2A2 0 := rfl

theorem Dev.sendDown_same (k : Fin 3) (b : Body) : s.SameButHost (s.sendDown k b) := by
  unfold Dev.sendDown
  generalize s.downPorts = l
  induction l generalizing s with
  | nil => exact .refl s
  | cons p l ih => exact (Dev.sendFrom_same s p k s.node 15 b).trans (ih _)

theorem Dev.stepSent_same : (s.stepShown x).SameButHost (s.stepSent x) := by
  unfold Dev.stepSent
  split_ifs
  · exact .refl _
  · exact Dev.sendDown_same _ _ _

theorem Dev.endSlew_spec : s.endSlew.rd MER_SLEW_LEFT = 0 ∧ s.endSlew.flag 0 MER_TIME_STATUS_SLEWING = false ∧
    s.endSlew.time = s.time ∧ s.endSlew.now = s.now ∧ s.keeps s.endSlew [MER_SLEW_LEFT, MER_TIME_STATUS, MER_IRQ_CAUSE] := by
  have cleared := (Dev.keeps_refl s [MER_SLEW_LEFT, MER_TIME_STATUS, MER_IRQ_CAUSE]).wr MER_SLEW_LEFT 0 (by decide)
  unfold Dev.endSlew
  dsimp only
  split_ifs with slewing
  · refine ⟨?_, ?_, ?_, ?_, (cleared.setFlag _ _ _ (by decide)).merEvent _ (by decide)⟩
    · rw [Dev.merEvent_rd _ _ _ (by decide), Dev.setFlag, Dev.rd_setFld_other _ _ _ _ _ (by decide), Dev.rd_wr_same]
    · rw [Dev.merEvent_flag _ _ _ _ (by decide), Dev.flag_setFlag_same _ _ _ _ (by decide) rfl]
    · rw [Dev.merEvent_time, Dev.setFlag_time, Dev.wr_time]
    · rw [Dev.merEvent_now, Dev.setFlag_now, Dev.wr_now]
  · refine ⟨Dev.rd_wr_same _ _ _, ?_, Dev.wr_time _ _ _, Dev.wr_now _ _ _, cleared⟩
    rw [Dev.flag_wr_word _ _ _ _ _ (by decide)]
    exact Bool.eq_false_iff.mpr slewing

theorem Dev.stepRecorded_same : (s.stepRecorded x).time = x ∧ (s.stepRecorded x).now = s.now ∧ (s.stepRecorded x).mem = s.mem ∧
    (s.stepRecorded x).regs =
      (({ s with time := x }.wr64 MER_STEP_AT_LO MER_STEP_AT_HI x).wr64 MER_STEP_SIZE_LO MER_STEP_SIZE_HI (x - s.time)).regs := by
  rw [Dev.stepRecorded, Dev.modMer_time, Dev.modMer_now, Dev.modMer_mem, Dev.modMer_regs]
  refine ⟨(Dev.each_keeps Dev.time (fun _ _ => Dev.modEng_time _ _ _) _ _).trans ?_,
    (Dev.each_keeps Dev.now (fun _ _ => Dev.modEng_now _ _ _) _ _).trans ?_, (Dev.each_keeps Dev.mem (fun _ _ => Dev.modEng_mem _ _ _) _ _).trans ?_, ?_⟩
  · rw [Dev.wr64_time, Dev.wr64_time]
  · rw [Dev.wr64_now, Dev.wr64_now]
  · rw [Dev.wr64_mem, Dev.wr64_mem]
  · exact Dev.each_keeps Dev.regs (fun _ _ => Dev.modEng_regs _ _ _) _ _

theorem Dev.stepRecorded_rd (a : Nat) : (s.stepRecorded x).rd a =
    (({ s with time := x }.wr64 MER_STEP_AT_LO MER_STEP_AT_HI x).wr64 MER_STEP_SIZE_LO MER_STEP_SIZE_HI (x - s.time)).rd a := by
  obtain ⟨-, -, -, regs⟩ := s.stepRecorded_same x
  exact congrArg (fun l => Store.get (regReset a) l a) regs

/-- The records of a step stand after its end. -/
theorem Dev.stepShown_rd {a : Nat} (apart : a ∉ [MER_SLEW_LEFT, MER_TIME_STATUS, MER_IRQ_CAUSE]) : (s.stepShown x).rd a = (s.stepRecorded x).rd a := by
  obtain ⟨-, -, -, -, kept⟩ := (s.stepRecorded x).endSlew_spec
  exact ((kept.setFlag 0 MER_TIME_STATUS_STEPPED true (by decide)).merEvent 0 (by decide)).1 a apart

theorem Dev.stepShown_status : (s.stepShown x).flag 0 MER_TIME_STATUS_STEPPED = true ∧ (s.stepShown x).flag 0 MER_TIME_STATUS_SLEWING = false ∧
    (s.stepShown x).rd MER_SLEW_LEFT = 0 := by
  obtain ⟨left, slewing, -, -, -⟩ := (s.stepRecorded x).endSlew_spec
  refine ⟨?_, ?_, ?_⟩
  · rw [Dev.stepShown, Dev.merEvent_flag _ _ _ _ (by decide), Dev.flag_setFlag_same _ _ _ _ (by decide) rfl]
  · rw [Dev.stepShown, Dev.merEvent_flag _ _ _ _ (by decide), Dev.flag_setFlag_apart (by decide), slewing]
  · rw [Dev.stepShown, Dev.merEvent_rd _ _ _ (by decide), Dev.setFlag, Dev.rd_setFld_other _ _ _ _ _ (by decide), left]

theorem Dev.stepShown_same : (s.stepShown x).time = x ∧ (s.stepShown x).now = s.now ∧ (s.stepShown x).mem = s.mem := by
  obtain ⟨time, now, mem, -⟩ := s.stepRecorded_same x
  obtain ⟨-, -, time', now', kept⟩ := (s.stepRecorded x).endSlew_spec
  refine ⟨?_, ?_, ?_⟩
  · rw [Dev.stepShown, Dev.merEvent_time, Dev.setFlag_time, time', time]
  · rw [Dev.stepShown, Dev.merEvent_now, Dev.setFlag_now, now', now]
  · rw [Dev.stepShown, Dev.merEvent_mem, Dev.setFlag_mem, kept.2.1, mem]

/-- A MERIDIAN register stands in the frame of a sent step. -/
theorem Dev.stepSent_rd {a : Nat} (low : a < 0x70000) : (s.stepSent x).rd a = (s.stepShown x).rd a := (s.stepSent_same x).rd a (.inl low)

theorem Dev.stepSent_at : (s.stepSent x).rd64 MER_STEP_AT_LO MER_STEP_AT_HI = x := by
  refine Dev.rd64_of_rd ?_ ?_ <;>
    rw [Dev.stepSent_rd _ _ (by decide), Dev.stepShown_rd _ _ (by decide), Dev.stepRecorded_rd, Dev.rd_wr64_other _ _ (by decide) (by decide)]
  · exact Dev.rd_wr64_low _ _ (by decide)
  · exact Dev.rd_wr64_high _ _ _ _

theorem Dev.stepSent_size : (s.stepSent x).rd64 MER_STEP_SIZE_LO MER_STEP_SIZE_HI = x - s.time := by
  refine Dev.rd64_of_rd ?_ ?_ <;> rw [Dev.stepSent_rd _ _ (by decide), Dev.stepShown_rd _ _ (by decide), Dev.stepRecorded_rd]
  · exact Dev.rd_wr64_low _ _ (by decide)
  · exact Dev.rd_wr64_high _ _ _ _

theorem Dev.stepSent_flag (f : Fld) (low : f.off < 0x70000) : (s.stepSent x).flag 0 f = (s.stepShown x).flag 0 f := by
  rw [Dev.flag, Dev.fld, Dev.stepSent_rd _ _ (by omega)]
  rfl

theorem Dev.stepTime_spec : ∃ e : Dev, s.stepTime x = (e.passMarks (fun a => a == 0) (fun _ => false)).raiseGlobal 0x2A2 0 ∧ e.time = x ∧
    e.now = s.now ∧ e.rd64 MER_STEP_AT_LO MER_STEP_AT_HI = x ∧ e.rd64 MER_STEP_SIZE_LO MER_STEP_SIZE_HI = x - s.time ∧
    e.flag 0 MER_TIME_STATUS_STEPPED = true ∧ e.flag 0 MER_TIME_STATUS_SLEWING = false ∧ e.rd MER_SLEW_LEFT = 0 ∧ e.mem = s.mem := by
  obtain ⟨stepped, slewing, left⟩ := s.stepShown_status x
  obtain ⟨time, now, mem⟩ := s.stepShown_same x
  have same := s.stepSent_same x
  refine ⟨s.stepSent x, s.stepTime_eq x, same.time.trans time, same.now.trans now, s.stepSent_at x, s.stepSent_size x, ?_, ?_, ?_, same.mem.trans mem⟩
  · rw [Dev.stepSent_flag _ _ _ (by decide), stepped]
  · rw [Dev.stepSent_flag _ _ _ (by decide), slewing]
  · rw [Dev.stepSent_rd _ _ (by decide), left]

end step

/-! Edges of PPS_IN. -/

section pps

/-- What lets an edge be accepted (R267). -/
def Dev.edgeGood (s : Dev) : Prop :=
  s.mer.firstEdge = true ∨ s.mer.ppsAt = none ∨ (∃ a, s.mer.ppsAt = some a ∧ oneSecond a s.now = true) ∨
    (∃ a b l, s.mer.outliers = a :: b :: l ∧ oneSecond a s.now = true ∧ oneSecond b a = true)

/-- An edge has been accepted. -/
def Dev.edgeTaken (s : Dev) : Dev := (s.modMer (fun x => { x with ppsAt := some s.now, firstEdge := false, outliers := [] })).setPpsOk true

/-- The offset an edge at this cycle has. -/
def Dev.edgeOffset (s : Dev) : Int := offsetOfTime (s.time.toNat - signed 16 (s.fld 0 MER_PPS_CFG_DELAY_NS))

variable {s : Dev}

theorem Dev.setPpsOk_spec (s : Dev) (b : Bool) : (s.setPpsOk b).flag 0 MER_TIME_STATUS_PPS_OK = b ∧ (s.setPpsOk b).mer = s.mer ∧
    (s.setPpsOk b).time = s.time ∧ (s.setPpsOk b).now = s.now ∧ s.keeps (s.setPpsOk b) [MER_TIME_STATUS, MER_IRQ_CAUSE] ∧
    ∀ f, apart 0 MER_TIME_STATUS_PPS_OK 0 f → MER_IRQ_CAUSE ≠ 0 + f.off → (s.setPpsOk b).flag 0 f = s.flag 0 f := by
  unfold Dev.setPpsOk
  split_ifs with same
  · exact ⟨eq_of_beq same, rfl, rfl, rfl, Dev.keeps_refl _ _, fun _ _ _ => rfl⟩
  · refine ⟨?_, ?_, ?_, ?_, ((Dev.keeps_refl _ _).setFlag _ _ _ (by decide)).merEvent _ (by decide), fun f off cause => ?_⟩
    · rw [Dev.merEvent_flag _ _ _ _ (by decide), Dev.flag_setFlag_same _ _ _ _ (by decide) rfl]
    · rw [Dev.merEvent_mer, Dev.setFlag_mer]
    · rw [Dev.merEvent_time, Dev.setFlag_time]
    · rw [Dev.merEvent_now, Dev.setFlag_now]
    · rw [Dev.merEvent_flag _ _ _ _ cause, Dev.flag_setFlag_apart off]

theorem Dev.edgeTaken_flag (s : Dev) {f : Fld} (off : apart 0 MER_TIME_STATUS_PPS_OK 0 f) (cause : MER_IRQ_CAUSE ≠ 0 + f.off) :
    s.edgeTaken.flag 0 f = s.flag 0 f := by
  obtain ⟨-, -, -, -, -, others⟩ := (s.modMer (fun x => { x with ppsAt := some s.now, firstEdge := false, outliers := [] })).setPpsOk_spec true
  exact (others f off cause).trans (Dev.modMer_flag _ _ _ _)

theorem Dev.edgeTaken_spec (s : Dev) : s.edgeTaken.flag 0 MER_TIME_STATUS_PPS_OK = true ∧
    s.edgeTaken.mer = { s.mer with ppsAt := some s.now, firstEdge := false, outliers := [] } ∧ s.edgeTaken.time = s.time ∧
    s.edgeTaken.now = s.now ∧ s.keeps s.edgeTaken [MER_TIME_STATUS, MER_IRQ_CAUSE] := by
  obtain ⟨shown, mer, time, now, kept, -⟩ := (s.modMer (fun x => { x with ppsAt := some s.now, firstEdge := false, outliers := [] })).setPpsOk_spec true
  exact ⟨shown, mer.trans (Dev.modMer_mer _ _), time.trans (Dev.modMer_time _ _), now.trans (Dev.modMer_now _ _),
    ((Dev.keeps_refl _ _).modMer _).trans kept⟩

theorem Dev.edgeTaken_offset (s : Dev) : s.edgeTaken.edgeOffset = s.edgeOffset := by
  obtain ⟨-, -, time, -, kept⟩ := s.edgeTaken_spec
  rw [Dev.edgeOffset, time, kept.fld (by decide), Dev.edgeOffset]

/-- The work of an accepted edge. -/
def Dev.edgeWork (s : Dev) (setNow : Bool) : Dev :=
  if setNow then s.edgeTaken
  else if s.edgeTaken.flag 0 MER_TIME_STATUS_SET_PENDING then (s.edgeTaken.showOffset s.edgeTaken.edgeOffset).setTime
  else s.edgeTaken.discipline s.edgeTaken.edgeOffset

theorem Dev.ppsEdge_good (good : s.edgeGood) (setNow : Bool) : s.ppsEdge setNow = s.edgeWork setNow := by
  refine if_pos ?_
  rcases good with first | fresh | ⟨a, last, near⟩ | ⟨a, b, l, outliers, near, near'⟩
  · simp [first]
  · simp [fresh]
  · simp [last, near]
  · simp [outliers, near, near']

theorem Dev.ppsEdge_bad {a : Nat} (first : s.mer.firstEdge = false) (last : s.mer.ppsAt = some a) (far : oneSecond a s.now = false)
    (outliers : ∀ x y l, s.mer.outliers = x :: y :: l → (oneSecond x s.now && oneSecond y x) = false) (setNow : Bool) :
    s.ppsEdge setNow = (((s.modMer (fun x => { x with outliers := (s.now :: x.outliers).take 2 })).setFlag 0 MER_TIME_STATUS_OUTLIER true).merEvent
      2).raiseGlobal 0x2A1 0 := by
  refine if_neg ?_
  rcases seen : s.mer.outliers with _ | ⟨x, _ | ⟨y, l⟩⟩
  · simp [first, last, far]
  · simp [first, last, far]
  · simpa [first, last, far] using outliers x y l seen

theorem Dev.edgeWork_pending (pending : s.flag 0 MER_TIME_STATUS_SET_PENDING = true) :
    s.edgeWork false = (s.edgeTaken.showOffset s.edgeOffset).setTime := by
  rw [Dev.edgeWork, if_neg (by decide), if_pos (by rw [Dev.edgeTaken_flag _ (by decide) (by decide), pending]), Dev.edgeTaken_offset]

theorem Dev.edgeWork_disciplines (pending : s.flag 0 MER_TIME_STATUS_SET_PENDING = false) : s.edgeWork false = s.edgeTaken.discipline s.edgeOffset := by
  rw [Dev.edgeWork, if_neg (by decide), if_neg (by rw [Dev.edgeTaken_flag _ (by decide) (by decide), pending]; decide), Dev.edgeTaken_offset]

theorem Dev.watchesPps_of {s : Dev} (domains : s.domains = true) (released : s.released = true) (edge : s.plates.ppsEdge ≠ 0)
    (own : s.timeFromLink = false) : s.watchesPps = true := by
  simp [Dev.watchesPps, domains, released, edge, own]

end pps

/-! Discipline (R268). -/

section discipline

variable {d : Dev} {o : Int}

theorem Dev.showOffset_flag (d : Dev) (o : Int) {f : Fld} (off : MER_OFFSET ≠ 0 + f.off) : (d.showOffset o).flag 0 f = d.flag 0 f :=
  Dev.flag_wr_word _ _ _ _ _ off

theorem Dev.showOffset_rd (d : Dev) (o : Int) : (d.showOffset o).rd MER_OFFSET = BitVec.ofNat 32 (unsigned 32 (satS 32 o)) := Dev.rd_wr_same _ _ _

theorem Dev.showOffset_keeps (d : Dev) (o : Int) : d.keeps (d.showOffset o) [MER_OFFSET] := (Dev.keeps_refl _ _).wr _ _ (by decide)

theorem Dev.showOffset_mer (d : Dev) (o : Int) : (d.showOffset o).mer = d.mer := Dev.wr_mer _ _ _

theorem Dev.showOffset_time (d : Dev) (o : Int) : (d.showOffset o).time = d.time := Dev.wr_time _ _ _

theorem Dev.discipline_unset (unset : d.flag 0 MER_TIME_STATUS_TIME_SET = false) : d.discipline o = d.showOffset o :=
  if_pos (by rw [Dev.showOffset_flag _ _ (by decide), unset]; rfl)

variable (set : d.flag 0 MER_TIME_STATUS_TIME_SET = true)

include set

theorem Dev.discipline_set : d.discipline o = if (d.showOffset o).mer.stepPending then (d.showOffset o).stepTime ((d.showOffset o).time - BitVec.ofInt 64 o)
    else if (d.showOffset o).flag 0 MER_TIME_STATUS_SLEWING then (d.showOffset o).slew o
    else if !(decide (2 < o) || decide (o < -2)) then (d.showOffset o).newTrim (-1000 * o)
    else if (d.showOffset o).flag 0 MER_PPS_CFG_JUMP_POLICY then (d.showOffset o).modMer (fun m => { m with stepPending := true })
    else (d.showOffset o).slew o :=
  if_neg (by rw [Dev.showOffset_flag _ _ (by decide), set]; decide)

theorem Dev.discipline_steps (pending : d.mer.stepPending = true) : d.discipline o = (d.showOffset o).stepTime (d.time - BitVec.ofInt 64 o) := by
  rw [Dev.discipline_set set, if_pos (by rw [Dev.showOffset_mer, pending]), Dev.showOffset_time]

variable (idle : d.mer.stepPending = false) (still : d.flag 0 MER_TIME_STATUS_SLEWING = false)

include idle still

theorem Dev.discipline_still : d.discipline o = if !(decide (2 < o) || decide (o < -2)) then (d.showOffset o).newTrim (-1000 * o)
    else if (d.showOffset o).flag 0 MER_PPS_CFG_JUMP_POLICY then (d.showOffset o).modMer (fun m => { m with stepPending := true })
    else (d.showOffset o).slew o := by
  rw [Dev.discipline_set set, if_neg (by rw [Dev.showOffset_mer, idle]; decide), if_neg (by rw [Dev.showOffset_flag _ _ (by decide), still]; decide)]

theorem Dev.discipline_trims (low : -2 ≤ o) (high : o ≤ 2) : d.discipline o = (d.showOffset o).newTrim (-1000 * o) := by
  rw [Dev.discipline_still set idle still]
  exact if_pos (by simp; omega)

theorem Dev.discipline_waits (big : 2 < o ∨ o < -2) (jump : d.flag 0 MER_PPS_CFG_JUMP_POLICY = true) :
    d.discipline o = (d.showOffset o).modMer (fun m => { m with stepPending := true }) := by
  rw [Dev.discipline_still set idle still, if_neg (by simp; omega), if_pos (by rw [Dev.showOffset_flag _ _ (by decide), jump])]

theorem Dev.discipline_slews (big : 2 < o ∨ o < -2) (smooth : d.flag 0 MER_PPS_CFG_JUMP_POLICY = false) :
    d.discipline o = (d.showOffset o).slew o := by
  rw [Dev.discipline_still set idle still, if_neg (by simp; omega), if_neg (by rw [Dev.showOffset_flag _ _ (by decide), smooth]; decide)]

end discipline

/-! The slew (R269). -/

section slew

/-- A slew of minus `o` has started, its source not yet raised. -/
def Dev.slewStarted (s : Dev) (o : Int) : Dev :=
  (((s.wr MER_SLEW_LEFT (BitVec.ofNat 32 (unsigned 32 (satS 32 (-o))))).modMer (fun m => { m with slewAt := s.now })).setFlag 0
    MER_TIME_STATUS_SLEWING true).merEvent 1

theorem Dev.slew_starts {s : Dev} (still : s.flag 0 MER_TIME_STATUS_SLEWING = false) (o : Int) : s.slew o = (s.slewStarted o).raiseGlobal 0x2A3 0 :=
  if_neg (by rw [still]; decide)

theorem Dev.slewStarted_spec (s : Dev) (o : Int) : (s.slewStarted o).rd MER_SLEW_LEFT = BitVec.ofNat 32 (unsigned 32 (satS 32 (-o))) ∧
    (s.slewStarted o).flag 0 MER_TIME_STATUS_SLEWING = true ∧ (s.slewStarted o).time = s.time ∧ (s.slewStarted o).mer.slewAt = s.now ∧
    s.keeps (s.slewStarted o) [MER_SLEW_LEFT, MER_TIME_STATUS, MER_IRQ_CAUSE] := by
  refine ⟨?_, ?_, ?_, ?_, ((((Dev.keeps_refl _ _).wr _ _ (by decide)).modMer _).setFlag _ _ _ (by decide)).merEvent _ (by decide)⟩
  · rw [Dev.slewStarted, Dev.merEvent_rd _ _ _ (by decide), Dev.setFlag, Dev.rd_setFld_other _ _ _ _ _ (by decide), Dev.modMer_rd, Dev.rd_wr_same]
  · rw [Dev.slewStarted, Dev.merEvent_flag _ _ _ _ (by decide), Dev.flag_setFlag_same _ _ _ _ (by decide) rfl]
  · rw [Dev.slewStarted, Dev.merEvent_time, Dev.setFlag_time, Dev.modMer_time, Dev.wr_time]
  · rw [Dev.slewStarted, Dev.merEvent_mer, Dev.setFlag_mer, Dev.modMer_mer]

/-- The next decrement of a slew is due. -/
def Dev.slewDue (s : Dev) : Dev :=
  (s.upTo (s.mer.slewAt + 1000000000 / s.slewRate)).modMer (fun m => { m with slewAt := (s.upTo (s.mer.slewAt + 1000000000 / s.slewRate)).now })

/-- One nanosecond nearer to zero. -/
def oneLess (x : Int) : Int := if 0 < x then x - 1 else x + 1

theorem bitVec_ofUnsigned (x : Int) : BitVec.ofNat 32 (unsigned 32 x) = BitVec.ofInt 32 x := BitVec.eq_of_toNat_eq (by
  rw [BitVec.toNat_ofNat, BitVec.toNat_ofInt, unsigned]
  omega)

variable {s : State}

theorem exec_slewDecrement_due (awake : s.awake = true) (rate : s.slewRate ≠ 0) (runs : (s.rd MER_SLEW_LEFT).toInt ≠ 0) :
    exec .slewDecrement s = .next (s.withDev (if oneLess (s.rd MER_SLEW_LEFT).toInt == 0 then s.slewDue.endSlew
      else s.slewDue.wr MER_SLEW_LEFT (BitVec.ofNat 32 (unsigned 32 (oneLess (s.rd MER_SLEW_LEFT).toInt))))) := by
  rw [exec_slewDecrement, execSlewDecrement, State.onAwake_of_awake _ _ awake]
  dsimp only
  rw [if_neg (by simp [runs, rate])]
  rfl

theorem Dev.slewDue_now {d : Dev} (awake : d.awake = true) : d.slewDue.now = max d.now (d.mer.slewAt + 1000000000 / d.slewRate) := by
  rw [Dev.slewDue, Dev.modMer_now, Dev.upTo_now _ _ awake]

theorem Dev.slewDue_keeps (d : Dev) (l : List Nat) : d.keeps d.slewDue l := ((Dev.keeps_refl _ _).upTo _).modMer _

theorem Dev.slewDue_slewAt (d : Dev) : d.slewDue.mer.slewAt = d.slewDue.now := by
  rw [Dev.slewDue, Dev.modMer_mer, Dev.modMer_now]

/-- A decrement that leaves a remainder. -/
theorem exec_slewDecrement_more (awake : s.awake = true) (rate : s.slewRate ≠ 0) {v : Word} (runs : (s.rd MER_SLEW_LEFT).toInt ≠ 0)
    (more : oneLess (s.rd MER_SLEW_LEFT).toInt ≠ 0) (value : BitVec.ofInt 32 (oneLess (s.rd MER_SLEW_LEFT).toInt) = v) :
    ∃ t, exec .slewDecrement s = .next t ∧ t.rd MER_SLEW_LEFT = v ∧ t.now = max s.now (s.mer.slewAt + 1000000000 / s.slewRate) ∧
      t.mer.slewAt = t.now ∧ s.keeps t.toDev [MER_SLEW_LEFT] := by
  refine ⟨_, exec_slewDecrement_due awake rate runs, ?_⟩
  rw [State.withDev_toDev, if_neg (by simpa using more), bitVec_ofUnsigned, value]
  refine ⟨Dev.rd_wr_same _ _ _, (Dev.wr_now _ _ _).trans (Dev.slewDue_now awake), ?_, (Dev.slewDue_keeps _ _).wr _ _ (by decide)⟩
  rw [Dev.wr_mer, Dev.wr_now, Dev.slewDue_slewAt]

theorem exec_slewDecrement_last (awake : s.awake = true) (rate : s.slewRate ≠ 0) (last : s.rd MER_SLEW_LEFT = 1 ∨ s.rd MER_SLEW_LEFT = 0xFFFFFFFF) :
    ∃ t, exec .slewDecrement s = .next t ∧ t.rd MER_SLEW_LEFT = 0 ∧ t.flag 0 MER_TIME_STATUS_SLEWING = false ∧
      s.keeps t.toDev [MER_SLEW_LEFT, MER_TIME_STATUS, MER_IRQ_CAUSE] := by
  have ends : (s.rd MER_SLEW_LEFT).toInt ≠ 0 ∧ oneLess (s.rd MER_SLEW_LEFT).toInt = 0 := by
    rcases last with one | minus
    · rw [one]; decide
    · rw [minus]; decide
  obtain ⟨left, slewing, -, -, kept⟩ := s.slewDue.endSlew_spec
  refine ⟨_, exec_slewDecrement_due awake rate ends.1, ?_⟩
  rw [State.withDev_toDev, if_pos (by simpa using ends.2)]
  exact ⟨left, slewing, (Dev.slewDue_keeps _ _).trans kept⟩

end slew

/-! O40. -/

section settle

variable {s : State}

theorem exec_timeSetNow_alone (awake : s.awake = true) (c : Bool) :
    exec (.timeSetNow ⟨c, false⟩) s = .next (s.withDev (s.timeCtrl true false c)) := by
  rw [exec_timeSetNow, execTimeSetNow, State.onAwake_of_awake _ _ awake]
  rfl

theorem exec_timeSetPps_awake (awake : s.awake = true) (c : Bool) : exec (.timeSetPps c) s = .next (s.withDev (s.timeCtrl false true c)) := by
  rw [exec_timeSetPps, execTimeSetPps, State.onAwake_of_awake _ _ awake]

theorem setRequests : ((∀ (s : State) (c : Bool), s.awake = true →
    (s.timeFromLink = false → exec (.timeSetNow ⟨c, false⟩) s = .next (s.withDev
      (((if c then s.setFlag 0 MER_TIME_STATUS_SET_PENDING false else s.toDev).upTo (s.now + 1)).setTime))) ∧
    (s.timeFromLink = true → ∃ t, exec (.timeSetNow ⟨c, false⟩) s = .next t ∧ t.flag 0 MER_TIME_STATUS_REFUSED = true ∧ t.time = s.time ∧
      t.flag 0 MER_TIME_STATUS_SET_PENDING = s.flag 0 MER_TIME_STATUS_SET_PENDING ∧ s.keeps t.toDev [MER_TIME_STATUS])) ∧
  (∀ (s : State) (c : Bool), s.awake = true →
    (s.timeFromLink = false → s.epoch.toNat % 1000000000 = 0 → s.plates.ppsEdge ≠ 0 →
      ∃ t, exec (.timeSetPps c) s = .next t ∧ t.flag 0 MER_TIME_STATUS_SET_PENDING = true ∧ t.time = s.time ∧ t.now = s.now ∧
        s.keeps t.toDev [MER_TIME_STATUS]) ∧
    (s.timeFromLink = true ∨ s.epoch.toNat % 1000000000 ≠ 0 ∨ s.plates.ppsEdge = 0 →
      ∃ t, exec (.timeSetPps c) s = .next t ∧ t.flag 0 MER_TIME_STATUS_REFUSED = true ∧
        t.flag 0 MER_TIME_STATUS_SET_PENDING = s.flag 0 MER_TIME_STATUS_SET_PENDING ∧ s.keeps t.toDev [MER_TIME_STATUS])) ∧
  (∀ s : State, s.awake = true → ∃ t, exec .timeCancel s = .next t ∧ t.flag 0 MER_TIME_STATUS_SET_PENDING = false ∧ t.time = s.time ∧
    s.keeps t.toDev [MER_TIME_STATUS])) := by
  refine ⟨fun s c awake => ⟨fun own => ?now, fun linked => ?linked⟩, fun s c awake => ⟨fun own whole edge => ?pps, fun bad => ?bad⟩, fun s awake => ?cancel⟩
  case now =>
    rw [exec_timeSetNow_alone awake, Dev.timeCtrl_now own]
    rfl
  case linked =>
    refine ⟨_, exec_timeSetNow_alone awake c, ?_⟩
    rw [State.withDev_toDev, Dev.timeCtrl_now_linked linked]
    exact Dev.merRefuse_spec _
  case pps =>
    obtain ⟨time, now, kept⟩ := s.canceled_same c
    refine ⟨_, exec_timeSetPps_awake awake c, ?_⟩
    rw [State.withDev_toDev, Dev.timeCtrl_pps own whole edge]
    exact ⟨Dev.flag_setFlag_same _ _ _ _ (by decide) rfl, (Dev.setFlag_time _ _ _ _).trans time, (Dev.setFlag_now _ _ _ _).trans now,
      kept.setFlag _ _ _ (by decide)⟩
  case bad =>
    refine ⟨_, exec_timeSetPps_awake awake c, ?_⟩
    rw [State.withDev_toDev, Dev.timeCtrl_pps_bad bad]
    obtain ⟨refused, -, pending, kept⟩ := s.merRefuse_spec
    exact ⟨refused, pending, kept⟩
  case cancel =>
    refine ⟨s.withDev (s.timeCtrl false false true), ?_, ?_⟩
    · rw [exec_timeCancel, execTimeCancel, State.onAwake_of_awake _ _ awake]
    · rw [State.withDev_toDev, Dev.timeCtrl_cancel]
      exact ⟨Dev.flag_setFlag_same _ _ _ _ (by decide) rfl, Dev.setFlag_time _ _ _ _, (Dev.keeps_refl _ _).setFlag _ _ _ (by decide)⟩

theorem exec_ppsEdge_watched (domains : s.domains = true) (watched : s.watchesPps = true) : exec .ppsEdge s = .next (s.withDev (s.ppsEdge false)) := by
  rw [exec_ppsEdge, execPpsEdge, State.onAwake_of_awake _ _ (Dev.awake_of_domains domains), if_pos watched]

/-- An accepted edge that only shows its offset, or trims the phase. -/
theorem Dev.edgeWork_quiet {d : Dev} {o : Int} (offset : o = d.edgeOffset) (unasked : d.flag 0 MER_TIME_STATUS_SET_PENDING = false)
    (quiet : d.flag 0 MER_TIME_STATUS_TIME_SET = false ∨
      d.mer.stepPending = false ∧ d.flag 0 MER_TIME_STATUS_SLEWING = false ∧ -2 ≤ o ∧ o ≤ 2) :
    ∃ f, d.edgeWork false = (d.edgeTaken.showOffset o).modClk f ∧ (d.flag 0 MER_TIME_STATUS_TIME_SET = true → ∀ c, (f c).trim = -1000 * o) := by
  rw [Dev.edgeWork_disciplines unasked, ← offset]
  obtain ⟨-, mer, -, -, -⟩ := d.edgeTaken_spec
  cases set : d.flag 0 MER_TIME_STATUS_TIME_SET with
  | false => exact ⟨id, Dev.discipline_unset (by rw [Dev.edgeTaken_flag _ (by decide) (by decide), set]), fun no => absurd no (by decide)⟩
  | true =>
    obtain ⟨idle, still, low, high⟩ := quiet.resolve_left (by rw [set]; decide)
    exact ⟨_, Dev.discipline_trims (by rw [Dev.edgeTaken_flag _ (by decide) (by decide), set]) (by rw [mer]; exact idle)
      (by rw [Dev.edgeTaken_flag _ (by decide) (by decide), still]) low high, fun _ _ => rfl⟩

theorem exec_ppsEdge_quiet (domains : s.domains = true) (watched : s.watchesPps = true) (good : s.edgeGood) {o : Int} (offset : o = s.edgeOffset)
    (unasked : s.flag 0 MER_TIME_STATUS_SET_PENDING = false) (quiet : s.flag 0 MER_TIME_STATUS_TIME_SET = false ∨
      s.mer.stepPending = false ∧ s.flag 0 MER_TIME_STATUS_SLEWING = false ∧ -2 ≤ o ∧ o ≤ 2) :
    ∃ t, exec .ppsEdge s = .next t ∧ t.flag 0 MER_TIME_STATUS_PPS_OK = true ∧ t.rd MER_OFFSET = BitVec.ofNat 32 (unsigned 32 (satS 32 o)) ∧
      t.time = s.time ∧ t.mer.firstEdge = false ∧ t.mer.ppsAt = some s.now ∧ (s.flag 0 MER_TIME_STATUS_TIME_SET = true → t.clk.trim = -1000 * o) ∧
      s.keeps t.toDev [MER_TIME_STATUS, MER_IRQ_CAUSE, MER_OFFSET] := by
  obtain ⟨f, work, trim⟩ := Dev.edgeWork_quiet offset unasked quiet
  obtain ⟨ok, mer, time, -, kept⟩ := s.edgeTaken_spec
  refine ⟨_, by rw [exec_ppsEdge_watched domains watched, Dev.ppsEdge_good good, work], ?_⟩
  rw [State.withDev_toDev]
  refine ⟨?_, ?_, ?_, ?_, ?_, fun set => ?_, ((kept.mono (by decide)).wr _ _ (by decide)).modClk _⟩
  · rw [Dev.modClk_flag, Dev.showOffset_flag _ _ (by decide), ok]
  · rw [Dev.modClk_rd, Dev.showOffset_rd]
  · rw [Dev.modClk_time, Dev.showOffset_time, time]
  · rw [Dev.modClk_mer, Dev.showOffset_mer, mer]
  · rw [Dev.modClk_mer, Dev.showOffset_mer, mer]
  · rw [Dev.modClk_clk]
    exact trim set _

theorem exec_timeSetNow_edge (domains : s.domains = true) (watched : s.watchesPps = true) (good : s.edgeGood) (c : Bool) :
    exec (.timeSetNow ⟨c, true⟩) s = .next (s.withDev (s.edgeTaken.timeCtrl true false c)) := by
  rw [exec_timeSetNow, execTimeSetNow, State.onAwake_of_awake _ _ (Dev.awake_of_domains domains)]
  dsimp only
  rw [if_pos (by rw [watched]; rfl), Dev.ppsEdge_good good]
  rfl

theorem exec_ppsLost_due {a : Nat} (domains : s.domains = true) (edge : s.plates.ppsEdge ≠ 0) (own : s.timeFromLink = false)
    (last : s.mer.ppsAt = some a) : exec .ppsLost s = .next (s.withDev
    ((((s.upTo (a + 2500000000)).modMer (fun m => { m with ppsAt := none, firstEdge := true, outliers := [] })).setPpsOk false).raiseGlobal 0x2A0 0)) := by
  rw [exec_ppsLost, execPpsLost, State.onAwake_of_awake _ _ (Dev.awake_of_domains domains)]
  simp only [last]
  rw [if_neg (by simp [edge, own, domains])]

theorem Dev.discipline_spec {d : Dev} {o : Int} (set : d.flag 0 MER_TIME_STATUS_TIME_SET = true) :
    (d.mer.stepPending = true → ∃ e : Dev, d.discipline o = e.stepTime (d.time - BitVec.ofInt 64 o) ∧ e.mem = d.mem ∧
      (∀ a, a ≠ MER_OFFSET → e.rd a = d.rd a)) ∧
    (d.mer.stepPending = false → d.flag 0 MER_TIME_STATUS_SLEWING = false → 2 < o ∨ o < -2 →
      (d.flag 0 MER_PPS_CFG_JUMP_POLICY = true → (d.discipline o).mer.stepPending = true ∧ (d.discipline o).time = d.time ∧
        d.keeps (d.discipline o) [MER_OFFSET]) ∧
      (d.flag 0 MER_PPS_CFG_JUMP_POLICY = false → ∃ e : Dev, d.discipline o = e.raiseGlobal 0x2A3 0 ∧
        e.rd MER_SLEW_LEFT = BitVec.ofNat 32 (unsigned 32 (satS 32 (-o))) ∧ e.flag 0 MER_TIME_STATUS_SLEWING = true ∧ e.time = d.time ∧
        e.mer.slewAt = d.now ∧ d.keeps e [MER_OFFSET, MER_SLEW_LEFT, MER_TIME_STATUS, MER_IRQ_CAUSE])) := by
  refine ⟨fun pending => ⟨_, Dev.discipline_steps set pending, Dev.wr_mem _ _ _, fun a other => Dev.rd_wr_other _ _ _ _ other.symm⟩,
    fun idle still big => ⟨fun jump => ?_, fun smooth => ?_⟩⟩
  · rw [Dev.discipline_waits set idle still big jump]
    exact ⟨congrArg Mer.stepPending (Dev.modMer_mer _ _), (Dev.modMer_time _ _).trans (Dev.showOffset_time _ _), (Dev.showOffset_keeps _ _).modMer _⟩
  · obtain ⟨left, slewing, time, at_, kept⟩ := (d.showOffset o).slewStarted_spec o
    refine ⟨(d.showOffset o).slewStarted o, ?_, left, slewing, time.trans (Dev.showOffset_time _ _), at_.trans (Dev.wr_now _ _ _), ?_⟩
    · rw [Dev.discipline_slews set idle still big smooth, Dev.slew_starts (by rw [Dev.showOffset_flag _ _ (by decide), still])]
    · exact ((Dev.showOffset_keeps d o).mono (by decide)).trans (kept.mono (by decide))

theorem exec_slewDecrement_steps (awake : s.awake = true) (rate : s.slewRate ≠ 0) :
    (1 < (s.rd MER_SLEW_LEFT).toInt → ∃ t, exec .slewDecrement s = .next t ∧ t.rd MER_SLEW_LEFT = s.rd MER_SLEW_LEFT - 1 ∧
      t.now = max s.now (s.mer.slewAt + 1000000000 / s.slewRate) ∧ t.mer.slewAt = t.now ∧ s.keeps t.toDev [MER_SLEW_LEFT]) ∧
    ((s.rd MER_SLEW_LEFT).toInt < -1 → ∃ t, exec .slewDecrement s = .next t ∧ t.rd MER_SLEW_LEFT = s.rd MER_SLEW_LEFT + 1 ∧
      t.now = max s.now (s.mer.slewAt + 1000000000 / s.slewRate) ∧ s.keeps t.toDev [MER_SLEW_LEFT]) := by
  refine ⟨fun up => ?_, fun down => ?_⟩
  · have less : oneLess (s.rd MER_SLEW_LEFT).toInt = (s.rd MER_SLEW_LEFT).toInt - 1 := if_pos (by omega)
    refine exec_slewDecrement_more awake rate (by omega) (by omega) ?_
    rw [less, sub_eq_add_neg, BitVec.ofInt_add, BitVec.ofInt_toInt, BitVec.sub_eq_add_neg]
    rfl
  · have less : oneLess (s.rd MER_SLEW_LEFT).toInt = (s.rd MER_SLEW_LEFT).toInt + 1 := if_neg (by omega)
    obtain ⟨t, result, left, now, -, kept⟩ := exec_slewDecrement_more awake rate (v := s.rd MER_SLEW_LEFT + 1) (by omega) (by omega)
      (by rw [less, BitVec.ofInt_add, BitVec.ofInt_toInt]; rfl)
    exact ⟨t, result, left, now, kept⟩

end settle

/-- Settles O40: the request bits by `Dev.timeCtrl`'s cases, a step by `Dev.stepSent`, an edge by `Dev.edgeWork`, the slew by
`Dev.slewDue`. -/
theorem timeIsSetAndDisciplined : Obligations.TimeIsSetAndDisciplined := by
  obtain ⟨now, pps, cancel⟩ := setRequests
  refine ⟨⟨now, pps, cancel, Dev.stepTime_spec⟩, fun s domains released edge own good => ⟨fun o pending offset => ?pending, fun c => ?both,
    fun o unasked offset quiet => ?quiet⟩, fun s a domains released edge own first last far outliers => ?outlier, fun d o => Dev.discipline_spec,
    fun s a domains edge own last => exec_ppsLost_due domains edge own last, fun s awake rate => ?slew⟩
  case pending =>
    rw [exec_ppsEdge_watched domains (Dev.watchesPps_of domains released edge own), Dev.ppsEdge_good good, Dev.edgeWork_pending pending, offset]
    rfl
  case both => exact exec_timeSetNow_edge domains (Dev.watchesPps_of domains released edge own) good c
  case quiet => exact exec_ppsEdge_quiet domains (Dev.watchesPps_of domains released edge own) good offset unasked quiet
  case outlier =>
    rw [exec_ppsEdge_watched domains (Dev.watchesPps_of domains released edge own), Dev.ppsEdge_bad first last far outliers]
  case slew =>
    obtain ⟨up, down⟩ := exec_slewDecrement_steps awake rate
    exact ⟨up, down, exec_slewDecrement_last awake rate⟩

end Sys2Proof.Machine

namespace Sys2Proof.Machine

open Sys2Proof

/-! The external axes (R272 to R275, R277) and Precision Time Measurement (R280). -/

theorem AxisSt.edge_spec (x : AxisSt) (up : Bool) (b c : Nat) :
    (x.edge up b c).value = (if up then x.value + 256 else x.value - 256) ∧ (x.edge up b c).at_ = c ∧
    (x.edge up b c).edgeAt = some b ∧ (x.seen = true → x.dirUp ≠ up → (x.edge up b c).held = 1) ∧
    (∀ a, x.seen = true → x.dirUp = up → x.edgeAt = some a → (x.edge up b c).period = b - a) := by
  refine ⟨rfl, rfl, rfl, fun seen turns => ?_, fun a seen straight last => ?_⟩
  · simp [AxisSt.edge, seen, turns]
  · simp [AxisSt.edge, straight, last]

section axis

variable (s : Dev)

theorem Dev.axisSt_congr {s t : Dev} (same : t.mer = s.mer) (a : Nat) : t.axisSt a = s.axisSt a := by
  simp only [Dev.axisSt, same]

theorem Dev.modAxis_congr {s t : Dev} (same : t.mer = s.mer) (a : Nat) (f : AxisSt → AxisSt) : (t.modAxis a f).mer = (s.modAxis a f).mer := by
  simp only [Dev.modAxis, same]

theorem Dev.modAxis_now (a : Nat) (f : AxisSt → AxisSt) : (s.modAxis a f).now = s.now := rfl

theorem Dev.keeps.modAxis {s t : Dev} {l : List Nat} (h : s.keeps t l) (a : Nat) (f : AxisSt → AxisSt) : s.keeps (t.modAxis a f) l := ⟨h.1, h.2⟩

theorem Dev.setRate_now (a : Nat) (units ns : Int) : (s.setRate a units ns).now = s.now := Dev.wr_now _ _ _

theorem Dev.setRate_mer (a : Nat) (units ns : Int) : (s.setRate a units ns).mer = s.mer := Dev.wr_mer _ _ _

theorem Dev.keeps.setRate {s t : Dev} {l : List Nat} (h : s.keeps t l) {a : Nat} (units ns : Int) (listed : axBase a + MER_AX_RATE ∈ l) :
    s.keeps (t.setRate a units ns) l := h.wr _ _ listed

end axis

/-! Encoders. -/

section encoder

variable {s : Dev} {a : Nat} {up : Bool}

/-- A count edge moves its axis 4 cycles on. -/
theorem Dev.quadEdge_spec (awake : s.awake = true) :
    (s.quadEdge a up).mer = (s.modAxis a (fun x => x.edge up s.now (s.now + 4))).mer ∧ (s.quadEdge a up).now = s.now + 4 ∧
    s.keeps (s.quadEdge a up) [axBase a + MER_AX_STATUS, axBase a + MER_AX_RATE] := by
  have later : (s.upTo (s.now + 4)).now = s.now + 4 := (Dev.upTo_now _ _ awake).trans (max_eq_right (by omega))
  rw [Dev.quadEdge]
  refine ⟨?_, ?_, ((((Dev.keeps_refl _ _).upTo _).modAxis _ _).setFlag _ _ _ (by simp)).setRate _ _ (by simp)⟩
  · rw [Dev.setRate_mer, Dev.setFlag_mer, later]
    exact Dev.modAxis_congr (Dev.upTo_mer _ _) _ _
  · rw [Dev.setRate_now, Dev.setFlag_now, Dev.modAxis_now, later]

/-- The encoder's inputs stand at new levels. -/
def Dev.withLevels (s : Dev) (e : Fin 2) (l : Bool × Bool) : Dev := { s with pins := { s.pins with encoder := s.pins.encoder.set e.val l } }

/-- Places the inputs move on in the quadrature cycle. -/
def Dev.quadMove (s : Dev) (e : Fin 2) (l : Bool × Bool) : Nat := (quadPlace l + 4 - quadPlace (s.pins.encoder.getD e.val (false, false))) % 4

variable {e : Fin 2} {l : Bool × Bool}

/-- What an encoder's new levels do: a count edge, or none where both have changed. -/
def Dev.levelsCounted (s : Dev) (e : Fin 2) (l : Bool × Bool) : Dev :=
  if s.quadMove e l == 2 then s.withLevels e l else (s.withLevels e l).quadEdge (encAxis e) (s.quadMove e l == 1)

theorem Dev.encLevels_eq (s : Dev) (e : Fin 2) (l : Bool × Bool) (fast : Bool) : s.encLevels e l fast =
    if !s.pins.resetN || !(s.axisRec (encAxis e)).en || (s.axisRec (encAxis e)).kind != 0 || s.quadMove e l == 0 then s.withLevels e l
    else if (fast || s.quadMove e l == 2) && s.awake then (s.levelsCounted e l).axisError (encAxis e) (0x2A4 + e.val) 0
    else s.levelsCounted e l := rfl

variable (awake : s.awake = true) (en : (s.axisRec (encAxis e)).en = true) (kind : (s.axisRec (encAxis e)).kind = 0)

include awake en kind

theorem Dev.encLevels_moves (moved : s.quadMove e l ≠ 0) (fast : Bool) : s.encLevels e l fast =
    if fast || s.quadMove e l == 2 then (s.levelsCounted e l).axisError (encAxis e) (0x2A4 + e.val) 0 else s.levelsCounted e l := by
  rw [Dev.encLevels_eq, if_neg (by simp [Dev.resetN_of_awake awake, en, kind, moved]), awake, Bool.and_true]

theorem Dev.encLevels_count (one : s.quadMove e l = 1 ∨ s.quadMove e l = 3) (fast : Bool) : s.encLevels e l fast =
    if fast then ((s.withLevels e l).quadEdge (encAxis e) (s.quadMove e l == 1)).axisError (encAxis e) (0x2A4 + e.val) 0
    else (s.withLevels e l).quadEdge (encAxis e) (s.quadMove e l == 1) := by
  have single : (s.quadMove e l == 2) = false := by rcases one with one | one <;> rw [one] <;> decide
  have counted : s.levelsCounted e l = (s.withLevels e l).quadEdge (encAxis e) (s.quadMove e l == 1) := if_neg (by rw [single]; decide)
  rw [Dev.encLevels_moves awake en kind (by omega), single, Bool.or_false, counted]

theorem Dev.encLevels_both (both : s.quadMove e l = 2) (fast : Bool) :
    s.encLevels e l fast = (s.withLevels e l).axisError (encAxis e) (0x2A4 + e.val) 0 := by
  have counted : s.levelsCounted e l = s.withLevels e l := if_pos (by rw [both]; decide)
  rw [Dev.encLevels_moves awake en kind (by omega), if_pos (by simp [both]), counted]

end encoder

theorem exec_encoderEdge_spec {s : State} {e : Fin 2} {a b : Bool} {k : Nat} {d : Dev} (awake : s.awake = true)
    (en : (s.axisRec (encAxis e)).en = true) (kind : (s.axisRec (encAxis e)).kind = 0) (moved : k = s.quadMove e (a, b))
    (levels : d = s.withLevels e (a, b)) :
    (k = 1 ∨ k = 3 → ∃ t, exec (.encoderEdge e (a, b) false) s = .next t ∧
      t.axisSt (encAxis e) = (s.modAxis (encAxis e) (fun x => x.edge (k == 1) s.now (s.now + 4))).axisSt (encAxis e) ∧
      t.now = s.now + 4 ∧ s.keeps t.toDev [axBase (encAxis e) + MER_AX_STATUS, axBase (encAxis e) + MER_AX_RATE]) ∧
    (k = 1 ∨ k = 3 → exec (.encoderEdge e (a, b) true) s =
      .next (s.withDev ((d.quadEdge (encAxis e) (k == 1)).axisError (encAxis e) (0x2A4 + e.val) 0))) ∧
    (k = 2 → ∀ f, exec (.encoderEdge e (a, b) f) s = .next (s.withDev (d.axisError (encAxis e) (0x2A4 + e.val) 0))) := by
  subst moved levels
  refine ⟨fun one => ?_, fun one => ?_, fun both f => ?_⟩
  · obtain ⟨mer, now, kept⟩ := Dev.quadEdge_spec (s := s.withLevels e (a, b)) (a := encAxis e) (up := s.quadMove e (a, b) == 1) awake
    refine ⟨s.withDev ((s.withLevels e (a, b)).quadEdge (encAxis e) (s.quadMove e (a, b) == 1)), ?_, Dev.axisSt_congr mer _, now, kept⟩
    rw [exec_encoderEdge, execEncoderEdge, State.on_eq, Dev.encLevels_count awake en kind one, if_neg (by decide)]
  · rw [exec_encoderEdge, execEncoderEdge, State.on_eq, Dev.encLevels_count awake en kind one, if_pos rfl]
  · rw [exec_encoderEdge, execEncoderEdge, State.on_eq, Dev.encLevels_both awake en kind both]

section zPulse

variable {s : State} {e : Fin 2} (awake : s.awake = true) (en : (s.axisRec (encAxis e)).en = true) (kind : (s.axisRec (encAxis e)).kind = 0)
  (used : s.flag (axBase (encAxis e)) MER_AX_CFG_Z_EN = true)

include awake

/-- A Z pulse with a count edge in its cycle comes after the count. -/
theorem exec_encoderZPulse_edge {l : Bool × Bool} (still : (s.encLevels e l false).awake = true) :
    exec (.encoderZPulse ⟨e, some l⟩) s = exec (.encoderZPulse ⟨e, none⟩) (s.withDev (s.encLevels e l false)) := by
  rw [exec_encoderZPulse, execEncoderZPulse, State.onAwake_of_awake _ _ awake, exec_encoderZPulse, execEncoderZPulse, State.onAwake_of_awake _ _ still]
  rfl

include en kind used

theorem exec_encoderZPulse_used : exec (.encoderZPulse ⟨e, none⟩) s = .next (s.withDev
    (if s.flag (axBase (encAxis e)) MER_AX_STATUS_ZSEEN then
      (if decide (256 < s.axisPos (encAxis e)) && decide (s.axisPos (encAxis e) + 256 < s.revolution (encAxis e)) then
        s.axisError (encAxis e) (0x2A4 + e.val) 0 else s.toDev)
    else (s.modAxis (encAxis e) (fun x => { x with zero := s.axisNow (encAxis e) })).setFlag (axBase (encAxis e)) MER_AX_STATUS_ZSEEN true)) := by
  rw [exec_encoderZPulse, execEncoderZPulse, State.onAwake_of_awake _ _ awake]
  dsimp only
  rw [if_neg (by simp [en, kind, used])]

theorem exec_encoderZPulse_first (fresh : s.flag (axBase (encAxis e)) MER_AX_STATUS_ZSEEN = false) :
    ∃ t, exec (.encoderZPulse ⟨e, none⟩) s = .next t ∧ t.flag (axBase (encAxis e)) MER_AX_STATUS_ZSEEN = true ∧
      t.mer = (s.modAxis (encAxis e) (fun x => { x with zero := s.axisNow (encAxis e) })).mer ∧ s.keeps t.toDev [axBase (encAxis e) + MER_AX_STATUS] := by
  refine ⟨_, exec_encoderZPulse_used awake en kind used, ?_⟩
  rw [State.withDev_toDev, if_neg (by rw [fresh]; decide)]
  exact ⟨Dev.flag_setFlag_same _ _ _ _ (by decide) rfl, Dev.setFlag_mer _ _ _ _, ((Dev.keeps_refl _ _).modAxis _ _).setFlag _ _ _ (by simp)⟩

theorem exec_encoderZPulse_elsewhere (seen : s.flag (axBase (encAxis e)) MER_AX_STATUS_ZSEEN = true) (low : 256 < s.axisPos (encAxis e))
    (high : s.axisPos (encAxis e) + 256 < s.revolution (encAxis e)) :
    exec (.encoderZPulse ⟨e, none⟩) s = .next (s.withDev (s.axisError (encAxis e) (0x2A4 + e.val) 0)) := by
  rw [exec_encoderZPulse_used awake en kind used, if_pos seen, if_pos (by simp [low, high])]

theorem exec_encoderZPulse_home (seen : s.flag (axBase (encAxis e)) MER_AX_STATUS_ZSEEN = true) (home : s.axisPos (encAxis e) ≤ 256) :
    exec (.encoderZPulse ⟨e, none⟩) s = .next s := by
  rw [exec_encoderZPulse_used awake en kind used, if_pos seen, if_neg (by simp; omega), State.withDev_self]

end zPulse

/-- The position PRESET loads. -/
def Dev.presetValue (s : Dev) (a : Nat) : Word64 := s.rd64 (axBase a + MER_AX_SET_LO) (axBase a + MER_AX_SET_HI)

/-- An axis as PRESET loads it. -/
def AxisSt.loaded (x : AxisSt) (v : Word64) (now : Nat) : AxisSt :=
  { x with value := v, zero := v, at_ := now, period := 0, frames := (x.frames.take 1).map (fun f => (f.1, v)) }

/-- PRESET before the marks it passes. -/
def Dev.presetLoaded (s : Dev) (a : Nat) : Dev :=
  ((s.modAxis a (fun x => x.loaded (s.presetValue a) s.now)).setFlag (axBase a) MER_AX_STATUS_ZSEEN false).setRate a 0 0

theorem Dev.preset_eq (s : Dev) (a : Nat) : s.preset a = (s.presetLoaded a).passMarks (fun k => k == a) (fun _ => false) := rfl

theorem Dev.presetLoaded_spec (s : Dev) (a : Nat) :
    (s.presetLoaded a).axisSt a = (s.modAxis a (fun x => x.loaded (s.presetValue a) s.now)).axisSt a ∧
    (s.presetLoaded a).flag (axBase a) MER_AX_STATUS_ZSEEN = false ∧ (s.presetLoaded a).rd (axBase a + MER_AX_RATE) = 0 ∧
    s.keeps (s.presetLoaded a) [axBase a + MER_AX_STATUS, axBase a + MER_AX_RATE] := by
  refine ⟨Dev.axisSt_congr ((Dev.setRate_mer _ _ _ _).trans (Dev.setFlag_mer _ _ _ _)) a, ?_, Dev.rd_wr_same _ _ _,
    (((Dev.keeps_refl _ _).modAxis _ _).setFlag _ _ _ (by simp)).setRate _ _ (by simp)⟩
  rw [Dev.presetLoaded, Dev.setRate, Dev.flag_wr_word _ _ _ _ _ (by simp), Dev.flag_setFlag_same _ _ _ _ (by decide) rfl]

theorem exec_encoderPreset_spec {s : State} {e : Fin 2} (awake : s.awake = true) (en : (s.axisRec (encAxis e)).en = true) :
    exec (.encoderPreset e) s = .next (s.withDev (s.preset (encAxis e))) := by
  rw [exec_encoderPreset, execEncoderPreset, State.onAwake_of_awake _ _ awake, if_pos en]

/-! Serial frames. -/

section serial

variable {s : State} {e : Fin 2} {c : Nat} {d : Dev} (domains : s.domains = true) (en : (s.axisRec (encAxis e)).en = true)
  (kind : (s.axisRec (encAxis e)).kind = 1) (thaw : (s.axisSt (encAxis e)).pollAt = none → c = s.now)
  (poll : ∀ a, (s.axisSt (encAxis e)).pollAt = some a → c = max s.now (a + 1000 * s.fld (axBase (encAxis e)) MER_AX_CFG_POLL_US))
  (clocked : d = (s.upTo (c + getBits (s.axisRec (encAxis e)).b 0 8 * getBits (s.axisRec (encAxis e)).b 8 16 + 2)).modAxis (encAxis e)
    (fun x => { x with pollAt := some c }))

include domains en kind thaw poll clocked

theorem exec_serialPoll_due (f : BitVec 48) (stuck : Bool) : exec (.serialPoll e f stuck) s = .next (s.withDev
    (if stuck then d.axisError (encAxis e) (0x2A4 + e.val) 0 else d.serialFrame (encAxis e)
      (getBits f.toNat 0 (getBits (s.axisRec (encAxis e)).b 0 8) / 2 ^ s.fld (axBase (encAxis e)) MER_AX_CFG_POS_SHIFT %
        max (s.axisRec (encAxis e)).a 1) c)) := by
  subst clocked
  rw [exec_serialPoll, execSerialPoll, State.onAwake_of_awake _ _ (Dev.awake_of_domains domains)]
  dsimp only
  rw [if_neg (by simp [domains, en, kind])]
  cases last : (s.axisSt (encAxis e)).pollAt with
  | none => rw [thaw last]
  | some a => rw [poll a last]

end serial

/-! Mains. -/

section mains

variable {s : State}

theorem exec_mainsCrossing_seen (domains : s.domains = true) (en : (s.axisRec 3).en = true) (seen : (s.axisSt 3).seen = true)
    (live : s.flag (axBase 3) MER_AX_STATUS_LOST = false) : exec .mainsCrossing s = .next (s.withDev
    (if 7 * s.mainsNominal ≤ 10 * (s.now - (s.axisSt 3).at_) ∧ 10 * (s.now - (s.axisSt 3).at_) ≤ 14 * s.mainsNominal then
      ((s.upTo (s.now + 24)).modAxis 3 (fun y => { y with
        value := BitVec.ofNat 64 ((y.value.toNat / 4294967296 + 1) * 4294967296), at_ := s.now, period := s.now - (s.axisSt 3).at_, seen := true })).setRate
          3 4294967296 (s.now - (s.axisSt 3).at_ : Nat)
    else s.toDev)) := by
  rw [exec_mainsCrossing, execMainsCrossing, State.onAwake_of_awake _ _ (Dev.awake_of_domains domains)]
  dsimp only
  rw [if_neg (by simp [domains, en]), if_neg (by simp [seen]), if_neg (by simp [live])]
  simp only [Bool.and_eq_true, decide_eq_true_eq]

theorem exec_mainsCrossing_spec (domains : s.domains = true) (en : (s.axisRec 3).en = true) (seen : (s.axisSt 3).seen = true)
    (live : s.flag (axBase 3) MER_AX_STATUS_LOST = false) (low : 7 * s.mainsNominal ≤ 10 * (s.now - (s.axisSt 3).at_))
    (high : 10 * (s.now - (s.axisSt 3).at_) ≤ 14 * s.mainsNominal) :
    ∃ t, exec .mainsCrossing s = .next t ∧ t.now = s.now + 24 ∧ t.axisSt 3 = (s.modAxis 3 (fun y => { y with
      value := BitVec.ofNat 64 ((y.value.toNat / 4294967296 + 1) * 4294967296), at_ := s.now, period := s.now - (s.axisSt 3).at_, seen := true })).axisSt 3 ∧
      s.keeps t.toDev [axBase 3 + MER_AX_RATE] := by
  refine ⟨_, exec_mainsCrossing_seen domains en seen live, ?_⟩
  rw [State.withDev_toDev, if_pos ⟨low, high⟩]
  refine ⟨?_, Dev.axisSt_congr ((Dev.setRate_mer _ _ _ _).trans (Dev.modAxis_congr (Dev.upTo_mer _ _) _ _)) 3,
    (((Dev.keeps_refl _ _).upTo _).modAxis _ _).setRate _ _ (by simp)⟩
  rw [Dev.setRate_now, Dev.modAxis_now, Dev.upTo_now _ _ (Dev.awake_of_domains domains), max_eq_right (by omega)]

theorem exec_mainsLost_spec (domains : s.domains = true) (en : (s.axisRec 3).en = true) (live : s.flag (axBase 3) MER_AX_STATUS_LOST = false) :
    ∃ d : Dev, exec .mainsLost s = .next (s.withDev ((d.setLost 3 true).raiseGlobal 0x2A6 0)) ∧
      d.now = max s.now ((s.axisSt 3).at_ + 2 * s.mainsNominal) ∧ d.regs = s.regs ∧ d.mem = s.mem := by
  refine ⟨(s.upTo ((s.axisSt 3).at_ + 2 * s.mainsNominal)).modAxis 3 (fun y =>
    { y with seen := true, period := if y.period == 0 then s.mainsNominal else y.period }), ?_, ?_, Dev.upTo_regs _ _, Dev.upTo_mem _ _⟩
  · rw [exec_mainsLost, execMainsLost, State.onAwake_of_awake _ _ (Dev.awake_of_domains domains), if_neg (by simp [domains, en, live])]
  · rw [Dev.modAxis_now, Dev.upTo_now _ _ (Dev.awake_of_domains domains)]

/-- The link axis's extrapolation ends. -/
theorem exec_linkAxisLost_due {x v : Word64} {l : List (Word64 × Word64)} (domains : s.domains = true) (en : (s.axisRec 4).en = true)
    (samples : (s.axisSt 4).samples = (x, v) :: l) (live : s.flag (axBase 4) MER_AX_STATUS_LOST = false) : exec .linkAxisLost s = .next (s.withDev
    (((s.upTo (s.now + ((x + 8000) - s.linkTime).toInt.toNat)).setLost 4 true).raiseGlobal 0x2A7 2)) := by
  rw [exec_linkAxisLost, execLinkAxisLost, State.onAwake_of_awake _ _ (Dev.awake_of_domains domains)]
  simp only [samples]
  rw [if_neg (by simp [domains, en, live])]

end mains

/-! Precision Time Measurement. -/

section ptm

variable {s : State} (awake : s.awake = true)

include awake

theorem exec_ptmRequest_alone (hub : s.isRemote = false) (ptm : s.cfg.ptm = true) (link : s.cfg.link = true) (idle : s.mer.ptmOpen = none)
    (off : s.fld 0 MER_PTM_CTRL_INTERVAL_MS = 0) :
    exec .ptmRequest s = .next (s.withDev (s.modMer (fun m => { m with ptmOpen := some s.time, ptmAt := s.now }))) := by
  rw [exec_ptmRequest, execPtmRequest, State.onAwake_of_awake _ _ awake, if_pos (by simp [off]), Dev.ptmBegin, if_neg (by simp [hub, ptm, link, idle])]

theorem exec_ptmRequest_timer (on : s.fld 0 MER_PTM_CTRL_INTERVAL_MS ≠ 0) : exec .ptmRequest s = .next (s.withDev
    (((s.upTo (s.mer.ptmTimer + 1000000 * s.fld 0 MER_PTM_CTRL_INTERVAL_MS)).modMer (fun m =>
      { m with ptmTimer := max s.now (s.mer.ptmTimer + 1000000 * s.fld 0 MER_PTM_CTRL_INTERVAL_MS) })).ptmBegin)) := by
  rw [exec_ptmRequest, execPtmRequest, State.onAwake_of_awake _ _ awake, if_neg (by simp [on]), Dev.ptmTick]
  rw [Dev.upTo_now _ _ awake]

/-- The pair of a dialogue that began at `x` is shown. -/
def Dev.ptmPaired (s : Dev) (x m : Word64) (p : Word) : Dev :=
  ((((((s.modMer (fun q => { q with ptmOpen := none })).wr64 MER_PTM_TIME_LO MER_PTM_TIME_HI (x + p.setWidth 64)).wr64 MER_PTM_HOST_LO
    MER_PTM_HOST_HI m).addFld 0 MER_PTM_STATUS_SEQ 1).setFlag 0 MER_PTM_STATUS_VALID true).setFlag 0 MER_PTM_STATUS_NEW true).merEvent 5

theorem exec_ptmResponse_open {x : Word64} (dialogue : s.mer.ptmOpen = some x) (m : Word64) (p : Word) :
    exec (.ptmResponse m p) s = .next (s.withDev (s.ptmPaired x m p)) := by
  rw [exec_ptmResponse, execPtmResponse, State.onAwake_of_awake _ _ awake]
  simp only [dialogue]
  rfl

theorem exec_ptmTimeout_open {x : Word64} (dialogue : s.mer.ptmOpen = some x) : exec .ptmTimeout s = .next (s.withDev
    ((((s.upTo (s.mer.ptmAt + 100000)).modMer (fun m => { m with ptmOpen := none })).setFlag 0 MER_PTM_STATUS_FAILED true).merEvent 5)) := by
  rw [exec_ptmTimeout, execPtmTimeout, State.onAwake_of_awake _ _ awake]
  simp only [dialogue]

theorem exec_ptmTimeout_spec {x : Word64} (dialogue : s.mer.ptmOpen = some x) : ∃ t, exec .ptmTimeout s = .next t ∧
    t.flag 0 MER_PTM_STATUS_FAILED = true ∧ t.mer.ptmOpen = none ∧ t.now = max s.now (s.mer.ptmAt + 100000) ∧
    s.keeps t.toDev [MER_PTM_STATUS, MER_IRQ_CAUSE] := by
  refine ⟨_, exec_ptmTimeout_open awake dialogue, ?_⟩
  rw [State.withDev_toDev]
  refine ⟨?_, ?_, ?_, ((((Dev.keeps_refl _ _).upTo _).modMer _).setFlag _ _ _ (by decide)).merEvent _ (by decide)⟩
  · rw [Dev.merEvent_flag _ _ _ _ (by decide), Dev.flag_setFlag_same _ _ _ _ (by decide) rfl]
  · rw [Dev.merEvent_mer, Dev.setFlag_mer, Dev.modMer_mer]
  · rw [Dev.merEvent_now, Dev.setFlag_now, Dev.modMer_now, Dev.upTo_now _ _ awake]

end ptm

section paired

variable (s : Dev) (x m : Word64) (p : Word)

/-- The pair's own words stand beside its status. -/
theorem Dev.ptmPaired_rd {a : Nat} (apart : a ≠ MER_PTM_STATUS ∧ a ≠ MER_IRQ_CAUSE) : (s.ptmPaired x m p).rd a =
    (((s.modMer (fun q => { q with ptmOpen := none })).wr64 MER_PTM_TIME_LO MER_PTM_TIME_HI (x + p.setWidth 64)).wr64 MER_PTM_HOST_LO
      MER_PTM_HOST_HI m).rd a := by
  have kept := ((((Dev.keeps_refl (((s.modMer (fun q => { q with ptmOpen := none })).wr64 MER_PTM_TIME_LO MER_PTM_TIME_HI
    (x + p.setWidth 64)).wr64 MER_PTM_HOST_LO MER_PTM_HOST_HI m) [MER_PTM_STATUS, MER_IRQ_CAUSE]).addFld 0 MER_PTM_STATUS_SEQ 1
    (by decide)).setFlag 0 MER_PTM_STATUS_VALID true (by decide)).setFlag 0 MER_PTM_STATUS_NEW true (by decide)).merEvent 5 (by decide)
  exact kept.1 a (by simpa using apart)

theorem Dev.ptmPaired_times : (s.ptmPaired x m p).rd64 MER_PTM_TIME_LO MER_PTM_TIME_HI = x + p.setWidth 64 ∧
    (s.ptmPaired x m p).rd64 MER_PTM_HOST_LO MER_PTM_HOST_HI = m := by
  refine ⟨Dev.rd64_of_rd ?_ ?_, Dev.rd64_of_rd ?_ ?_⟩ <;> rw [Dev.ptmPaired_rd _ _ _ _ (by decide)]
  · rw [Dev.rd_wr64_other _ _ (by decide) (by decide), Dev.rd_wr64_low _ _ (by decide)]
  · rw [Dev.rd_wr64_other _ _ (by decide) (by decide), Dev.rd_wr64_high]
  · exact Dev.rd_wr64_low _ _ (by decide)
  · exact Dev.rd_wr64_high _ _ _ _

theorem Dev.wr64_fld (s : Dev) {lo hi b : Nat} {f : Fld} (v : Word64) (low : lo ≠ b + f.off) (high : hi ≠ b + f.off) :
    (s.wr64 lo hi v).fld b f = s.fld b f := by
  rw [Dev.fld, Dev.rd_wr64_other _ _ low high, Dev.fld]

theorem Dev.ptmPaired_status : (s.ptmPaired x m p).fld 0 MER_PTM_STATUS_SEQ = (s.fld 0 MER_PTM_STATUS_SEQ + 1) % 2 ^ MER_PTM_STATUS_SEQ.w ∧
    (s.ptmPaired x m p).flag 0 MER_PTM_STATUS_VALID = true ∧ (s.ptmPaired x m p).flag 0 MER_PTM_STATUS_NEW = true := by
  refine ⟨?_, ?_, ?_⟩
  · rw [Dev.ptmPaired, Dev.merEvent_fld _ _ _ _ (by decide), Dev.fld_setFlag_apart (by decide), Dev.fld_setFlag_apart (by decide), Dev.addFld,
      Dev.fld_setFld_same _ _ _ _ (by decide), Dev.wr64_fld _ _ (by decide) (by decide), Dev.wr64_fld _ _ (by decide) (by decide), Dev.modMer_fld]
  · rw [Dev.ptmPaired, Dev.merEvent_flag _ _ _ _ (by decide), Dev.flag_setFlag_apart (by decide), Dev.flag_setFlag_same _ _ _ _ (by decide) rfl]
  · rw [Dev.ptmPaired, Dev.merEvent_flag _ _ _ _ (by decide), Dev.flag_setFlag_same _ _ _ _ (by decide) rfl]

theorem Dev.ptmPaired_keeps : s.keeps (s.ptmPaired x m p)
    [MER_PTM_TIME_LO, MER_PTM_TIME_HI, MER_PTM_HOST_LO, MER_PTM_HOST_HI, MER_PTM_STATUS, MER_IRQ_CAUSE] :=
  (((((((Dev.keeps_refl _ _).modMer _).wr64 _ _ _ (by decide) (by decide)).wr64 _ _ _ (by decide) (by decide)).addFld _ _ _ (by decide)).setFlag
    _ _ _ (by decide)).setFlag _ _ _ (by decide)).merEvent _ (by decide)

theorem Dev.ptmPaired_closed : (s.ptmPaired x m p).mer.ptmOpen = none := by
  rw [Dev.ptmPaired, Dev.merEvent_mer, Dev.setFlag_mer, Dev.setFlag_mer, Dev.addFld_mer, Dev.wr64_mer, Dev.wr64_mer, Dev.modMer_mer]

end paired

/-- Settles O41: edges by `AxisSt.edge` and `Dev.encLevels`' cases, PRESET by `Dev.presetLoaded`, the others by the branch each
event takes. -/
theorem axesFollowTheirInputs : Obligations.AxesFollowTheirInputs := by
  refine ⟨AxisSt.edge_spec, fun s e a b k d awake en kind moved levels => exec_encoderEdge_spec awake en kind moved levels,
    fun s e awake en kind used => ⟨exec_encoderZPulse_first awake en kind used, exec_encoderZPulse_elsewhere awake en kind used,
      exec_encoderZPulse_home awake en kind used, fun l => exec_encoderZPulse_edge awake⟩,
    fun s e awake en => ?preset, fun s e f c d domains en kind thaw poll clocked => ⟨?stuck, ?frame⟩,
    fun s domains en seen live => ⟨exec_mainsCrossing_spec domains en seen live, fun early => ?early, exec_mainsLost_spec domains en live⟩,
    fun s x v l => exec_linkAxisLost_due, fun s awake hub ptm link idle off => ?request, fun s awake => exec_ptmRequest_timer awake,
    fun s x m p awake dialogue => ⟨?response, exec_ptmTimeout_spec awake dialogue⟩⟩
  case preset =>
    obtain ⟨axis, fresh, rate, kept⟩ := s.presetLoaded_spec (encAxis e)
    exact ⟨s.presetLoaded (encAxis e), by rw [exec_encoderPreset_spec awake en, Dev.preset_eq], axis, fresh, rate, kept⟩
  case stuck =>
    rw [exec_serialPoll_due domains en kind thaw poll clocked, if_pos rfl]
  case frame =>
    rw [exec_serialPoll_due domains en kind thaw poll clocked, if_neg (by decide)]
  case early =>
    rw [exec_mainsCrossing_seen domains en seen live, if_neg (by omega), State.withDev_self]
  case request =>
    refine ⟨_, exec_ptmRequest_alone awake hub ptm link idle off, ?_⟩
    exact ⟨rfl, rfl, (Dev.keeps_refl _ _).modMer _⟩
  case response =>
    obtain ⟨time, host⟩ := s.ptmPaired_times x m p
    obtain ⟨seq, valid, new⟩ := s.ptmPaired_status x m p
    exact ⟨_, exec_ptmResponse_open awake dialogue m p, time, host, seq, valid, new, s.ptmPaired_closed x m p, s.ptmPaired_keeps x m p⟩

end Sys2Proof.Machine

namespace Sys2Proof.Machine

open Sys2Proof

/-! A sample of the relayed axis (R275, R413) on a state without axes. -/

/-- A device at reset whose plate enables axis 4 while its state lists no axis: nothing in `Dev` ties the two lists together. -/
def Dev.axisless : Dev := { State.reset.toDev with
  plates := { State.reset.plates with axes := List.replicate 4 ⟨true, 0, 0, 0⟩ }
  mer := { State.reset.mer with axes := [] } }

theorem Dev.axisless_enabled : Dev.axisless.axisRec 4 = ⟨true, 0, 0, 0⟩ := rfl

theorem Dev.axisless_live : Dev.axisless.flag (axBase 4) MER_AX_STATUS_LOST = false := by decide

/-- A sample finds no axis to stand in. -/
theorem Dev.axisless_takeSample : Dev.axisless.takeSample 0 0 = Dev.axisless := by
  have taken : (Dev.axisless.modAxis 4 (fun x => { x with seen := true, samples := ((0, 0) :: x.samples).take 300 })) = Dev.axisless := rfl
  rw [Dev.takeSample, if_neg (by decide), taken]
  exact if_neg (by decide)

/-- Refutes O58: `mer.axes` may be empty while the plate enables axis 4, and then a sample leaves nothing; its clause on the samples
says that the axis shows it. -/
theorem not_frameContentsTakeEffect : ¬ Obligations.FrameContentsTakeEffect := by
  rintro ⟨-, -, -, -, -, -, -, sample, -⟩
  obtain ⟨fresh, -⟩ := sample Dev.axisless 0 0 (congrArg AxisRec.en Dev.axisless_enabled) Dev.axisless_live
  obtain ⟨seen, -⟩ := fresh (by decide)
  rw [Dev.axisless_takeSample] at seen
  exact absurd seen (by decide)

end Sys2Proof.Machine

namespace Sys2Proof.Machine

open Sys2Proof

/-! ## What a port has received (R396, R397, R403) -/

/-- The receiving side of a channel: SEQ, counter and credits owed. -/
def Vc.rx (v : Vc) : Nat × Nat × Nat := (v.rxSeq, v.rxCount, v.owed)

def Dev.rxOf (s : Dev) (p : PortId) (k : Fin 3) : Nat × Nat × Nat := ((s.port p).vcs.get k).rx

theorem Dev.port_modPort (s : Dev) (p q : PortId) (f : Port → Port) : (s.modPort p f).port q = if p = q then f (s.port p) else s.port q :=
  vector_get_set _ _ _ _

theorem Dev.vc_modVc (s : Dev) (p : PortId) (k : Fin 3) (f : Vc → Vc) : ((s.modVc p k f).port p).vcs.get k = f ((s.port p).vcs.get k) := by
  rw [Dev.modVc, Dev.port_modPort_same, vector_get_set, if_pos rfl]

/-- A change that no receiving side sees, and that takes no time. -/
structure Dev.SameRx (s t : Dev) : Prop where
  now   : t.now = s.now
  memst : t.memst = s.memst
  rx    : ∀ p k, t.rxOf p k = s.rxOf p k

namespace Dev.SameRx

variable {s t u : Dev}

theorem refl (s : Dev) : s.SameRx s := ⟨rfl, rfl, fun _ _ => rfl⟩

theorem trans (h : s.SameRx t) (k : t.SameRx u) : s.SameRx u :=
  ⟨k.now.trans h.now, k.memst.trans h.memst, fun p j => (k.rx p j).trans (h.rx p j)⟩

theorem ofPorts (now : t.now = s.now) (memst : t.memst = s.memst) (ports : t.link.ports = s.link.ports) : s.SameRx t :=
  ⟨now, memst, fun p k => by rw [Dev.rxOf, Dev.port, ports, Dev.rxOf, Dev.port]⟩

theorem modPort (h : s.SameRx t) (p : PortId) (f : Port → Port) (same : ∀ x k, ((f x).vcs.get k).rx = (x.vcs.get k).rx) :
    s.SameRx (t.modPort p f) := by
  refine h.trans ⟨rfl, rfl, fun q k => ?_⟩
  rw [Dev.rxOf, Dev.port_modPort]
  split_ifs with this
  · rw [this, same, Dev.rxOf]
  · rfl

theorem setVc (h : s.SameRx t) (p : PortId) (j : Fin 3) (f : Port → Vc) (same : ∀ x, (f x).rx = (x.vcs.get j).rx) :
    s.SameRx (t.modPort p (fun x => { x with vcs := x.vcs.set j.val (f x) j.isLt })) :=
  h.modPort _ _ fun x k => by
    rw [vector_get_set]
    split_ifs with this
    · rw [same, this]
    · rfl

theorem setFlag (h : s.SameRx t) (b : Nat) (f : Fld) (v : Bool) : s.SameRx (t.setFlag b f v) :=
  h.trans (.ofPorts (Dev.setFlag_now _ _ _ _) (Dev.setFlag_memst _ _ _ _) (congrArg LinkSt.ports (Dev.setFlag_link _ _ _ _)))

theorem setFld (h : s.SameRx t) (b : Nat) (f : Fld) (v : Nat) : s.SameRx (t.setFld b f v) :=
  h.trans (.ofPorts (Dev.setFld_now _ _ _ _) (Dev.setFld_memst _ _ _ _) (congrArg LinkSt.ports (Dev.setFld_link _ _ _ _)))

theorem wr (h : s.SameRx t) (a : Nat) (v : Word) : s.SameRx (t.wr a v) :=
  h.trans (.ofPorts (Dev.wr_now _ _ _) (Dev.wr_memst _ _ _) (congrArg LinkSt.ports (Dev.wr_link _ _ _)))

theorem linkEvent (h : s.SameRx t) : s.SameRx t.linkEvent := by
  rcases Dev.linkEvent_cases t with same | vector
  · rwa [same]
  · rw [vector]
    exact h.trans (.ofPorts (Dev.vector_now _ _) (Dev.vector_memst _ _) (congrArg LinkSt.ports (Dev.vector_link _ _)))

end Dev.SameRx

theorem Vc.pump_rx (v : Vc) (l : List TxFrame) : (v.pump l).rx = v.rx := by
  induction l generalizing v with
  | nil => rfl
  | cons f l ih =>
    rw [Vc.pump]
    split_ifs
    · exact ih _
    · rfl

namespace Dev.SameRx

variable {s t : Dev}

theorem pumpVc (h : s.SameRx t) (p : PortId) (k : Fin 3) : s.SameRx (t.pumpVc p k) := by
  rw [Dev.pumpVc]
  split_ifs
  · exact h.setVc p k _ fun x => Vc.pump_rx _ _
  · exact h

theorem pumpPort (h : s.SameRx t) (p : PortId) : s.SameRx (t.pumpPort p) := ((h.pumpVc p 1).pumpVc p 0).pumpVc p 2

theorem sendFrom (h : s.SameRx t) (p : PortId) (k : Fin 3) (src dst : Nat) (b : Body) : s.SameRx (t.sendFrom p k src dst b) :=
  (h.setVc p k (fun x => { x.vcs.get k with waiting := enqueueFrame ⟨dst, src, 0, 0, b⟩ (x.vcs.get k).waiting }) fun _ => rfl).pumpVc p k

theorem sendHub (h : s.SameRx t) (k : Fin 3) (b : Body) : s.SameRx (t.sendHub k b) := h.sendFrom _ _ _ _ _

theorem capTake (h : s.SameRx t) (g : GroupId) (k : Nat) : s.SameRx (t.capTake g k) := (h.wr _ _).setFlag _ _ _

theorem sentRecs (h : s.SameRx t) (l : List (Nat × Nat)) : s.SameRx { t with link := { t.link with sentRecs := l } } :=
  h.trans (.ofPorts rfl rfl rfl)

theorem ackCredit (h : s.SameRx t) (p : PortId) (k : Fin 3) (ack credit : Nat) : s.SameRx (t.ackCredit p k ack credit) := by
  have credited : t.SameRx (t.modVc p k (fun _ =>
      { ((t.port p).vcs.get k).acked ack with credits := min 32 ((((t.port p).vcs.get k).acked ack).credits + credit) })) := by
    refine ⟨rfl, rfl, fun q j => ?_⟩
    rw [Dev.rxOf, Dev.modVc, Dev.port_modPort]
    split_ifs with port
    · rw [vector_get_set]
      split_ifs with channel
      · rw [← port, ← channel]
        rfl
      · rw [port]
        rfl
    · rfl
  rw [Dev.ackCredit]
  split_ifs
  · exact (h.trans credited).modPort _ _ fun _ _ => rfl
  · exact h.trans credited

theorem nodeHeard (h : s.SameRx t) (k : Nat) (p : PortId) (boot : Bool) : s.SameRx (t.nodeHeard k p boot) := by
  have heard : ∀ hops, s.SameRx (((t.setFld (nodeBase k) LINK_NODE_STATUS_PORT p.val).setFld (nodeBase k) LINK_NODE_STATUS_HOPS hops).cause (0x2D0 + k)
      false) := fun _ => ((h.setFld _ _ _).setFld _ _ _).wr _ _
  rw [Dev.nodeHeard]
  dsimp only
  generalize (if boot then 1 else 2) = state
  generalize (if t.plates.link.ring && p == 1 then t.plates.link.count + 1 - k else k) = hops
  split_ifs
  · exact h
  · exact heard hops
  · exact ((heard hops).setFld _ _ _).linkEvent

theorem xferCheck (h : s.SameRx t) : s.SameRx t.xferCheck := by
  rw [Dev.xferCheck]
  split_ifs
  · exact ((h.setFlag _ _ _).setFlag _ _ _).linkEvent
  · exact h

end Dev.SameRx

theorem Dev.sendRecords_sameRx (f : Nat) {s : Dev} (good : s.memst.bad = []) (g : GroupId) : s.SameRx (Dev.sendRecords f s g) := by
  induction f generalizing s with
  | zero => exact .refl s
  | succ f ih =>
    have further : ∀ u, s.SameRx u → s.SameRx (Dev.sendRecords f u g) := fun u same => same.trans (ih (by rw [same.memst, good]))
    rw [Dev.sendRecords]
    dsimp only
    rw [Dev.each_of_id fun i _ => Dev.eccRead_of_good good _ _ _]
    split_ifs
    · exact further _ ((((Dev.SameRx.refl s).capTake g _).sentRecs _).sendHub _ _)
    · exact .refl s

theorem Dev.sendAllRecords_sameRx {s : Dev} (good : s.memst.bad = []) : s.SameRx s.sendAllRecords := by
  have all : ∀ (l : List GroupRec) (t : Dev), s.SameRx t → s.SameRx (t.each l (fun d r => Dev.sendRecords 64 d (sid r.first))) := fun l => by
    induction l with
    | nil => exact fun t same => same
    | cons r l ih => exact fun t same => ih _ (same.trans (Dev.sendRecords_sameRx 64 (by rw [same.memst, good]) _))
  rw [Dev.sendAllRecords]
  split_ifs
  · exact all _ _ (.refl s)
  · exact .refl s

/-! Acceptance. -/

section accept

variable {d : Dev} {rx : Rx} {k : Fin 3} {ex : Bool} (receiving : d.receiving rx.port = true) (booted : d.bootListen = false)

/-- The frame is taken by its channel: SEQ and counter move on, and a credit is owed. -/
def Dev.frameTaken (d : Dev) (rx : Rx) (k : Fin 3) : Dev :=
  d.modVc rx.port k (fun x => { x with rxSeq := (x.rxSeq + 1) % 256, rxCount := max x.rxCount rx.counter.toNat, owed := x.owed + 1 })

/-- Its ACK and credits are taken, and its sender is shown present. -/
def Dev.frameHeard (d : Dev) (rx : Rx) (k : Fin 3) : Dev :=
  (((d.frameTaken rx k).ackCredit rx.port k rx.ack.toNat rx.credit.toNat).nodeHeard rx.src.toNat rx.port false).pumpPort rx.port

include receiving booted

theorem Dev.accept_bad_crc (bad : rx.crcOk = false) : d.accept rx k ex true = ((d.addWord (pB rx.port + LINK_PORT_CRCERR) 1).owesNak rx.port, false) := by
  rw [Dev.accept]
  dsimp only
  rw [if_neg (by simp [receiving, booted]), if_pos (by simp [bad])]

variable (crc : rx.crcOk = true) (seq : rx.seq.toNat = ((d.port rx.port).vcs.get k).rxSeq)

include crc seq

theorem Dev.accept_bad_tag (tagged : ex = false) (bad : d.authKind rx ((d.port rx.port).vcs.get k).rxCount ≠ 0) :
    d.accept rx k ex true = (d.authFail rx.port (d.authKind rx ((d.port rx.port).vcs.get k).rxCount), false) := by
  rw [Dev.accept]
  dsimp only
  rw [if_neg (by simp [receiving, booted]), if_neg (by simp [crc]), if_neg (by simp [seq]), if_pos (by simpa [tagged] using bad)]
  simp [tagged]

theorem Dev.accept_good (tag : ex = true ∨ d.authKind rx ((d.port rx.port).vcs.get k).rxCount = 0) (form : rx.formOk = true) :
    d.accept rx k ex true = ((d.frameHeard rx k).sendAllRecords.xferCheck, rx.src.toNat != d.node || d.bootListen) := by
  rw [Dev.accept]
  dsimp only
  rw [if_neg (by simp [receiving, booted]), if_neg (by simp [crc]), if_neg (by simp [seq]), if_neg (by rcases tag with tag | tag <;> simp [tag]),
    if_pos (by simp [form])]
  rfl

omit receiving booted crc seq in
theorem Dev.frameHeard_sameRx (d : Dev) (rx : Rx) (k : Fin 3) : (d.frameTaken rx k).SameRx (d.frameHeard rx k) :=
  (((Dev.SameRx.refl _).ackCredit _ _ _ _).nodeHeard _ _ _).pumpPort _

theorem Dev.accept_good_spec (tag : ex = true ∨ d.authKind rx ((d.port rx.port).vcs.get k).rxCount = 0) (form : rx.formOk = true)
    (other : rx.src.toNat ≠ d.node) (good : d.memst.bad = []) :
    (d.accept rx k ex true).2 = true ∧ (d.accept rx k ex true).1.now = d.now ∧
    (((d.accept rx k ex true).1.port rx.port).vcs.get k).rxSeq = (((d.port rx.port).vcs.get k).rxSeq + 1) % 256 ∧
    (((d.accept rx k ex true).1.port rx.port).vcs.get k).rxCount = max ((d.port rx.port).vcs.get k).rxCount rx.counter.toNat ∧
    (((d.accept rx k ex true).1.port rx.port).vcs.get k).owed = ((d.port rx.port).vcs.get k).owed + 1 := by
  have heard := d.frameHeard_sameRx rx k
  have same : (d.frameTaken rx k).SameRx (d.frameHeard rx k).sendAllRecords.xferCheck :=
    (heard.trans (Dev.sendAllRecords_sameRx (by rw [heard.memst]; exact good))).xferCheck
  have taken := same.rx rx.port k
  rw [Dev.rxOf, Dev.rxOf, Dev.frameTaken, Dev.vc_modVc, Vc.rx, Vc.rx, Prod.mk.injEq, Prod.mk.injEq] at taken
  rw [Dev.accept_good receiving booted crc seq tag form]
  exact ⟨by simp [other], same.now, taken⟩

end accept

/-! What an accepted frame does. -/

section act

variable {s : State} {d : Dev} {rx : Rx} (awake : s.awake = true) (mine : d.isFor rx = true)

theorem Dev.relayFrame_same (d : Dev) (rx : Rx) (k : Fin 3) (b : Body) : d.SameButHost (d.relayFrame rx k b) := by
  rw [Dev.relayFrame]
  split_ifs
  · exact Dev.sendFrom_same _ _ _ _ _ _
  · exact .refl d

theorem Dev.SameButHost.bootListen {s t : Dev} (h : s.SameButHost t) : t.bootListen = s.bootListen := by
  rw [Dev.bootListen, h.fld _ _ (by decide), h.boot, Dev.bootListen]

theorem Dev.SameButHost.isFor {s t : Dev} (h : s.SameButHost t) (rx : Rx) : t.isFor rx = s.isFor rx := by
  rw [Dev.isFor, h.bootListen, Dev.node, h.plates, Dev.isFor, Dev.node]

theorem Dev.SameButHost.released {s t : Dev} (h : s.SameButHost t) : t.released = s.released := h.flag _ _ (by decide)

/-- The node at a port depends on the plates and the LINK registers. -/
theorem Dev.SameButHost.neighbour {s t : Dev} (h : s.SameButHost t) (p : PortId) : t.neighbour p = s.neighbour p := by
  have remote : t.isRemote = s.isRemote := by rw [Dev.isRemote, h.plates, Dev.isRemote]
  have node : t.node = s.node := by rw [Dev.node, h.plates, Dev.node]
  have up : t.upPort = s.upPort := by rw [Dev.upPort, h.flag _ _ (by decide), Dev.upPort]
  rw [Dev.neighbour, remote, node, up, h.plates, h.flag 0 LINK_STATUS_TURNED (by decide), Dev.neighbour]

theorem Dev.SameButHost.bootNode {s t : Dev} (h : s.SameButHost t) (p : PortId) : t.bootNode p = s.bootNode p := by
  have state : ∀ k, t.fld (nodeBase k) LINK_NODE_STATUS_STATE = s.fld (nodeBase k) LINK_NODE_STATUS_STATE := fun k =>
    h.fld _ _ (.inr (by simp only [nodeBase]; omega))
  simp only [Dev.bootNode, Dev.nodes, h.plates, state, h.neighbour]

include mine in
/-- A frame that is accepted and meant for this node is relayed, and acts. -/
theorem Dev.frame_acts {e : Dev} {k : Fin 3} {ex down : Bool} {b : Body} {f : Dev → Dev}
    (taken : e.accept rx k ex (if down then e.isRemote || e.bootListen || e.cameRound rx else !e.isRemote || rx.dst.toNat != e.node) = (d, true)) :
    e.frame rx k ex down b f = f (d.relayFrame rx k b) := by
  rw [Dev.frame]
  dsimp only
  rw [taken, if_pos rfl, if_pos (by rw [(d.relayFrame_same rx k b).isFor, mine])]

include awake mine

theorem exec_commandFrame_command {ring index : Byte} {x : Word} {h : Hdr} {c : RingCmd} {kb : Option (List Byte × Bool)} (small : ring.toNat < 32)
    (released : d.released = true) (taken : s.accept rx 0 (s.untagged false false) (s.isRemote || s.bootListen || s.cameRound rx) = (d, true)) :
    exec (.commandFrame rx ring index x h c kb) s = .next (s.withDev ((d.relayFrame rx 0 (.command ring.toNat index.toNat x h c)).takeCommand
      ⟨ring.toNat, index.toNat, x.toNat, h, c, d.now⟩)) := by
  have plain : (ring == 0xFF) = false := by
    rw [beq_eq_false_iff_ne]
    rintro rfl
    exact absurd small (by decide)
  have same := d.relayFrame_same rx 0 (.command ring.toNat index.toNat x h c)
  rw [exec_commandFrame, execCommandFrame, State.onAwake_of_awake _ _ awake]
  simp only [plain, Bool.false_eq_true, if_false]
  rw [Dev.frame_acts mine taken, if_neg (by rw [same.released, released]; simp; omega), same.now]

theorem exec_commandFrame_key {index : Byte} {x : Word} {h : Hdr} {c : RingCmd} {kb : List Byte × Bool}
    (taken : s.accept rx 0 (s.untagged false true) (s.isRemote || s.bootListen || s.cameRound rx) = (d, true)) :
    exec (.commandFrame rx 0xFF index x h c (some kb)) s = .next (s.withDev
      ((d.relayFrame rx 0 (.keyLoad (kb.1.map (fun y => y.setWidth 32)))).takeKey kb.1 kb.2 h)) := by
  rw [exec_commandFrame, execCommandFrame, State.onAwake_of_awake _ _ awake]
  simp only [beq_self_eq_true, if_true, Option.getD_some]
  rw [Dev.frame_acts mine taken]

theorem exec_completionFrame_taken {ring : Byte} {c : Cpl} (small : ring.toNat < 32)
    (taken : s.accept rx 0 false (!s.isRemote || rx.dst.toNat != s.node) = (d, true)) :
    exec (.completionFrame rx ring c) s = .next (s.withDev ((d.relayFrame rx 0 (.completion ring.toNat c)).takeCompletion ring.toNat rx.src.toNat c)) := by
  rw [exec_completionFrame, execCompletionFrame, State.onAwake_of_awake _ _ awake, Dev.frame_acts mine taken, if_pos (by simp [small])]

theorem exec_recordFrame_taken {g : GroupId} {first : Word64} {l : List Rec}
    (taken : s.accept rx 2 false (!s.isRemote || rx.dst.toNat != s.node) = (d, true)) :
    exec (.recordFrame rx g first l) s = .next (s.withDev
      ((d.relayFrame rx 2 (.records g.val first.toNat l)).takeRecords rx.port rx.src.toNat g.val first.toNat l)) := by
  rw [exec_recordFrame, execRecordFrame, State.onAwake_of_awake _ _ awake, Dev.frame_acts mine taken]

theorem exec_faultFrame_taken {m : Msg} {err : Word} {st : Byte} {k : Nat} (node : k = (if rx.src.toNat = 14 then d.bootNode rx.port else rx.src.toNat))
    (low : 1 ≤ k) (high : k ≤ d.plates.link.count) (taken : s.accept rx 0 false (!s.isRemote || rx.dst.toNat != s.node) = (d, true)) :
    exec (.faultFrame rx m err st) s = .next (s.withDev ((d.relayFrame rx 0 (.fault m err st.toNat)).takeFault rx.port k m err st.toNat)) := by
  have same := d.relayFrame_same rx 0 (.fault m err st.toNat)
  have sender : (if rx.src.toNat == 14 then (d.relayFrame rx 0 (.fault m err st.toNat)).bootNode rx.port else rx.src.toNat) = k := by
    rw [node, same.bootNode]
    simp only [beq_iff_eq]
  rw [exec_faultFrame, execFaultFrame, State.onAwake_of_awake _ _ awake, Dev.frame_acts mine taken]
  dsimp only
  rw [sender, if_pos ⟨low, by rw [same.plates]; exact high⟩]

theorem exec_stationDataFrame_store {a : Word} {l : List Byte} {last : Bool} (released : d.released = true)
    (taken : s.accept rx 2 (s.untagged false false) (s.isRemote || s.bootListen || s.cameRound rx) = (d, true)) :
    exec (.stationDataFrame rx a l false last) s = .next (s.withDev ((d.relayFrame rx 2 (.station a l false last)).takeStation a.toNat l)) := by
  have same := d.relayFrame_same rx 2 (.station a l false last)
  rw [exec_stationDataFrame, execStationDataFrame, State.onAwake_of_awake _ _ awake, Dev.frame_acts mine taken, if_neg (by decide),
    if_pos (by rw [same.released, released])]

theorem exec_stationDataFrame_boot {a : Word} {l : List Byte} {last : Bool} (boot : d.bootListen = true)
    (taken : s.accept rx 2 (s.untagged true false) (s.isRemote || s.bootListen || s.cameRound rx) = (d, true)) :
    exec (.stationDataFrame rx a l true last) s = .next (s.withDev ((d.relayFrame rx 2 (.station a l true last)).takeBoot rx.port a.toNat l last)) := by
  have same := d.relayFrame_same rx 2 (.station a l true last)
  rw [exec_stationDataFrame, execStationDataFrame, State.onAwake_of_awake _ _ awake, Dev.frame_acts mine taken, if_pos rfl, if_pos (by rw [same.bootListen, boot])]

theorem exec_timeSyncFrame_taken {x y : Word64} {r : BitVec 7} {sec : Bool} (taken : s.accept rx 1 false (s.isRemote || s.plates.link.ring) = (d, true)) :
    exec (.timeSyncFrame rx r sec x y) s = .next (s.withDev (d.takeSync rx.port r.toNat sec x y)) := by
  rw [exec_timeSyncFrame, execTimeSyncFrame, State.onAwake_of_awake _ _ awake, taken]
  dsimp only
  rw [if_pos (by rw [mine]; rfl)]

theorem exec_freezeFrame_taken {o : Byte} {s1 : Dev}
    (relayed : s1 = (if s.receiving rx.port && !s.bootListen then s.relayFrame rx 1 (.freeze o.toNat) else s.toDev))
    (taken : s1.accept rx 1 (s1.untagged true true) (s1.isRemote || s1.bootListen || s1.cameRound rx) = (d, true)) :
    exec (.freezeFrame rx o) s = .next (s.withDev (d.freeze 3)) := by
  rw [exec_freezeFrame, execFreezeFrame, State.onAwake_of_awake _ _ awake, ← relayed]
  dsimp only
  rw [taken, if_pos (by rw [mine]; rfl)]

end act

/-- Settles O57: acceptance by `Dev.accept`'s branches and `Dev.SameRx`, the work of an accepted frame by `Dev.frame_acts`. -/
theorem framesAreAcceptedAndActOn : Obligations.FramesAreAcceptedAndActOn := by
  refine ⟨fun d rx k ex receiving booted => ⟨Dev.accept_bad_crc receiving booted, fun crc seq => ⟨Dev.accept_bad_tag receiving booted crc seq,
      Dev.accept_good_spec receiving booted crc seq⟩⟩,
    fun s d rx awake mine => ⟨fun _ _ _ _ _ _ small released taken => exec_commandFrame_command awake mine small released taken,
      fun _ _ _ _ _ taken => exec_commandFrame_key awake mine taken, fun _ _ small taken => exec_completionFrame_taken awake mine small taken,
      fun _ _ _ taken => exec_recordFrame_taken awake mine taken, fun _ _ _ _ node low high taken => exec_faultFrame_taken awake mine node low high taken,
      fun _ _ _ => ⟨exec_stationDataFrame_store awake mine, exec_stationDataFrame_boot awake mine⟩,
      fun _ _ _ _ taken => exec_timeSyncFrame_taken awake mine taken, fun taken => ⟨fun x y => ?step, fun a x y => ?axis, fun en nodes => ?trigger⟩,
      fun _ _ relayed taken => exec_freezeFrame_taken awake mine relayed taken⟩⟩
  case step => rw [exec_timeStepFrame, execTimeStepFrame, State.onAwake_of_awake _ _ awake, Dev.frame_acts mine taken]
  case axis => rw [exec_timeAxisFrame, execTimeAxisFrame, State.onAwake_of_awake _ _ awake, Dev.frame_acts mine taken]
  case trigger => rw [exec_triggerFrame, execTriggerFrame, State.onAwake_of_awake _ _ awake, Dev.frame_acts mine taken]

end Sys2Proof.Machine

namespace Sys2Proof.Machine

open Sys2Proof

/-! ## Sending changes the ports alone (R396, R397, R403) -/

def Dev.withPorts (s : Dev) (v : Vector Port 2) : Dev := { s with link := { s.link with ports := v } }

section withPorts

variable (s : Dev) (v : Vector Port 2)

theorem Dev.withPorts_rd (a : Nat) : (s.withPorts v).rd a = s.rd a := rfl
theorem Dev.withPorts_flag (b : Nat) (f : Fld) : (s.withPorts v).flag b f = s.flag b f := rfl
theorem Dev.withPorts_now : (s.withPorts v).now = s.now := rfl
theorem Dev.withPorts_keeps {t : Dev} {l : List Nat} (h : s.keeps t l) : s.keeps (t.withPorts v) l := ⟨h.1, h.2⟩

theorem Dev.modPort_ports (p : PortId) (f : Port → Port) : ∃ v, s.modPort p f = s.withPorts v := ⟨_, rfl⟩

theorem Dev.pumpVc_ports (p : PortId) (k : Fin 3) : ∃ v, s.pumpVc p k = s.withPorts v := by
  rw [Dev.pumpVc]
  split_ifs
  · exact s.modPort_ports p _
  · exact ⟨s.link.ports, rfl⟩

theorem Dev.pumpPort_ports (p : PortId) : ∃ v, s.pumpPort p = s.withPorts v := by
  obtain ⟨v, one⟩ := s.pumpVc_ports p 1
  obtain ⟨w, two⟩ := (s.withPorts v).pumpVc_ports p 0
  obtain ⟨x, three⟩ := ((s.withPorts v).withPorts w).pumpVc_ports p 2
  exact ⟨x, by rw [Dev.pumpPort, one, two, three]; rfl⟩

theorem Dev.sendFrom_ports (p : PortId) (k : Fin 3) (src dst : Nat) (b : Body) : ∃ v, s.sendFrom p k src dst b = s.withPorts v := by
  rw [Dev.sendFrom]
  obtain ⟨v, queued⟩ := s.modPort_ports p (fun x =>
    let v := x.vcs.get k
    { x with vcs := x.vcs.set k.val { v with waiting := enqueueFrame ⟨dst, src, 0, 0, b⟩ v.waiting } k.isLt })
  obtain ⟨w, pumped⟩ := (s.withPorts v).pumpVc_ports p k
  exact ⟨w, by rw [queued, pumped]; rfl⟩

theorem Dev.each_ports {α : Type} {f : Dev → α → Dev} (only : ∀ t x, ∃ v, f t x = t.withPorts v) (l : List α) : ∃ v, s.each l f = s.withPorts v := by
  induction l generalizing s with
  | nil => exact ⟨s.link.ports, rfl⟩
  | cons x l ih =>
    obtain ⟨v, first⟩ := only s x
    obtain ⟨w, rest⟩ := ih (s.withPorts v)
    exact ⟨w, by rw [Dev.each, List.foldl_cons, first]; exact rest⟩

theorem Dev.sendDown_ports (k : Fin 3) (b : Body) : ∃ v, s.sendDown k b = s.withPorts v := s.each_ports (fun t p => t.sendFrom_ports p k t.node 15 b) _

theorem Dev.ackCredit_ports (p : PortId) (k : Fin 3) (ack credit : Nat) : ∃ v, s.ackCredit p k ack credit = s.withPorts v := by
  rw [Dev.ackCredit]
  split_ifs <;> exact ⟨_, rfl⟩

end withPorts

/-! ## What a node sends of itself, and what it misses (R393, R397, R399, R400, R403, R407 to R409) -/

theorem exec_heartbeatFrame_taken {s : State} {rx : Rx} {b : Beat} (awake : s.awake = true) (receiving : s.receiving rx.port = true)
    (crc : rx.crcOk = true) (form : rx.formOk = true) (known : b.restarted = false)
    (tag : s.untagged true true = true ∨ s.authKind rx (s.port rx.port).beatRx = 0) :
    exec (.heartbeatFrame rx b) s = .next (s.withDev
      ((s.modPort rx.port (fun x => { x with beatRx := max x.beatRx rx.counter.toNat })).heartbeat rx.port b)) := by
  rw [exec_heartbeatFrame, execHeartbeatFrame, State.onAwake_of_awake _ _ awake]
  dsimp only
  rw [if_neg (by simp [receiving]), if_neg (by simp [crc]), known, if_neg (by rcases tag with tag | tag <;> simp [tag]), if_pos form]
  rfl

/-- The heartbeat a port sends now. -/
def Dev.beatNow (s : Dev) (p : PortId) : Beat :=
  { session := (s.port p).session, tTx := s.time, echoTx := ((s.port p).echo.getD (0, 0)).1, echoRx := ((s.port p).echo.getD (0, 0)).2
    ack := (s.port p).vcs.toList.map (fun v => BitVec.ofNat 8 v.rxSeq)
    credit := (s.port p).vcs.toList.map (fun v => BitVec.ofNat 8 (min 32 v.owed)), boot := s.fld 0 GLOBAL_STATUS_STATE == 0
    nak := (s.port p).nakDue, lanes := BitVec.ofNat 2 (s.fld (pB p) LINK_PORT_STATUS_LANES), restarted := s.announces p
    node := if s.fld 0 GLOBAL_STATUS_STATE == 0 then 14 else BitVec.ofNat 4 s.node, rxTime := 0 }

def Dev.beatFrame (s : Dev) (p : PortId) : TxFrame :=
  { dst := 15, src := (s.beatNow p).node.toNat, seq := 0, counter := (s.port p).beatTx, body := .heartbeat (s.beatNow p) }

theorem Dev.sendBeat_eq (s : Dev) (p : PortId) : s.sendBeat p = s.modPort p (fun y =>
    { y with vcs := y.vcs.map (fun v => { v with owed := v.owed - 32 }), nakDue := false, beatTx := y.beatTx + 1, sent := some (s.beatFrame p)
             restart := if s.announces p then y.restart else none }) := rfl

theorem exec_heartbeatSend_spec {s : State} {p : PortId} (awake : s.awake = true) (receiving : s.receiving p = true) :
    ∃ t f, exec (.heartbeatSend p) s = .next t ∧ (t.port p).sent = some f ∧
      f.counter = (s.port p).beatTx ∧ (t.port p).beatTx = (s.port p).beatTx + 1 ∧ (t.port p).nakDue = false ∧
      (∃ b, f.body = .heartbeat b ∧ b.tTx = s.time ∧ b.session = (s.port p).session ∧ b.nak = (s.port p).nakDue) ∧ s.keeps t.toDev [] := by
  refine ⟨s.withDev (s.sendBeat p), s.beatFrame p, ?_, ?_⟩
  · rw [exec_heartbeatSend, execHeartbeatSend, State.onAwake_of_awake _ _ awake, if_pos receiving]
  · rw [State.withDev_toDev, Dev.sendBeat_eq, Dev.port_modPort_same]
    exact ⟨rfl, rfl, rfl, rfl, ⟨_, rfl, rfl, rfl, rfl⟩, (Dev.keeps_refl _ _).modPort _ _⟩

theorem exec_timeSyncSend_spec {s : State} (awake : s.awake = true) (released : s.released = true) (domains : s.domains = true) :
    ∃ d : Dev, exec .timeSyncSend s = .next (s.withDev d.sendSync) ∧ d.now = max s.now (s.periodStart 1000000 s.link.syncMs) ∧
      d.link.syncMs = d.time.toNat / 1000000 ∧ s.keeps d [] := by
  refine ⟨(s.upTo (s.periodStart 1000000 s.link.syncMs)).modLink (fun l =>
    { l with syncMs := (s.upTo (s.periodStart 1000000 s.link.syncMs)).time.toNat / 1000000 }), ?_, Dev.upTo_now _ _ awake, rfl,
    ((Dev.keeps_refl _ _).upTo _).modLink _⟩
  rw [exec_timeSyncSend, execTimeSyncSend, State.onAwake_of_awake _ _ awake, if_pos (by simp [released, domains])]

theorem exec_axisSampleSend_spec {s : State} (awake : s.awake = true) (released : s.released = true) (domains : s.domains = true)
    (hub : s.isRemote = false) (source : s.fld 0 MER_LINK_CFG_LINK_SRC ≠ 0) : ∃ d : Dev, exec .axisSampleSend s = .next (s.withDev
      (d.sendDown 1 (.timeAxis (s.fld 0 MER_LINK_CFG_LINK_SRC) d.time (d.axisNow (s.fld 0 MER_LINK_CFG_LINK_SRC))))) ∧
      d.now = max s.now (s.periodStart 1000 s.link.axisUs) ∧ d.link.axisUs = d.time.toNat / 1000 ∧ s.keeps d [] := by
  refine ⟨(s.upTo (s.periodStart 1000 s.link.axisUs)).modLink (fun l =>
    { l with axisUs := (s.upTo (s.periodStart 1000 s.link.axisUs)).time.toNat / 1000 }), ?_, Dev.upTo_now _ _ awake, rfl,
    ((Dev.keeps_refl _ _).upTo _).modLink _⟩
  rw [exec_axisSampleSend, execAxisSampleSend, State.onAwake_of_awake _ _ awake]
  dsimp only
  rw [if_neg (by simp [released, domains, hub, source])]
  rfl

theorem exec_retransmitTimeout_spec {s : State} {p : PortId} {k : Fin 3} (awake : s.awake = true) (open' : ((s.port p).vcs.get k).unacked ≠ [])
    (can : s.canSend p = true) : ∃ t, exec (.retransmitTimeout p k) s = .next t ∧
      t.rd (pB p + LINK_PORT_RETX) = s.rd (pB p + LINK_PORT_RETX) + BitVec.ofNat 32 ((s.port p).vcs.get k).unacked.length ∧
      s.keeps t.toDev [pB p + LINK_PORT_RETX] := by
  refine ⟨s.withDev (s.resend p k), ?_, ?_⟩
  · rw [exec_retransmitTimeout, execRetransmitTimeout, State.onAwake_of_awake _ _ awake]
  · rw [State.withDev_toDev, Dev.resend]
    dsimp only
    rw [if_neg (by simp [open', can]), Dev.addWord]
    exact ⟨Dev.rd_wr_same _ _ _, ((Dev.keeps_refl _ _).modPort _ _).wr _ _ (by simp)⟩

/-- A LINK word outside the ports' and nodes' blocks. -/
theorem portBase_ne (p : PortId) {a o : Nat} (low : a < 0x80100) : pB p + o ≠ a := by simp only [pB, portBase]; omega

theorem Dev.linkEvent_same (s : Dev) : s.linkEvent.now = s.now ∧ s.linkEvent.link = s.link ∧ s.linkEvent.plates = s.plates ∧
    s.linkEvent.regs = s.regs := by
  rcases s.linkEvent_cases with same | vector
  · rw [same]
    exact ⟨rfl, rfl, rfl, rfl⟩
  · rw [vector]
    exact ⟨Dev.vector_now _ _, Dev.vector_link _ _, Dev.vector_plates _ _, Dev.vector_regs _ _⟩

theorem Dev.rd_congr {s t : Dev} (same : t.regs = s.regs) (a : Nat) : t.rd a = s.rd a := congrArg (fun l => Store.get (regReset a) l a) same

theorem Dev.fld_congr {s t : Dev} (same : t.regs = s.regs) (b : Nat) (f : Fld) : t.fld b f = s.fld b f := by
  rw [Dev.fld, Dev.rd_congr same, Dev.fld]

theorem Dev.flag_congr {s t : Dev} (same : t.regs = s.regs) (b : Nat) (f : Fld) : t.flag b f = s.flag b f := by
  rw [Dev.flag, Dev.fld_congr same, Dev.flag]

theorem Dev.linkEvent_fld (s : Dev) (b : Nat) (f : Fld) : s.linkEvent.fld b f = s.fld b f := Dev.fld_congr s.linkEvent_same.2.2.2 b f

theorem Dev.linkEvent_flag (s : Dev) (b : Nat) (f : Fld) : s.linkEvent.flag b f = s.flag b f := Dev.flag_congr s.linkEvent_same.2.2.2 b f

theorem Dev.linkEvent_rd (s : Dev) (a : Nat) : s.linkEvent.rd a = s.rd a := Dev.rd_congr s.linkEvent_same.2.2.2 a

theorem Dev.linkEvent_now (s : Dev) : s.linkEvent.now = s.now := s.linkEvent_same.1

theorem Dev.linkEvent_link (s : Dev) : s.linkEvent.link = s.link := s.linkEvent_same.2.1

theorem Dev.linkEvent_port (s : Dev) (p : PortId) : s.linkEvent.port p = s.port p := by rw [Dev.port, Dev.linkEvent_link, Dev.port]

/-- A port's status and the transfer's tell nothing of the upstream port. -/
theorem Dev.keeps.upPort {s t : Dev} (p : PortId) (h : s.keeps t [pB p + LINK_PORT_STATUS, LINK_XFER_STATUS]) : t.upPort = s.upPort := by
  have off : 0 + LINK_STATUS_UPSTREAM.off ∉ [pB p + LINK_PORT_STATUS, LINK_XFER_STATUS] := by
    rw [List.mem_cons, List.mem_singleton]
    rintro (port | xfer)
    · exact portBase_ne p (by decide) port.symm
    · exact absurd xfer (by decide)
  rw [Dev.upPort, h.flag off, Dev.upPort]

/-- The partner of a port is shown absent. -/
def Dev.absentShown (s : Dev) (p : PortId) : Dev :=
  ((s.upTo ((s.port p).heardAt + 30000)).setFlag (pB p) LINK_PORT_STATUS_PARTNER_ABSENT true).linkEvent

theorem Dev.absentShown_keeps (s : Dev) (p : PortId) : s.keeps (s.absentShown p) [pB p + LINK_PORT_STATUS] :=
  (((Dev.keeps_refl _ _).upTo _).setFlag _ _ _ (by simp)).linkEvent

theorem Dev.partnerAbsent_spec {s : Dev} (awake : s.awake = true) (p : PortId) :
    ∃ e : Dev, s.partnerAbsent p = (if s.isRemote = false then e.portAbsent p else if p = s.upPort then e.hubLost else
        (e.sendHub 0 (.fault (msg (0x2C2 + p.val) 0 0 0xFF) 0 (e.fld 0 GLOBAL_STATUS_STATE))).hubLost) ∧
      e.flag (pB p) LINK_PORT_STATUS_PARTNER_ABSENT = true ∧ e.now = max s.now ((s.port p).heardAt + 30000) ∧ s.keeps e [pB p + LINK_PORT_STATUS] := by
  have kept := s.absentShown_keeps p
  have remote : (s.absentShown p).isRemote = s.isRemote := by rw [Dev.isRemote, kept.2.2.2, Dev.isRemote]
  have up : (s.absentShown p).upPort = s.upPort := (kept.mono (by simp)).upPort p
  refine ⟨s.absentShown p, ?_, ?_, ?_, kept⟩
  · rw [Dev.partnerAbsent, ← Dev.absentShown]
    simp only [remote, up, Bool.not_eq_true', beq_iff_eq]
  · rw [Dev.absentShown, Dev.linkEvent_flag, Dev.flag_setFlag_same _ _ _ _ (by decide) rfl]
  · rw [Dev.absentShown, Dev.linkEvent_now, Dev.setFlag_now, Dev.upTo_now _ _ awake]

theorem exec_partnerAbsent_due {s : State} {p : PortId} (awake : s.awake = true) (live : s.fallback = false) (enabled : s.portEnabled p = true)
    (heard : (s.port p).heardAt ≠ 0) (present : s.flag (pB p) LINK_PORT_STATUS_PARTNER_ABSENT = false) :
    exec (.partnerAbsent p) s = .next (s.withDev (s.partnerAbsent p)) := by
  rw [exec_partnerAbsent, execPartnerAbsent, State.onAwake_of_awake _ _ awake, if_neg (by simp [live, enabled, heard, present])]

theorem exec_timeLinkLost_due {s : State} (awake : s.awake = true) (linked : s.timeFromLink = true) (present : s.mer.linkLost = false)
    (live : s.fallback = false) : exec .timeLinkLost s = .next (s.withDev
    ((((s.upTo (max s.mer.linkAt s.boot.zero + 10000000)).modMer (fun m => { m with linkLost := true })).merEvent 4).raiseGlobal 0x2A7 1)) := by
  rw [exec_timeLinkLost, execTimeLinkLost, State.onAwake_of_awake _ _ awake, if_neg (by simp [linked, present, live])]

/-! A heartbeat on the port away from the hub. -/

section heartbeat

variable (d : Dev) (p : PortId) (b : Beat)

/-- The heartbeat's session, and the acks and credits it brings. -/
def Dev.beatHeard (d : Dev) (p : PortId) (b : Beat) : Dev :=
  vcList.foldl (fun d k => d.ackCredit p k (b.ack.getD k.val 0).toNat (b.credit.getD k.val 0).toNat)
    (d.modPort p (fun x => { x with heardAt := d.now, peer := some b.session, echo := some (b.tTx, b.rxTime) }))

/-- The partner's state is shown. -/
def Dev.beatShown (d : Dev) (p : PortId) (b : Beat) : Dev :=
  ((d.beatHeard p b).setFlag (pB p) LINK_PORT_STATUS_PARTNER_ABSENT false).setFlag (pB p) LINK_PORT_STATUS_PARTNER_BOOT b.boot

/-- The presence side of a port: when it was last heard, and the session of its partner. -/
def Dev.presence (s : Dev) (p : PortId) : Nat × Option Word64 := ((s.port p).heardAt, (s.port p).peer)

theorem Dev.presence_modPort {s : Dev} {p q : PortId} {f : Port → Port} (same : ∀ x, (f x).heardAt = x.heardAt ∧ (f x).peer = x.peer) :
    (s.modPort p f).presence q = s.presence q := by
  rw [Dev.presence, Dev.port_modPort]
  split_ifs with this
  · obtain ⟨heard, peer⟩ := same (s.port p)
    rw [heard, peer, this, Dev.presence]
  · rfl

theorem Dev.presence_modVc (s : Dev) (p q : PortId) (k : Fin 3) (f : Vc → Vc) : (s.modVc p k f).presence q = s.presence q :=
  Dev.presence_modPort fun _ => ⟨rfl, rfl⟩

theorem Dev.presence_ackCredit (s : Dev) (p q : PortId) (k : Fin 3) (ack credit : Nat) : (s.ackCredit p k ack credit).presence q = s.presence q := by
  rw [Dev.ackCredit]
  split_ifs
  · exact (Dev.presence_modPort (f := fun x => { x with restart := none }) fun _ => ⟨rfl, rfl⟩).trans (Dev.presence_modVc _ _ _ _ _)
  · exact Dev.presence_modVc _ _ _ _ _

theorem Dev.presence_pumpVc (s : Dev) (p q : PortId) (k : Fin 3) : (s.pumpVc p k).presence q = s.presence q := by
  rw [Dev.pumpVc]
  split_ifs
  · exact Dev.presence_modPort fun _ => ⟨rfl, rfl⟩
  · rfl

theorem Dev.presence_pumpPort (s : Dev) (p q : PortId) : (s.pumpPort p).presence q = s.presence q :=
  (Dev.presence_pumpVc _ _ _ _).trans ((Dev.presence_pumpVc _ _ _ _).trans (Dev.presence_pumpVc _ _ _ _))

theorem Dev.beatHeard_ports : ∃ v, d.beatHeard p b = d.withPorts v := by
  obtain ⟨v, heard⟩ := d.modPort_ports p (fun x => { x with heardAt := d.now, peer := some b.session, echo := some (b.tTx, b.rxTime) })
  obtain ⟨w, credited⟩ := (d.withPorts v).each_ports (fun t k => t.ackCredit_ports p k (b.ack.getD k.val 0).toNat (b.credit.getD k.val 0).toNat) vcList
  exact ⟨w, by rw [Dev.beatHeard, heard]; exact credited⟩

theorem Dev.beatHeard_presence : (d.beatHeard p b).presence p = (d.now, some b.session) := by
  rw [Dev.beatHeard]
  refine (Dev.each_keeps (fun e => e.presence p) (fun _ _ => Dev.presence_ackCredit _ _ _ _ _ _) vcList _).trans ?_
  rw [Dev.presence, Dev.port_modPort_same]

theorem Dev.beatShown_keeps : d.keeps (d.beatShown p b) [pB p + LINK_PORT_STATUS] := by
  obtain ⟨v, heard⟩ := d.beatHeard_ports p b
  rw [Dev.beatShown, heard]
  exact ((Dev.withPorts_keeps _ _ (Dev.keeps_refl _ _)).setFlag _ _ _ (by simp)).setFlag _ _ _ (by simp)

theorem Dev.beatShown_flags : (d.beatShown p b).flag (pB p) LINK_PORT_STATUS_PARTNER_ABSENT = false ∧
    (d.beatShown p b).flag (pB p) LINK_PORT_STATUS_PARTNER_BOOT = b.boot := by
  refine ⟨?_, Dev.flag_setFlag_same _ _ _ _ (by decide) rfl⟩
  rw [Dev.beatShown, Dev.flag_setFlag_apart (apart_base _ (by decide)), Dev.flag_setFlag_same _ _ _ _ (by decide) rfl]

theorem Dev.beatShown_presence : (d.beatShown p b).presence p = (d.now, some b.session) := by
  rw [Dev.beatShown, Dev.presence, Dev.port, Dev.setFlag_link, Dev.setFlag_link]
  exact d.beatHeard_presence p b

/-- A change of the ports and XFER_STATUS that leaves the presence of port `p`. -/
structure Dev.Present (s t : Dev) (p : PortId) : Prop where
  flag : ∀ f, f.off < 0x40 → t.flag (pB p) f = s.flag (pB p) f
  presence : t.presence p = s.presence p
  keeps : s.keeps t [LINK_XFER_STATUS]

theorem Dev.Present.refl (s : Dev) (p : PortId) : s.Present s p := ⟨fun _ _ => rfl, rfl, Dev.keeps_refl _ _⟩

theorem Dev.Present.trans {s t u : Dev} {p : PortId} (h : s.Present t p) (k : t.Present u p) : s.Present u p :=
  ⟨fun f off => (k.flag f off).trans (h.flag f off), k.presence.trans h.presence, h.keeps.trans k.keeps⟩

theorem Dev.linkEvent_present (s : Dev) (p : PortId) : s.Present s.linkEvent p :=
  ⟨fun _ _ => s.linkEvent_flag _ _, by rw [Dev.presence, Dev.linkEvent_port, Dev.presence], (Dev.keeps_refl _ _).linkEvent⟩

theorem Dev.pumpPort_present (s : Dev) (p : PortId) : s.Present (s.pumpPort p) p := by
  refine ⟨fun f _ => ?_, s.presence_pumpPort p p, ?_⟩ <;> obtain ⟨v, only⟩ := s.pumpPort_ports p <;> rw [only]
  · rfl
  · exact Dev.withPorts_keeps _ _ (Dev.keeps_refl _ _)

theorem Dev.xferEnd_done (s : Dev) : s.xferEnd 0 = ((s.setFlag 0 LINK_XFER_STATUS_BUSY false).setFlag 0 LINK_XFER_STATUS_DONE true).linkEvent := rfl

theorem Dev.xferCheck_present (s : Dev) (p : PortId) : s.Present s.xferCheck p := by
  rw [Dev.xferCheck]
  split_ifs
  · refine Dev.Present.trans ⟨fun f off => ?_, ?_, ((Dev.keeps_refl _ _).setFlag _ _ _ (by decide)).setFlag _ _ _ (by decide)⟩
      (Dev.linkEvent_present _ p)
    · have away : ∀ k : Fld, k.off = LINK_XFER_STATUS → k.lo + k.w ≤ 32 → apart 0 k (pB p) f := fun k this fits =>
        ⟨fits, .inl (by rw [this]; simp only [pB, portBase, LINK_XFER_STATUS]; omega)⟩
      rw [Dev.flag_setFlag_apart (away _ rfl (by decide)), Dev.flag_setFlag_apart (away _ rfl (by decide))]
    · rw [Dev.presence, Dev.port, Dev.setFlag_link, Dev.setFlag_link, Dev.presence, Dev.port]
  · exact .refl s p

/-- A change of the partner's state is a link event. -/
def Dev.beatTold (d : Dev) (p : PortId) (b : Beat) : Dev :=
  if (d.beatHeard p b).flag (pB p) LINK_PORT_STATUS_PARTNER_ABSENT || (d.beatHeard p b).flag (pB p) LINK_PORT_STATUS_PARTNER_BOOT != b.boot then
    (d.beatShown p b).linkEvent else d.beatShown p b

/-- What the partner's presence ends, on a remote and on a hub. -/
def Dev.beatPlaced (d : Dev) (p : PortId) (b : Beat) : Dev :=
  if d.isRemote then (if p == d.upPort then d.cause 0x2D0 false else d)
  else d.nodeHeard (if b.boot then d.neighbour p else b.node.toNat) p b.boot

theorem Dev.beatTold_present : (d.beatShown p b).Present (d.beatTold p b) p := by
  rw [Dev.beatTold]
  split_ifs
  · exact Dev.linkEvent_present _ _
  · exact .refl _ _

theorem Dev.beatTold_keeps : d.keeps (d.beatTold p b) [pB p + LINK_PORT_STATUS, LINK_XFER_STATUS] :=
  ((d.beatShown_keeps p b).mono (by simp)).trans ((d.beatTold_present p b).keeps.mono (by simp))

variable {d p b}

theorem Dev.heartbeat_eq (acked : b.nak = false) : d.heartbeat p b =
    (((((d.beatTold p b).beatPlaced p b).calibrateHop p b).pumpPort p).sendAllRecords).xferCheck := by
  rw [Dev.heartbeat, acked]
  rfl

theorem Dev.beatPlaced_away {e : Dev} (remote : e.isRemote = true) (away : p ≠ e.upPort) : e.beatPlaced p b = e := by
  rw [Dev.beatPlaced, if_pos remote, if_neg (by simpa using away)]

theorem Dev.calibrateHop_fresh {e : Dev} (tx : b.echoTx = 0) (rx : b.echoRx = 0) : e.calibrateHop p b = e := if_pos (by rw [tx, rx]; rfl)

theorem Dev.sendAllRecords_none {e : Dev} (groups : e.plates.groups = []) : e.sendAllRecords = e := by
  rw [Dev.sendAllRecords, groups]
  split_ifs <;> rfl

theorem Dev.heartbeat_away (acked : b.nak = false) (tx : b.echoTx = 0) (rx : b.echoRx = 0) (remote : d.isRemote = true) (away : p ≠ d.upPort)
    (groups : d.plates.groups = []) : (d.beatShown p b).Present (d.heartbeat p b) p := by
  have kept := d.beatTold_keeps p b
  have remote' : (d.beatTold p b).isRemote = true := by rw [Dev.isRemote, kept.2.2.2]; exact remote
  have up : (d.beatTold p b).upPort = d.upPort := kept.upPort p
  have pumped := (d.beatTold p b).pumpPort_present p
  have groups' : ((d.beatTold p b).pumpPort p).plates.groups = [] := by rw [pumped.keeps.2.2.2, kept.2.2.2, groups]
  rw [Dev.heartbeat_eq acked, Dev.beatPlaced_away remote' (by rwa [up]), Dev.calibrateHop_fresh tx rx, Dev.sendAllRecords_none groups']
  exact ((d.beatTold_present p b).trans pumped).trans (Dev.xferCheck_present _ _)

theorem Dev.heartbeat_spec (acked : b.nak = false) (tx : b.echoTx = 0) (rx : b.echoRx = 0) (remote : d.isRemote = true) (away : p ≠ d.upPort)
    (groups : d.plates.groups = []) : (d.heartbeat p b).flag (pB p) LINK_PORT_STATUS_PARTNER_ABSENT = false ∧
      (d.heartbeat p b).flag (pB p) LINK_PORT_STATUS_PARTNER_BOOT = b.boot ∧ ((d.heartbeat p b).port p).heardAt = d.now ∧
      ((d.heartbeat p b).port p).peer = some b.session ∧ d.keeps (d.heartbeat p b) [pB p + LINK_PORT_STATUS, LINK_XFER_STATUS] := by
  have present := Dev.heartbeat_away acked tx rx remote away groups
  obtain ⟨absent, boot⟩ := d.beatShown_flags p b
  have seen := present.presence.trans (d.beatShown_presence p b)
  exact ⟨(present.flag _ (by decide)).trans absent, (present.flag _ (by decide)).trans boot, congrArg Prod.fst seen, congrArg Prod.snd seen,
    ((d.beatShown_keeps p b).mono (by simp)).trans (present.keeps.mono (by simp))⟩

end heartbeat

end Sys2Proof.Machine

namespace Sys2Proof.Machine

open Sys2Proof

/-! ## Ports and lanes (R398, R404) -/

section

variable (s : Dev) (p : PortId) {j : Nat} (b : Bool)

/-- The causes of the ports' sources stand in one word. -/
theorem Dev.cause_port (small : j < 32) : s.cause (0x2C0 + j) b = s.setFlag 0 ⟨FAULT_CAUSE + 4 * 22, j, 1⟩ b := by
  have word : (0x2C0 + j) / 32 = 22 := by omega
  have bit : (0x2C0 + j) % 32 = j := by omega
  rw [Dev.cause, word, bit, Dev.setBit, Dev.setFlag]

theorem portCause_apart (small : j < 32) (f : Fld) : apart 0 ⟨FAULT_CAUSE + 4 * 22, j, 1⟩ (pB p) f :=
  ⟨by simp only; omega, .inl (by simp only [pB, portBase, FAULT_CAUSE]; omega)⟩

theorem portStatus_apart (f : Fld) (fits : f.lo + f.w ≤ 32) : apart (pB p) f 0 ⟨FAULT_CAUSE + 4 * 22, j, 1⟩ :=
  ⟨fits, .inl (by simp only [pB, portBase, FAULT_CAUSE]; omega)⟩

theorem Dev.portCause_flag (small : j < 32) (f : Fld) : (s.cause (0x2C0 + j) b).flag (pB p) f = s.flag (pB p) f := by
  rw [Dev.cause_port _ _ small, Dev.flag_setFlag_apart (portCause_apart p small f)]

theorem Dev.portCause_fld (small : j < 32) (f : Fld) : (s.cause (0x2C0 + j) b).fld (pB p) f = s.fld (pB p) f := by
  rw [Dev.cause_port _ _ small, Dev.fld_setFlag_apart (portCause_apart p small f)]

theorem Dev.portCause_same (small : j < 32) : (s.cause (0x2C0 + j) b).flag 0 ⟨FAULT_CAUSE + 4 * 22, j, 1⟩ = b := by
  rw [Dev.cause_port _ _ small, Dev.flag_setFlag_same _ _ _ _ (by simp only; omega) rfl]

theorem Dev.keeps.portCause {s t : Dev} {l : List Nat} (h : s.keeps t l) {j : Nat} (b : Bool) (small : j < 32) (listed : FAULT_CAUSE + 4 * 22 ∈ l) :
    s.keeps (t.cause (0x2C0 + j) b) l := by
  rw [Dev.cause_port _ _ small]
  exact h.setFlag _ _ _ (by rwa [Nat.zero_add])

end

theorem Dev.port_congr {s t : Dev} (same : t.link = s.link) (p : PortId) : t.port p = s.port p := by rw [Dev.port, same, Dev.port]

/-! A port trains. -/

section trained

variable (s : Dev) (p : PortId) (x : Word64)

/-- The port was down for more than 1 ms. -/
def Dev.longDown (s : Dev) (p : PortId) : Bool :=
  match (s.port p).downAt with
  | some t => decide (t + 1000000 < s.now)
  | none => false

/-- The status of a port that has trained. -/
def Dev.trainedStatus (s : Dev) (p : PortId) : Dev :=
  ((s.setFlag (pB p) LINK_PORT_STATUS_UP true).setFld (pB p) LINK_PORT_STATUS_LANES 3).setFlag (pB p) LINK_PORT_STATUS_CALIBRATED
    (s.flag (pB p) LINK_PORT_STATUS_CALIBRATED && !s.longDown p)

/-- Its new session. -/
def Port.trained (y : Port) (x : Word64) (now : Nat) (long : Bool) : Port :=
  { y with session := x, peer := none, downAt := none, delays := if long then [] else y.delays, echo := none
           heardAt := if y.heardAt == 0 then now else y.heardAt }

theorem Dev.portTrained_eq : s.portTrained p x = (((((s.trainedStatus p).modPort p (fun y => y.trained x s.now (s.longDown p))).cause (0x2C0 + p.val)
    false).cause (0x2C2 + p.val) false).endReset (target 4 p.val)).linkEvent := rfl

theorem Dev.lostCause (b : Bool) : s.cause (0x2C2 + p.val) b = s.cause (0x2C0 + (2 + p.val)) b := by rw [show 0x2C2 + p.val = 0x2C0 + (2 + p.val) by omega]

theorem Dev.quarantineCause (b : Bool) : s.cause (0x2C6 + p.val) b = s.cause (0x2C0 + (6 + p.val)) b := by
  rw [show 0x2C6 + p.val = 0x2C0 + (6 + p.val) by omega]

theorem Dev.endReset_same (t : Nat) : (s.endReset t).regs = s.regs ∧ (s.endReset t).link = s.link ∧ (s.endReset t).now = s.now :=
  ⟨Dev.modCol_regs _ _, Dev.modCol_link _ _, Dev.modCol_now _ _⟩

theorem Dev.portTrained_flag (f : Fld) : (s.portTrained p x).flag (pB p) f = (s.trainedStatus p).flag (pB p) f := by
  rw [Dev.portTrained_eq, Dev.linkEvent_flag, Dev.flag_congr (Dev.endReset_same _ _).1, Dev.lostCause, Dev.portCause_flag _ _ _ (by omega),
    Dev.portCause_flag _ _ _ (by omega), Dev.modPort_flag]

theorem Dev.portTrained_fld (f : Fld) : (s.portTrained p x).fld (pB p) f = (s.trainedStatus p).fld (pB p) f := by
  rw [Dev.portTrained_eq, Dev.linkEvent_fld, Dev.fld_congr (Dev.endReset_same _ _).1, Dev.lostCause, Dev.portCause_fld _ _ _ (by omega),
    Dev.portCause_fld _ _ _ (by omega), Dev.modPort_fld]

theorem Dev.portTrained_port : (s.portTrained p x).port p = (s.port p).trained x s.now (s.longDown p) := by
  rw [Dev.portTrained_eq, Dev.port_congr (Dev.linkEvent_link _), Dev.port_congr (Dev.endReset_same _ _).2.1, Dev.lostCause,
    Dev.port_congr (Dev.cause_link _ _ _), Dev.port_congr (Dev.cause_link _ _ _), Dev.port_modPort_same]
  exact congrArg (fun y => y.trained x s.now (s.longDown p))
    (Dev.port_congr ((Dev.setFlag_link _ _ _ _).trans ((Dev.setFld_link _ _ _ _).trans (Dev.setFlag_link _ _ _ _))) p)

theorem Dev.portTrained_now : (s.portTrained p x).now = s.now := by
  rw [Dev.portTrained_eq, Dev.linkEvent_now, (Dev.endReset_same _ _).2.2, Dev.lostCause, Dev.cause_now, Dev.cause_now, Dev.modPort_now,
    Dev.trainedStatus, Dev.setFlag_now, Dev.setFld_now, Dev.setFlag_now]

theorem Dev.portTrained_keeps : s.keeps (s.portTrained p x) [pB p + LINK_PORT_STATUS, FAULT_CAUSE + 4 * 22] := by
  rw [Dev.portTrained_eq, Dev.lostCause]
  exact (((((((((Dev.keeps_refl _ _).setFlag _ _ _ (by simp)).setFld _ _ _ (by simp)).setFlag _ _ _ (by simp)).modPort _ _).portCause _ (by omega)
    (by simp)).portCause _ (by omega) (by simp)).modCol _)).linkEvent

theorem Dev.portTrained_status : (s.portTrained p x).flag (pB p) LINK_PORT_STATUS_UP = true ∧ (s.portTrained p x).fld (pB p) LINK_PORT_STATUS_LANES = 3 := by
  refine ⟨?_, ?_⟩
  · rw [Dev.portTrained_flag, Dev.trainedStatus, Dev.flag_setFlag_apart (apart_base _ (by decide)), Dev.flag_setFld_apart (apart_base _ (by decide)),
      Dev.flag_setFlag_same _ _ _ _ (by decide) rfl]
  · rw [Dev.portTrained_fld, Dev.trainedStatus, Dev.fld_setFlag_apart (apart_base _ (by decide)), Dev.fld_setFld_same _ _ _ _ (by decide)]
    rfl

end trained

theorem exec_portTrained_due {s : State} {p : PortId} (x : Word64) (awake : s.awake = true) (live : s.fallback = false) (step : 4 ≤ s.boot.step)
    (used : s.portUsed p = true) (down : s.flag (pB p) LINK_PORT_STATUS_UP = false) (free : s.flag (pB p) LINK_PORT_STATUS_QUARANTINED = false) :
    ∃ t, exec (.portTrained p x) s = .next t ∧ t.flag (pB p) LINK_PORT_STATUS_UP = true ∧ t.fld (pB p) LINK_PORT_STATUS_LANES = 3 ∧
      (t.port p).session = x ∧ (t.port p).peer = none ∧ (t.port p).downAt = none ∧ t.now = s.now ∧
      s.keeps t.toDev [pB p + LINK_PORT_STATUS, FAULT_CAUSE + 4 * 22] := by
  obtain ⟨up, lanes⟩ := s.portTrained_status p x
  have port := s.portTrained_port p x
  refine ⟨s.withDev (s.portTrained p x), ?_, up, lanes, ?_, ?_, ?_, s.portTrained_now p x, s.portTrained_keeps p x⟩
  · rw [exec_portTrained, execPortTrained, State.onAwake_of_awake _ _ awake, if_neg (by simp [live, used, down, free]; omega)]
  · rw [State.withDev_toDev, port, Port.trained]
  · rw [State.withDev_toDev, port, Port.trained]
  · rw [State.withDev_toDev, port, Port.trained]

/-! Lanes. -/

section lanes

variable {s : State} {p : PortId} {l : Fin 2}

/-- The status bit of a lane. -/
abbrev laneBit (l : Fin 2) : Fld := ⟨LINK_PORT_STATUS, l.val, 1⟩

theorem laneBit_fits (l : Fin 2) : (laneBit l).lo + (laneBit l).w ≤ 32 := by simp only; omega

theorem exec_laneFailure_spec (awake : s.awake = true) (live : s.fallback = false) (up : s.flag (pB p) (laneBit l) = true) :
    ∃ d : Dev, exec (.laneFailure p l) s = .next (s.withDev ((if (d.raiseGlobal (0x2C0 + p.val) (l.val + 1)).fld (pB p) LINK_PORT_STATUS_LANES == 0 then
        (d.raiseGlobal (0x2C0 + p.val) (l.val + 1)).portLost p
        else vcList.foldl (fun e k => e.resend p k) (d.raiseGlobal (0x2C0 + p.val) (l.val + 1))).linkEvent)) ∧
      d.flag (pB p) (laneBit l) = false ∧ d.flag 0 ⟨FAULT_CAUSE + 4 * 22, p.val, 1⟩ = true ∧
      s.keeps d [pB p + LINK_PORT_STATUS, FAULT_CAUSE + 4 * 22] := by
  refine ⟨(s.setFlag (pB p) (laneBit l) false).cause (0x2C0 + p.val) true, ?_, ?_, Dev.portCause_same _ _ (by omega), ?_⟩
  · rw [exec_laneFailure, execLaneFailure, State.onAwake_of_awake _ _ awake]
    dsimp only
    rw [if_neg (by simp [live, up])]
  · rw [Dev.portCause_flag _ _ _ (by omega), Dev.flag_setFlag_same _ _ _ _ (laneBit_fits l) rfl]
  · exact ((Dev.keeps_refl _ _).setFlag _ _ _ (by simp)).portCause _ (by omega) (by simp)

/-- The device once a lane has joined again. -/
def Dev.laneJoined (s : Dev) (p : PortId) (l : Fin 2) : Dev :=
  if (s.setFlag (pB p) (laneBit l) true).fld (pB p) LINK_PORT_STATUS_LANES == 3 then (s.setFlag (pB p) (laneBit l) true).cause (0x2C0 + p.val) false
  else s.setFlag (pB p) (laneBit l) true

theorem Dev.laneJoined_spec (s : Dev) (p : PortId) (l : Fin 2) : (s.laneJoined p l).flag (pB p) (laneBit l) = true ∧
    ((s.laneJoined p l).fld (pB p) LINK_PORT_STATUS_LANES = 3 → (s.laneJoined p l).flag 0 ⟨FAULT_CAUSE + 4 * 22, p.val, 1⟩ = false) ∧
    s.keeps (s.laneJoined p l) [pB p + LINK_PORT_STATUS, FAULT_CAUSE + 4 * 22] := by
  have joined : s.keeps (s.setFlag (pB p) (laneBit l) true) [pB p + LINK_PORT_STATUS, FAULT_CAUSE + 4 * 22] :=
    (Dev.keeps_refl _ _).setFlag _ _ _ (by simp)
  rw [Dev.laneJoined]
  split_ifs with both
  · refine ⟨?_, fun _ => Dev.portCause_same _ _ (by omega), joined.portCause _ (by omega) (by simp)⟩
    rw [Dev.portCause_flag _ _ _ (by omega), Dev.flag_setFlag_same _ _ _ _ (laneBit_fits l) rfl]
  · exact ⟨Dev.flag_setFlag_same _ _ _ _ (laneBit_fits l) rfl, fun three => absurd (by simp [three]) both, joined⟩

theorem exec_laneRejoin_spec (awake : s.awake = true) (live : s.fallback = false) (up : s.flag (pB p) LINK_PORT_STATUS_UP = true) :
    ∃ t, exec (.laneRejoin p l) s = .next t ∧ t.flag (pB p) (laneBit l) = true ∧
      (t.fld (pB p) LINK_PORT_STATUS_LANES = 3 → t.flag 0 ⟨FAULT_CAUSE + 4 * 22, p.val, 1⟩ = false) ∧
      s.keeps t.toDev [pB p + LINK_PORT_STATUS, FAULT_CAUSE + 4 * 22] := by
  obtain ⟨lane, both, kept⟩ := s.laneJoined_spec p l
  refine ⟨s.withDev (s.laneJoined p l).linkEvent, ?_, ?_, ?_, kept.linkEvent⟩
  · rw [exec_laneRejoin, execLaneRejoin, State.onAwake_of_awake _ _ awake, if_neg (by simp [live, up])]
    rfl
  · rw [State.withDev_toDev, Dev.linkEvent_flag, lane]
  · rwa [State.withDev_toDev, Dev.linkEvent_flag, Dev.linkEvent_fld]

end lanes

/-! Retraining and quarantine. -/

section down

variable (s : Dev) (p : PortId)

theorem Dev.portDown_spec : (s.portDown p).flag (pB p) LINK_PORT_STATUS_UP = false ∧ (s.portDown p).fld (pB p) LINK_PORT_STATUS_LANES = 0 ∧
    ((s.portDown p).port p).peer = none ∧ s.keeps (s.portDown p) [pB p + LINK_PORT_STATUS] ∧ (s.portDown p).now = s.now := by
  refine ⟨?_, ?_, ?_, (((Dev.keeps_refl _ _).setFlag _ _ _ (by simp)).setFld _ _ _ (by simp)).modPort _ _, ?_⟩
  · rw [Dev.portDown, Dev.modPort_flag, Dev.flag_setFld_apart (apart_base _ (by decide)), Dev.flag_setFlag_same _ _ _ _ (by decide) rfl]
  · rw [Dev.portDown, Dev.modPort_fld, Dev.fld_setFld_same _ _ _ _ (by decide), Nat.zero_mod]
  · rw [Dev.portDown, Dev.port_modPort_same]
  · rw [Dev.portDown, Dev.modPort_now, Dev.setFld_now, Dev.setFlag_now]

/-- The quarantine is over, and the port retrains. -/
def Dev.freed (s : Dev) (p : PortId) : Dev :=
  ((s.setFlag (pB p) LINK_PORT_STATUS_QUARANTINED false).cause (0x2C6 + p.val) false).portDown p

theorem Dev.freed_spec : (s.freed p).flag (pB p) LINK_PORT_STATUS_QUARANTINED = false ∧ (s.freed p).flag (pB p) LINK_PORT_STATUS_UP = false ∧
    (s.freed p).flag 0 ⟨FAULT_CAUSE + 4 * 22, 6 + p.val, 1⟩ = false ∧ (s.freed p).now = s.now ∧
    s.keeps (s.freed p) [pB p + LINK_PORT_STATUS, FAULT_CAUSE + 4 * 22] := by
  rw [Dev.freed, Dev.quarantineCause]
  obtain ⟨up, -, -, kept, now⟩ := Dev.portDown_spec ((s.setFlag (pB p) LINK_PORT_STATUS_QUARANTINED false).cause (0x2C0 + (6 + p.val)) false) p
  have ended : s.keeps ((s.setFlag (pB p) LINK_PORT_STATUS_QUARANTINED false).cause (0x2C0 + (6 + p.val)) false)
      [pB p + LINK_PORT_STATUS, FAULT_CAUSE + 4 * 22] := ((Dev.keeps_refl _ _).setFlag _ _ _ (by simp)).portCause _ (by omega) (by simp)
  refine ⟨?_, up, ?_, ?_, ended.trans (kept.mono (by simp))⟩
  · rw [Dev.portDown, Dev.modPort_flag, Dev.flag_setFld_apart (apart_base _ (by decide)), Dev.flag_setFlag_apart (apart_base _ (by decide)),
      Dev.portCause_flag _ _ _ (by omega), Dev.flag_setFlag_same _ _ _ _ (by decide) rfl]
  · rw [Dev.portDown, Dev.modPort_flag, Dev.flag_setFld_apart (portStatus_apart p _ (by decide)),
      Dev.flag_setFlag_apart (portStatus_apart p _ (by decide)), Dev.portCause_same _ _ (by omega)]
  · rw [now, Dev.cause_now, Dev.setFlag_now]

theorem Dev.endQuarantine_eq (held : s.flag (pB p) LINK_PORT_STATUS_QUARANTINED = true) : s.endQuarantine p = (s.freed p).linkEvent := if_pos held

end down

section retrain

variable {s : State} {p : PortId} (awake : s.awake = true)

include awake

theorem exec_portRetrain_spec (used : s.portUsed p = true) (free : s.flag (pB p) LINK_PORT_STATUS_QUARANTINED = false) :
    ∃ t, exec (.portRetrain p) s = .next t ∧ t.flag (pB p) LINK_PORT_STATUS_UP = false ∧ t.fld (pB p) LINK_PORT_STATUS_LANES = 0 ∧
      (t.port p).peer = none ∧ s.keeps t.toDev [pB p + LINK_PORT_STATUS] := by
  obtain ⟨up, lanes, peer, kept, -⟩ := s.portDown_spec p
  refine ⟨s.withDev (s.portDown p).linkEvent, ?_, ?_, ?_, ?_, kept.linkEvent⟩
  · rw [exec_portRetrain, execPortRetrain, State.onAwake_of_awake _ _ awake, Dev.retrain, if_pos (by simp [used, free])]
  · rw [State.withDev_toDev, Dev.linkEvent_flag, up]
  · rw [State.withDev_toDev, Dev.linkEvent_fld, lanes]
  · rw [State.withDev_toDev, Dev.linkEvent_port, peer]

theorem exec_portRelease_spec (held : s.flag (pB p) LINK_PORT_STATUS_QUARANTINED = true) :
    ∃ t, exec (.portRelease p) s = .next t ∧ t.flag (pB p) LINK_PORT_STATUS_QUARANTINED = false ∧ t.flag (pB p) LINK_PORT_STATUS_UP = false ∧
      t.flag 0 ⟨FAULT_CAUSE + 4 * 22, 6 + p.val, 1⟩ = false ∧ t.now = s.now ∧ s.keeps t.toDev [pB p + LINK_PORT_STATUS, FAULT_CAUSE + 4 * 22] := by
  obtain ⟨free, up, cause, now, kept⟩ := s.freed_spec p
  refine ⟨s.withDev (s.freed p).linkEvent, ?_, ?_, ?_, ?_, ?_, kept.linkEvent⟩
  · rw [exec_portRelease, execPortRelease, State.onAwake_of_awake _ _ awake, Dev.endQuarantine_eq _ _ held]
  · rw [State.withDev_toDev, Dev.linkEvent_flag, free]
  · rw [State.withDev_toDev, Dev.linkEvent_flag, up]
  · rw [State.withDev_toDev, Dev.linkEvent_flag, cause]
  · rw [State.withDev_toDev, Dev.linkEvent_now, now]

theorem exec_quarantineEnd_spec (held : s.flag (pB p) LINK_PORT_STATUS_QUARANTINED = true) :
    ∃ t, exec (.quarantineEnd p) s = .next t ∧ t.flag (pB p) LINK_PORT_STATUS_QUARANTINED = false ∧ t.flag (pB p) LINK_PORT_STATUS_UP = false ∧
      t.now = max s.now ((s.port p).quarAt + 100000000) ∧ s.keeps t.toDev [pB p + LINK_PORT_STATUS, FAULT_CAUSE + 4 * 22] := by
  obtain ⟨free, up, -, now, kept⟩ := (s.upTo ((s.port p).quarAt + 100000000)).freed_spec p
  refine ⟨s.withDev ((s.upTo ((s.port p).quarAt + 100000000)).freed p).linkEvent, ?_, ?_, ?_, ?_, (((Dev.keeps_refl _ _).upTo _).trans kept).linkEvent⟩
  · rw [exec_quarantineEnd, execQuarantineEnd, State.onAwake_of_awake _ _ awake, if_pos held, Dev.endQuarantine_eq _ _ (by rw [Dev.upTo_flag, held])]
  · rw [State.withDev_toDev, Dev.linkEvent_flag, free]
  · rw [State.withDev_toDev, Dev.linkEvent_flag, up]
  · rw [State.withDev_toDev, Dev.linkEvent_now, now, Dev.upTo_now _ _ awake]

omit awake in
theorem exec_quarantine_none (free : s.flag (pB p) LINK_PORT_STATUS_QUARANTINED = false) :
    exec (.portRelease p) s = .next s ∧ exec (.quarantineEnd p) s = .next s := by
  refine ⟨?_, ?_⟩
  · rw [exec_portRelease, execPortRelease]
    exact State.onAwake_of_id (if_neg (by rw [free]; decide))
  · rw [exec_quarantineEnd, execQuarantineEnd]
    exact State.onAwake_of_id (if_neg (by rw [free]; decide))

end retrain

end Sys2Proof.Machine

namespace Sys2Proof.Machine

open Sys2Proof

/-! ## Keys, triggers and transfers (R405, R406, R408, R411, R412) -/

theorem Dev.linkRefuse_spec (s : Dev) : s.linkRefuse.flag 0 LINK_STATUS_REFUSED = true ∧ s.keeps s.linkRefuse [LINK_STATUS] :=
  ⟨Dev.flag_setFlag_same _ _ _ _ (by decide) rfl, (Dev.keeps_refl _ _).setFlag _ _ _ (by decide)⟩

theorem Dev.keeps.each_wr {α : Type} {s t : Dev} {l : List Nat} (h : s.keeps t l) (xs : List α) (g : α → Nat) (v : Word) (listed : ∀ x ∈ xs, g x ∈ l) :
    s.keeps (t.each xs (fun d x => d.wr (g x) v)) l := by
  induction xs generalizing t with
  | nil => exact h
  | cons x xs ih => exact ih (h.wr _ _ (listed x (List.mem_cons_self ..))) fun y member => listed y (List.mem_cons_of_mem _ member)

/-! A key is loaded. -/

section key

variable (s : Dev) (k : Fin 8)

def keyWords : List Nat := (List.range 8).map (fun i => LINK_KEY_DATA + 4 * i)

theorem mem_keyWords {i : Nat} (small : i < 8) : LINK_KEY_DATA + 4 * i ∈ keyWords := List.mem_map_of_mem (List.mem_range.mpr small)

/-- KEY_CTRL names the slot, and the data words are cleared. -/
def Dev.keyCleared (s : Dev) (k : Fin 8) : Dev :=
  (s.setFld 0 LINK_KEY_CTRL_SLOT k.val).each (List.range 8) (fun d i => d.wr (LINK_KEY_DATA + 4 * i) 0)

/-- The key the data words hold. -/
def Dev.keyData (s : Dev) : BitVec 256 := BitVec.ofNat 256 (leNat ((List.range 8).flatMap (fun i => leBytes 4 (s.rd (LINK_KEY_DATA + 4 * i)).toNat)))

theorem Dev.keyData_setSlot : (s.setFld 0 LINK_KEY_CTRL_SLOT k.val).keyData = s.keyData := by
  have word : ∀ i ∈ List.range 8, leBytes 4 ((s.setFld 0 LINK_KEY_CTRL_SLOT k.val).rd (LINK_KEY_DATA + 4 * i)).toNat =
      leBytes 4 (s.rd (LINK_KEY_DATA + 4 * i)).toNat := fun i small => by
    rw [List.mem_range] at small
    rw [Dev.rd_setFld_other _ _ _ _ _ (by simp only [LINK_KEY_DATA]; omega)]
  rw [Dev.keyData, List.flatMap_congr word, Dev.keyData]

theorem Dev.keyCleared_keeps : s.keeps (s.keyCleared k) (LINK_KEY_CTRL :: LINK_KEY_STATUS :: keyWords) :=
  ((Dev.keeps_refl _ _).setFld _ _ _ (by simp)).each_wr _ _ _ fun i small => by
    rw [List.mem_range] at small
    exact List.mem_cons_of_mem _ (List.mem_cons_of_mem _ (mem_keyWords small))

theorem Dev.keyCleared_data {i : Nat} (small : i < 8) : (s.keyCleared k).rd (LINK_KEY_DATA + 4 * i) = 0 :=
  Dev.each_forall (p := fun i d => d.rd (LINK_KEY_DATA + 4 * i) = 0) (fun _ _ => Dev.rd_wr_same _ _ _)
    (fun d x y zero => by
      rw [Dev.rd_wr]
      split_ifs
      · rfl
      · exact zero) (.inl (List.mem_range.mpr small))

theorem Dev.keyCleared_link : (s.keyCleared k).link = s.link := by
  rw [Dev.keyCleared]
  exact (Dev.each_keeps Dev.link (fun _ _ => Dev.wr_link _ _ _) _ _).trans (Dev.setFld_link _ _ _ _)

theorem keyWords_low {a : Nat} (high : 0x80038 ≤ a) : a ∉ LINK_KEY_CTRL :: LINK_KEY_STATUS :: keyWords := by
  simp only [keyWords, List.mem_cons, List.mem_map, List.mem_range, LINK_KEY_CTRL, LINK_KEY_STATUS, LINK_KEY_DATA]
  rintro (rfl | rfl | ⟨i, small, rfl⟩) <;> omega

theorem Dev.keyCleared_slotFree : (s.keyCleared k).slotFree k = s.slotFree k := by
  have kept := s.keyCleared_keeps k
  have plates := kept.2.2.2
  have txKey : ∀ p : PortId, (s.keyCleared k).fld (pB p) LINK_PORT_CFG_TX_KEY = s.fld (pB p) LINK_PORT_CFG_TX_KEY := fun p =>
    kept.fld (keyWords_low (by simp only [pB, portBase]; omega))
  simp only [Dev.slotFree, plates, s.keyCleared_link k, txKey, Dev.portEnabled]

theorem Dev.keyLoad_eq : (s.setFld 0 LINK_KEY_CTRL_SLOT k.val).keyLoad k =
    if !(s.keyCleared k).isRemote && (s.keyCleared k).slotFree k then ((s.keyCleared k).setKey k (s.setFld 0 LINK_KEY_CTRL_SLOT k.val).keyData).linkEvent
    else (((s.keyCleared k).setFlag 0 LINK_KEY_STATUS_REFUSED true).raiseGlobal 0x2CC 0).linkEvent := rfl

theorem Dev.keyCleared_isRemote : (s.keyCleared k).isRemote = s.isRemote := by rw [Dev.isRemote, (s.keyCleared_keeps k).2.2.2, Dev.isRemote]

variable {s k} (hub : s.isRemote = false)

include hub

theorem Dev.keyLoad_taken (free : s.slotFree k = true) :
    (s.setFld 0 LINK_KEY_CTRL_SLOT k.val).keyLoad k = ((s.keyCleared k).setKey k s.keyData).linkEvent := by
  rw [Dev.keyLoad_eq, if_pos (by rw [Dev.keyCleared_isRemote, Dev.keyCleared_slotFree, hub, free]; rfl), Dev.keyData_setSlot]

omit hub in
theorem Dev.keyLoad_refused (busy : s.slotFree k = false) : (s.setFld 0 LINK_KEY_CTRL_SLOT k.val).keyLoad k =
    (((s.keyCleared k).setFlag 0 LINK_KEY_STATUS_REFUSED true).raiseGlobal 0x2CC 0).linkEvent := by
  rw [Dev.keyLoad_eq, if_neg (by rw [Dev.keyCleared_isRemote, Dev.keyCleared_slotFree, busy, Bool.and_false]; decide)]

end key

theorem Dev.keyData_afterStatus (s : Dev) {f : Fld} (off : f.off = LINK_KEY_STATUS) (v : Bool) {i : Nat} (small : i < 8) :
    (s.setFlag 0 f v).rd (LINK_KEY_DATA + 4 * i) = s.rd (LINK_KEY_DATA + 4 * i) := by
  rw [Dev.setFlag, Dev.rd_setFld_other _ _ _ _ _ (by rw [off]; simp only [LINK_KEY_DATA, LINK_KEY_STATUS]; omega)]

/-- The slot holds the key, and shows it. -/
theorem Dev.setKey_spec (s : Dev) (k : Fin 8) (key : BitVec 256) : (s.setKey k key).link.keys.get k = some key ∧
    (s.setKey k key).flag 0 ⟨LINK_KEY_STATUS, k.val, 1⟩ = true ∧
    (∀ i, i < 8 → (s.setKey k key).rd (LINK_KEY_DATA + 4 * i) = s.rd (LINK_KEY_DATA + 4 * i)) ∧ s.keeps (s.setKey k key) [LINK_KEY_STATUS] := by
  refine ⟨?_, ?_, fun i small => ?_, ?_⟩
  · rw [Dev.setKey, Dev.setFlag_link, Dev.modLink_link]
    exact (vector_get_set _ _ _ _).trans (if_pos rfl)
  · rw [Dev.setKey, Dev.flag_setFlag_same _ _ _ _ (by simp only; omega) rfl]
  · rw [Dev.setKey, Dev.keyData_afterStatus _ rfl _ small]
    rfl
  · rw [Dev.setKey]
    exact ((Dev.keeps_refl _ _).modLink _).setFlag _ _ _ (by simp)

section keyLoad

variable {s : State} {k : Fin 8} (awake : s.awake = true) (hub : s.isRemote = false)

include awake hub

theorem exec_keyLoad_taken (free : s.slotFree k = true) : ∃ t, exec (.keyLoad k) s = .next t ∧ t.link.keys.get k = some s.keyData ∧
    (∀ i, i < 8 → t.rd (LINK_KEY_DATA + 4 * i) = 0) ∧ t.flag 0 ⟨LINK_KEY_STATUS, k.val, 1⟩ = true ∧
    s.keeps t.toDev (LINK_KEY_CTRL :: LINK_KEY_STATUS :: keyWords) := by
  obtain ⟨loaded, shown, words, kept⟩ := (s.keyCleared k).setKey_spec k s.keyData
  refine ⟨s.withDev ((s.keyCleared k).setKey k s.keyData).linkEvent, ?_, ?_, fun i small => ?_, ?_, ?_⟩
  · rw [exec_keyLoad, execKeyLoad, State.onAwake_of_awake _ _ awake, Dev.keyLoad_taken hub free]
  · rw [State.withDev_toDev, Dev.linkEvent_link, loaded]
  · rw [State.withDev_toDev, Dev.linkEvent_rd, words i small, Dev.keyCleared_data _ _ small]
  · rw [State.withDev_toDev, Dev.linkEvent_flag, shown]
  · rw [State.withDev_toDev]
    exact ((s.keyCleared_keeps k).trans (kept.mono fun a member => by rw [List.mem_singleton] at member; simp [member])).linkEvent

omit hub in
theorem exec_keyLoad_refused (busy : s.slotFree k = false) : ∃ d : Dev, exec (.keyLoad k) s = .next (s.withDev (d.raiseGlobal 0x2CC 0).linkEvent) ∧
    d.flag 0 LINK_KEY_STATUS_REFUSED = true ∧ d.link.keys = s.link.keys ∧ (∀ i, i < 8 → d.rd (LINK_KEY_DATA + 4 * i) = 0) := by
  refine ⟨(s.keyCleared k).setFlag 0 LINK_KEY_STATUS_REFUSED true, ?_, Dev.flag_setFlag_same _ _ _ _ (by decide) rfl, ?_, fun i small => ?_⟩
  · rw [exec_keyLoad, execKeyLoad, State.onAwake_of_awake _ _ awake, Dev.keyLoad_refused busy]
  · rw [Dev.setFlag_link, Dev.keyCleared_link]
  · rw [Dev.keyData_afterStatus _ rfl _ small]
    exact s.keyCleared_data k small

end keyLoad

/-! A key for a node. -/

section remoteKey

variable {s : State} {k : BitVec 4} (awake : s.awake = true)

include awake

theorem exec_remoteKeySend_bad (bad : k = 0 ∨ 8 < k.toNat) :
    ∃ t, exec (.remoteKeySend k) s = .next t ∧ t.flag 0 LINK_STATUS_REFUSED = true ∧ s.keeps t.toDev [LINK_STATUS] := by
  obtain ⟨refused, kept⟩ := s.linkRefuse_spec
  refine ⟨s.withDev s.linkRefuse, ?_, refused, kept⟩
  rw [exec_remoteKeySend, execRemoteKeySend, State.onAwake_of_awake _ _ awake, Dev.rkeyWrite, if_pos (by rcases bad with rfl | bad <;> simp [*])]

variable (some' : k ≠ 0) (small : k.toNat ≤ 8) (hub : s.isRemote = false) (idle : s.flag 0 LINK_RKEY_STATUS_BUSY = false)

include some' small hub idle

omit awake hub idle in
theorem Dev.rkeyWrite_good (d : Dev) : d.rkeyWrite k.toNat true = (d.setFld 0 LINK_RKEY_CTRL_NODE k.toNat).remoteKey k.toNat := by
  have positive : k.toNat ≠ 0 := fun zero => some' (BitVec.eq_of_toNat_eq zero)
  rw [Dev.rkeyWrite, if_neg (by simp [positive]; omega), if_pos rfl]

omit awake some' small in
theorem Dev.rkeyNamed_idle (n : Nat) : ((s.setFld 0 LINK_RKEY_CTRL_NODE n).isRemote || (s.setFld 0 LINK_RKEY_CTRL_NODE n).flag 0 LINK_RKEY_STATUS_BUSY) = false := by
  rw [Dev.isRemote, Dev.setFld_plates, Dev.flag_setFld_apart (by decide), idle, Bool.or_false]
  exact hub

theorem exec_remoteKeySend_missing (missing : s.plates.link.count < k.toNat) :
    ∃ t, exec (.remoteKeySend k) s = .next t ∧ t.fld 0 LINK_RKEY_STATUS_RESULT = 2 ∧ t.flag 0 LINK_RKEY_STATUS_BUSY = false ∧
      s.keeps t.toDev [LINK_RKEY_CTRL, LINK_RKEY_STATUS] := by
  refine ⟨s.withDev ((s.setFld 0 LINK_RKEY_CTRL_NODE k.toNat).setFld 0 LINK_RKEY_STATUS_RESULT 2).linkEvent, ?_, ?_, ?_,
    (((Dev.keeps_refl _ _).setFld _ _ _ (by decide)).setFld _ _ _ (by decide)).linkEvent⟩
  · rw [exec_remoteKeySend, execRemoteKeySend, State.onAwake_of_awake _ _ awake, Dev.rkeyWrite_good some' small, Dev.remoteKey,
      if_neg (by rw [Dev.rkeyNamed_idle hub idle]; decide), if_pos (by simp [missing])]
  · rw [State.withDev_toDev, Dev.linkEvent_fld, Dev.fld_setFld_same _ _ _ _ (by decide)]
    rfl
  · rw [State.withDev_toDev, Dev.linkEvent_flag, Dev.flag_setFld_apart (by decide), Dev.flag_setFld_apart (by decide), idle]

theorem exec_remoteKeySend_present (there : k.toNat ≤ s.plates.link.count)
    (state : s.fld (nodeBase k.toNat) LINK_NODE_STATUS_STATE = 1 ∨ s.fld (nodeBase k.toNat) LINK_NODE_STATUS_STATE = 2) :
    ∃ d : Dev, exec (.remoteKeySend k) s = .next (s.withDev (d.sendNode k.toNat 0 (.keyLoad ((List.range 12).map (fun i => s.rd (LINK_RKEY_DATA + 4 * i)))))) ∧
      d.flag 0 LINK_RKEY_STATUS_BUSY = true ∧ s.keeps d [LINK_RKEY_CTRL, LINK_RKEY_STATUS] := by
  have words : (List.range 12).map (fun i => (s.setFld 0 LINK_RKEY_CTRL_NODE k.toNat).rd (LINK_RKEY_DATA + 4 * i)) =
      (List.range 12).map (fun i => s.rd (LINK_RKEY_DATA + 4 * i)) := List.map_congr_left fun i small => by
    rw [List.mem_range] at small
    rw [Dev.rd_setFld_other _ _ _ _ _ (by simp only [LINK_RKEY_DATA]; omega)]
  have node : (s.setFld 0 LINK_RKEY_CTRL_NODE k.toNat).fld (nodeBase k.toNat) LINK_NODE_STATUS_STATE = s.fld (nodeBase k.toNat) LINK_NODE_STATUS_STATE :=
    Dev.fld_setFld_apart ⟨by decide, .inl (by simp only [nodeBase]; omega)⟩ _
  refine ⟨(s.setFld 0 LINK_RKEY_CTRL_NODE k.toNat).setFlag 0 LINK_RKEY_STATUS_BUSY true, ?_, Dev.flag_setFlag_same _ _ _ _ (by decide) rfl,
    ((Dev.keeps_refl _ _).setFld _ _ _ (by decide)).setFlag _ _ _ (by decide)⟩
  rw [exec_remoteKeySend, execRemoteKeySend, State.onAwake_of_awake _ _ awake, Dev.rkeyWrite_good some' small, Dev.remoteKey,
    if_neg (by rw [Dev.rkeyNamed_idle hub idle]; decide), node, if_neg (by rcases state with state | state <;> simp [state, there]), words]

end remoteKey

/-! Triggers. -/

section trigger

variable {s : State} {nodes : BitVec 9} (awake : s.awake = true)

include awake

theorem exec_triggerSend_remote (remote : s.isRemote = true) :
    ∃ t, exec (.triggerSend nodes) s = .next t ∧ t.flag 0 LINK_STATUS_REFUSED = true ∧ s.keeps t.toDev [LINK_STATUS] := by
  obtain ⟨refused, kept⟩ := s.linkRefuse_spec
  refine ⟨s.withDev s.linkRefuse, ?_, refused, kept⟩
  rw [exec_triggerSend, execTriggerSend, State.onAwake_of_awake _ _ awake, Dev.triggerSend, if_pos remote]

omit awake in
/-- The trigger has gone out of every port. -/
def Dev.triggered (s : Dev) (nodes : BitVec 9) : Dev :=
  (s.setFld 0 LINK_TRIG_CTRL_NODES nodes.toNat).sendDown 1 (.trigger (s.rd LINK_TRIG_ENGINES) (nodes.setWidth 16))

omit awake in
theorem Dev.triggered_ports (d : Dev) : ∃ v, d.triggered nodes = (d.setFld 0 LINK_TRIG_CTRL_NODES nodes.toNat).withPorts v := Dev.sendDown_ports _ _ _

omit awake in
theorem Dev.triggered_anyPortUp (d : Dev) : (d.triggered nodes).anyPortUp = d.anyPortUp := by
  obtain ⟨v, sent⟩ := d.triggered_ports (nodes := nodes)
  have up : ∀ p : PortId, (d.triggered nodes).flag (pB p) LINK_PORT_STATUS_UP = d.flag (pB p) LINK_PORT_STATUS_UP := fun p => by
    rw [sent, Dev.withPorts_flag, Dev.flag_setFld_apart ⟨by decide, .inl (by simp only [pB, portBase]; omega)⟩]
  simp only [Dev.anyPortUp, up]

theorem exec_triggerSend_hub (hub : s.isRemote = false) : exec (.triggerSend nodes) s = .next (s.withDev
    ((if s.anyPortUp then s.triggered nodes else (s.triggered nodes).upTo ((s.triggered nodes).now + 2)).fire (s.rd LINK_TRIG_ENGINES) (nodes.setWidth 16))) := by
  have engines : (s.setFld 0 LINK_TRIG_CTRL_NODES nodes.toNat).rd LINK_TRIG_ENGINES = s.rd LINK_TRIG_ENGINES := Dev.rd_setFld_other _ _ _ _ _ (by decide)
  rw [exec_triggerSend, execTriggerSend, State.onAwake_of_awake _ _ awake, Dev.triggerSend, if_neg (by rw [hub]; decide), ← s.triggered_anyPortUp (nodes := nodes)]
  dsimp only
  rw [engines, ← Dev.triggered]

theorem exec_triggerSend_silent (hub : s.isRemote = false) (silent : s.anyPortUp = false) : ∃ d : Dev, exec (.triggerSend nodes) s = .next (s.withDev
    (d.fire (s.rd LINK_TRIG_ENGINES) (nodes.setWidth 16))) ∧ d.now = s.now + 2 ∧ s.keeps d [LINK_TRIG_CTRL] := by
  obtain ⟨v, sent⟩ := s.triggered_ports (nodes := nodes)
  have now : (s.triggered nodes).now = s.now := by rw [sent, Dev.withPorts_now, Dev.setFld_now]
  have awake' : (s.triggered nodes).awake = true := by
    rw [sent]
    exact awake
  refine ⟨(s.triggered nodes).upTo ((s.triggered nodes).now + 2), ?_, ?_, Dev.keeps.upTo ?_ _⟩
  · rw [exec_triggerSend_hub awake hub, if_neg (by rw [silent]; decide)]
  · rw [Dev.upTo_now _ _ awake', now, max_eq_right (by omega)]
  · rw [sent]
    exact Dev.withPorts_keeps _ _ ((Dev.keeps_refl _ _).setFld _ _ _ (by decide))

end trigger

/-! Transfers. -/

section transfer

variable {s : State} {k : BitVec 4} {boot last : Bool} (awake : s.awake = true)

theorem exec_xferStart_awake (awake : s.awake = true) : exec (.xferStart k boot last) s = .next (s.withDev (s.xferStart k.toNat boot last)) := by
  rw [exec_xferStart, execXferStart, State.onAwake_of_awake _ _ awake]

include awake in
theorem exec_xferStart_bad (bad : k = 0 ∨ 8 < k.toNat ∨ s.isRemote = true ∨ s.flag 0 LINK_XFER_STATUS_BUSY = true) :
    ∃ t, exec (.xferStart k boot last) s = .next t ∧ t.flag 0 LINK_STATUS_REFUSED = true ∧ s.keeps t.toDev [LINK_STATUS] := by
  obtain ⟨refused, kept⟩ := s.linkRefuse_spec
  refine ⟨s.withDev s.linkRefuse, ?_, refused, kept⟩
  rw [exec_xferStart_awake awake, Dev.xferStart, if_pos (by rcases bad with rfl | bad | bad | bad <;> simp [*])]

/-- `LINK_XFER_CTRL` as a start leaves it. -/
def Dev.xferNamed (s : Dev) (k : Nat) (boot last : Bool) : Dev :=
  ((s.setFld 0 LINK_XFER_CTRL_NODE k).setFlag 0 LINK_XFER_CTRL_BOOT boot).setFlag 0 LINK_XFER_CTRL_LAST last

theorem Dev.xferNamed_keeps (s : Dev) (k : Nat) (boot last : Bool) : s.keeps (s.xferNamed k boot last) [LINK_XFER_CTRL] :=
  (((Dev.keeps_refl _ _).setFld _ _ _ (by decide)).setFlag _ _ _ (by decide)).setFlag _ _ _ (by decide)

/-- What a transfer is to send. -/
def Dev.xferFrames (s : Dev) : List (Nat × List Byte × Bool) :=
  stationChunks (s.fld 0 LINK_XFER_LEN_LEN / 248 + 1) (s.rd LINK_XFER_DST).toNat (s.bytes (s.rd LINK_XFER_SRC).toNat (s.fld 0 LINK_XFER_LEN_LEN))

/-- The node of a transfer cannot take it. -/
def Dev.xferAbsent (s : Dev) (k : Nat) (boot : Bool) : Bool :=
  decide (s.plates.link.count < k) || s.fld (nodeBase k) LINK_NODE_STATUS_STATE == 3 || (s.fld (nodeBase k) LINK_NODE_STATUS_STATE == 0 && !boot)

/-- A transfer's source lies outside the stores. -/
def xferUnbacked (a n : Nat) : Bool := !backed a || !backed (a + n - 1) || (decide (a < 0x27E0000) && decide (0x27E0000 < a + n))

/-- The frames take their place. -/
def Dev.xferQueued (s : Dev) (k : Nat) (boot last : Bool) : Dev :=
  (((((s.eccRead (s.rd LINK_XFER_SRC).toNat (s.fld 0 LINK_XFER_LEN_LEN) rdHost).modLink (fun l => { l with xferNode := k })).setFlag 0 LINK_XFER_STATUS_BUSY
    true).each s.xferFrames (fun d f => d.sendNode k 2 (.station (BitVec.ofNat 32 f.1) f.2.1 boot (boot && last && f.2.2)))).addWord
      (nodeBase k + LINK_NODE_XFER) s.xferFrames.length)

/-- The branches of a start, in their order. -/
def Dev.xferRun (s : Dev) (k : Nat) (boot last : Bool) : Dev :=
  if s.fld 0 LINK_XFER_LEN_LEN == 0 then s.xferEnd 0
  else if s.xferAbsent k boot then s.xferEnd 1
  else if xferUnbacked (s.rd LINK_XFER_SRC).toNat (s.fld 0 LINK_XFER_LEN_LEN) then s.xferEnd 3
  else (s.xferQueued k boot last).xferCheck

theorem Dev.xferStart_eq (s : Dev) (k : Nat) (boot last : Bool) : s.xferStart k boot last =
    if s.isRemote || k == 0 || decide (8 < k) || s.flag 0 LINK_XFER_STATUS_BUSY then s.linkRefuse
    else (s.xferNamed k boot last).xferRun k boot last := rfl

variable (named : k ≠ 0) (small : k.toNat ≤ 8) (hub : s.isRemote = false) (idle : s.flag 0 LINK_XFER_STATUS_BUSY = false)

include named small hub idle

theorem Dev.xferStart_good : s.xferStart k.toNat boot last = (s.xferNamed k.toNat boot last).xferRun k.toNat boot last := by
  have positive : k.toNat ≠ 0 := fun zero => named (BitVec.eq_of_toNat_eq zero)
  rw [Dev.xferStart_eq, if_neg (by simp [positive, hub, idle]; omega)]

omit named small hub idle in
theorem Dev.xferNamed_len (d : Dev) (n : Nat) : (d.xferNamed n boot last).fld 0 LINK_XFER_LEN_LEN = d.fld 0 LINK_XFER_LEN_LEN :=
  (d.xferNamed_keeps n boot last).fld (by decide)

include awake

theorem exec_xferStart_none (empty : s.fld 0 LINK_XFER_LEN_LEN = 0) : ∃ t, exec (.xferStart k boot last) s = .next t ∧
    t.flag 0 LINK_XFER_STATUS_DONE = true ∧ t.fld 0 LINK_XFER_STATUS_ERR = s.fld 0 LINK_XFER_STATUS_ERR ∧
    s.keeps t.toDev [LINK_XFER_CTRL, LINK_XFER_STATUS] := by
  have kept := s.xferNamed_keeps k.toNat boot last
  refine ⟨s.withDev ((s.xferNamed k.toNat boot last).xferEnd 0), ?_, ?_, ?_, ?_⟩
  · rw [exec_xferStart_awake awake, Dev.xferStart_good named small hub idle, Dev.xferRun, if_pos (by rw [Dev.xferNamed_len, empty]; rfl)]
  · rw [State.withDev_toDev, Dev.xferEnd_done, Dev.linkEvent_flag, Dev.flag_setFlag_same _ _ _ _ (by decide) rfl]
  · rw [State.withDev_toDev, Dev.xferEnd_done, Dev.linkEvent_fld, Dev.fld_setFlag_apart (by decide), Dev.fld_setFlag_apart (by decide), kept.fld (by decide)]
  · rw [State.withDev_toDev, Dev.xferEnd_done]
    exact (((kept.mono (by decide)).setFlag _ _ _ (by decide)).setFlag _ _ _ (by decide)).linkEvent

theorem exec_xferStart_missing (some' : s.fld 0 LINK_XFER_LEN_LEN ≠ 0) (missing : s.plates.link.count < k.toNat) :
    ∃ d : Dev, exec (.xferStart k boot last) s = .next (s.withDev ((d.raiseGlobal 0x2CB 0).linkEvent)) ∧ d.flag 0 LINK_XFER_STATUS_DONE = true ∧
      d.fld 0 LINK_XFER_STATUS_ERR = 1 ∧ s.keeps d [LINK_XFER_CTRL, LINK_XFER_STATUS] := by
  have kept := s.xferNamed_keeps k.toNat boot last
  have absent : (s.xferNamed k.toNat boot last).xferAbsent k.toNat boot = true := by simp [Dev.xferAbsent, kept.2.2.2, missing]
  refine ⟨(((s.xferNamed k.toNat boot last).setFlag 0 LINK_XFER_STATUS_BUSY false).setFlag 0 LINK_XFER_STATUS_DONE true).setFld 0 LINK_XFER_STATUS_ERR 1,
    ?_, ?_, ?_, (((kept.mono (by decide)).setFlag _ _ _ (by decide)).setFlag _ _ _ (by decide)).setFld _ _ _ (by decide)⟩
  · rw [exec_xferStart_awake awake, Dev.xferStart_good named small hub idle, Dev.xferRun, if_neg (by simp [Dev.xferNamed_len, some']), if_pos absent]
    rfl
  · rw [Dev.flag_setFld_apart (by decide), Dev.flag_setFlag_same _ _ _ _ (by decide) rfl]
  · rw [Dev.fld_setFld_same _ _ _ _ (by decide)]
    rfl

omit awake named small hub idle in
/-- The frames of a transfer change the ports alone. -/
theorem Dev.xferQueued_ports {d : Dev} (good : d.memst.bad = []) (n : Nat) : ∃ v, d.xferQueued n boot last =
    (((d.modLink (fun l => { l with xferNode := n })).setFlag 0 LINK_XFER_STATUS_BUSY true).withPorts v).addWord (nodeBase n + LINK_NODE_XFER)
      d.xferFrames.length := by
  obtain ⟨v, sent⟩ := ((d.modLink (fun l => { l with xferNode := n })).setFlag 0 LINK_XFER_STATUS_BUSY true).each_ports
    (fun t (f : Nat × List Byte × Bool) => t.sendFrom_ports (portOf (t.flag (nodeBase n) LINK_NODE_STATUS_PORT)) 2 t.node n
      (.station (BitVec.ofNat 32 f.1) f.2.1 boot (boot && last && f.2.2))) d.xferFrames
  refine ⟨v, ?_⟩
  rw [Dev.xferQueued, Dev.eccRead_of_good good, ← sent]
  rfl

omit awake named small hub idle in
theorem Dev.xferQueued_spec {d : Dev} (good : d.memst.bad = []) (n : Nat) : (d.xferQueued n boot last).flag 0 LINK_XFER_STATUS_BUSY = true ∧
    (d.xferQueued n boot last).link.xferNode = n ∧
    (d.xferQueued n boot last).rd (nodeBase n + LINK_NODE_XFER) = d.rd (nodeBase n + LINK_NODE_XFER) + BitVec.ofNat 32 d.xferFrames.length ∧
    d.keeps (d.xferQueued n boot last) [LINK_XFER_CTRL, LINK_XFER_STATUS, nodeBase n + LINK_NODE_XFER] := by
  obtain ⟨v, queued⟩ := Dev.xferQueued_ports (boot := boot) (last := last) good n
  have apart : nodeBase n + LINK_NODE_XFER ≠ 0 + LINK_XFER_STATUS := by simp only [nodeBase, LINK_XFER_STATUS]; omega
  rw [queued, Dev.addWord]
  refine ⟨?_, ?_, ?_, (Dev.withPorts_keeps _ _ (((Dev.keeps_refl _ _).modLink _).setFlag _ _ _ (by simp))).wr _ _ (by simp)⟩
  · rw [Dev.flag_wr_word _ _ _ _ _ apart, Dev.withPorts_flag, Dev.flag_setFlag_same _ _ _ _ (by decide) rfl]
  · rw [Dev.wr_link, Dev.withPorts, Dev.setFlag_link]
    rfl
  · rw [Dev.rd_wr_same, Dev.withPorts_rd, Dev.setFlag, Dev.rd_setFld_other _ _ _ _ _ apart.symm, Dev.modLink_rd]

theorem exec_xferStart_runs (some' : s.fld 0 LINK_XFER_LEN_LEN ≠ 0) (there : k.toNat ≤ s.plates.link.count)
    (up : s.fld (nodeBase k.toNat) LINK_NODE_STATUS_STATE = 2) (inside : (s.rd LINK_XFER_SRC).toNat + s.fld 0 LINK_XFER_LEN_LEN ≤ 0x27E0000)
    (good : s.memst.bad = []) : ∃ t : Dev, exec (.xferStart k boot last) s = .next (s.withDev t.xferCheck) ∧ t.flag 0 LINK_XFER_STATUS_BUSY = true ∧
      t.link.xferNode = k.toNat ∧ t.rd (nodeBase k.toNat + LINK_NODE_XFER) = s.rd (nodeBase k.toNat + LINK_NODE_XFER) +
        BitVec.ofNat 32 s.xferFrames.length ∧ s.keeps t [LINK_XFER_CTRL, LINK_XFER_STATUS, nodeBase k.toNat + LINK_NODE_XFER] := by
  have kept := s.xferNamed_keeps k.toNat boot last
  have len := s.xferNamed_len (boot := boot) (last := last) k.toNat
  have source : (s.xferNamed k.toNat boot last).rd LINK_XFER_SRC = s.rd LINK_XFER_SRC := kept.1 _ (by decide)
  have target : (s.xferNamed k.toNat boot last).rd LINK_XFER_DST = s.rd LINK_XFER_DST := kept.1 _ (by decide)
  have node : (s.xferNamed k.toNat boot last).fld (nodeBase k.toNat) LINK_NODE_STATUS_STATE = 2 := by
    rw [kept.fld (by simp only [nodeBase, List.mem_singleton, LINK_XFER_CTRL]; omega), up]
  have frames : (s.xferNamed k.toNat boot last).xferFrames = s.xferFrames := by
    simp only [Dev.xferFrames, len, source, target, Dev.bytes, Dev.byte, kept.2.1]
  have present : (s.xferNamed k.toNat boot last).xferAbsent k.toNat boot = false := by simp [Dev.xferAbsent, kept.2.2.2, node, there]
  have backed' : xferUnbacked (s.rd LINK_XFER_SRC).toNat (s.fld 0 LINK_XFER_LEN_LEN) = false := by simp [xferUnbacked, backed]; omega
  obtain ⟨busy, who, count, rest⟩ := Dev.xferQueued_spec (d := s.xferNamed k.toNat boot last) (boot := boot) (last := last) good k.toNat
  refine ⟨(s.xferNamed k.toNat boot last).xferQueued k.toNat boot last, ?_, busy, who, ?_, (kept.mono (by simp)).trans rest⟩
  · rw [exec_xferStart_awake awake, Dev.xferStart_good named small hub idle, Dev.xferRun, if_neg (by simp [len, some']),
      if_neg (by rw [present]; decide), if_neg (by rw [source, len, backed']; decide)]
  · rw [count, frames, kept.1 _ (by simp only [nodeBase, List.mem_singleton, LINK_XFER_CTRL]; omega)]

end transfer

theorem Dev.xferCheck_spec {d : Dev} (busy : d.flag 0 LINK_XFER_STATUS_BUSY = true) : (d.xferWaits = true → d.xferCheck = d) ∧ (d.xferWaits = false →
    d.xferCheck.flag 0 LINK_XFER_STATUS_BUSY = false ∧ d.xferCheck.flag 0 LINK_XFER_STATUS_DONE = true ∧ d.keeps d.xferCheck [LINK_XFER_STATUS]) := by
  refine ⟨fun waits => if_neg (by simp [waits]), fun sent => ?_⟩
  rw [Dev.xferCheck, if_pos (by simp [busy, sent]), Dev.xferEnd_done]
  refine ⟨?_, ?_, (((Dev.keeps_refl _ _).setFlag _ _ _ (by decide)).setFlag _ _ _ (by decide)).linkEvent⟩
  · rw [Dev.linkEvent_flag, Dev.flag_setFlag_apart (by decide), Dev.flag_setFlag_same _ _ _ _ (by decide) rfl]
  · rw [Dev.linkEvent_flag, Dev.flag_setFlag_same _ _ _ _ (by decide) rfl]

/-! A command whose station data does not come. -/

section timeout

/-- The entry of a command that is given up. -/
def XferWait.givenUp (x : XferWait) (node : Nat) (time : Word64) : Cpl :=
  { tag := x.hdr.tag, status := INTEGRITY, phase := false, relayed := true, opcode := RingCmd.opcode x.cmd, group := x.hdr.group.toNat % 32, node := node
    faultOff := 0xFF, time := time }

/-- The command has left the list, and its entry is kept for a repeat. -/
def Dev.gaveUp (s : Dev) (x : XferWait) : Dev :=
  ((s.upTo (x.since + 1000000)).modLink (fun l => { l with xferWait := l.xferWait.filter (fun y => y != x) })).modLink
    (fun l => { l with done := keepDone ((x.ring, x.index, x.givenUp s.node (s.upTo (x.since + 1000000)).time) :: l.done) x.ring })

theorem keepDone_head (ring index : Nat) (e : Cpl) (l : List (Nat × Nat × Cpl)) :
    (keepDone ((ring, index, e) :: l) ring).head? = some (ring, index, e) := by simp [keepDone]

theorem Dev.runWaiting_none {d : Dev} (empty : d.link.xferWait = []) (ring : Nat) : Dev.runWaiting d.link.xferWait.length d ring = d := by
  rw [empty]
  rfl

theorem exec_xferCountTimeout_spec {s : State} {r : RingId} {x : XferWait} (awake : s.awake = true) (waiting : s.link.xferWait = [x]) (ring : x.ring = r.val) :
    ∃ d : Dev, exec (.xferCountTimeout r) s = .next (s.withDev (d.sendHub 0 (.completion x.ring (x.givenUp s.node d.time)))) ∧
      d.link.xferWait = [] ∧ d.link.done.head?.map (fun y => (y.1, y.2.1)) = some (x.ring, x.index) ∧ d.now = max s.now (x.since + 1000000) ∧
      s.keeps d [] := by
  have left : (s.gaveUp x).link.xferWait = [] := by
    rw [Dev.gaveUp, Dev.modLink_link, Dev.modLink_link, Dev.upTo_link, waiting]
    simp
  refine ⟨s.gaveUp x, ?_, left, ?_, ?_, (((Dev.keeps_refl _ _).upTo _).modLink _).modLink _⟩
  · have found : s.link.xferWait.find? (fun y => y.ring == r.val) = some x := by rw [waiting, List.find?_cons_of_pos (by simp [ring])]
    obtain ⟨v, sent⟩ := (s.gaveUp x).sendFrom_ports (s.gaveUp x).upPort 0 (s.gaveUp x).node 0
      (.completion x.ring (x.givenUp s.node (s.upTo (x.since + 1000000)).time))
    have quiet : ((s.gaveUp x).sendHub 0 (.completion x.ring (x.givenUp s.node (s.upTo (x.since + 1000000)).time))).link.xferWait = [] := by
      rw [Dev.sendHub, Dev.send, sent]
      exact left
    rw [exec_xferCountTimeout, execXferCountTimeout, State.onAwake_of_awake _ _ awake]
    simp only [found]
    exact congrArg (fun d => Host.Outcome.next (s.withDev d)) (Dev.runWaiting_none quiet x.ring)
  · rw [Dev.gaveUp, Dev.modLink_link]
    dsimp only
    rw [keepDone_head]
    rfl
  · rw [Dev.gaveUp, Dev.modLink_now, Dev.modLink_now, Dev.upTo_now _ _ awake]

end timeout

/-- Settles O59: what is sent by `Dev.withPorts`, a heartbeat by `Dev.heartbeat_eq`, the ports by `Dev.portTrained_eq` and `Dev.freed`, keys and
transfers by the branches of `Dev.keyLoad_eq` and `Dev.xferRun`. -/
theorem linkPortsKeysAndTransfers : Obligations.LinkPortsKeysAndTransfers := by
  refine ⟨⟨fun s rx b => exec_heartbeatFrame_taken, fun s p => exec_heartbeatSend_spec,
      fun s awake released domains => ⟨exec_timeSyncSend_spec awake released domains, exec_axisSampleSend_spec awake released domains⟩,
      fun s p k => exec_retransmitTimeout_spec, fun s p awake live enabled heard present =>
        ⟨exec_partnerAbsent_due awake live enabled heard present, Dev.partnerAbsent_spec awake p⟩, fun s => exec_timeLinkLost_due, fun d p b => Dev.heartbeat_spec⟩,
    ⟨fun s p x => exec_portTrained_due x, fun s p l => exec_laneFailure_spec, fun s p l => exec_laneRejoin_spec,
      fun s p awake => ⟨exec_portRetrain_spec awake, fun held => ⟨exec_portRelease_spec awake held, exec_quarantineEnd_spec awake held⟩, exec_quarantine_none⟩⟩,
    fun s k awake hub => ⟨exec_keyLoad_taken awake hub, exec_keyLoad_refused awake⟩,
    fun s k awake => ⟨exec_remoteKeySend_bad awake, exec_remoteKeySend_missing awake, exec_remoteKeySend_present awake⟩,
    fun s nodes awake => ⟨exec_triggerSend_remote awake, fun hub up => ?up, exec_triggerSend_silent awake⟩,
    fun s k boot last awake => ⟨exec_xferStart_bad awake, exec_xferStart_none awake, exec_xferStart_missing awake, exec_xferStart_runs awake⟩,
    fun d => Dev.xferCheck_spec, fun s r x => exec_xferCountTimeout_spec⟩
  case up =>
    rw [exec_triggerSend_hub awake hub, if_pos up]
    rfl

end Sys2Proof.Machine

namespace Sys2Proof.Machine

open Sys2Proof

/-! ## Freeze (R421 to R423) -/

/-- The slices as a freeze leaves them: their comparators' levels noted, no calibration that can still succeed. -/
def Dev.stilled (s : Dev) : Dev :=
  s.breakCal.each Dev.allSlices (fun d n => d.modSl n (fun x =>
    { x with levelAtFreeze := d.fld (sB n) SLICE_CMP_STATUS_LEVEL, tripped := false, prgPwm := none }))

theorem Dev.stilled_now (s : Dev) : s.stilled.now = s.now := Dev.each_keeps Dev.now (fun _ _ => Dev.modSl_now _ _ _) _ _
theorem Dev.stilled_frz (s : Dev) : s.stilled.frz = s.frz := Dev.each_keeps Dev.frz (fun _ _ => Dev.modSl_frz _ _ _) _ _
theorem Dev.stilled_pins (s : Dev) : s.stilled.pins = s.pins := Dev.each_keeps Dev.pins (fun _ _ => Dev.modSl_pins _ _ _) _ _

theorem Dev.stilled_keeps (s : Dev) (l : List Nat) : s.keeps s.stilled l :=
  Dev.keeps.each (t := s.breakCal) ⟨fun _ _ => rfl, rfl, rfl, rfl⟩ _ fun d n => (Dev.keeps_refl d l).modSl n _

/-- `FRZ_STATUS` and the port's state at the start of a freeze. -/
def Frz.stopped (f : Frz) (cause : Nat) (rnd : BitVec 384) (link : Bool) : Frz :=
  { f with frozen := true, cause := cause, unlocked := false, lockedOut := false, refused := false, busy := false, verify := none
           count := (f.count + 1) % 65536, fails := 0, rnd := rnd, shifts := 0, span := 0, linkUp := link, wires := []
           lock := false }

theorem Dev.upTo_frz_of_running {s : Dev} (going : s.frz.frozen = false) (c : Nat) : (s.upTo c).frz = s.frz := by
  rw [Dev.upTo, Dev.pass, if_neg (by simp [going])]

section freeze

variable {d : Dev} (cause : Nat)

theorem Dev.freeze_frozen (frozen : d.frz.frozen = true) : d.freeze cause = d := by
  rw [Dev.freeze, if_pos (by simp [frozen])]

variable (run : d.pins.resetN = true) (going : d.frz.frozen = false) (powered : d.powerFailing = false) (alone : d.plates.link.freeze = false)

include run going powered alone

theorem Dev.freeze_eq : d.freeze cause = (d.upTo (d.now + 4)).stilled.draw.draw.modFrz
    (fun f => f.stopped cause (d.upTo (d.now + 4)).stilled.drawRandom (d.upTo (d.now + 4)).stilled.cfg.link) := by
  rw [Dev.freeze, if_neg (by simp [run, going, powered])]
  dsimp only
  rw [if_neg (by simp [alone])]
  rfl

theorem Dev.freeze_spec : ∃ rnd link, (d.freeze cause).frz = d.frz.stopped cause rnd link ∧ (d.freeze cause).now = d.now + 4 ∧
    (d.freeze cause).pins = d.pins ∧ d.keeps (d.freeze cause) [] := by
  have awake : d.awake = true := by rw [Dev.awake, run, going]; rfl
  have frz : (d.upTo (d.now + 4)).stilled.frz = d.frz := by rw [Dev.stilled_frz, Dev.upTo_frz_of_running going]
  have now : (d.upTo (d.now + 4)).stilled.now = d.now + 4 := by
    rw [Dev.stilled_now, Dev.upTo_now _ _ awake]
    omega
  have pins : (d.upTo (d.now + 4)).stilled.pins = d.pins := by rw [Dev.stilled_pins, Dev.upTo_pins]
  have kept : d.keeps (d.upTo (d.now + 4)).stilled [] := ((Dev.keeps_refl _ _).upTo _).trans (Dev.stilled_keeps _ _)
  rw [Dev.freeze_eq cause run going powered alone]
  generalize (d.upTo (d.now + 4)).stilled = e at frz now pins kept ⊢
  exact ⟨e.drawRandom, e.cfg.link, congrArg (Frz.stopped · cause _ _) frz, now, pins, kept.draw.draw.modFrz _⟩

end freeze

/-! The port's instructions change the port, and registers and stores never. -/

theorem Dev.keeps.jtag {s t : Dev} {l : List Nat} (h : s.keeps t l) (w x : Nat) : s.keeps (t.jtag w x) l := h.modFrz _

theorem Dev.jtag_keeps (s : Dev) (w x : Nat) (f : Frz → Frz) : s.keeps ((s.jtag w x).modFrz f) [] := ((Dev.keeps_refl s []).jtag w x).modFrz f

/-- FREEZE_N at the level given. -/
def Dev.withFreezeN (s : Dev) (level : Bool) : Dev := s.modPins (fun p => { p with freezeN := level })

theorem Dev.withFreezeN_keeps (s : Dev) (level : Bool) : s.keeps (s.withFreezeN level) [] := (Dev.keeps_refl _ _).modPins _

theorem exec_freezeNFall_eq (s : State) : exec .freezeNFall s = .next (s.withDev ((s.withFreezeN false).freeze 1)) := by
  rw [exec_freezeNFall, execFreezeNFall, State.on_eq]
  rfl

theorem exec_jtagFreeze_eq (s : State) :
    exec .jtagFreeze s = .next (s.withDev (((s.jtag 1 0).modFrz (fun f => { f with refused := false })).freeze 2)) := by
  rw [exec_jtagFreeze, execJtagFreeze, State.on_eq]

section enter

variable {s : State} (run : s.pins.resetN = true) (going : s.frz.frozen = false) (powered : s.powerFailing = false) (alone : s.plates.link.freeze = false)

include run going powered alone

theorem exec_freezeNFall_running : ∃ t, exec .freezeNFall s = .next t ∧ t.frz.frozen = true ∧ t.frz.cause = 1 ∧ t.now = s.now + 4 ∧
    t.frz.count = (s.frz.count + 1) % 65536 ∧ t.frz.unlocked = false ∧ t.frz.shifts = 0 ∧ t.frz.span = 0 ∧ t.pins.freezeN = false ∧ s.keeps t.toDev [] := by
  obtain ⟨rnd, link, frz, now, pins, kept⟩ := Dev.freeze_spec (d := s.withFreezeN false) 1 run going powered alone
  refine ⟨s.withDev ((s.withFreezeN false).freeze 1), exec_freezeNFall_eq s, ?_⟩
  rw [State.withDev_toDev, frz, pins, now]
  exact ⟨rfl, rfl, rfl, rfl, rfl, rfl, rfl, rfl, (s.withFreezeN_keeps false).trans kept⟩

theorem exec_jtagFreeze_running : ∃ t, exec .jtagFreeze s = .next t ∧ t.frz.frozen = true ∧ t.frz.cause = 2 ∧ t.now = s.now + 4 ∧
    t.frz.count = (s.frz.count + 1) % 65536 ∧ t.frz.dr = (1, 0) ∧ s.keeps t.toDev [] := by
  obtain ⟨rnd, link, frz, now, -, kept⟩ := Dev.freeze_spec (d := (s.jtag 1 0).modFrz (fun f => { f with refused := false })) 2 run going powered alone
  refine ⟨s.withDev (((s.jtag 1 0).modFrz (fun f => { f with refused := false })).freeze 2), exec_jtagFreeze_eq s, ?_⟩
  rw [State.withDev_toDev, frz, now]
  exact ⟨rfl, rfl, rfl, rfl, rfl, (s.jtag_keeps 1 0 _).trans kept⟩

end enter

section frozen

variable {s : State} (frozen : s.frz.frozen = true)

include frozen

theorem exec_freezeNFall_frozen : ∃ t, exec .freezeNFall s = .next t ∧ t.frz = s.frz ∧ t.pins.freezeN = false ∧ t.now = s.now ∧ s.keeps t.toDev [] := by
  have still : (s.withFreezeN false).freeze 1 = s.withFreezeN false := Dev.freeze_frozen 1 frozen
  exact ⟨s.withDev (s.withFreezeN false), by rw [exec_freezeNFall_eq, still], rfl, rfl, rfl, s.withFreezeN_keeps false⟩

theorem exec_jtagFreeze_frozen : ∃ t, exec .jtagFreeze s = .next t ∧ t.frz.frozen = true ∧ t.frz.cause = s.frz.cause ∧ t.frz.refused = false ∧
    t.now = s.now ∧ s.keeps t.toDev [] := by
  have still := Dev.freeze_frozen (d := (s.jtag 1 0).modFrz (fun f => { f with refused := false })) 2 frozen
  exact ⟨s.withDev ((s.jtag 1 0).modFrz (fun f => { f with refused := false })), by rw [exec_jtagFreeze_eq, still], frozen, rfl, rfl, rfl, s.jtag_keeps 1 0 _⟩

/-! ## Thaw (R424, R429) -/

theorem exec_jtagThaw_refused {f : Bool} (held : f = false ∨ s.frz.shifts ≠ 0 ∨ s.frz.busy = true) :
    ∃ t, exec (.jtagThaw f) s = .next t ∧ t.frz.refused = true ∧ t.frz.frozen = true ∧ t.now = s.now ∧ s.keeps t.toDev [] := by
  refine ⟨s.withDev (((s.jtag 1 0).withFreezeN f).modFrz (fun x => { x with refused := true })), ?_, rfl, frozen, rfl,
    (((Dev.keeps_refl _ _).jtag 1 0).trans (Dev.withFreezeN_keeps _ f)).modFrz _⟩
  rw [exec_jtagThaw, execJtagThaw, State.on_eq]
  dsimp only
  rw [if_neg (by simp [Dev.jtag, frozen]), if_pos (by simpa [Dev.jtag, or_assoc] using held)]
  rfl

theorem exec_jtagThaw_thaws (home : s.frz.shifts = 0) (idle : s.frz.busy = false) : ∃ d : Dev, exec (.jtagThaw true) s = .next (s.withDev d.thaw) ∧
    d.frz.frozen = true ∧ d.frz.refused = false ∧ d.frz.span = s.frz.span ∧ d.frz.wires = s.frz.wires ∧ d.time = s.time ∧ s.keeps d [] := by
  refine ⟨((s.jtag 1 0).withFreezeN true).modFrz (fun x => { x with refused := false }), ?_, frozen, rfl, rfl, rfl, rfl,
    (((Dev.keeps_refl _ _).jtag 1 0).trans (Dev.withFreezeN_keeps _ true)).modFrz _⟩
  rw [exec_jtagThaw, execJtagThaw, State.on_eq]
  dsimp only
  rw [if_neg (by simp [Dev.jtag, frozen]), if_neg (by simp [Dev.jtag, home, idle])]
  rfl

end frozen

theorem exec_jtagThaw_running {s : State} (f : Bool) (going : s.frz.frozen = false) :
    ∃ t, exec (.jtagThaw f) s = .next t ∧ t.frz.frozen = false ∧ t.now = s.now ∧ s.keeps t.toDev [] := by
  refine ⟨s.withDev ((s.jtag 1 0).withFreezeN f), ?_, going, rfl, ((Dev.keeps_refl _ _).jtag 1 0).trans (Dev.withFreezeN_keeps _ f)⟩
  rw [exec_jtagThaw, execJtagThaw, State.on_eq]
  dsimp only
  rw [if_pos (by simp [Dev.jtag, going])]
  rfl

/-! What a thaw makes of TIME, where no axis counts and no group runs (R279). -/

section thaw

variable {d : Dev} {k : Nat}

/-- TIME counts the stopped cycles, and shows them. -/
def Dev.skipped (d : Dev) (k : Word64) : Dev := { d with time := d.time + k }.wr64 MER_THAW_SKIP_LO MER_THAW_SKIP_HI k

/-- The first PPS edge after a thaw is compared with none before. -/
def Dev.rearmedPps (d : Dev) : Dev := d.modMer (fun m => { m with ppsAt := m.ppsAt.map (fun _ => d.now), firstEdge := true, outliers := [] })

theorem Dev.skipped_keeps (d : Dev) (k : Word64) : d.keeps (d.skipped k) [MER_THAW_SKIP_LO, MER_THAW_SKIP_HI] :=
  Dev.keeps.wr64 (t := { d with time := d.time + k }) ⟨fun _ _ => rfl, rfl, rfl, rfl⟩ _ _ _ (by simp) (by simp)

theorem Dev.skipped_rd64 (d : Dev) (k : Word64) : (d.skipped k).rd64 MER_THAW_SKIP_LO MER_THAW_SKIP_HI = k := Dev.rd64_wr64_same _ (by decide) _

theorem Dev.thawAxis_off (a : Nat) (off : (d.axisRec a).en = false) : d.thawAxis a k = d := by
  rw [Dev.thawAxis]
  exact if_pos (by rw [off]; rfl)

theorem Dev.passMarks_none (groups : d.plates.groups = []) (on past : Nat → Bool) : d.passMarks on past = d := by
  rw [Dev.passMarks, groups]
  rfl

/-- A group's tick comes no earlier than a whole period after the last. -/
def Dev.wholePeriod (d : Dev) (r : GroupRec) : Dev := d.modEng (sid r.first) (fun e => { e with tickMin := e.tickAt + d.period r.first })

theorem Dev.thawMeridian_eq : d.thawMeridian k =
    ((((((d.skipped (BitVec.ofNat 64 (if decide (4 ≤ d.boot.step) then (if d.fallback then 10 * k else k) else 0))).each d.plates.groups
      Dev.wholePeriod).each [1, 2, 3, 4] (fun x a => x.thawAxis a k)).rearmedPps).passMarks (fun _ => true)
        (fun a => decide (1 ≤ a) && decide (a ≤ 2))).merEvent 6).raiseGlobal 0x2A8 0 := rfl

theorem Dev.thawMeridian_idle (counts : 4 ≤ d.boot.step) (main : d.fallback = false) (groups : d.plates.groups = [])
    (axes : ∀ a, (d.axisRec a).en = false) : d.thawMeridian k = ((d.skipped (BitVec.ofNat 64 k)).rearmedPps.merEvent 6).raiseGlobal 0x2A8 0 := by
  have still : (d.skipped (BitVec.ofNat 64 k)).each [1, 2, 3, 4] (fun x a => x.thawAxis a k) = d.skipped (BitVec.ofNat 64 k) :=
    Dev.each_of_id fun a _ => Dev.thawAxis_off a (axes a)
  have ticks : (d.skipped (BitVec.ofNat 64 k)).each d.plates.groups Dev.wholePeriod = d.skipped (BitVec.ofNat 64 k) := by
    rw [groups]
    rfl
  have marks : ∀ on past, (d.skipped (BitVec.ofNat 64 k)).rearmedPps.passMarks on past = (d.skipped (BitVec.ofNat 64 k)).rearmedPps := fun on past =>
    Dev.passMarks_none (d := (d.skipped (BitVec.ofNat 64 k)).rearmedPps) groups on past
  have skip : (if decide (4 ≤ d.boot.step) then (if d.fallback then 10 * k else k) else 0) = k := by simp [counts, main]
  rw [Dev.thawMeridian_eq, skip, ticks, still, marks]

theorem Dev.thawMeridian_spec (counts : 4 ≤ d.boot.step) (main : d.fallback = false) (groups : d.plates.groups = [])
    (axes : ∀ a, (d.axisRec a).en = false) : ∃ e : Dev, d.thawMeridian k = (e.merEvent 6).raiseGlobal 0x2A8 0 ∧ e.mer.firstEdge = true ∧
      e.time = d.time + BitVec.ofNat 64 k ∧ e.rd64 MER_THAW_SKIP_LO MER_THAW_SKIP_HI = BitVec.ofNat 64 k ∧ d.keeps e [MER_THAW_SKIP_LO, MER_THAW_SKIP_HI] :=
  ⟨(d.skipped (BitVec.ofNat 64 k)).rearmedPps, Dev.thawMeridian_idle counts main groups axes, rfl, rfl, d.skipped_rd64 _, (d.skipped_keeps _).modMer _⟩

end thaw

/-! ## Scan chains, memories and status (R425 to R427) -/

theorem exec_jtagStatus_spec (s : State) (f : Bool) : ∃ t, exec (.jtagStatus f) s = .next t ∧ t.frz.dr.1 = 32 ∧ t.frz.dr.2 = t.frzStatus ∧
    t.pins.freezeN = f ∧ t.frz.extest = false ∧ t.now = s.now ∧ s.keeps t.toDev [] :=
  ⟨s.withDev ((s.withFreezeN f).jtag 32 (s.withFreezeN f).frzStatus), by rw [exec_jtagStatus, execJtagStatus, State.on_eq]; rfl, rfl, rfl, rfl, rfl, rfl,
    (s.withFreezeN_keeps f).jtag _ _⟩

section readable

variable {s : State} (readable : s.readable = true)

include readable

theorem exec_scanSelect_home (c : Byte) (home : s.frz.shifts = 0) :
    ∃ t, exec (.scanSelect c) s = .next t ∧ t.frz.scanSel = c.toNat ∧ t.frz.dr = (8, s.frz.scanSel) ∧ s.keeps t.toDev [] := by
  refine ⟨s.withDev ((s.jtag 8 s.frz.scanSel).modFrz (fun f => { f with scanSel := c.toNat })), ?_, rfl, rfl, s.jtag_keeps _ _ _⟩
  rw [exec_scanSelect, execScanSelect, State.on_eq]
  dsimp only
  rw [if_neg (by simp [readable]), if_pos (by simp [Dev.jtag, home])]

theorem exec_scanSelect_away (c : Byte) (away : s.frz.shifts ≠ 0) :
    ∃ t, exec (.scanSelect c) s = .next t ∧ t.frz.scanSel = s.frz.scanSel ∧ s.keeps t.toDev [] := by
  refine ⟨s.withDev (s.jtag 8 s.frz.scanSel), ?_, rfl, (Dev.keeps_refl _ _).jtag _ _⟩
  rw [exec_scanSelect, execScanSelect, State.on_eq]
  dsimp only
  rw [if_neg (by simp [readable]), if_neg (by simp [Dev.jtag, away])]

theorem exec_scanRead_readable : ∃ t, exec .scanRead s = .next t ∧ t.frz.shifts = (s.frz.shifts + 1) % chainLength s.frz.scanSel ∧
    t.frz.scanSel = s.frz.scanSel ∧ t.frz.dr = (1, (s.chainBit s.fuses.uid s.frz.scanSel s.frz.shifts).toNat) ∧ s.keeps t.toDev [] := by
  refine ⟨s.withDev ((s.jtag 1 (s.chainBit s.fuses.uid s.frz.scanSel s.frz.shifts).toNat).modFrz
    (fun f => { f with shifts := (f.shifts + 1) % chainLength s.frz.scanSel })), ?_, rfl, rfl, rfl, s.jtag_keeps _ _ _⟩
  rw [exec_scanRead, execScanRead, State.on_eq, Dev.scanRead, if_neg (by simp [readable])]

theorem exec_memSelect_readable (a : Word) : ∃ t, exec (.memSelect a) s = .next t ∧ t.frz.memAddr = a &&& 0x0FFFFFFF ∧
    t.frz.dr = (32, s.frz.memAddr.toNat) ∧ s.keeps t.toDev [] := by
  refine ⟨s.withDev ((s.jtag 32 s.frz.memAddr.toNat).modFrz (fun f => { f with memAddr := a &&& 0x0FFFFFFF })), ?_, rfl, rfl, s.jtag_keeps _ _ _⟩
  rw [exec_memSelect, execMemSelect, State.on_eq, if_neg (by simp [readable])]

theorem exec_memRead_readable : ∃ t, exec .memRead s = .next t ∧ t.frz.memAddr = BitVec.ofNat 32 (memNext s.frz.memAddr.toNat) ∧
    t.frz.memData = BitVec.ofNat 80 s.memWord ∧ t.frz.dr = (80, s.memWord) ∧ s.keeps t.toDev [] := by
  refine ⟨s.withDev (((s.jtag 80 s.memWord).draw.draw.draw).modFrz (fun f =>
    { f with memData := BitVec.ofNat 80 s.memWord, memAddr := BitVec.ofNat 32 (memNext f.memAddr.toNat) })), ?_, rfl, rfl, rfl,
    (((Dev.keeps_refl _ _).jtag _ _).draw.draw.draw).modFrz _⟩
  rw [exec_memRead, execMemRead, State.on_eq, if_neg (by simp [readable])]

end readable

/-! Where readout is not open the register shows zeros and nothing moves. -/

section unreadable

variable {s : State} (closed : s.readable = false)

include closed

theorem exec_scanSelect_closed (c : Byte) : exec (.scanSelect c) s = .next (s.withDev (s.jtag 8 0)) := by
  rw [exec_scanSelect, execScanSelect, State.on_eq, if_pos (by simp [closed])]

theorem exec_scanRead_closed : exec .scanRead s = .next (s.withDev (s.jtag 1 0)) := by
  rw [exec_scanRead, execScanRead, State.on_eq, Dev.scanRead, if_pos (by simp [closed])]

theorem exec_memSelect_closed (a : Word) : exec (.memSelect a) s = .next (s.withDev (s.jtag 32 0)) := by
  rw [exec_memSelect, execMemSelect, State.on_eq, if_pos (by simp [closed])]

theorem exec_memRead_closed : exec .memRead s = .next (s.withDev (s.jtag 80 0)) := by
  rw [exec_memRead, execMemRead, State.on_eq, if_pos (by simp [closed])]

end unreadable

/-! ## Unlock (R428) -/

theorem exec_unlockChallenge_frozen {s : State} (frozen : s.frz.frozen = true) :
    exec .unlockChallenge s = .next (s.withDev (s.jtag 512 (s.challenge s.fuses.uid))) := by
  rw [exec_unlockChallenge, execUnlockChallenge, State.on_eq, if_pos frozen]

theorem exec_unlockChallenge_running {s : State} (going : s.frz.frozen = false) : exec .unlockChallenge s = .next (s.withDev (s.jtag 512 0)) := by
  rw [exec_unlockChallenge, execUnlockChallenge, State.on_eq, if_neg (by rw [going]; decide)]

section unlock

variable {s : State} {k : Word} {pk sg : List Byte}

theorem exec_unlockResponse_taken (frozen : s.frz.frozen = true) (allowed : s.frz.lockedOut = false) (idle : s.frz.busy = false) :
    ∃ t, exec (.unlockResponse k ⟨pk, sg⟩) s = .next t ∧ t.frz.busy = true ∧ t.frz.verify = some (k, pk, sg) ∧ s.keeps t.toDev [] := by
  refine ⟨s.withDev ((s.jtag 1568 0).modFrz (fun f => { f with busy := true, verify := some (k, pk, sg) })), ?_, rfl, rfl, s.jtag_keeps _ _ _⟩
  rw [exec_unlockResponse, execUnlockResponse, State.on_eq]
  dsimp only
  rw [if_neg (by simp [Dev.jtag, frozen, allowed, idle])]

theorem exec_unlockResponse_ignored (ignored : s.frz.frozen = false ∨ s.frz.lockedOut = true ∨ s.frz.busy = true) :
    ∃ t, exec (.unlockResponse k ⟨pk, sg⟩) s = .next t ∧ t.frz.verify = s.frz.verify ∧ t.frz.busy = s.frz.busy ∧ s.keeps t.toDev [] := by
  refine ⟨s.withDev (s.jtag 1568 0), ?_, rfl, rfl, (Dev.keeps_refl _ _).jtag _ _⟩
  rw [exec_unlockResponse, execUnlockResponse, State.on_eq]
  dsimp only
  rw [if_pos (by simpa [Dev.jtag, or_assoc] using ignored)]

variable (checked : s.frz.verify = some (k, pk, sg))

include checked

theorem exec_unlockVerifyDone_good (key : s.fuses.keyOk k.toNat pk = true) (signed : signatureOk pk sg (leBytes 64 (s.challenge s.fuses.uid)) = true) :
    ∃ t, exec .unlockVerifyDone s = .next t ∧ t.frz.unlocked = true ∧ t.frz.busy = false ∧ t.frz.verify = none ∧ t.frz.fails = s.frz.fails ∧
      s.keeps t.toDev [] := by
  refine ⟨s.withDev (s.modFrz (fun f => { f with busy := false, verify := none, unlocked := true })), ?_, rfl, rfl, rfl, rfl, (Dev.keeps_refl _ _).modFrz _⟩
  rw [exec_unlockVerifyDone, execUnlockVerifyDone, State.on_eq, Dev.verifyDone, checked]
  dsimp only
  rw [if_pos (by rw [key, signed]; rfl)]

theorem exec_unlockVerifyDone_bad (bad : s.fuses.keyOk k.toNat pk = false ∨ signatureOk pk sg (leBytes 64 (s.challenge s.fuses.uid)) = false) :
    ∃ t, exec .unlockVerifyDone s = .next t ∧ t.frz.unlocked = s.frz.unlocked ∧ t.frz.busy = false ∧ t.frz.fails = s.frz.fails + 1 ∧
      (t.frz.lockedOut = true ↔ 3 ≤ s.frz.fails + 1) ∧ s.keeps t.toDev [] := by
  refine ⟨s.withDev (s.modFrz (fun f => { f with busy := false, verify := none, fails := f.fails + 1, lockedOut := decide (3 ≤ f.fails + 1) })), ?_,
    rfl, rfl, rfl, decide_eq_true_iff, (Dev.keeps_refl _ _).modFrz _⟩
  rw [exec_unlockVerifyDone, execUnlockVerifyDone, State.on_eq, Dev.verifyDone, checked]
  dsimp only
  rw [if_neg (by rcases bad with bad | bad <;> simp [bad])]

end unlock

/-! ## Boundary scan and bypass -/

section boundary

variable {s : State}

theorem exec_extest_usable (l : List Bool) (low : s.pins.resetN = false) :
    ∃ t, exec (.extest l) s = .next t ∧ t.frz.extest = true ∧ t.frz.cells = l ∧ t.frz.dr.1 = l.length ∧ s.keeps t.toDev [] := by
  refine ⟨s.withDev ((s.jtag l.length (s.captureCells l.length)).draw.modFrz (fun f => { f with cells := l, extest := true })), ?_, rfl, rfl, rfl,
    (((Dev.keeps_refl _ _).jtag _ _).draw).modFrz _⟩
  rw [exec_extest, execExtest, State.on_eq, if_neg (by simp [low])]

theorem exec_extest_unusable (l : List Bool) (high : s.pins.resetN = true) :
    ∃ t, exec (.extest l) s = .next t ∧ t.frz.extest = false ∧ t.frz.dr = (l.length, 0) ∧ t.frz.cells = s.frz.cells ∧ s.keeps t.toDev [] := by
  refine ⟨s.withDev (s.jtag l.length 0), ?_, rfl, rfl, rfl, (Dev.keeps_refl _ _).jtag _ _⟩
  rw [exec_extest, execExtest, State.on_eq, if_pos high]

theorem exec_samplePreload_spec (l : List Bool) :
    ∃ t, exec (.samplePreload l) s = .next t ∧ t.frz.extest = false ∧ t.frz.cells = l ∧ t.frz.dr.1 = l.length ∧ s.keeps t.toDev [] :=
  ⟨s.withDev ((s.jtag l.length (s.captureCells l.length)).draw.modFrz (fun f => { f with cells := l })),
    by rw [exec_samplePreload, execSamplePreload, State.on_eq], rfl, rfl, rfl, (((Dev.keeps_refl _ _).jtag _ _).draw).modFrz _⟩

theorem exec_bypass_spec (b : Bool) :
    ∃ t, exec (.bypass b) s = .next t ∧ t.frz.bypass = b ∧ t.frz.dr = (1, s.frz.bypass.toNat) ∧ s.keeps t.toDev [] :=
  ⟨s.withDev ((s.jtag 1 s.frz.bypass.toNat).modFrz (fun f => { f with bypass := b })), by rw [exec_bypass, execBypass, State.on_eq], rfl, rfl,
    s.jtag_keeps _ _ _⟩

end boundary

/-- Settles O60: every instruction of the port changes its own state alone, and a freeze and a thaw start from what it leaves. -/
theorem freezeThawAndTestPort : Obligations.FreezeThawAndTestPort := by
  have shown : ∀ (d : Dev) (w x : Nat), d.keeps (d.jtag w x) [] := fun d w x => (Dev.keeps_refl d []).jtag w x
  refine ⟨⟨fun s run going powered alone => ⟨exec_freezeNFall_running run going powered alone, exec_jtagFreeze_running run going powered alone⟩,
      fun s frozen => ⟨exec_freezeNFall_frozen frozen, exec_jtagFreeze_frozen frozen, fun f => exec_jtagThaw_refused frozen, exec_jtagThaw_thaws frozen⟩,
      fun s f => exec_jtagThaw_running f, fun d k _ => Dev.thawMeridian_spec⟩,
    exec_jtagStatus_spec,
    fun s c readable => ⟨exec_scanSelect_home readable c, exec_scanSelect_away readable c, exec_scanRead_readable readable⟩,
    fun s a readable => ⟨exec_memSelect_readable readable a, exec_memRead_readable readable⟩,
    fun s closed => ⟨fun c => ⟨_, exec_scanSelect_closed closed c, rfl, rfl, shown _ _ _⟩, ⟨_, exec_scanRead_closed closed, rfl, rfl, shown _ _ _⟩,
      fun a => ⟨_, exec_memSelect_closed closed a, rfl, rfl, shown _ _ _⟩, ⟨_, exec_memRead_closed closed, rfl, rfl, shown _ _ _⟩⟩,
    fun s => ⟨fun frozen => ⟨_, exec_unlockChallenge_frozen frozen, rfl, shown _ _ _⟩,
      fun going => ⟨_, exec_unlockChallenge_running going, rfl, shown _ _ _⟩⟩,
    fun s k pk sg => ⟨exec_unlockResponse_taken, exec_unlockResponse_ignored, fun checked => ⟨exec_unlockVerifyDone_good checked, exec_unlockVerifyDone_bad checked⟩⟩,
    fun s l b => ⟨exec_extest_unusable l, exec_extest_usable l, exec_samplePreload_spec l, exec_bypass_spec b⟩⟩

end Sys2Proof.Machine
